-- ==== Sys2Proof/Word.lean ====
section
/-! DEFINITION. Words, bytes and sparse maps. -/

namespace Sys2Proof

/-- A CSR and a Bead register are 32 bits wide (R31, R110). -/
abbrev Word := BitVec 32

/-- The smallest addressable unit. -/
abbrev Byte := BitVec 8

/-- A sparse array: entries by key; a key with no entry holds the array's default. -/
abbrev KMap (α : Type) := List (Nat × α)

end Sys2Proof
end

