-- ==== Sys2Proof/Syntax.lean ====
section
/-! DEFINITION. The commands of the Jatan, one constructor per row of the table, and the
types of their operands. `src` is the master id (R137) that issues a request or writes a
register. -/

namespace Sys2Proof

/-- What ends the PCIe link session (R280). -/
inductive LinkReset where
  | flr | hotReset | linkLoss
  deriving DecidableEq, Repr

/-- What another chip answers to a remote load of a Bead (R114, R341): used only
when the address names another chip. -/
structure RemoteReply where
  st : BitVec 16
  data : Word
  poison : Bool
  deriving DecidableEq, Repr

/-- A logical engine that takes tasks (R165). -/
inductive Engine where
  | facet (f : Fin 32)
  | bead (n : Fin 4096)
  deriving DecidableEq, Repr

/-- A physical engine, spares included (R10, R266). -/
inductive PhysUnit where
  | facet (p : Fin 34)
  | bead (p : Fin 4160)
  deriving DecidableEq, Repr

/-- What the SECDED check of a word finds (R138, R162). -/
inductive EccFinding where
  | clean | corrected | uncorrected
  deriving DecidableEq, Repr

/-- What the ECC of a CSI-2 packet header finds (R193 check 1). -/
inductive HeaderEcc where
  | ok | corrected | bad
  deriving DecidableEq, Repr

/-- The sinc filter sums S of the four channels of an axis and the age of IA (R210, R211). -/
structure SdSums where
  ia : Nat
  ib : Nat
  ic : Nat
  vdc : Nat
  ageNs : Nat
  deriving DecidableEq, Repr

/-- A register write as its target meets it: the value, and the W1C bits that hardware sets in the same
clock (R33). -/
structure RegWrite where
  value : Word
  hw : Word := 0
  deriving DecidableEq, Repr

/-- The content of a CSI-2 short packet: virtual channel and data field, the frame number (R190, R193). -/
structure ShortPacket where
  vc : Fin 4
  num : BitVec 16
  deriving DecidableEq, Repr

/-- The data identifier of a CSI-2 packet: virtual channel and data type (R190). -/
structure DataId where
  vc : Fin 4
  dt : BitVec 6
  deriving DecidableEq, Repr

/-- Width and rate that a PCIe link has trained to, as PCI_LINK_STAT gives them (R26, R278). -/
structure PcieLink where
  width : BitVec 4
  rate : BitVec 4
  deriving DecidableEq, Repr

/-- What host software writes to configuration space and to the MSI-X table once the link is up: the two
base addresses, the payload size, MSI-X Enable, its Function Mask, the vectors it unmasks (R23, R278, R296). -/
structure PciCfg where
  bar0 : BitVec 64 := 0
  bar2 : BitVec 64 := 0
  maxPayload : Nat := 128
  msixOn : Bool := false
  maskAll : Bool := false
  unmasked : List Nat := []
  deriving DecidableEq, Repr

/-- The two power devices of a leg (R207). -/
inductive Device where
  | high | low
  deriving DecidableEq, Repr

/-- The two safe-torque-off paths, and the e-stop channel that acts on each (R231, R275). -/
inductive StoPath where
  | a | b
  deriving DecidableEq, Repr

/-- The firmware processors (R303). -/
inductive Proc where
  | scp | sfp | hip
  deriving DecidableEq, Repr

/-- Crash causes (R313). -/
inductive CrashCause where
  | wdog | ecc | fatal | lockstep
  deriving DecidableEq, Repr

/-- Where a command came from: entry `seq` of submission ring `r`, mailbox `m`, or a
register write by master `src` (R281, R298, SLE_CTL). -/
inductive Via where
  | ring (r : Fin 8192) (seq : Word)
  | mbx (m : Fin 16)
  | reg (src : Nat)
  deriving DecidableEq, Repr

/-- The PTP message types that a transparent clock corrects (R332), and the others. -/
inductive PtpType where
  | sync | delayReq | pdelayReq | pdelayResp | other
  deriving DecidableEq, Repr

/-- The transports of a PTP message (R331, R332). -/
inductive PtpTransport where
  | ethernet | udp4 | udp6
  deriving DecidableEq, Repr

/-- The PTP fields of a frame: domain number, type, transport, correctionField. -/
structure PtpInfo where
  domain : BitVec 7
  type : PtpType
  transport : PtpTransport
  correction : BitVec 64
  deriving DecidableEq, Repr

/-- An Ethernet frame as the switch sees it (R327, R328). `timeNs` is the time that the
whole frame takes on its egress port, and `fragNs` that of its smallest fragment; `body` is the data of
the UDP datagram, or of the frame where it carries none. -/
structure EthFrame where
  dst : BitVec 48
  src : BitVec 48
  vlan : Nat
  tc : Fin 8
  fcsOk : Bool
  udpPort : Option (BitVec 16)
  ptp : Option PtpInfo
  preemptable : Bool
  timeNs : Nat
  fragNs : Nat
  body : List Byte
  deriving DecidableEq, Repr

/-- How a CAN transmission ends (R335, R336). -/
inductive CanTxResult where
  | sent | lostArbitration | failed
  deriving DecidableEq, Repr

/-- A CAN frame (R336). -/
structure CanFrame where
  ide : Bool
  fdf : Bool
  brs : Bool
  esi : Bool
  rtr : Bool
  dlc : BitVec 4
  id : BitVec 29
  data : List Byte
  deriving DecidableEq, Repr

/-- What another chip of the topology reports when FN_START of PAIR checks it (R343). -/
structure PeerReport where
  id : BitVec 4
  mode : BitVec 2
  modelStopped : Bool
  axisRunning : Bool
  pulseOnTb7 : Bool
  deriving DecidableEq, Repr

/-- AVSBus readings of VDD_FAC, VDD_BEAD and VDD_SOC: mV and mA, or missing (R355). -/
structure AvsReadings where
  fac : Option (Nat × Nat)
  bead : Option (Nat × Nat)
  soc : Option (Nat × Nat)
  deriving DecidableEq, Repr

/-- The key slots that the debug port provisions and revokes (R382, R383). -/
inductive KeySlot where
  | pub (k : Fin 4)
  | aes (k : Fin 4)
  | dbg
  deriving DecidableEq, Repr

/-- A firmware image in flash: its 64-byte descriptor (R306), its bytes, its signature. -/
structure FwImage where
  desc : List Byte
  body : List Byte
  sigR : BitVec 384
  sigS : BitVec 384
  deriving DecidableEq, Repr

/-- One entry of the validated-set manifest (R307). -/
structure ManifestEntry where
  vers : List Word
  digests : List (BitVec 384)
  deriving DecidableEq, Repr

/-- One xSPI flash slot (R307, R384): the carried public key, three images in the order
Indigo, Madder, Woad, and the manifest. `raw` is the manifest's signed bytes. -/
structure FlashSlot where
  keyX : BitVec 384
  keyY : BitVec 384
  images : List FwImage
  entries : List ManifestEntry
  raw : List Byte
  sigR : BitVec 384
  sigS : BitVec 384
  deriving DecidableEq, Repr

/-- The boundary-scan instructions that R389 restricts. -/
inductive ScanInstr where
  | extest | intest | clamp | highz
  deriving DecidableEq, Repr

/-- What the debug port can halt (R391). -/
inductive DebugTarget where
  | proc (p : Proc)
  | bead (n : Fin 4096)
  deriving DecidableEq, Repr

/-- The commands, one for each row of the table; those without operands stand last, where compiled
code needs no object for them. -/
inductive Instr where
  /-- `CSR_WRITE` (R32). -/
  | csrWrite (src off : Nat) (be : BitVec 4) (v : RegWrite)
  /-- `RC_REGISTER_READ` (R33). -/
  | rcRegisterRead (src off upd : Nat)
  /-- `MESH_READ` (R136). -/
  | meshRead (src : Nat) (addr : BitVec 64) (len : Nat)
  /-- `MESH_WRITE` (R136). -/
  | meshWrite (src : Nat) (addr : BitVec 64) (data : List Byte) (win epoch : BitVec 16)
  /-- `SET_ALIAS_WRITE` (R139). -/
  | setAliasWrite (src ofs : Nat) (data : List Byte)
  /-- `CLEAR_ALIAS_WRITE` (R139). -/
  | clearAliasWrite (src ofs : Nat) (data : List Byte)
  /-- `MESH_CMPSET` (R127). -/
  | meshCmpset (src : Nat) (addr : BitVec 64) (cmp new : Word)
  /-- `MESH_COUNT` (R127). -/
  | meshCount (src : Nat) (addr : BitVec 64) (inc : Word)
  /-- `HOST_BAR2_READ` (R25). -/
  | hostBar2Read (off len : Nat)
  /-- `HOST_BAR2_WRITE` (R25). -/
  | hostBar2Write (off : Nat) (data : List Byte)
  /-- `PCI_BAR2_BASE_HI_WRITE` (R24). -/
  | pciBar2BaseHiWrite (src : Nat) (v : Word)
  /-- `PCIE_LINK_RESET` (R280). -/
  | pcieLinkReset (kind : LinkReset)
  /-- `SUBMIT_DESCRIPTOR` (R86). -/
  | submitDescriptor (src : Nat) (f : Fin 32) (hi : Word)
  /-- `DESCRIPTOR_FETCH` (R86). -/
  | descriptorFetch (f : Fin 32)
  /-- `MATMUL` (R65). -/
  | matmul (f : Fin 32)
  /-- `CONV` (R69). -/
  | conv (f : Fin 32)
  /-- `POOL` (R71). -/
  | pool (f : Fin 32)
  /-- `ATTN` (R90). -/
  | attn (f : Fin 32)
  /-- `WCOMBINE` (R425). -/
  | wcombine (f : Fin 32)
  /-- `FACET_COMMAND_COMPLETE` (R86). -/
  | facetCommandComplete (f : Fin 32)
  /-- `PREEMPT` (R83). -/
  | preempt (src : Nat) (f : Fin 32)
  /-- `K_SEGMENT_END` (R82). -/
  | kSegmentEnd (f : Fin 32) (blocks : Nat)
  /-- `PREEMPT_SAVE_COMPLETE` (R83). -/
  | preemptSaveComplete (f : Fin 32)
  /-- `FAC_URGENT` (R84). -/
  | facUrgent (src : Nat) (f : Fin 32) (hi : Word)
  /-- `FACET_RESUME` (R84). -/
  | facetResume (src : Nat) (f : Fin 32)
  /-- `FACET_CONTEXT_RESTORED` (R84). -/
  | facetContextRestored (f : Fin 32)
  /-- `FACET_ABORT` (R84). -/
  | facetAbort (src : Nat) (f : Fin 32)
  /-- `BEAD_BASE_INSTRUCTION` (R110). -/
  | beadBaseInstruction (n : Fin 4096)
  /-- `VADD` (R117). -/
  | vadd (n : Fin 4096) (ty : BitVec 2) (rd rs1 rs2 : BitVec 5)
  /-- `VSUB` (R117). -/
  | vsub (n : Fin 4096) (ty : BitVec 2) (rd rs1 rs2 : BitVec 5)
  /-- `VMUL` (R117). -/
  | vmul (n : Fin 4096) (ty : BitVec 2) (rd rs1 rs2 : BitVec 5)
  /-- `VMAC` (R117). -/
  | vmac (n : Fin 4096) (ty : BitVec 2) (rd rs1 rs2 : BitVec 5)
  /-- `VMAX` (R117). -/
  | vmax (n : Fin 4096) (ty : BitVec 2) (rd rs1 rs2 : BitVec 5)
  /-- `VMIN` (R117). -/
  | vmin (n : Fin 4096) (ty : BitVec 2) (rd rs1 rs2 : BitVec 5)
  /-- `VCVT` (R117). -/
  | vcvt (n : Fin 4096) (ty : BitVec 2) (rd rs1 rs2 : BitVec 5)
  /-- `VSPLAT` (R116). -/
  | vsplat (n : Fin 4096) (ty : BitVec 2) (rd rs1 rs2 : BitVec 5)
  /-- `VEXT` (R116). -/
  | vext (n : Fin 4096) (ty : BitVec 2) (rd rs1 rs2 : BitVec 5)
  /-- `WCLR` (R120). -/
  | wclr (n : Fin 4096) (ty : BitVec 2) (rd rs1 rs2 : BitVec 5)
  /-- `WDOT` (R121). -/
  | wdot (n : Fin 4096) (ty : BitVec 2) (rd rs1 rs2 : BitVec 5)
  /-- `WSUM` (R121). -/
  | wsum (n : Fin 4096) (ty : BitVec 2) (rd rs1 rs2 : BitVec 5)
  /-- `WADD` (R122). -/
  | wadd (n : Fin 4096) (ty : BitVec 2) (rd rs1 rs2 : BitVec 5)
  /-- `WRND` (R122). -/
  | wrnd (n : Fin 4096) (ty : BitVec 2) (rd rs1 rs2 : BitVec 5)
  /-- `WLD` (R118). -/
  | wld (n : Fin 4096) (ty : BitVec 2) (rd rs1 rs2 : BitVec 5)
  /-- `WST` (R118). -/
  | wst (n : Fin 4096) (ty : BitVec 2) (rd rs1 rs2 : BitVec 5)
  /-- `VLD` (R118). -/
  | vld (n : Fin 4096) (ty : BitVec 2) (rd rs1 rs2 : BitVec 5)
  /-- `VST` (R118). -/
  | vst (n : Fin 4096) (ty : BitVec 2) (rd rs1 rs2 : BitVec 5)
  /-- `VGATHER` (R118). -/
  | vgather (n : Fin 4096) (ty : BitVec 2) (rd rs1 rs2 : BitVec 5)
  /-- `VSCATTER` (R118). -/
  | vscatter (n : Fin 4096) (ty : BitVec 2) (rd rs1 rs2 : BitVec 5)
  /-- `CMPSET` (R127). -/
  | cmpset (n : Fin 4096) (ty : BitVec 2) (rd rs1 rs2 : BitVec 5)
  /-- `COUNT` (R127). -/
  | count (n : Fin 4096) (ty : BitVec 2) (rd rs1 rs2 : BitVec 5)
  /-- `YIELD` (R129). -/
  | yield (n : Fin 4096) (ty : BitVec 2) (rd rs1 rs2 : BitVec 5)
  /-- `BEAD_PARKED` (R129). -/
  | beadParked (n : Fin 4096)
  /-- `REMOTE_LOAD_RESPONSE` (R114). -/
  | remoteLoadResponse (n : Fin 4096) (ext : RemoteReply)
  /-- `REMOTE_STORE_ACK` (R114). -/
  | remoteStoreAck (n : Fin 4096)
  /-- `BEAD_START` (R133). -/
  | beadStart (src : Nat) (n : Fin 4096)
  /-- `BEAD_STOP` (R133). -/
  | beadStop (src : Nat) (n : Fin 4096)
  /-- `YIELD_REQ` (R129). -/
  | yieldReq (src : Nat) (n : Fin 4096)
  /-- `BEAD_RESUME` (R129). -/
  | beadResume (src : Nat) (n : Fin 4096)
  /-- `YIELD_LIMIT_EXPIRED` (R130). -/
  | yieldLimitExpired (n : Fin 4096)
  /-- `MOVER_GO` (R131). -/
  | moverGo (src : Nat) (n : Fin 4096) (v : Word)
  /-- `MOVER_TRANSFER_END` (R132). -/
  | moverTransferEnd (n : Fin 4096)
  /-- `BANK_REQ_ON` (R143). -/
  | bankReqOn (src : Nat) (b : Fin 256)
  /-- `BANK_REQ_RETENTION` (R143). -/
  | bankReqRetention (src : Nat) (b : Fin 256)
  /-- `BANK_REQ_OFF` (R143). -/
  | bankReqOff (src : Nat) (b : Fin 256)
  /-- `BANK_DRAINED` (R141). -/
  | bankDrained (b : Fin 256)
  /-- `BANK_DRAIN_TIMEOUT` (R141). -/
  | bankDrainTimeout (b : Fin 256)
  /-- `BANK_TRANSITION_COMPLETE` (R140). -/
  | bankTransitionComplete (b : Fin 256)
  /-- `PATROL_SCRUB` (R138). -/
  | patrolScrub (b : Fin 256) (word : Fin 65536) (found : EccFinding)
  /-- `SO_ADD` (R146). -/
  | soAdd (src : Nat) (n : Fin 16384) (v : Word)
  /-- `SO_SET` (R146). -/
  | soSet (src : Nat) (n : Fin 16384) (v : Word)
  /-- `SO_READ` (R146). -/
  | soRead (src : Nat) (n : Fin 16384)
  /-- `SO_WAIT` (R148). -/
  | soWait (src : Nat) (n : Fin 16384) (req : Option (Word × BitVec 16))
  /-- `SO_WAIT_ARM` (R147). -/
  | soWaitArm (src : Nat) (n : Fin 16384) (target : Word)
  /-- `SO_WAIT_TIMEOUT` (R148). -/
  | soWaitTimeout (src : Nat)
  /-- `WINDOW_OPEN_REQUEST` (R152). -/
  | windowOpenRequest (src : Nat) (w : Fin 4096) (v : Word)
  /-- `WINDOW_CLOSE` (R152). -/
  | windowClose (src : Nat) (w : Fin 4096) (v : Word)
  /-- `WINDOW_CLOSE_DRAINED` (R152). -/
  | windowCloseDrained (w : Fin 4096)
  /-- `ARB_CLASS_WRITE` (R154). -/
  | arbClassWrite (src : Nat) (k : Fin 260) (v : Word)
  /-- `CLASP_OPEN` (R155). -/
  | claspOpen (src : Nat) (addr : BitVec 64) (beats : Nat)
  /-- `CLASP_TIMEOUT` (R155). -/
  | claspTimeout (src : Nat)
  /-- `PKG_LOAD` (R166). -/
  | pkgLoad (via : Via)
  /-- `PKG_ACTIVATE` (R188). -/
  | pkgActivate (via : Via)
  /-- `FN_STOP_MODEL` (R187). -/
  | fnStopModel (via : Via)
  /-- `FN_CONFIG_MODEL` (R286). -/
  | fnConfigModel (via : Via)
  /-- `FN_START_MODEL` (R187). -/
  | fnStartModel (via : Via)
  /-- `WINDOW_INSTANCE_OPEN` (R173). -/
  | windowInstanceOpen (w : Fin 64)
  /-- `WINDOW_DEADLINE` (R174). -/
  | windowDeadline (w : Fin 64) (cyc : Word)
  /-- `TASK_DISPATCH` (R174). -/
  | taskDispatch (w : Fin 64) (cyc : Word) (t : Nat)
  /-- `SHARE_DISPATCH` (R179). -/
  | shareDispatch (e : Engine)
  /-- `TASK_COMPLETE` (R431). -/
  | taskComplete (w : Fin 64) (cyc : Word) (t : Nat)
  /-- `PREEMPT_FOR_WINDOW` (R176). -/
  | preemptForWindow (w : Fin 64)
  /-- `YIELD_FOR_WINDOW` (R177). -/
  | yieldForWindow (w : Fin 64)
  /-- `CSI2_FRAME_START` (R193). -/
  | csi2FrameStart (c : Fin 4) (hdr : HeaderEcc) (pkt : ShortPacket)
  /-- `CSI2_LINE` (R193). -/
  | csi2Line (c : Fin 4) (hdr : HeaderEcc) (id : DataId) (crcOk : Bool) (data : List Byte)
  /-- `CSI2_FRAME_END` (R193). -/
  | csi2FrameEnd (c : Fin 4) (hdr : HeaderEcc) (pkt : ShortPacket)
  /-- `CSI2_PACKET_DISCARD` (R190). -/
  | csi2PacketDiscard (c : Fin 4)
  /-- `FRAME_TIMEOUT` (R192). -/
  | frameTimeout (c : Fin 4)
  /-- `JXS_RTP_PACKET` (R191). -/
  | jxsRtpPacket (port : BitVec 16) (seq : BitVec 16) (data : List Byte) (marker : Bool)
  /-- `JXS_DECODE_COMPLETE` (R201). -/
  | jxsDecodeComplete (c : Fin 4)
  /-- `DATA_PUT_CAM` (R195). -/
  | dataPutCam (c : Fin 4) (via : Via)
  /-- `DATA_GET_CAM` (R288). -/
  | dataGetCam (c : Fin 4) (via : Via)
  /-- `CUT_TASK` (R201). -/
  | cutTask (c : Fin 4)
  /-- `CUT_TASK_COMPLETE` (R201). -/
  | cutTaskComplete (c : Fin 4)
  /-- `DEFERRED_BATCH_CUT` (R203). -/
  | deferredBatchCut (c : Fin 4)
  /-- `FN_CONFIG_CAM` (R205). -/
  | fnConfigCam (c : Fin 4) (via : Via)
  /-- `FN_START_CAM` (R205). -/
  | fnStartCam (c : Fin 4) (via : Via)
  /-- `FN_STOP_CAM` (R205). -/
  | fnStopCam (c : Fin 4) (via : Via)
  /-- `FN_CONFIG_AXIS` (R208). -/
  | fnConfigAxis (a : Fin 16) (via : Via)
  /-- `FN_START_AXIS` (R208). -/
  | fnStartAxis (a : Fin 16) (via : Via)
  /-- `FN_STOP_AXIS` (R208). -/
  | fnStopAxis (a : Fin 16) (via : Via)
  /-- `SD_CLK_FAULT` (R209). -/
  | sdClkFault (a : Fin 16) (khz : Nat)
  /-- `OC_TRIP` (R212). -/
  | ocTrip (a : Fin 16) (ch : Fin 3) (sum : Nat)
  /-- `LOOP_BOUNDARY` (R223). -/
  | loopBoundary (a : Fin 16) (sd : SdSums) (highClks : Nat)
  /-- `SSI_READ_COMPLETE` (R214). -/
  | ssiReadComplete (a : Fin 16) (raw : BitVec 40) (err : BitVec 4) (par : Bool)
  /-- `ABZ_TRANSITION` (R215). -/
  | abzTransition (a : Fin 16) (la lb : Bool)
  /-- `ABZ_Z_EDGE` (R215). -/
  | abzZEdge (a : Fin 16)
  /-- `CURRENT_LOOP_COMPUTE` (R218). -/
  | currentLoopCompute (a : Fin 16)
  /-- `COMMANDED_GATE_EDGE` (R221). -/
  | commandedGateEdge (a : Fin 16) (j : Fin 3) (dev : Device) (on : Bool) (k : Nat)
  /-- `SETPOINT_COMMIT` (R226). -/
  | setpointCommit (src : Nat) (a : Fin 16) (v : Word)
  /-- `SETPOINT_TIMEOUT` (R227). -/
  | setpointTimeout (a : Fin 16)
  /-- `FOLLOWING_ERROR_LIMIT` (R228). -/
  | followingErrorLimit (a : Fin 16)
  /-- `SS1` (R229). -/
  | ss1 (src : Nat) (a : Fin 16)
  /-- `STO` (R230). -/
  | sto (src : Nat) (a : Fin 16)
  /-- `STOP_TIME_EXPIRED` (R229). -/
  | stopTimeExpired (a : Fin 16)
  /-- `STO_PATH_ASSERT` (R231). -/
  | stoPathAssert (p : StoPath)
  /-- `STO_PATH_RELEASE` (R231). -/
  | stoPathRelease (p : StoPath)
  /-- `FN_CONFIG_HEALTH` (R233). -/
  | fnConfigHealth (via : Via)
  /-- `FN_START_HEALTH` (R233). -/
  | fnStartHealth (via : Via)
  /-- `FN_STOP_HEALTH` (R233). -/
  | fnStopHealth (via : Via)
  /-- `FEEDBACK_EDGE` (R235). -/
  | feedbackEdge (m : Fin 96) (rising : Bool) (t : Nat)
  /-- `EDGE_WINDOW_CLOSE` (R234). -/
  | edgeWindowClose (m : Fin 96)
  /-- `TDC_CAL_EXCHANGE` (R237). -/
  | tdcCalExchange (m : Fin 96)
  /-- `TDC_CAL_COMPLETE` (R238). -/
  | tdcCalComplete (m : Fin 96) (ok : Bool)
  /-- `GTL_TRIGGER` (R239). -/
  | gtlTrigger (l : Fin 48) (dev : Device)
  /-- `GTL_FRAME` (R241). -/
  | gtlFrame (l : Fin 48) (bits : BitVec 64) (codingOk : Bool)
  /-- `GTL_LINK_TIMEOUT` (R241). -/
  | gtlLinkTimeout (l : Fin 48)
  /-- `HLT_BIND_WRITE` (R244). -/
  | hltBindWrite (src : Nat) (l : Fin 48) (v : Word)
  /-- `BINDING_APPLIED` (R244). -/
  | bindingApplied (l : Fin 48)
  /-- `HLT_COMMIT` (R248). -/
  | hltCommit (src : Nat) (l : Fin 48) (v : Word)
  /-- `RESULT_TIMEOUT` (R249). -/
  | resultTimeout (l : Fin 48)
  /-- `HALLMARK_VERDICT` (R258). -/
  | hallmarkVerdict (net : Fin 64)
  /-- `TRIAGE_DISPATCH` (R260). -/
  | triageDispatch (net : Fin 64)
  /-- `TRIAGE_COMPARE` (R261). -/
  | triageCompare (net : Fin 64)
  /-- `FAULT_LOCALISATION` (R261). -/
  | faultLocalisation (net : Fin 64)
  /-- `AGM_LIMIT_EXPIRED` (R264). -/
  | agmLimitExpired (e : Fin 256)
  /-- `SELFTEST_PART_START` (R266). -/
  | selftestPartStart (u : PhysUnit)
  /-- `SELFTEST_PART_COMPLETE` (R267). -/
  | selftestPartComplete (u : PhysUnit) (pass : Bool)
  /-- `SELFTEST_DEFERRED` (R267). -/
  | selftestDeferred (u : PhysUnit)
  /-- `SELFTEST_LATE` (R267). -/
  | selftestLate (u : PhysUnit)
  /-- `HMK_TEST` (R267). -/
  | hmkTest (unequal equal : Bool)
  /-- `SAF_WDOG` (R312). -/
  | safWdog (src : Nat) (v : Word)
  /-- `SFP_LOCKSTEP` (R268). -/
  | sfpLockstep (ecc : Bool)
  /-- `SAFE_ACK` (R271). -/
  | safeAck (lowUs : Nat)
  /-- `ACK_MESSAGE` (R272). -/
  | ackMessage (ch id : Nat) (data : List Byte)
  /-- `MADDER_RESTART_COMPLETE` (R273). -/
  | madderRestartComplete (ok : Bool)
  /-- `START_CHECKS_COMPLETE` (R274). -/
  | startChecksComplete (ok : Bool)
  /-- `ESTOP_INPUT_CHANGE` (R275). -/
  | estopInputChange (p : StoPath) (level : Bool)
  /-- `STO_FB` (R268). -/
  | stoFb (p : StoPath) (level other : Bool)
  /-- `RING_DOORBELL` (R293). -/
  | ringDoorbell (src : Nat) (r : Fin 8192) (pi : Word)
  /-- `COMMAND_FETCH` (R294). -/
  | commandFetch (r : Fin 8192)
  /-- `MSIX_COALESCE_EXPIRED` (R296). -/
  | msixCoalesceExpired (r : Fin 8192)
  /-- `RING_ENABLE` (R292). -/
  | ringEnable (src : Nat) (r : Fin 8192) (v : Word)
  /-- `RING_DISABLE` (R292). -/
  | ringDisable (src : Nat) (r : Fin 8192) (v : Word)
  /-- `RING_DRAINED` (R292). -/
  | ringDrained (r : Fin 8192)
  /-- `MAILBOX_GO` (R298). -/
  | mailboxGo (src : Nat) (m : Fin 16) (v : Word)
  /-- `DATA_PUT_MODEL` (R287). -/
  | dataPutModel (via : Via)
  /-- `DATA_GET_MODEL` (R288). -/
  | dataGetModel (via : Via)
  /-- `SETTINGS_STORE` (R376). -/
  | settingsStore (via : Via)
  /-- `TELEMETRY` (R285). -/
  | telemetry (via : Via)
  /-- `HOST_HEARTBEAT` (R301). -/
  | hostHeartbeat (via : Via)
  /-- `MBX_HB` (R301). -/
  | mbxHb (src : Nat) (v : Word)
  /-- `ATTACH` (R300). -/
  | attach (via : Via)
  /-- `IFACE_QUERY` (R285). -/
  | ifaceQuery (via : Via)
  /-- `WATCHDOG_KICK` (R312). -/
  | watchdogKick (src : Nat) (p : Proc) (v : Word)
  /-- `WATCHDOG_EXPIRED` (R312). -/
  | watchdogExpired (p : Proc)
  /-- `PROCESSOR_CRASH` (R313). -/
  | processorCrash (p : Proc) (cause : CrashCause)
  /-- `PROCESSOR_RESTART_COMPLETE` (R313). -/
  | processorRestartComplete (p : Proc)
  /-- `TB_STEP` (R321). -/
  | tbStep (src : Nat) (n : Fin 8) (hi : Word)
  /-- `TB_RATE_WRITE` (R322). -/
  | tbRateWrite (src : Nat) (n : Fin 8) (v : Word)
  /-- `TIM_SNAP` (R320). -/
  | timSnap (src : Nat)
  /-- `PULSE_ARM` (R324). -/
  | pulseArm (src : Nat) (p : Fin 8) (v : Word)
  /-- `PULSE_INSTANT` (R324). -/
  | pulseInstant (p : Fin 8)
  /-- `PULSE_END` (R323). -/
  | pulseEnd (p : Fin 8)
  /-- `CAPTURE_EDGE` (R325). -/
  | captureEdge (c : Fin 4) (rising : Bool)
  /-- `CAPTURE_POP` (R326). -/
  | capturePop (src : Nat) (c : Fin 4)
  /-- `FN_CONFIG_TIME` (R339). -/
  | fnConfigTime (via : Via)
  /-- `FN_START_TIME` (R339). -/
  | fnStartTime (via : Via)
  /-- `FN_STOP_TIME` (R339). -/
  | fnStopTime (via : Via)
  /-- `ETH_FRAME_RECEIVED` (R328). -/
  | ethFrameReceived (p : Fin 7) (fr : EthFrame) (verdict : Option (Fin 8))
  /-- `ETH_FRAME_TRANSMIT` (R330). -/
  | ethFrameTransmit (p : Fin 7) (tc : Fin 8)
  /-- `GATE_CONTROL_ENTRY` (R330). -/
  | gateControlEntry (p : Fin 7)
  /-- `GCL_CONFIG_CHANGE` (R330). -/
  | gclConfigChange (p : Fin 7)
  /-- `FN_CONFIG_ETH` (R339). -/
  | fnConfigEth (via : Via)
  /-- `FN_START_ETH` (R339). -/
  | fnStartEth (via : Via)
  /-- `FN_STOP_ETH` (R339). -/
  | fnStopEth (via : Via)
  /-- `CAN_TXREQ` (R335). -/
  | canTxreq (src : Nat) (n : Fin 8) (v : Word)
  /-- `CAN_TXABORT` (R335). -/
  | canTxabort (src : Nat) (n : Fin 8) (v : Word)
  /-- `CAN_FRAME_START` (R335). -/
  | canFrameStart (n : Fin 8)
  /-- `CAN_FRAME_TRANSMITTED` (R336). -/
  | canFrameTransmitted (n : Fin 8) (res : CanTxResult)
  /-- `CAN_FRAME_RECEIVED` (R336). -/
  | canFrameReceived (n : Fin 8) (fr : CanFrame)
  /-- `CAN_BUS_OFF` (R337). -/
  | canBusOff (n : Fin 8)
  /-- `CAN_BUS_OFF_RECOVERY` (R337). -/
  | canBusOffRecovery (n : Fin 8)
  /-- `RECOVER` (R337). -/
  | recover (src : Nat) (n : Fin 8)
  /-- `REFERENCE_MESSAGE` (R338). -/
  | referenceMessage (n : Fin 2)
  /-- `TTC_LOST` (R338). -/
  | ttcLost (n : Fin 2)
  /-- `FN_CONFIG_CAN` (R339). -/
  | fnConfigCan (n : Fin 8) (via : Via)
  /-- `FN_START_CAN` (R339). -/
  | fnStartCan (n : Fin 8) (via : Via)
  /-- `FN_STOP_CAN` (R339). -/
  | fnStopCan (n : Fin 8) (via : Via)
  /-- `FN_CONFIG_PAIR` (R286). -/
  | fnConfigPair (via : Via)
  /-- `FN_START_PAIR` (R343). -/
  | fnStartPair (via : Via) (peers : List PeerReport)
  /-- `FN_STOP_PAIR` (R343). -/
  | fnStopPair (via : Via)
  /-- `PAIR_LINK_TRAINED` (R340). -/
  | pairLinkTrained (ports : BitVec 2)
  /-- `PLK_FLIT` (R340). -/
  | plkFlit (k : Fin 2) (crcOk : Bool)
  /-- `LANE_LOCK_LOSS` (R340). -/
  | laneLockLoss (k : Fin 2)
  /-- `CYCLE_HEARTBEAT_RECEIVED` (R345). -/
  | cycleHeartbeatReceived (chip : Fin 16) (cyc : Word)
  /-- `CROSS_CHECK_RECORD` (R348). -/
  | crossCheckRecord (net : Fin 64) (cyc : Word) (sig : BitVec 64)
  /-- `POWER_INTERVAL` (R356). -/
  | powerInterval (avs : AvsReadings)
  /-- `PMBUS_POLL` (R355). -/
  | pmbusPoll (rails : List (Nat × Nat))
  /-- `TEMP_SAMPLE` (R361). -/
  | tempSample (sensor : Fin 56) (temp : Int)
  /-- `SUPPLY_FAULT` (R361). -/
  | supplyFault (rail : Fin 9)
  /-- `DROOP` (R361). -/
  | droop (d : Fin 50)
  /-- `DROOP_STRETCH_END` (R361). -/
  | droopStretchEnd (d : Fin 50)
  /-- `VOLTAGE_CONFIRMED` (R353). -/
  | voltageConfirmed (d : Fin 50)
  /-- `PWR_DOM_CTL_WRITE` (R354). -/
  | pwrDomCtlWrite (src : Nat) (d : Fin 50) (v : Word)
  /-- `DOMAIN_ON_COMPLETE` (R354). -/
  | domainOnComplete (d : Fin 50)
  /-- `FN_CONFIG_POWER` (R364). -/
  | fnConfigPower (via : Via)
  /-- `FN_START_POWER` (R364). -/
  | fnStartPower (via : Via)
  /-- `FN_STOP_POWER` (R364). -/
  | fnStopPower (via : Via)
  /-- `COLD_RESET_RELEASE` (R368). -/
  | coldResetRelease (straps : BitVec 4)
  /-- `WARM_RESET` (R365). -/
  | warmReset (lowNs : Nat)
  /-- `DEVICE_RESET` (R367). -/
  | deviceReset (src : Nat) (v : Word)
  /-- `LP_REQ_ACTIVE` (R370). -/
  | lpReqActive (src : Nat) (v : Word)
  /-- `LP_REQ_LIGHT` (R370). -/
  | lpReqLight (src : Nat) (v : Word)
  /-- `LP_REQ_STANDBY` (R370). -/
  | lpReqStandby (src : Nat) (v : Word)
  /-- `LP_REQ_HIBERNATE` (R370). -/
  | lpReqHibernate (src : Nat) (v : Word)
  /-- `WAKE_N` (R370). -/
  | wakeN (lowNs : Nat)
  /-- `AUTH_RESPONSE` (R390). -/
  | authResponse (perm : Word) (r s : BitVec 384)
  /-- `LIFECYCLE_REQUEST` (R381). -/
  | lifecycleRequest (target : BitVec 4)
  /-- `KEY_PROVISION` (R383). -/
  | keyProvision (slot : KeySlot) (x y : BitVec 384)
  /-- `KEY_REVOKE` (R383). -/
  | keyRevoke (slot : KeySlot)
  /-- `XSPI_ACCESS` (R384). -/
  | xspiAccess (slotB : Bool) (content : FlashSlot)
  /-- `MAC_ADDRESS_AGEING` (R328). -/
  | macAddressAgeing (mac : BitVec 48)
  /-- `SEC_POLICY_WRITE` (R388). -/
  | secPolicyWrite (v : Word)
  /-- `PCIE_LINK_UP` (R368). -/
  | pcieLinkUp (link : PcieLink) (cfg : PciCfg)
  /-- `DEBUG_HALT` (R391). -/
  | debugHalt (t : DebugTarget)
  /-- `BREAKPOINT_HIT` (R391). -/
  | breakpointHit (t : DebugTarget) (k : Fin 6)
  /-- `DEBUG_STEP` (R391). -/
  | debugStep (t : DebugTarget)
  /-- `DEBUG_RESUME` (R391). -/
  | debugResume (t : DebugTarget)
  /-- `DEBUG_MEMORY_ACCESS` (R392). -/
  | debugMemoryAccess (addr : BitVec 64) (len : Nat) (data : Option (List Byte))
  /-- `BOUNDARY_SCAN` (R389). -/
  | boundaryScan (i : ScanInstr)
  /-- `LPDDR5X_PATROL_SCRUB` (R162). -/
  | lpddr5xPatrolScrub (word : Nat) (found : EccFinding) (endOfPass : Bool)
  /-- `TDC_CALIBRATION_EXPIRED` (R238). -/
  | tdcCalibrationExpired (m : Fin 96)
  /-- `PAIR_EQUALISATION` (R347). -/
  | pairEqualisation (d : Fin 50) (op : Option (Fin 8))
  /-- `CYCLE_BOUNDARY` (R172). -/
  | cycleBoundary
  /-- `JXS_DECODE_START` (R191). -/
  | jxsDecodeStart
  /-- `SS1_TIMER_EXPIRED` (R269). -/
  | ss1TimerExpired
  /-- `SFP_WD` (R268). -/
  | sfpWd
  /-- `SAFETY_MESSAGE` (R270). -/
  | safetyMessage
  /-- `ESTOP_DISC` (R268). -/
  | estopDisc
  /-- `SETTINGS_COMMIT` (R376). -/
  | settingsCommit
  /-- `HOST_LOSS` (R301). -/
  | hostLoss
  /-- `CYCLE_HEARTBEAT_SEND` (R345). -/
  | cycleHeartbeatSend
  /-- `PAIR_HEARTBEAT_TIMEOUT` (R346). -/
  | pairHeartbeatTimeout
  /-- `PARTNER_SAFE_STATE` (R348). -/
  | partnerSafeState
  /-- `SHUTDOWN_POWER_OFF` (R361). -/
  | shutdownPowerOff
  /-- `COLD_RESET` (R365). -/
  | coldReset
  /-- `FIRMWARE_SET_LOAD` (R308). -/
  | firmwareSetLoad
  /-- `LPDDR5X_TRAINED` (R161). -/
  | lpddr5xTrained
  /-- `BOOT_READY` (R368). -/
  | bootReady
  /-- `LP_ENTRY_COMPLETE` (R371). -/
  | lpEntryComplete
  /-- `LP_EXIT_COMPLETE` (R371). -/
  | lpExitComplete
  /-- `WAKE_TIME` (R370). -/
  | wakeTime
  /-- `DEBUG_RESET` (R393). -/
  | debugReset
  /-- `DBG_CHAL_READ` (R390). -/
  | dbgChalRead
  /-- `CHALLENGE_EXPIRED` (R390). -/
  | challengeExpired
  /-- `LOCKOUT_END` (R390). -/
  | lockoutEnd
  /-- `WARM_RESET_RELEASE` (R368). -/
  | warmResetRelease
  deriving DecidableEq, Repr

end Sys2Proof
end

