-- ==== Sys2Proof/Decode.lean ====
section
/-! DEFINITION. Reading commands from words. The table gives no row any bits, so no word
spells a command. -/

namespace Sys2Proof

/-- The command that a word of `nbits` bits spells by the table's bits: none. -/
def decodeTableWord (_nbits _w : Nat) : Option Instr := none

end Sys2Proof
end

