-- ==== Sys2Proof/Config.lean ====
section
/-! DEFINITION. What a part or the spec leaves open: opaque constants. No proof can see their
values, so a theorem holds for every value. Each has an entry in the assumption log. -/

namespace Sys2Proof.Config

/-- R2: the part is of grade XT rather than IN. -/
opaque gradeXT : Bool

/-- R10, R427: the floor plan, the same on every B0 part, as the exchanges that lead to it from the
plain order of the 4,608 unit positions. -/
opaque floorPlan : List (Nat × Nat)

/-- R10, R427: where unit position `u` stands in the 64 × 72 mesh: 64 × row + column. Bead node `p`
is unit position `p`; no two units stand at one place. -/
def meshPlace (u : Nat) : Nat :=
  floorPlan.foldl (fun q x =>
    if q = x.1 % 4608 then x.2 % 4608 else if q = x.2 % 4608 then x.1 % 4608 else q) (u % 4608)

/-- R427: mesh column of physical Bead node `p`, 0–63. -/
def meshX (p : Nat) : Nat := meshPlace p % 64

/-- R427: mesh row of physical Bead node `p`, 0–71. -/
def meshY (p : Nat) : Nat := meshPlace p / 64

/-- R382: word `i` of DEV_UID, from fuses. -/
opaque devUid (i : Nat) : BitVec 32

/-- R298: mailbox word `i`, undefined until written. -/
opaque mailboxWord (i : Nat) : BitVec 32

/-- R373: a byte whose contents are open until it is written; `gen` counts the losses. -/
opaque freeByte (gen addr : Nat) : BitVec 8

/-- A value the spec leaves open, by the machine's counter of such values. -/
opaque freeWord (n : Nat) : BitVec 32

/-- R383: challenge number `n` of the random generator. -/
opaque challenge (n : Nat) : BitVec 256

/-- R329: which of TB1–TB4 and TB7 times the gate control list of switch port `p` (0–4). -/
opaque gateBase (p : Nat) : Nat

/-- R329: AdminBaseTime of switch port `p`, in ns of its base. -/
opaque adminBaseTime (p : Nat) : Nat

/-- R327: the device's MAC address. -/
opaque macAddress : BitVec 48

/-- R270: destination address, VLAN and traffic class of the safety message's datagram, and the time that it
takes on a port. -/
opaque safetyMac : BitVec 48
opaque safetyVlan : Nat
opaque safetyClass : Fin 8
opaque safetyNs : Nat

/-- R194, R197: stream `c` of JXS or REPLAY frames has three components rather than one. -/
opaque threeComponents (c : Nat) : Bool

/-- R190: pixel `i` of a line that scheme `scheme` (1–7) with predictor `pred` compressed. -/
opaque decompressed (scheme pred : Nat) (line : List (BitVec 8)) (i : Nat) : Nat

/-- R191: the components of a codestream that decodes without error under ISO/IEC 21122, in raster
order, interleaved. -/
opaque jxsDecoded (codestream : List (BitVec 8)) : Option (List (BitVec 16))

/-- R382: ROOT_HASH, SHA-384 of Roneth's firmware public key, from fuses. -/
opaque rootHash : BitVec 384

/-- R382: DUK, the device-unique key, from fuses. -/
opaque deviceKey : BitVec 256

/-- R110: machine-mode identity registers of Bead node `n`: mvendorid to mconfigptr. -/
opaque beadIdent (csr n : Nat) : BitVec 32

/-- R110: the legal value that a machine-mode register takes when `v` is written. -/
opaque beadLegal (csr : Nat) (v : BitVec 32) : BitVec 32

/-- R117: of two floating lanes of which `a` or `b` is a NaN, VMAX (`isMax`) or VMIN gives the number
and not a NaN. -/
opaque pickNumber (ty : Nat) (isMax : Bool) (a b : Nat) : Bool

/-- R117: what VCVT writes for a value that I16 cannot hold. -/
opaque convertInvalid (ty code : Nat) : BitVec 16

/-- R116: what VEXT extracts where the type has no lane `i`. -/
opaque absentLane (i : Nat) (v : BitVec 128) : BitVec 32

/-- R123, R138, R163: corrected errors that an access meets, by the counter of free values. -/
opaque eccCorrected (n : Nat) : Nat

/-- R157: how many further clocks a request waited at a clasp. -/
opaque waitClocks (n : Nat) : Nat

/-- R363: the process corner of the part that MON_PROC reports. -/
opaque processCorner : BitVec 16

/-- R303: where processor `p` sees its instruction memory and its data memory, and where it starts. -/
opaque procImem (p : Nat) : BitVec 32
opaque procDmem (p : Nat) : BitVec 32
opaque procEntry (p : Nat) : BitVec 32

/-- R303: the device address that core address `a` of processor `p` names outside its memories. -/
opaque procWindow (p : Nat) (a : BitVec 32) : Option (BitVec 64)

/-- R304: a byte of instruction memory above the image. -/
opaque procFill (p off : Nat) : BitVec 8

/-- R303: machine-mode identity registers of processor `p`. -/
opaque procIdent (csr p : Nat) : BitVec 32

/-- R303: the legal value that a machine-mode register of a processor takes when `v` is written. -/
opaque procLegal (csr : Nat) (v : BitVec 32) : BitVec 32

/-- R391: what word `i` of a processor's core holds when its `gen`-th open value is asked for: the firmware
that ran is no part of the spec. -/
opaque procWord (gen i : Nat) : BitVec 32

end Sys2Proof.Config
end

