-- ==== Sys2Proof/Machine/State.lean ====
section
/-! DEFINITION. The state of the Jatan as plain data. Registers live in `csr`, keyed by CSR
offset; what the spec gives the machine beside its registers lives in one structure per
unit. Sparse arrays are `KMap`s: an unlisted key holds the unit's value after reset. -/

namespace Sys2Proof.Machine

/-- Why a step stops with a fault. -/
inductive Fault where
  /-- Raised by a meaning whose operands spell no command that the spec describes: a request
  that is not 4–64 B within one line (R136), a clasp that is not 1–16 beats (R155), a BAR2 request outside
  the window or longer than a PCIe request (R23, R278), a link width, rate or payload size that the endpoint
  does not support (R278). Safe: the device cannot receive such a command. -/
  | badOperand
  deriving DecidableEq, Repr

/-- Why a command is refused. -/
inductive Refusal where
  /-- Raised by an arm of `exec` whose command has no meaning yet. Safe: nothing is claimed. -/
  | notModelled (mnemonic : String)
  deriving DecidableEq, Repr

/-- A bit field of a register: offset, lowest bit, width. -/
structure Fld where
  off : Nat
  lo : Nat
  len : Nat
  deriving DecidableEq, Repr

/-- Who may write a register (the register tables; R88, R133, R144, R152, R206, R208, R225,
R233, R277, R290, R298, R339, R348, R364, R367, R378, R393, R400). -/
inductive Own where
  | any | scp | sfp | hip | hipHost | scpHip | beadOwn | win | ife | sle | sleSp | hlt | hltLeg
  | rng | mbx | tim | eth | can | plk | pwr | sec
  deriving DecidableEq, Repr

/-- A row of the CSR map: offset of the first register, stride and count of two indexes, reset
value, and masks of the bits of each access type (R32). -/
structure RegRow where
  off : Nat
  s1 : Nat
  n1 : Nat
  s2 : Nat
  n2 : Nat
  reset : Nat
  rw : Nat
  w1c : Nat
  w1s : Nat
  wo : Nat
  rc : Nat
  own : Own
  deriving DecidableEq, Repr

/-- A range of bytes: an unlisted byte of it reads as `Config.freeByte g addr` where `gen` is
`some g` (R373 code L: open until written), and as zero where it is `none`. -/
structure FreshRange where
  base : Nat
  len : Nat
  gen : Option Nat
  deriving DecidableEq, Repr

/-- Address `a` lies in the range. -/
def FreshRange.covers (r : FreshRange) (a : Nat) : Bool := r.base ≤ a && a < r.base + r.len

/-- A byte memory: listed cells, ranges of open contents with the latest first, and the poisoned
ECC words (R398) by word number. An unlisted byte outside every range reads as zero. -/
structure Memory where
  cells : List Host.Cell := []
  fresh : List FreshRange := []
  poison : KMap Bool := []
  deriving DecidableEq, Repr

/-- The memories of R21 and the firmware processors' own (R303). -/
structure Mems where
  map : Memory := {}       -- R21, R138: 128 MiB map memory, bank b at b × 0x8_0000
  blm : Memory := {}       -- R123: 64 KiB per physical Bead node, node p at p × 0x1_0000
  fom : Memory := {}       -- R60: 2 MiB per physical Facet, Facet p at p × 0x20_0000
  ddr : Memory := { fresh := [⟨0, 34359738368, some 0⟩] }  -- R161, R373: LPDDR5X, open until written
  nvm : Memory := {}       -- R374: 4 MiB MRAM; contents at reset zero (DESIGN CHOICE, entry 5)
  dmem : Memory := {}      -- R303, R304, R313: data memory of processor p at p × 0x8_0000
  imem : KMap (List Byte) := []  -- R303, R304: the image in instruction memory of processor p
  deriving DecidableEq, Repr

/-- What the source of the latest request received: status, data bytes, whether a host read
completed with Unsupported Request (R25) or with the EP bit (R399). MODEL's own field. -/
structure Reply where
  st : BitVec 16 := 0
  data : List Byte := []
  ur : Bool := false
  ep : Bool := false
  deriving DecidableEq, Repr

/-- The special state of a wide sum (R48). -/
inductive Special where
  | none | posInf | negInf | nan
  deriving DecidableEq, Repr

/-- A wide sum (R43, R49, R120). -/
structure WideSum where
  w : BitVec 168 := 0
  special : Special := .none
  anchor : BitVec 16 := 0
  count : Nat := 0
  deriving DecidableEq, Repr

/-- Best element of an output row so far (R74). -/
structure ArgBest where
  nan : Bool
  inf : Int
  num : Int
  den : Nat
  idx : Nat
  deriving DecidableEq, Repr

/-- A row's accumulators in an ATTN unit (R100, R104). `low` none is +inf. -/
structure RowAcc where
  m : Option Int := none
  o : List WideSum := []
  l : WideSum := {}
  low : Option Int := none
  deep : Bool := false
  /-- key tiles that raised the maximum -/
  rescaled : List Nat := []
  deriving DecidableEq, Repr

/-- A query row of an ATTN unit: its part of the score buffer (R102, R103) by key, whether a score
ended it (R99), whether a key was visible, its row state (R108). -/
structure AttnRow where
  scores : List (Nat × Word) := []
  nan : Bool := false
  seen : Bool := false
  acc : RowAcc := {}
  deriving DecidableEq, Repr

/-- An ATTN unit under way (R108): its key tiles (R98), the anchor of O per group of 32 dimensions
(R101), the statuses of the reads its scores and each group of values rest on (R87), its rows. -/
structure AttnRun where
  tiles : List Nat
  anchors : List Int
  st : BitVec 16
  vst : List (BitVec 16)
  rows : List AttnRow
  deriving DecidableEq, Repr

/-- A Facet command that has been fetched (R63, R86): its 128 descriptor bytes, where its
reduction stands (R82), what it has written so far (R76, R74, R54), its status and flags. -/
structure FacetCmd where
  desc : List Byte := []
  urgent : Bool := false
  /-- next output tile and next reduction block of it -/
  tile : Nat := 0
  block : Nat := 0
  /-- the tile's wide sums so far, row-major 64 × 64 -/
  sums : List WideSum := []
  /-- encoded output bytes in the canonical order of R76 -/
  out : KMap Byte := []
  best : KMap (Option ArgBest) := []
  mse : KMap Word := []
  rowFlags : KMap Byte := []
  status : BitVec 16 := 0
  flags : BitVec 16 := 0
  /-- the work is done and only the completion (R86) is outstanding -/
  done : Bool := false
  /-- the check of R64 or R91 failed, so nothing but the status is written -/
  refused : Bool := false
  /-- the check of R64 or R91 has been passed -/
  checked : Bool := false
  /-- ATTN: the unit under way (R108) -/
  attn : Option AttnRun := none
  /-- ATTN: the FP32 errors of R54 so far, by canonical tile -/
  errs : KMap (List Word) := []
  /-- delta execution: the changed blocks of the tile under way, none for a full tile (R79) -/
  plan : Option (List Nat) := none
  /-- delta execution: the wide sums of the tiles done, by tile number (R79) -/
  kept : KMap (List WideSum) := []
  /-- reduction clocks of R89 or R109 -/
  clocks : Nat := 0
  deltaFull : Nat := 0
  deltaUpd : Nat := 0
  deepRows : Nat := 0
  rescales : Nat := 0
  deriving DecidableEq, Repr

/-- A queued descriptor (R86, R431): at a device address, or the SCP's copy of a template. -/
inductive QDesc where
  | at (a : BitVec 64)
  | held (b : List Byte)
  deriving DecidableEq, Repr

/-- A logical Facet beside its registers (R82–R86). -/
structure FacetSt where
  queue : List QDesc := []              -- R86: up to 4 descriptors, oldest first
  cur : Option FacetCmd := none         -- R83: the running command
  ctx : Option FacetCmd := none         -- R83: the pre-empted command whose sums are saved
  saving : Bool := false                -- R83: the 64-clock save is under way
  restoring : Bool := false             -- R84: the 64-clock reload is under way
  activeClk : BitVec 64 := 0            -- R88: live count behind FAC_ACTIVE_CLK
  beforeTest : Nat := 0                 -- R85: the state a self-test part returns to
  outAt : Option Nat := none            -- R180: TB0 ns since which it is PREEMPTED or in a self-test part
  outNs : Nat := 0                      -- R180: ns so spent
  deriving DecidableEq, Repr

/-- What a mesh request asks of its target (R136, R139, R127). -/
inductive ReqOp where
  | read (len : Nat)
  | write (data : List Byte) (win epoch : BitVec 16)
  | setBits (data : List Byte) (win epoch : BitVec 16)
  | clearBits (data : List Byte) (win epoch : BitVec 16)
  | cmpset (cmp new : Word)
  | count (inc : Word)
  | clasp (beats : Nat)
  | add (obj : Nat) (inc : Word)        -- R146: sent once the master's earlier writes are acknowledged (R158)
  deriving DecidableEq, Repr

/-- A remote load, or a read-modify-write of a remote word, that stalls a Bead (R114, R127). -/
structure RemoteLoad where
  addr : BitVec 64
  op : ReqOp
  len : Nat
  signed : Bool
  rd : Nat
  fp : Bool
  /-- bytes of the instruction -/
  ilen : Nat
  /-- the request waits at its target and is answered later -/
  waiting : Bool
  /-- physical unit that served the address when the load was issued (R30) -/
  unit : Nat := 0
  deriving DecidableEq, Repr

/-- A node-mover transfer (R131). -/
structure Mover where
  src : BitVec 64
  dst : BitVec 64
  len : Nat
  doneSo : Nat
  errSo : Nat
  win : BitVec 16
  epoch : BitVec 16
  deriving DecidableEq, Repr

/-- The architectural state that YIELD saves (R129). -/
structure SavedCore where
  pc : Word
  x : KMap Word
  f : KMap Word
  fcsr : BitVec 8
  v : KMap (BitVec 128)
  ws : KMap WideSum
  deriving DecidableEq, Repr

/-- A logical Bead node's core and mover beside its registers (R110–R132). -/
structure BeadSt where
  pc : Word := 0
  x : KMap Word := []                   -- R110: x1–x31 (x0 reads as zero)
  f : KMap Word := []                   -- R110: f0–f31
  fcsr : BitVec 8 := 0                  -- R111: frm in [7:5], fflags in [4:0]
  v : KMap (BitVec 128) := []           -- R115: v0–v7
  ws : KMap WideSum := []               -- R120: ws0–ws3
  mcsr : KMap Word := []                -- R110: machine-mode CSRs that hold a value
  cycle : BitVec 64 := 0                -- R110: counter cycle
  activeClk : BitVec 64 := 0            -- R133: live count behind BEAD_ACTIVE_CLK
  instret : BitVec 64 := 0              -- R110: counter instret
  stall : Option RemoteLoad := none     -- R114
  posted : List (Option (BitVec 16)) := []  -- R114: unacknowledged posted stores, oldest first, with their status unless they wait
  fencing : Bool := false               -- R114: FENCE waits for the posted stores
  parking : Bool := false               -- R129: the 36-clock save is under way
  ylimFrom : Option Nat := none         -- R130: TB0 ns at which the pending yield request was made
  movers : List Mover := []             -- R131: at most two transfers, running one first
  beforeTest : Nat := 0                 -- R266: the state a self-test part returns to
  saved : Option SavedCore := none      -- R129: what the save area holds
  outAt : Option Nat := none            -- R180: TB0 ns since which its share task is parked
  outNs : Nat := 0                      -- R180: ns so spent
  deriving DecidableEq, Repr

/-- What a map bank is doing beside MM_STATUS.STATE (R140, R141). -/
inductive BankMove where
  | none
  | drain (off : Bool) (since src : Nat)  -- DRAINING toward OFF or RETENTION since TB0 ns, by src
  | toRetention | toOff | toOn          -- entering the state, or RETENTION to ON
  | waking
  deriving DecidableEq, Repr

/-- A request raised by a master and not yet granted (R153). -/
structure Req where
  src : Nat
  addr : BitVec 64
  op : ReqOp
  /-- physical unit that served the address when it was issued (R30) -/
  unit : Nat
  /-- the answer of a request refused at its arrival, which keeps its place in the order (R158) -/
  refused : Option Reply := none
  deriving DecidableEq, Repr

/-- An arbitrated resource on which clasps open (R153, R155). -/
inductive Resource where
  | bank (b : Nat)
  | blm (n : Nat)
  | fom (f : Nat)
  | bridge (k : Nat)                    -- 0 LPDDR5X, 1 NVM
  deriving DecidableEq, Repr

/-- An open clasp (R155). -/
structure Clasp where
  res : Resource
  owner : Nat
  left : Nat
  /-- where its sequence begins -/
  addr : BitVec 64 := 0
  /-- windows closed since it opened, whose writes it still performs (R152): id and epoch -/
  grace : List (BitVec 16 × BitVec 16) := []
  deriving DecidableEq, Repr

/-- A held WAIT (R146, R148). -/
structure Wait where
  src : Nat
  so : Nat
  target : Word
  tmoUs : Nat
  since : Nat
  aliased : Bool
  deriving DecidableEq, Repr

/-- The mesh, the banks and the sync-object engine (R134–R158). -/
structure FabricSt where
  banks : KMap BankMove := []
  raised : List Req := []               -- R153: requests that lost their contest so far
  clasps : List Clasp := []             -- R155
  rr : KMap Nat := []                   -- R153: round-robin pointers, one per resource and class (master + 1)
  waits : List Wait := []               -- R148: at most one per master
  armed : KMap (KMap (Option Word)) := []  -- R147: armed targets by master, then object
  answered : List (Nat × Reply) := []   -- R148, R153: answers to held or raised requests, newest last
  closing : KMap Bool := []             -- R152: windows whose accepted writes are still being performed
  bar2Hi : Word := 0xFFFF0010           -- R24: base in force, high word
  bar2Lo : Word := 0                    -- R24: base in force, low word
  deriving DecidableEq, Repr

/-- A cycle-table window (R171). -/
structure Window where
  start : Nat
  deadline : Nat
  facets : BitVec 32
  regions : BitVec 16
  share : Bool
  phase : Nat
  rateDiv : Nat
  rateOfs : Nat
  classSet : Nat
  deriving DecidableEq, Repr

/-- A task record (R165) with its dependency and residency lists (R430, R432). -/
structure Task where
  id : Nat
  kind : Nat
  window : Nat
  group : Nat
  cands : List Nat
  descOfs : Nat
  ndesc : Nat
  deps : List Nat
  boundNs : Nat
  redun : Nat
  partner : Nat
  residency : List (Nat × Nat)
  deriving DecidableEq, Repr

/-- A result-descriptor ring declaration (R432). -/
structure RingDecl where
  addr : BitVec 64
  task : Nat
  log2n : Nat
  stream : Nat
  deriving DecidableEq, Repr

/-- A memory-window definition (R432). -/
structure WinDef where
  win : Nat
  lines : Nat
  base : BitVec 64
  deriving DecidableEq, Repr

/-- A range entry of the safety annex (R252). -/
structure RangeEnt where
  addr : BitVec 64
  tofs : Nat
  len : Nat
  exec : Nat
  chk : Nat
  bead : Bool
  id : Nat
  nnodes : Nat
  deriving DecidableEq, Repr

/-- A network entry of the safety annex with its ranges (R252). -/
structure Net where
  net : Nat
  sigTask : Nat
  taskB : Nat
  triage : Nat
  agm : Nat
  nchk : Nat
  ranges : List RangeEnt
  deriving DecidableEq, Repr

/-- An age-monitor entry (R263). -/
structure AgmEnt where
  origin : Nat
  src : Nat
  so : Nat
  limitUs : Nat
  inc : Nat
  safety : Bool
  deriving DecidableEq, Repr

/-- The safety parameters in force (R252, R253); the defaults are the table's. -/
structure SafetyParams where
  dtiMs : Nat := 100
  invConsec : Nat := 2
  invWinN : Nat := 3
  invWinCyc : Nat := 1000
  ssReaction : Nat := 0
  estopReact : Nat := 0
  ss1TmaxUs : Nat := 200000
  estopDiscMs : Nat := 50
  msgCh : Nat := 8
  msgPerMs : Nat := 10
  skewUs : Nat := 50
  msgId : Nat := 0x100
  ackMsg : Bool := false
  ackId : Nat := 0x101
  deriving DecidableEq, Repr

/-- The safety annex of a package (R252). -/
structure Annex where
  params : SafetyParams := {}
  nets : List Net := []
  agm : List AgmEnt := []
  deriving DecidableEq, Repr

/-- A resident package (R164–R173, R428–R432). -/
structure Package where
  pair : Bool := false
  safety : Bool := false
  encrypted : Bool := false
  nchips : Nat := 1
  majorNs : Nat := 250000
  windows : List Window := []
  phases : List Nat := []
  groups : List (Nat × Nat) := []
  graph : List Byte := []
  tasks : List Task := []
  rings : List RingDecl := []
  wins : List WinDef := []
  soInit : List (Nat × Word) := []
  classes : List (List Word) := []
  tensors : List (BitVec 64 × List Byte) := []
  annex : Option Annex := none
  annexRaw : List Byte := []
  paramDigest : BitVec 384 := 0
  deriving DecidableEq, Repr

/-- A task of an open window instance that has been dispatched (R174, R431). -/
structure RunTask where
  task : Nat
  /-- the candidate it was placed on: Facet, first Bead node, or stream -/
  cand : Nat
  /-- templates handed to the engine so far -/
  sent : Nat
  /-- per sync object that the templates increment: count at dispatch, increments due -/
  dones : List (Nat × Word × Nat)
  /-- per error object: count at dispatch -/
  errs : List (Nat × Word)
  /-- TB0 ns of the dispatch, and per engine its time out of service until then (R180) -/
  since : Nat
  excl : List Nat
  /-- its descriptors go through FAC_URGENT (R176) -/
  urgent : Bool
  deriving DecidableEq, Repr

/-- A window instance that has opened (R173). -/
structure Inst where
  win : Nat
  cyc : Word
  running : List RunTask := []
  done : List (Nat × BitVec 16) := []
  /-- R182: where its tasks were placed: task and candidate -/
  placed : List (Nat × Nat) := []
  /-- TB7 ns of the boundary of its cycle -/
  boundary : Nat := 0
  /-- later instances of the window that have opened (R174) -/
  later : Nat := 0
  /-- the deadline has passed (R174) -/
  late : Bool := false
  deriving DecidableEq, Repr

/-- A declared output of one cycle (R397): its task is complete, and the Hallmark verdict and
any pair cross-check are equal. -/
structure OutSt where
  ring : Nat
  cyc : Word
  /-- its descriptor has been written; flags and status set before that -/
  opened : Bool := false
  early : Nat := 0
  earlySt : BitVec 16 := 0
  done : Bool := false
  eq : Bool := false
  cross : Bool := false
  deriving DecidableEq, Repr

/-- Share-group accounting (R179, R181). -/
structure GroupAcc where
  engineNs : Nat := 0
  tasks : Word := 0
  aborts : Word := 0
  energy : Nat := 0
  /-- R179: the raise of V when the group became ready, and whether it had ready tasks -/
  lift : Nat := 0
  ready : Bool := false
  deriving DecidableEq, Repr

/-- Window accounting (R181, R359). -/
structure WinAcc where
  winovr : Word := 0
  backlog : Word := 0
  lastCycle : Word := 0
  energy : Nat := 0
  deriving DecidableEq, Repr

/-- Function states (R205, R208, R297). -/
inductive FnState where
  | stopped | config | running | fault
  deriving DecidableEq, Repr

/-- What an engine reports to the SCP beside a command's status: a descriptor that cannot be read (R86),
a yield request that stays pending too long (R130). -/
inductive Report where
  | descUnreadable (f : Nat) (st : BitVec 16)
  | yieldLate (n : Nat)
  deriving DecidableEq, Repr

/-- The MODEL function: staging, the resident package, the cycle table (R166–R188). -/
structure ModelSt where
  fn : FnState := .stopped
  stagedLen : Nat := 0                   -- R166: LENGTH of the package being staged; 0 none
  staged : Nat := 0                      -- R166: bytes staged; they lie in the LPDDR5X staging area
  checked : Option Package := none       -- R167: the package that passed every check, not yet active
  pkg : Option Package := none           -- R188: the resident package
  cycle : Word := 0                      -- R172: the cycle number
  cycleStart : Nat := 0                  -- R172: TB7 ns of the latest boundary
  tableOn : Bool := false                -- R187: window instances open
  startVia : Option Via := none          -- R187: FN_START waiting for the boundary
  stopVia : Option Via := none           -- R187: FN_STOP waiting for open instances
  stopping : Bool := false               -- R187: no instance of a later cycle opens
  heldByScp : Bool := false              -- R314: no window opens, nothing is dispatched
  heldCyc : Word := 0                    -- R314: cycle in which the outage began
  resumeAt : Bool := false               -- R314: the table resumes at the next boundary
  insts : List Inst := []                -- R173: open instances, oldest first
  opened : KMap (Option Word) := []      -- R173: cycle of the latest instance per window
  firstCycle : Word := 0                 -- R187, R314: first cycle of the table's present run
  outs : List OutSt := []                -- R397: declared outputs, newest cycle last
  ended : List (Nat × Nat × BitVec 16) := [] -- R86, R201: ended commands: task, CYCLE, status
  cutVoids : List (Nat × Word) := []     -- R201: cut tasks that found no DSC entry, with their cycle, newest first
  accG : KMap GroupAcc := []
  accW : KMap WinAcc := []
  reports : List Report := []            -- R86, R130: received by the SCP, newest last
  requeued : List (Nat × Word × Nat) := [] -- R176: aborted share tasks (window, cycle, task), newest first
  deriving DecidableEq, Repr

/-- Why a frame or sample is VOID: the CAUSE of R204. -/
abbrev SampleCause := Nat

/-- A camera frame in progress (R193, R199, R203). -/
structure Frame where
  idx : Word
  num : BitVec 16
  entry : Option Nat
  refresh : Bool
  rects : List (Nat × Nat × Nat × Nat)
  lines : Nat
  cause : SampleCause
  deferred : Bool
  tStart : BitVec 64
  deriving DecidableEq, Repr

/-- A DSC entry (R200). -/
structure DscEnt where
  idx : Word
  sealed : Bool
  deriving DecidableEq, Repr

/-- A sealed sample of a batch that waits for its credit or its record (R203, R204). -/
structure Sample where
  idx : Word
  status : BitVec 16
  flags : BitVec 8
  cause : SampleCause
  tStart : BitVec 64
  tEnd : BitVec 64
  entry : Nat
  rects : List (Nat × Nat × Nat × Nat)
  deriving DecidableEq, Repr

/-- A complete codestream that passed steps 1–5 of R194, and its bytes. -/
structure Codestream where
  cam : Fin 4
  frame : Frame
  data : List Byte := []
  deriving DecidableEq, Repr

/-- One input stream beside its registers (R189–R206). -/
structure CamSt where
  next : Word := 0                       -- R192: next sample index
  frame : Option Frame := none           -- R193: the frame in progress
  skip : Bool := false                   -- R193: the rest of the frame is discarded
  lastVoid : Bool := false               -- R196, R199: sample k − 1 was VOID
  voids : List Word := []                -- R196: indexes of VOID samples, newest first
  lastEnd : Nat := 0                     -- R192: TB7 ns of the previous frame end or slot
  dsc : KMap (Option DscEnt) := []       -- R200: entries 0–63
  cuts : List (List Byte) := []          -- R201: queued cut descriptors, oldest first
  cutDone : Option (BitVec 16) := none   -- R201: status of the cut task that has run, completion outstanding
  cbuf : List Byte := []                 -- R194: compressed bytes collected
  rtpSeq : Option (BitVec 16) := none    -- R194 step 1
  seqGap : Bool := false                 -- R194 step 1
  held : List Sample := []               -- R203: sealed samples of the batch in progress
  deferredBatch : List Word := []        -- R203: first indexes of batches held in the DSC
  stopVia : Option Via := none           -- R205: FN_STOP waiting for the last cut task
  waitFs : Bool := false                 -- R205: capture starts at the next frame start
  deriving DecidableEq, Repr

/-- A setpoint (R225, R226). -/
structure Setpoint where
  id : Int := 0
  iq : Int := 0
  vdff : Int := 0
  vqff : Int := 0
  pos : Int := 0
  vel : Int := 0
  seq : BitVec 16 := 0
  deriving DecidableEq, Repr

/-- A controlled stop in progress (R229). -/
structure StopSt where
  vt : Int
  integ : Int
  periods : Nat
  still : Nat
  /-- the axis ends in FAULT (R230) -/
  toFault : Bool
  /-- FN_STOP commands that complete when the axis has stopped (R208) -/
  vias : List Via
  deriving DecidableEq, Repr

/-- One axis beside its registers (R207–R231). -/
structure AxisSt where
  pos : BitVec 48 := 0                   -- R214, R215: POS
  posB : BitVec 48 := 0                  -- R231: POS at the last boundary, behind SLE_POS
  haveRaw : Bool := false                -- R214: the first raw value has been read
  lastChange : Int := 0                  -- R216: last good per-period change
  prevPos : BitVec 48 := 0               -- R223, R229: POS of the period, once it has been read
  loops : Nat := 0                       -- R220: number of the last loop boundary since START_T
  vel : Int := 0                         -- R229: v
  missed : Nat := 0                      -- R216: consecutive failed periods
  abzA : Bool := false                   -- R215: accepted levels
  abzB : Bool := false
  abzBad : Bool := false                 -- R215: both changed in one sample
  ia : Int := 0                          -- R210, R211: latched calibrated values, Q1.23
  ib : Int := 0
  ic : Int := 0
  vdc : Int := 0
  idInt : Int := 0                       -- R218 stage 10, Q2.30
  iqInt : Int := 0
  posReady : Bool := false               -- R223: the position of the period is available
  ssiFail : Bool := false                -- R214: the data line was low at the frame start
  computed : Bool := false               -- R223: the command of the period has been computed
  shadow : Option (Nat × Nat × Nat) := none   -- R223: CMP computed in this period
  cmp : Option (Nat × Nat × Nat) := none      -- R222: CMP in force
  cmpOld : Option (Nat × Nat × Nat) := none   -- R221: CMP in force before the last loop boundary
  oc : KMap Nat := []                    -- R212: consecutive over-current outputs per channel
  pending : Option Setpoint := none      -- R226
  active : Option Setpoint := none       -- R226
  spAge : Nat := 0                       -- R227, R228: loop periods since the active setpoint became active
  frozen : Bool := false                 -- R227: position reference frozen
  holdPos : Int := 0                     -- R227: the frozen reference
  feCnt : Nat := 0                       -- R228
  stop : Option StopSt := none           -- R229
  startVia : Option Via := none          -- R208: FN_START completes at the first loop boundary
  firstLoop : Bool := false              -- R208: the first loop boundary is outstanding
  pwmH : KMap Bool := []                 -- R221: gate outputs of phases 0–2
  pwmL : KMap Bool := []
  deriving DecidableEq, Repr

/-- An open matching window (R234). Times in 10 ps units of TB7. -/
structure EdgeWin where
  tCmd : Nat
  on : Bool
  iph : Int
  trig : Bool
  closeAt : Nat
  deriving DecidableEq, Repr

/-- One edge-feedback input (R234–R238). -/
structure EdgeIn where
  win : Option EdgeWin := none
  inService : Bool := false              -- R237: which of the two TDCs is in service
  cal : List Bool := []                  -- R237, R238: TDCs whose calibration's result is outstanding
  bad0 : Bool := false                   -- R238: TDC taken out of service
  bad1 : Bool := false
  cal0At : Nat := 0                      -- R238: TB0 ns of the last calibration of each TDC
  cal1At : Nat := 0
  uncal : Bool := false
  lastXchg : Nat := 0                    -- R237
  deriving DecidableEq, Repr

/-- An edge record that waits for earlier windows of its leg to close (R236). -/
structure EdgeRec where
  t : Nat
  delay : Nat
  kind : Nat
  iph : Int
  deriving DecidableEq, Repr

/-- One leg of the health block (R239–R249). -/
structure LegSt where
  eseq : Word := 0                       -- R236: next edge SEQ
  gseq : Word := 0                       -- R241: next GTL SEQ
  ewr : Word := 0                        -- R242: records written to the edge ring
  gwr : Word := 0
  egap : Bool := false                   -- R243
  ggap : Bool := false
  onsH : Nat := 0                        -- R239: turn-ons since the last trigger
  onsL : Nat := 0
  trigH : Nat := 0                       -- R241: triggers sent, modulo 8
  trigL : Nat := 0
  lastTrig : Option Nat := none          -- R239: 10 ps units of TB7
  trigAt : Option (Bool × Nat) := none   -- R239: a trigger to be sent: low-side device, instant
  recs : List EdgeRec := []              -- R236: edge records not yet in their place in the order
  node : Nat := 0x1FFF                   -- R244: binding in force
  base : Nat := 0
  bindAt : Option Nat := none            -- R244: carrier boundary at which the binding takes effect
  lastGood : Nat := 0                    -- R241: TB0 ns of the last good frame
  lastCommit : Nat := 0                  -- R249: TB7 ns of the last commit
  deriving DecidableEq, Repr

/-- The health function (R233). -/
structure HealthSt where
  inputs : KMap EdgeIn := []
  legs : KMap LegSt := []
  deriving DecidableEq, Repr

/-- Madder's counts for one network (R259). -/
structure NetSt where
  consec : Nat := 0
  bad : List Word := []                  -- cycles judged invalid, newest first
  judged : List Word := []               -- cycles judged, newest first
  deriving DecidableEq, Repr

/-- An open age-monitor instance (R264): its entry, the TARGET that it is judged against, and
its origin instant in TB7 µs. -/
structure AgmInst where
  entry : Nat
  /-- its package is still resident -/
  live : Bool := true
  ent : AgmEnt
  target : Word
  t0 : Nat
  cyc : Word
  /-- TB7 µs at which the object reached TARGET -/
  met : Option Nat := none
  deriving DecidableEq, Repr

/-- Where triage of a network's cycle stands (R260–R262). -/
inductive Triage where
  | none        -- no mismatch, or triage over
  | waiting     -- after a MISMATCH, until execution C is dispatched or NOT_RUN
  | running     -- execution C runs
  | localise    -- A_FAULTY or B_FAULTY: the fault is to be localised
  deriving DecidableEq, Repr

/-- A Hallmark submission of a network in a cycle, kept with its signatures and its verdict
(R257–R261). -/
structure HmkJob where
  net : Nat
  cyc : Word
  sigA : Option (BitVec 64) := none
  sigB : Option (BitVec 64) := none
  /-- 0 EQUAL, 1 MISMATCH, none before the verdict -/
  verdict : Option Nat := none
  triage : Triage := .none
  /-- cycle of the MISMATCH, at whose end execution C must have completed (R260) -/
  at_ : Word := 0
  /-- the faulty execution: 1 A, 2 B -/
  faulty : Nat := 0
  deriving DecidableEq, Repr

/-- Self-test bookkeeping of one physical engine (R266, R267). -/
structure TestSt where
  lastPass : Nat := 0
  parts : Nat := 0
  running : Bool := false
  unusable : Bool := false
  overdue : Bool := false
  deriving DecidableEq, Repr

/-- The safety block and Madder (R250–R277). -/
structure SafetySt where
  params : SafetyParams := {}
  nets : KMap NetSt := []
  agmArmed : Bool := false
  agmTarget : KMap Word := []            -- R264: TARGET of the next instance per entry
  agmSeen : KMap (Option Word) := []     -- R264: cycle whose origin instant has opened an instance
  agmInsts : List AgmInst := []          -- oldest first
  jobs : List HmkJob := []
  cross : List (Nat × Word × BitVec 64) := []   -- R348: partner records by network and cycle
  tests : KMap TestSt := []              -- physical Facet p at p, physical node p at 64 + p
  testBase : Nat := 0                    -- R266: TB0 ns from which engines without a passed slice count
  testOrder : List Nat := []             -- R262, R267: engines at the head of the self-test order
  outInvalid : Bool := false             -- R269: outputs invalid
  validFrom : Option Word := none        -- R271: results VALID again from this cycle
  ackHeld : Bool := false                -- R273: the acknowledgement of the restart has been received
  causeGone : Bool := false              -- R268: the condition for leaving has been met by an event
  ss1From : Option Nat := none           -- R269: TB0 ns of the SS1 request
  ss1Safe : Bool := false                -- R269: the safe state asked for the SS1 reaction
  ss1Estop : Bool := false               -- R275: an e-stop asked for it
  safeN : Bool := false                  -- R269: level of SAFE_N (false low)
  estopA : Bool := true                  -- R275: level of ESTOP_A_N
  estopB : Bool := true
  estopHoldA : Bool := false             -- R274, R275: path held by the e-stop
  estopHoldB : Bool := false
  safeHoldA : Bool := true               -- R231, R269: path held by the SFP or the safe-state logic
  safeHoldB : Bool := true
  discSince : Option Nat := none         -- R268: TB0 ns from which the channels differ
  fbA : Bool := false                    -- R231: level of STO_A_FB
  fbB : Bool := false
  fbDiffA : Option Nat := none           -- R268: TB0 ns since when a readback differs from its path
  fbDiffB : Option Nat := none
  msgSeq : BitVec 16 := 0                -- R270
  msgLast : Nat := 0                     -- R270: TB0 ns of the last message
  msgOut : List (List Byte) := []        -- R270: messages sent, newest last
  msgWait : Option (List Byte) := none   -- R335: a message that waits until TXB2 has been sent
  ackIn : List (List Byte) := []         -- R272: acknowledgement messages received, oldest first
  ackSeq : Option (BitVec 16) := none    -- R272
  deriving DecidableEq, Repr

/-- A host command taken from a ring or a mailbox and not completed (R281, R284). -/
structure HostCmd where
  via : Via
  opcode : Nat
  func : Nat
  tag : Word
  version : Nat
  arg : List Byte
  payload : List Byte
  /-- lines of the peer completion ring reserved at fetch (R294) -/
  room : Nat
  /-- its whole effect was applied while Woad did not run (R302) -/
  applied : Bool := false
  /-- a reserved field of its header is not zero, or PLEN exceeds a mailbox (R284 check 7) -/
  bad : Bool := false
  deriving DecidableEq, Repr

/-- A ring beside its eight registers (R290–R297). -/
structure RingSt where
  seq : Word := 0                        -- R282: command number on the ring
  flight : Nat := 0                      -- R292, R295: commands fetched and not completed
  reserved : Nat := 0                    -- R294: lines reserved on a completion ring
  evno : Word := 0                       -- R282: event number
  withheld : Nat := 0                    -- R297: events withheld since the last WITHHELD event
  unsent : Option Nat := none            -- R296: TB0 ns of the first entry not yet signalled
  deriving DecidableEq, Repr

/-- A SETTINGS_STORE in progress (R376). -/
structure StoreSt where
  via : Via
  /-- the function named: DEVICE stores every function -/
  func : Nat
  gen : Word
  bytes : Nat
  deriving DecidableEq, Repr

/-- The host interface and Woad (R278–R302). -/
structure HostSt where
  rings : KMap RingSt := []
  inflight : List HostCmd := []          -- R285: taken by Woad, oldest first
  goOrder : List (Fin 16) := []          -- R285, R299: mailboxes whose GO is held
  hbLast : Nat := 0                      -- R301: TB0 ns of the last heartbeat
  msix : List Nat := []                  -- R296, R298: vectors sent, newest last
  msixPending : List Nat := []           -- R296: vectors whose pending bit is set
  pci : PciCfg := {}                     -- R23, R280: configuration space as the host has written it
  lastRing : Nat := 0                    -- R285: round robin over rings
  verMin : Nat := 0                      -- R311: range Woad declares
  verMax : Nat := 0
  store : Option StoreSt := none         -- R376
  policyOn : Bool := false               -- R301: the host-loss policy is in force
  aer : Nat := 0                         -- R399: AER non-fatal errors reported
  deriving DecidableEq, Repr

/-- The architectural state of a firmware processor's core (R303): RV32IMAC in machine or user mode. The
SFP's two cores hold the same state. -/
structure CoreSt where
  pc : Word := 0
  x : KMap Word := []                    -- x1–x31 (x0 reads as zero)
  user : Bool := false                   -- user rather than machine mode
  csr : KMap Word := []                  -- machine registers that hold a value, pmpcfg and pmpaddr among them
  cycle : BitVec 64 := 0                 -- counter cycle
  instret : BitVec 64 := 0               -- counter instret
  resv : Option Nat := none              -- address that LR.W reserved
  deriving DecidableEq, Repr

/-- A firmware processor beside its registers (R303–R317). -/
structure ProcSt where
  key : Option Word := none              -- R312: last watchdog key
  kickAt : Nat := 0                      -- R312: TB0 ns of the last write
  crashes : List Nat := []               -- R317: TB0 ns of crashes, newest first
  reload : Bool := false                 -- R313: the image is reloaded from the booted slot
  crashRestart : Bool := true            -- R391: the restart under way follows a crash
  core : CoreSt := {}                    -- R303
  deriving DecidableEq, Repr

/-- A capture record (R326). -/
structure CapRec where
  tb : BitVec 64
  tb0 : BitVec 64
  gap : Bool
  deriving DecidableEq, Repr

/-- A pulse output beside its registers (R323, R324). -/
structure PulseSt where
  k : Nat := 0
  active : Bool := false
  endAt : Nat := 0
  level : Bool := false
  deriving DecidableEq, Repr

/-- A capture input (R325, R326). -/
structure CaptureSt where
  fifo : List CapRec := []
  gap : Bool := false
  last : Option Nat := none
  deriving DecidableEq, Repr

/-- Time bases, pulses and captures (R319–R326). A time base is 48 bits of ns above 48
fraction bits. -/
structure TimeSt where
  fn : FnState := .stopped
  tb : KMap (BitVec 96) := []
  pulses : KMap PulseSt := []
  caps : KMap CaptureSt := []
  deriving DecidableEq, Repr

/-- A frame queued at an egress port (R328, R332). -/
structure QFrame where
  tc : Nat
  ingress : Nat
  fr : EthFrame
  /-- ingress stamps on TB0 and on the base of the frame's PTP domain (R331) -/
  stamp0 : BitVec 64
  stamp : Option (BitVec 64)
  /-- a fragment has left and the rest is held (R330); `left` ns of it remain -/
  held : Bool
  left : Nat
  deriving DecidableEq, Repr

/-- A pair of hardware stamps of a PTP event message (R331). -/
structure PtpStamp where
  port : Nat
  egress : Bool
  tb0 : BitVec 64
  dom : Option (BitVec 64)
  deriving DecidableEq, Repr

/-- A switch port (R327–R330). -/
structure PortSt where
  queue : List QFrame := []
  up : Bool := false
  gclIdx : Nat := 0
  gates : BitVec 8 := 0xFF
  gateClose : Nat := 0                   -- R330: ns of the port's time base at which the entry ends
  oper : List (Nat × Nat × Nat) := []    -- R329, R330: operational list: GATES, OP, INTERVAL
  hold : Bool := false                   -- R330: Set-And-Hold-MAC in force
  waiting : Bool := false                -- R330: a config change is outstanding
  configAt : Nat := 0                    -- R330: config change time
  deriving DecidableEq, Repr

/-- The Ethernet switch (R327–R333). -/
structure EthSt where
  fn : FnState := .stopped
  ports : KMap PortSt := []
  mac : List (BitVec 48 × Nat × Nat) := []   -- R328: address, VLAN, port
  sent : List (Nat × EthFrame) := []     -- frames that left, newest last
  toHip : List EthFrame := []            -- R327
  stamps : List PtpStamp := []           -- R331: newest last
  deriving DecidableEq, Repr

/-- A CAN channel beside its registers (R334–R338). -/
structure CanSt where
  fn : FnState := .stopped
  current : Option Nat := none           -- R335: the buffer transmitting
  sof0 : BitVec 64 := 0                  -- R336: stamps of the frame in progress
  sof5 : BitVec 64 := 0
  seq : Word := 0
  wr : Word := 0
  gap : Bool := false
  recover : Bool := false                -- R337
  synced : Bool := false                 -- R339: joined the bus
  inFrame : Bool := false                -- R336: a frame is in progress
  cycCnt : Nat := 0                      -- R338: cycle count 0–63
  lastRef : BitVec 64 := 0               -- R338: TB5 at the SOF of the previous reference message
  refAt : Nat := 0                       -- R338: TB5 ns of the last reference message
  masterQuiet : Bool := false            -- R338: a potential master that has stopped sending
  sent : List CanFrame := []             -- frames sent, newest last
  deriving DecidableEq, Repr

/-- The pair link (R340–R348). -/
structure PairSt where
  fn : FnState := .stopped
  replays : KMap Nat := []               -- R340: consecutive failed replays per port
  startVia : Option Via := none
  hbFrom : List (Nat × Word) := []       -- R345: heartbeats held, by chip and cycle
  hbSent : Option Word := none
  sent : List (List Byte) := []          -- R345, R348: records sent, newest last
  told : Nat := 0                        -- R348: times the partner was told of the safe state
  deriving DecidableEq, Repr

/-- One power domain's ceilings before they are combined (R352, R362). -/
structure DomSt where
  temp : Nat := 7                        -- ceiling from the temperature clamp
  short : Nat := 7
  long : Nat := 7
  current : Nat := 7
  telem : Nat := 7
  swNext : Nat := 7                      -- R356: SW_CEIL that takes effect at the next task boundary
  raising : Bool := false                -- R353: the clock waits for the regulator
  halved : Bool := false                 -- R361: droop stretch
  work : Nat := 0                        -- R356: 0 idle, 1 share, 2 time-triggered
  deriving DecidableEq, Repr

/-- The power controller (R349–R364). -/
structure PowerSt where
  fn : FnState := .stopped
  doms : KMap DomSt := []
  other : KMap Bool := []                -- R143, R349: domains 50–63 switched off
  hist : List Nat := []                  -- R355, R356: mW of the last 200 intervals, newest first
  under : Nat := 0                       -- R356: consecutive intervals 5 W below CAP
  okShort : Nat := 0
  okCurrent : KMap Nat := []             -- R361: intervals within the limit, per rail
  longAt : Nat := 0                      -- R361: TB0 ns of the last step of the long-window release
  missing : KMap Nat := []               -- R355: consecutive missing readings per rail
  good : Nat := 0
  pool : Int := 0                        -- R358: nJ
  energyNj : Nat := 0                    -- R359: nJ since cold reset
  coll : List (List Nat) := []           -- R186: members (domains) of active collectives
  sensors : KMap Bool := []              -- R361: sensors at or above the clamp threshold
  cool : KMap Nat := []                  -- R361: TB0 ns since which a clamped sensor is below release
  shutdown : Option Nat := none          -- R361: TB0 ns of a thermal shutdown
  offAll : Bool := false
  acts : KMap Nat := []                  -- R358: m(t) of the interval by task, in modelUnit of a pJ
  vset : KMap Nat := [(0, 75), (1, 75)]  -- R353, R414: voltage set for VDD_FAC (0) and VDD_BEAD (1), in 10 mV
  clkAt : KMap Nat := []                 -- R372: TB0 ns at which the clocks of a switched domain last started, and (64) those that a reset or low-power exit starts
  notices : List (Nat × Nat) := []       -- R347: ceilings told to the other chips, by logical Facet or region, newest last
  deriving DecidableEq, Repr

/-- Where the boot stands (R368). -/
inductive BootPhase where
  | held | nvm | firmware | hold | starting | ready
  deriving DecidableEq, Repr

/-- Low-power request under way (R370, R371). -/
inductive LpMove where
  | none | entering (st : Nat) | exiting (st : Nat) | hibernate
  deriving DecidableEq, Repr

/-- A request of the host that the endpoint holds: until exit from STANDBY completes (R371), or
until the host's earlier writes have been performed (R279). A BAR2 request is held with the device
address that the base in force at its arrival gives (R24). -/
inductive HostReq where
  | bar2 (addr : BitVec 64) (len : Nat) (data : Option (List Byte))
  | write (off : Nat) (v : Word)
  | read (off : Nat)
  deriving DecidableEq, Repr

/-- Resets and low-power states (R365–R373). -/
structure ResetSt where
  boot : BootPhase := .nvm
  lp : LpMove := .none
  wakeHeld : Bool := false               -- R371: a wake event arrived during entry
  ddrTrained : Bool := false
  checksDone : Bool := false
  lastKind : Nat := 0                    -- R378: 0 cold, 1 warm, 2 device, 3 HIBERNATE exit
  /-- R279, R371: requests of the host held at the endpoint, oldest first -/
  heldHost : List HostReq := []
  lpDoms : List Nat := []                -- R370: domains that the low-power state switched off
  lpBanks : List Nat := []               -- R370: banks that it put into RETENTION
  badRecords : List Nat := []            -- R377: functions whose stored record failed at boot
  devInReset : Bool := false             -- R367: a device reset is under way
  deriving DecidableEq, Repr

/-- The debug port beside its registers (R388–R390). -/
structure DebugSt where
  chal : Option (BitVec 256) := none     -- R390
  chalAt : Nat := 0
  chalGen : Nat := 0                     -- free-value counter of the DRBG (R383): MODEL's own
  lockAt : Option Nat := none            -- R390: TB0 ns of the lockout
  ir : Option ScanInstr := none          -- R388: a selected boundary-scan instruction
  deriving DecidableEq, Repr

/-- Keys and flash (R382–R387, R307). -/
structure SecSt where
  pubX : KMap (BitVec 384) := []
  pubY : KMap (BitVec 384) := []
  aes : KMap (BitVec 384) := []
  dbgX : BitVec 384 := 0
  dbgY : BitVec 384 := 0
  slotA : Option FlashSlot := none
  slotB : Option FlashSlot := none
  wrapped : Bool := true                 -- R381: the wrapped secrets of the security area are present
  rootHash : BitVec 384 := Config.rootHash   -- R382: fuses
  duk : BitVec 256 := Config.deviceKey       -- R382: fuses; no command reads it
  wear : KMap Nat := []                  -- R378: write counts per NVM block
  deriving DecidableEq, Repr

/-- The state of the Jatan. -/
structure State where
  /-- commands that wait, first in first out -/
  pending : List Instr := []
  /-- R27, R32: every CSR by its offset in CSR space; unlisted: the reset value -/
  csr : KMap Word := []
  mems : Mems := {}
  reply : Reply := {}
  facets : KMap FacetSt := []
  beads : KMap BeadSt := []
  fab : FabricSt := {}
  model : ModelSt := {}
  cams : KMap CamSt := []
  jxs : List Codestream := []            -- R191: accepted codestreams, in order of completion
  jxsCur : Option Codestream := none     -- R191: the one being decoded
  axes : KMap AxisSt := []
  health : HealthSt := {}
  safety : SafetySt := {}
  host : HostSt := {}
  procs : KMap ProcSt := []
  time : TimeSt := {}
  eth : EthSt := {}
  cans : KMap CanSt := []
  pair : PairSt := {}
  power : PowerSt := {}
  reset_ : ResetSt := {}
  dport : DebugSt := {}
  sec : SecSt := {}
  /-- the error log's loss since the last entry (R400) -/
  elogLost : Nat := 0
  /-- counter of free values: MODEL's own -/
  free : Nat := 0
  deriving DecidableEq, Repr

/-- What an unlisted byte reads as: nothing known in a range whose contents are open, else 0. -/
def Memory.unlisted (m : Memory) (a : Nat) : Option Byte :=
  match m.fresh.find? (·.covers a) with
  | some r => if r.gen.isSome then none else some 0
  | none => some 0

/-- The canonical form: addresses strictly rising, no entry equal to what an unlisted byte
reads as. -/
abbrev Memory.wf (m : Memory) : Prop :=
  m.cells.Pairwise (fun p q => p.1 < q.1) ∧ ∀ p ∈ m.cells, m.unlisted p.1 ≠ some p.2

/-- The device right after a cold reset is released, before its boot (R365, R368): every
register at its reset value and every unit as its reset column says. -/
def State.reset : State := {}

end Sys2Proof.Machine
end

