-- ==== Sys2Proof/Machine/Registers.lean ====
section
/-! DEFINITION. The CSR map (R27–R33, R427 and the register tables of every chapter): where
each register lies, its reset value, which of its bits take which access type, and who may
write it. Register names are the spec's. The table is in address order by block. -/

namespace Sys2Proof.Machine

/-- PCI_BAR2_BASE_LO (R26). -/
abbrev PCI_BAR2_BASE_LO : Nat := 0xa40000
/-- PCI_BAR2_BASE_HI (R26). -/
abbrev PCI_BAR2_BASE_HI : Nat := 0xa40004
/-- PCI_LINK_STAT (R26). -/
abbrev PCI_LINK_STAT : Nat := 0xa40008
/-- ARB_BEAD_MAP (R427). -/
abbrev ARB_BEAD_MAP (i : Nat) : Nat := 0x904000 + 0x4 * i
/-- ARB_FAC_MAP (R427). -/
abbrev ARB_FAC_MAP (i : Nat) : Nat := 0x908000 + 0x4 * i
/-- ARB_REMAP_GEN (R427). -/
abbrev ARB_REMAP_GEN : Nat := 0x908100
/-- GLB_ID (R33). -/
abbrev GLB_ID : Nat := 0x0
/-- GLB_ARITH_SIG (R33). -/
abbrev GLB_ARITH_SIG : Nat := 0x4
/-- GLB_CHIP_ID (R33). -/
abbrev GLB_CHIP_ID : Nat := 0x8
/-- FAC_DESC_LO (R88). -/
abbrev FAC_DESC_LO (i : Nat) : Nat := 0x200000 + 0x10000 * i
/-- FAC_DESC_HI (R88). -/
abbrev FAC_DESC_HI (i : Nat) : Nat := 0x200004 + 0x10000 * i
/-- FAC_URGENT_LO (R88). -/
abbrev FAC_URGENT_LO (i : Nat) : Nat := 0x200008 + 0x10000 * i
/-- FAC_URGENT_HI (R88). -/
abbrev FAC_URGENT_HI (i : Nat) : Nat := 0x20000c + 0x10000 * i
/-- FAC_CTL (R88). -/
abbrev FAC_CTL (i : Nat) : Nat := 0x200010 + 0x10000 * i
/-- FAC_STATUS (R88). -/
abbrev FAC_STATUS (i : Nat) : Nat := 0x200014 + 0x10000 * i
/-- FAC_LAST (R88). -/
abbrev FAC_LAST (i : Nat) : Nat := 0x200018 + 0x10000 * i
/-- FAC_FLAGS (R88). -/
abbrev FAC_FLAGS (i : Nat) : Nat := 0x20001c + 0x10000 * i
/-- FAC_ACTIVE_CLK_LO (R88). -/
abbrev FAC_ACTIVE_CLK_LO (i : Nat) : Nat := 0x200030 + 0x10000 * i
/-- FAC_ACTIVE_CLK_HI (R88). -/
abbrev FAC_ACTIVE_CLK_HI (i : Nat) : Nat := 0x200034 + 0x10000 * i
/-- FAC_DELTA_CNT (R88). -/
abbrev FAC_DELTA_CNT (i : Nat) : Nat := 0x200038 + 0x10000 * i
/-- FAC_ATTN_CNT (R107). -/
abbrev FAC_ATTN_CNT (i : Nat) : Nat := 0x20003c + 0x10000 * i
/-- BEAD_CTL (R133). -/
abbrev BEAD_CTL (i : Nat) : Nat := 0x400000 + 0x400 * i
/-- BEAD_STATUS (R133). -/
abbrev BEAD_STATUS (i : Nat) : Nat := 0x400004 + 0x400 * i
/-- BEAD_FLAGS (R133). -/
abbrev BEAD_FLAGS (i : Nat) : Nat := 0x400014 + 0x400 * i
/-- BEAD_WIN (R133). -/
abbrev BEAD_WIN (i : Nat) : Nat := 0x400018 + 0x400 * i
/-- BEAD_MOV_CTL (R133). -/
abbrev BEAD_MOV_CTL (i : Nat) : Nat := 0x400050 + 0x400 * i
/-- BEAD_MOV_STAT (R133). -/
abbrev BEAD_MOV_STAT (i : Nat) : Nat := 0x400054 + 0x400 * i
/-- BEAD_ENTRY (R133). -/
abbrev BEAD_ENTRY (i : Nat) : Nat := 0x400008 + 0x400 * i
/-- BEAD_ARG (R133). -/
abbrev BEAD_ARG (i : Nat) : Nat := 0x40000c + 0x400 * i
/-- BEAD_PC (R133). -/
abbrev BEAD_PC (i : Nat) : Nat := 0x400010 + 0x400 * i
/-- BEAD_ERR_SO (R133). -/
abbrev BEAD_ERR_SO (i : Nat) : Nat := 0x40001c + 0x400 * i
/-- BEAD_RWIN_LO (R133). -/
abbrev BEAD_RWIN_LO (i : Nat) : Nat := 0x400020 + 0x400 * i
/-- BEAD_RWIN_HI (R133). -/
abbrev BEAD_RWIN_HI (i : Nat) : Nat := 0x400024 + 0x400 * i
/-- BEAD_SAVE (R133). -/
abbrev BEAD_SAVE (i : Nat) : Nat := 0x400028 + 0x400 * i
/-- BEAD_YLIM (R133). -/
abbrev BEAD_YLIM (i : Nat) : Nat := 0x40002c + 0x400 * i
/-- BEAD_ACTIVE_CLK_LO (R133). -/
abbrev BEAD_ACTIVE_CLK_LO (i : Nat) : Nat := 0x400030 + 0x400 * i
/-- BEAD_ACTIVE_CLK_HI (R133). -/
abbrev BEAD_ACTIVE_CLK_HI (i : Nat) : Nat := 0x400034 + 0x400 * i
/-- BEAD_ECC (R133). -/
abbrev BEAD_ECC (i : Nat) : Nat := 0x400038 + 0x400 * i
/-- BEAD_MOV_SRC_LO (R133). -/
abbrev BEAD_MOV_SRC_LO (i : Nat) : Nat := 0x400040 + 0x400 * i
/-- BEAD_MOV_SRC_HI (R133). -/
abbrev BEAD_MOV_SRC_HI (i : Nat) : Nat := 0x400044 + 0x400 * i
/-- BEAD_MOV_DST_LO (R133). -/
abbrev BEAD_MOV_DST_LO (i : Nat) : Nat := 0x400048 + 0x400 * i
/-- BEAD_MOV_DST_HI (R133). -/
abbrev BEAD_MOV_DST_HI (i : Nat) : Nat := 0x40004c + 0x400 * i
/-- BEAD_MOV_LEN (R133). -/
abbrev BEAD_MOV_LEN (i : Nat) : Nat := 0x400058 + 0x400 * i
/-- MM_CTL (R144). -/
abbrev MM_CTL (i : Nat) : Nat := 0x800000 + 0x100 * i
/-- MM_STATUS (R144). -/
abbrev MM_STATUS (i : Nat) : Nat := 0x800004 + 0x100 * i
/-- MM_ECC (R144). -/
abbrev MM_ECC (i : Nat) : Nat := 0x800008 + 0x100 * i
/-- MM_REJ (R144). -/
abbrev MM_REJ (i : Nat) : Nat := 0x80000c + 0x100 * i
/-- ARB_WIN_BASE (R152). -/
abbrev ARB_WIN_BASE (i : Nat) : Nat := 0x940000 + 0x10 * i
/-- ARB_WIN_SIZE (R152). -/
abbrev ARB_WIN_SIZE (i : Nat) : Nat := 0x940004 + 0x10 * i
/-- ARB_WIN_CTL (R152). -/
abbrev ARB_WIN_CTL (i : Nat) : Nat := 0x940008 + 0x10 * i
/-- ARB_WIN_REJ (R152). -/
abbrev ARB_WIN_REJ (i : Nat) : Nat := 0x94000c + 0x10 * i
/-- ARB_WAIT_DEF (R157). -/
abbrev ARB_WAIT_DEF : Nat := 0x900000
/-- ARB_WAIT_TMO_CNT (R157). -/
abbrev ARB_WAIT_TMO_CNT : Nat := 0x900004
/-- ARB_CLASP_STAT (R157). -/
abbrev ARB_CLASP_STAT : Nat := 0x900010
/-- ARB_CLASS (R157). -/
abbrev ARB_CLASS (i : Nat) : Nat := 0x901000 + 0x4 * i
/-- ARB_CONFL (R157). -/
abbrev ARB_CONFL (i : Nat) : Nat := 0x920000 + 0x4 * i
/-- ARB_SO_SET (R157). -/
abbrev ARB_SO_SET (i : Nat) : Nat := 0x950000 + 0x4 * i
/-- ARB_SO_WAIT (R157). -/
abbrev ARB_SO_WAIT (i : Nat) : Nat := 0x960000 + 0x4 * i
/-- DDR_POP (R163). -/
abbrev DDR_POP : Nat := 0xa50000
/-- DDR_SIZE (R163). -/
abbrev DDR_SIZE : Nat := 0xa50004
/-- DDR_STAGE (R163). -/
abbrev DDR_STAGE : Nat := 0xa50008
/-- DDR_STAT (R163). -/
abbrev DDR_STAT : Nat := 0xa5000c
/-- DDR_ECC_CORR (R163). -/
abbrev DDR_ECC_CORR : Nat := 0xa50010
/-- DDR_ECC_UNCORR (R163). -/
abbrev DDR_ECC_UNCORR : Nat := 0xa50014
/-- DDR_SCRUB_PASS (R163). -/
abbrev DDR_SCRUB_PASS : Nat := 0xa50018
/-- IFE_CTL (R206). -/
abbrev IFE_CTL (i : Nat) : Nat := 0xc0000 + 0x1000 * i
/-- IFE_CUT (R206). -/
abbrev IFE_CUT (i : Nat) : Nat := 0xc0004 + 0x1000 * i
/-- IFE_STAT (R206). -/
abbrev IFE_STAT (i : Nat) : Nat := 0xc0008 + 0x1000 * i
/-- IFE_GEOM (R206). -/
abbrev IFE_GEOM (i : Nat) : Nat := 0xc000c + 0x1000 * i
/-- IFE_MAXBYTES (R206). -/
abbrev IFE_MAXBYTES (i : Nat) : Nat := 0xc0010 + 0x1000 * i
/-- IFE_MAP_LO (R206). -/
abbrev IFE_MAP_LO (i : Nat) : Nat := 0xc0014 + 0x1000 * i
/-- IFE_MAP_HI (R206). -/
abbrev IFE_MAP_HI (i : Nat) : Nat := 0xc0018 + 0x1000 * i
/-- IFE_DSC_LO (R206). -/
abbrev IFE_DSC_LO (i : Nat) : Nat := 0xc001c + 0x1000 * i
/-- IFE_DSC_HI (R206). -/
abbrev IFE_DSC_HI (i : Nat) : Nat := 0xc0020 + 0x1000 * i
/-- IFE_CBUF_SIZE (R206). -/
abbrev IFE_CBUF_SIZE (i : Nat) : Nat := 0xc0024 + 0x1000 * i
/-- IFE_LUT_LO (R206). -/
abbrev IFE_LUT_LO (i : Nat) : Nat := 0xc0028 + 0x1000 * i
/-- IFE_LUT_HI (R206). -/
abbrev IFE_LUT_HI (i : Nat) : Nat := 0xc002c + 0x1000 * i
/-- IFE_ROI_LO (R206). -/
abbrev IFE_ROI_LO (i : Nat) : Nat := 0xc0030 + 0x1000 * i
/-- IFE_ROI_HI (R206). -/
abbrev IFE_ROI_HI (i : Nat) : Nat := 0xc0034 + 0x1000 * i
/-- IFE_SO (R206). -/
abbrev IFE_SO (i : Nat) : Nat := 0xc0038 + 0x1000 * i
/-- IFE_ROI_SO (R206). -/
abbrev IFE_ROI_SO (i : Nat) : Nat := 0xc003c + 0x1000 * i
/-- IFE_SCALE (R206). -/
abbrev IFE_SCALE (i : Nat) : Nat := 0xc0040 + 0x1000 * i
/-- IFE_FRAME_TMO (R206). -/
abbrev IFE_FRAME_TMO (i : Nat) : Nat := 0xc0044 + 0x1000 * i
/-- IFE_UDP_PORT (R206). -/
abbrev IFE_UDP_PORT (i : Nat) : Nat := 0xc0048 + 0x1000 * i
/-- IFE_SEED (R206). -/
abbrev IFE_SEED (i j : Nat) : Nat := 0xc0050 + 0x1000 * i + 0x4 * j
/-- IFE_LAST_IDX (R206). -/
abbrev IFE_LAST_IDX (i : Nat) : Nat := 0xc0070 + 0x1000 * i
/-- IFE_VOID_CNT (R206). -/
abbrev IFE_VOID_CNT (i : Nat) : Nat := 0xc0074 + 0x1000 * i
/-- IFE_HDR_CORR (R206). -/
abbrev IFE_HDR_CORR (i : Nat) : Nat := 0xc0078 + 0x1000 * i
/-- IFE_DISCARD (R206). -/
abbrev IFE_DISCARD (i : Nat) : Nat := 0xc007c + 0x1000 * i
/-- SLE_CTL (R231). -/
abbrev SLE_CTL (i : Nat) : Nat := 0xa0000 + 0x1000 * i
/-- SLE_STATUS (R231). -/
abbrev SLE_STATUS (i : Nat) : Nat := 0xa0004 + 0x1000 * i
/-- SLE_FAULT (R231). -/
abbrev SLE_FAULT (i : Nat) : Nat := 0xa0008 + 0x1000 * i
/-- SLE_SD_CFG (R231). -/
abbrev SLE_SD_CFG (i : Nat) : Nat := 0xa0040 + 0x1000 * i
/-- SLE_ENC_CFG (R231). -/
abbrev SLE_ENC_CFG (i : Nat) : Nat := 0xa0080 + 0x1000 * i
/-- SLE_SP_COMMIT (R231). -/
abbrev SLE_SP_COMMIT (i : Nat) : Nat := 0xa011c + 0x1000 * i
/-- SLE_PWM_PER (R231). -/
abbrev SLE_PWM_PER (i : Nat) : Nat := 0xa0010 + 0x1000 * i
/-- SLE_PWM_CFG (R231). -/
abbrev SLE_PWM_CFG (i : Nat) : Nat := 0xa0014 + 0x1000 * i
/-- SLE_START_T_LO (R231). -/
abbrev SLE_START_T_LO (i : Nat) : Nat := 0xa0018 + 0x1000 * i
/-- SLE_START_T_HI (R231). -/
abbrev SLE_START_T_HI (i : Nat) : Nat := 0xa001c + 0x1000 * i
/-- SLE_DTH (R231). -/
abbrev SLE_DTH (i j : Nat) : Nat := 0xa0020 + 0x1000 * i + 0x4 * j
/-- SLE_DTL (R231). -/
abbrev SLE_DTL (i j : Nat) : Nat := 0xa002c + 0x1000 * i + 0x4 * j
/-- SLE_MINP (R231). -/
abbrev SLE_MINP (i : Nat) : Nat := 0xa0038 + 0x1000 * i
/-- SLE_SD_OFS (R231). -/
abbrev SLE_SD_OFS (i j : Nat) : Nat := 0xa0044 + 0x1000 * i + 0x4 * j
/-- SLE_SD_GAIN (R231). -/
abbrev SLE_SD_GAIN (i j : Nat) : Nat := 0xa0054 + 0x1000 * i + 0x4 * j
/-- SLE_OC_CFG (R231). -/
abbrev SLE_OC_CFG (i : Nat) : Nat := 0xa0064 + 0x1000 * i
/-- SLE_VDC_LIM (R231). -/
abbrev SLE_VDC_LIM (i : Nat) : Nat := 0xa0068 + 0x1000 * i
/-- SLE_ISUM_LIM (R231). -/
abbrev SLE_ISUM_LIM (i : Nat) : Nat := 0xa006c + 0x1000 * i
/-- SLE_SSI_TIM (R231). -/
abbrev SLE_SSI_TIM (i : Nat) : Nat := 0xa0084 + 0x1000 * i
/-- SLE_ENC_MAXD (R231). -/
abbrev SLE_ENC_MAXD (i : Nat) : Nat := 0xa0088 + 0x1000 * i
/-- SLE_CPR (R231). -/
abbrev SLE_CPR (i : Nat) : Nat := 0xa008c + 0x1000 * i
/-- SLE_ANG_MUL (R231). -/
abbrev SLE_ANG_MUL (i : Nat) : Nat := 0xa0090 + 0x1000 * i
/-- SLE_ANG_OFS (R231). -/
abbrev SLE_ANG_OFS (i : Nat) : Nat := 0xa0094 + 0x1000 * i
/-- SLE_KI (R231). -/
abbrev SLE_KI (i : Nat) : Nat := 0xa00a0 + 0x1000 * i
/-- SLE_ILIM (R231). -/
abbrev SLE_ILIM (i : Nat) : Nat := 0xa00a4 + 0x1000 * i
/-- SLE_VLIM (R231). -/
abbrev SLE_VLIM (i : Nat) : Nat := 0xa00a8 + 0x1000 * i
/-- SLE_FE_LIM_LO (R231). -/
abbrev SLE_FE_LIM_LO (i : Nat) : Nat := 0xa00b0 + 0x1000 * i
/-- SLE_FE_LIM_HI (R231). -/
abbrev SLE_FE_LIM_HI (i : Nat) : Nat := 0xa00b4 + 0x1000 * i
/-- SLE_FE_CFG (R231). -/
abbrev SLE_FE_CFG (i : Nat) : Nat := 0xa00b8 + 0x1000 * i
/-- SLE_SP_TMO (R231). -/
abbrev SLE_SP_TMO (i : Nat) : Nat := 0xa00bc + 0x1000 * i
/-- SLE_STOP_KP (R231). -/
abbrev SLE_STOP_KP (i : Nat) : Nat := 0xa00c0 + 0x1000 * i
/-- SLE_STOP_KI (R231). -/
abbrev SLE_STOP_KI (i : Nat) : Nat := 0xa00c4 + 0x1000 * i
/-- SLE_STOP_DEC (R231). -/
abbrev SLE_STOP_DEC (i : Nat) : Nat := 0xa00c8 + 0x1000 * i
/-- SLE_STILL (R231). -/
abbrev SLE_STILL (i : Nat) : Nat := 0xa00cc + 0x1000 * i
/-- SLE_STOP_TMAX (R231). -/
abbrev SLE_STOP_TMAX (i : Nat) : Nat := 0xa00d0 + 0x1000 * i
/-- SLE_SP_ID (R231). -/
abbrev SLE_SP_ID (i : Nat) : Nat := 0xa0100 + 0x1000 * i
/-- SLE_SP_IQ (R231). -/
abbrev SLE_SP_IQ (i : Nat) : Nat := 0xa0104 + 0x1000 * i
/-- SLE_SP_VDFF (R231). -/
abbrev SLE_SP_VDFF (i : Nat) : Nat := 0xa0108 + 0x1000 * i
/-- SLE_SP_VQFF (R231). -/
abbrev SLE_SP_VQFF (i : Nat) : Nat := 0xa010c + 0x1000 * i
/-- SLE_SP_POS_LO (R231). -/
abbrev SLE_SP_POS_LO (i : Nat) : Nat := 0xa0110 + 0x1000 * i
/-- SLE_SP_POS_HI (R231). -/
abbrev SLE_SP_POS_HI (i : Nat) : Nat := 0xa0114 + 0x1000 * i
/-- SLE_SP_VEL (R231). -/
abbrev SLE_SP_VEL (i : Nat) : Nat := 0xa0118 + 0x1000 * i
/-- SLE_SP_OWNER (R231). -/
abbrev SLE_SP_OWNER (i : Nat) : Nat := 0xa0120 + 0x1000 * i
/-- SLE_POS_LO (R231). -/
abbrev SLE_POS_LO (i : Nat) : Nat := 0xa0140 + 0x1000 * i
/-- SLE_POS_HI (R231). -/
abbrev SLE_POS_HI (i : Nat) : Nat := 0xa0144 + 0x1000 * i
/-- SLE_IDQ (R231). -/
abbrev SLE_IDQ (i : Nat) : Nat := 0xa0148 + 0x1000 * i
/-- SLE_FE (R231). -/
abbrev SLE_FE (i : Nat) : Nat := 0xa014c + 0x1000 * i
/-- SLE_SP_SEQ (R231). -/
abbrev SLE_SP_SEQ (i : Nat) : Nat := 0xa0150 + 0x1000 * i
/-- SLE_SP_OVR (R231). -/
abbrev SLE_SP_OVR (i : Nat) : Nat := 0xa0154 + 0x1000 * i
/-- SLE_ENC_ERR (R231). -/
abbrev SLE_ENC_ERR (i : Nat) : Nat := 0xa0158 + 0x1000 * i
/-- SLE_MINP_CNT (R231). -/
abbrev SLE_MINP_CNT (i : Nat) : Nat := 0xa015c + 0x1000 * i
/-- SLE_LOOP_CNT (R231). -/
abbrev SLE_LOOP_CNT (i : Nat) : Nat := 0xa0160 + 0x1000 * i
/-- SLE_SD_AGE (R231). -/
abbrev SLE_SD_AGE (i : Nat) : Nat := 0xa0164 + 0x1000 * i
/-- SLE_ZCAP_LO (R231). -/
abbrev SLE_ZCAP_LO (i : Nat) : Nat := 0xa0168 + 0x1000 * i
/-- SLE_ZCAP_HI (R231). -/
abbrev SLE_ZCAP_HI (i : Nat) : Nat := 0xa016c + 0x1000 * i
/-- SLE_GT_D (R231). -/
abbrev SLE_GT_D (i j : Nat) : Nat := 0xa0200 + 0x1000 * i + 0x4 * j
/-- SLE_GT_Q (R231). -/
abbrev SLE_GT_Q (i j : Nat) : Nat := 0xa0300 + 0x1000 * i + 0x4 * j
/-- HLT_STAT (R249). -/
abbrev HLT_STAT : Nat := 0xb0004
/-- ETU_CAL_PER (R249). -/
abbrev ETU_CAL_PER : Nat := 0xb0008
/-- HLT_GTL_TMO (R249). -/
abbrev HLT_GTL_TMO : Nat := 0xb000c
/-- HLT_BIND (R249). -/
abbrev HLT_BIND (i : Nat) : Nat := 0xb1000 + 0x40 * i
/-- HLT_LCFG (R249). -/
abbrev HLT_LCFG (i : Nat) : Nat := 0xb1004 + 0x40 * i
/-- HLT_COMMIT (R249). -/
abbrev HLT_COMMIT (i : Nat) : Nat := 0xb1020 + 0x40 * i
/-- HLT_LSTAT (R249). -/
abbrev HLT_LSTAT (i : Nat) : Nat := 0xb1024 + 0x40 * i
/-- HLT_WIN (R249). -/
abbrev HLT_WIN (i : Nat) : Nat := 0xb1008 + 0x40 * i
/-- HLT_CONF (R249). -/
abbrev HLT_CONF (i : Nat) : Nat := 0xb100c + 0x40 * i
/-- ETU_SKEW_H (R249). -/
abbrev ETU_SKEW_H (i : Nat) : Nat := 0xb1010 + 0x40 * i
/-- ETU_SKEW_L (R249). -/
abbrev ETU_SKEW_L (i : Nat) : Nat := 0xb1014 + 0x40 * i
/-- HLT_EDGE_RD (R249). -/
abbrev HLT_EDGE_RD (i : Nat) : Nat := 0xb1018 + 0x40 * i
/-- HLT_GTL_RD (R249). -/
abbrev HLT_GTL_RD (i : Nat) : Nat := 0xb101c + 0x40 * i
/-- ETU_DROP (R249). -/
abbrev ETU_DROP (i : Nat) : Nat := 0xb1028 + 0x40 * i
/-- GTL_DROP (R249). -/
abbrev GTL_DROP (i : Nat) : Nat := 0xb102c + 0x40 * i
/-- GTL_CRC_ERR (R249). -/
abbrev GTL_CRC_ERR (i : Nat) : Nat := 0xb1030 + 0x40 * i
/-- GTL_TRIG_SKIP (R249). -/
abbrev GTL_TRIG_SKIP (i : Nat) : Nat := 0xb1034 + 0x40 * i
/-- ETU_SPUR (R249). -/
abbrev ETU_SPUR (i : Nat) : Nat := 0xb1038 + 0x40 * i
/-- SAF_STATUS (R277). -/
abbrev SAF_STATUS : Nat := 0x40000
/-- SAF_FIRST_CAUSE (R277). -/
abbrev SAF_FIRST_CAUSE : Nat := 0x40004
/-- HMK_LAST (R277). -/
abbrev HMK_LAST : Nat := 0x40100
/-- SAF_CAUSE_CYCLE (R277). -/
abbrev SAF_CAUSE_CYCLE : Nat := 0x40008
/-- SAF_WDOG (R277). -/
abbrev SAF_WDOG : Nat := 0x4000c
/-- SAF_PARAM_DIGEST (R277). -/
abbrev SAF_PARAM_DIGEST (i : Nat) : Nat := 0x40010 + 0x4 * i
/-- HMK_MISMATCH_CNT (R277). -/
abbrev HMK_MISMATCH_CNT : Nat := 0x40104
/-- HMK_QUAR_CNT (R277). -/
abbrev HMK_QUAR_CNT : Nat := 0x40108
/-- AGM_STALE_CNT (R277). -/
abbrev AGM_STALE_CNT : Nat := 0x40200
/-- SAF_ST_OVERDUE (R277). -/
abbrev SAF_ST_OVERDUE : Nat := 0x40300
/-- RNG_BASE_LO (R290). -/
abbrev RNG_BASE_LO (i : Nat) : Nat := 0x100000 + 0x20 * i
/-- RNG_BASE_HI (R290). -/
abbrev RNG_BASE_HI (i : Nat) : Nat := 0x100004 + 0x20 * i
/-- RNG_CFG (R290). -/
abbrev RNG_CFG (i : Nat) : Nat := 0x100008 + 0x20 * i
/-- RNG_LINK (R290). -/
abbrev RNG_LINK (i : Nat) : Nat := 0x10000c + 0x20 * i
/-- RNG_PI (R290). -/
abbrev RNG_PI (i : Nat) : Nat := 0x100010 + 0x20 * i
/-- RNG_CI (R290). -/
abbrev RNG_CI (i : Nat) : Nat := 0x100014 + 0x20 * i
/-- RNG_CTL (R290). -/
abbrev RNG_CTL (i : Nat) : Nat := 0x100018 + 0x20 * i
/-- RNG_WITHHELD (R290). -/
abbrev RNG_WITHHELD (i : Nat) : Nat := 0x10001c + 0x20 * i
/-- MBX_CTL (R298). -/
abbrev MBX_CTL (i : Nat) : Nat := 0x10000 + 0x4 * i
/-- MBX_FW (R298). -/
abbrev MBX_FW : Nat := 0x10040
/-- MBX_HB (R298). -/
abbrev MBX_HB : Nat := 0x10044
/-- MBX_HOST (R298). -/
abbrev MBX_HOST : Nat := 0x10048
/-- MBX_DATA (R298). -/
abbrev MBX_DATA (i j : Nat) : Nat := 0x11000 + 0x100 * i + 0x4 * j
/-- GLB_FW_VER (R318). -/
abbrev GLB_FW_VER (i : Nat) : Nat := 0x10 + 0x4 * i
/-- GLB_FW_SET (R318). -/
abbrev GLB_FW_SET : Nat := 0x1c
/-- GLB_PROC_STAT (R318). -/
abbrev GLB_PROC_STAT (i : Nat) : Nat := 0x20 + 0x4 * i
/-- GLB_WDOG_SCP (R318). -/
abbrev GLB_WDOG_SCP : Nat := 0x2c
/-- GLB_WDOG_HIP (R318). -/
abbrev GLB_WDOG_HIP : Nat := 0x30
/-- GLB_FW_DIGEST (R318). -/
abbrev GLB_FW_DIGEST (i j : Nat) : Nat := 0x100 + 0x40 * i + 0x4 * j
/-- TIM_TB_LO (R339). -/
abbrev TIM_TB_LO (i : Nat) : Nat := 0x50000 + 0x40 * i
/-- TIM_TB_CFG (R339). -/
abbrev TIM_TB_CFG (i : Nat) : Nat := 0x50014 + 0x40 * i
/-- TIM_PO_CFG (R339). -/
abbrev TIM_PO_CFG (i : Nat) : Nat := 0x50400 + 0x20 * i
/-- TIM_CAP_CFG (R339). -/
abbrev TIM_CAP_CFG (i : Nat) : Nat := 0x50600 + 0x20 * i
/-- TIM_TB_HI (R339). -/
abbrev TIM_TB_HI (i : Nat) : Nat := 0x50004 + 0x40 * i
/-- TIM_TB_RATE (R339). -/
abbrev TIM_TB_RATE (i : Nat) : Nat := 0x50008 + 0x40 * i
/-- TIM_TB_STEP_LO (R339). -/
abbrev TIM_TB_STEP_LO (i : Nat) : Nat := 0x5000c + 0x40 * i
/-- TIM_TB_STEP_HI (R339). -/
abbrev TIM_TB_STEP_HI (i : Nat) : Nat := 0x50010 + 0x40 * i
/-- TIM_SNAP (R339). -/
abbrev TIM_SNAP : Nat := 0x50300
/-- TIM_SNAP_LO (R339). -/
abbrev TIM_SNAP_LO (i : Nat) : Nat := 0x50320 + 0x8 * i
/-- TIM_SNAP_HI (R339). -/
abbrev TIM_SNAP_HI (i : Nat) : Nat := 0x50324 + 0x8 * i
/-- TIM_PO_START_LO (R339). -/
abbrev TIM_PO_START_LO (i : Nat) : Nat := 0x50404 + 0x20 * i
/-- TIM_PO_START_HI (R339). -/
abbrev TIM_PO_START_HI (i : Nat) : Nat := 0x50408 + 0x20 * i
/-- TIM_PO_PERIOD (R339). -/
abbrev TIM_PO_PERIOD (i : Nat) : Nat := 0x5040c + 0x20 * i
/-- TIM_PO_WIDTH (R339). -/
abbrev TIM_PO_WIDTH (i : Nat) : Nat := 0x50410 + 0x20 * i
/-- TIM_PO_MISSED (R339). -/
abbrev TIM_PO_MISSED (i : Nat) : Nat := 0x50414 + 0x20 * i
/-- TIM_CAP_LO (R339). -/
abbrev TIM_CAP_LO (i : Nat) : Nat := 0x50604 + 0x20 * i
/-- TIM_CAP_HI (R339). -/
abbrev TIM_CAP_HI (i : Nat) : Nat := 0x50608 + 0x20 * i
/-- TIM_CAP_TB0_LO (R339). -/
abbrev TIM_CAP_TB0_LO (i : Nat) : Nat := 0x5060c + 0x20 * i
/-- TIM_CAP_TB0_HI (R339). -/
abbrev TIM_CAP_TB0_HI (i : Nat) : Nat := 0x50610 + 0x20 * i
/-- TIM_CAP_STAT (R339). -/
abbrev TIM_CAP_STAT (i : Nat) : Nat := 0x50614 + 0x20 * i
/-- ETH_DOM_MAP (R339). -/
abbrev ETH_DOM_MAP : Nat := 0x80000
/-- ETH_PTP_CFG (R339). -/
abbrev ETH_PTP_CFG : Nat := 0x80004
/-- ETH_PDELAY (R339). -/
abbrev ETH_PDELAY (i : Nat) : Nat := 0x80010 + 0x4 * i
/-- ETH_PTP_UNCORR (R339). -/
abbrev ETH_PTP_UNCORR : Nat := 0x80030
/-- ETH_DROP (R339). -/
abbrev ETH_DROP (i j : Nat) : Nat := 0x80100 + 0x20 * i + 0x4 * j
/-- ETH_GCL_LO (R339). -/
abbrev ETH_GCL_LO (i j : Nat) : Nat := 0x90000 + 0x1000 * i + 0x8 * j
/-- ETH_GCL_HI (R339). -/
abbrev ETH_GCL_HI (i j : Nat) : Nat := 0x90004 + 0x1000 * i + 0x8 * j
/-- CAN_CTL (R339). -/
abbrev CAN_CTL (i : Nat) : Nat := 0x60000 + 0x1000 * i
/-- CAN_NBT (R339). -/
abbrev CAN_NBT (i : Nat) : Nat := 0x60004 + 0x1000 * i
/-- CAN_DBT (R339). -/
abbrev CAN_DBT (i : Nat) : Nat := 0x60008 + 0x1000 * i
/-- CAN_STAT (R339). -/
abbrev CAN_STAT (i : Nat) : Nat := 0x6000c + 0x1000 * i
/-- CAN_TXREQ (R339). -/
abbrev CAN_TXREQ (i : Nat) : Nat := 0x60010 + 0x1000 * i
/-- CAN_TXABORT (R339). -/
abbrev CAN_TXABORT (i : Nat) : Nat := 0x60014 + 0x1000 * i
/-- CAN_BUSOFF_CNT (R339). -/
abbrev CAN_BUSOFF_CNT (i : Nat) : Nat := 0x60018 + 0x1000 * i
/-- CAN_FILT_ID (R339). -/
abbrev CAN_FILT_ID (i j : Nat) : Nat := 0x60040 + 0x1000 * i + 0x8 * j
/-- CAN_FILT_MASK (R339). -/
abbrev CAN_FILT_MASK (i j : Nat) : Nat := 0x60044 + 0x1000 * i + 0x8 * j
/-- CAN_RING_LO (R339). -/
abbrev CAN_RING_LO (i : Nat) : Nat := 0x60140 + 0x1000 * i
/-- CAN_RING_HI (R339). -/
abbrev CAN_RING_HI (i : Nat) : Nat := 0x60144 + 0x1000 * i
/-- CAN_RING_CFG (R339). -/
abbrev CAN_RING_CFG (i : Nat) : Nat := 0x60148 + 0x1000 * i
/-- CAN_RING_RD (R339). -/
abbrev CAN_RING_RD (i : Nat) : Nat := 0x6014c + 0x1000 * i
/-- CAN_TTC (R339). -/
abbrev CAN_TTC (i : Nat) : Nat := 0x60150 + 0x1000 * i
/-- CAN_TXB_HDR (R339). -/
abbrev CAN_TXB_HDR (i j : Nat) : Nat := 0x60200 + 0x1000 * i + 0x80 * j
/-- CAN_TXB_DLC (R339). -/
abbrev CAN_TXB_DLC (i j : Nat) : Nat := 0x60204 + 0x1000 * i + 0x80 * j
/-- CAN_TXB_DATA (R339). -/
abbrev CAN_TXB_DATA (i j k : Nat) : Nat := 0x60240 + 0x1000 * i + 0x80 * j + 0x4 * k
/-- PLK_CFG (R348). -/
abbrev PLK_CFG : Nat := 0xa30000
/-- PLK_STAT (R348). -/
abbrev PLK_STAT : Nat := 0xa30004
/-- PLK_LAG (R348). -/
abbrev PLK_LAG : Nat := 0xa30008
/-- PLK_LAG_MAX (R348). -/
abbrev PLK_LAG_MAX : Nat := 0xa3000c
/-- PLK_LAG_CNT (R348). -/
abbrev PLK_LAG_CNT : Nat := 0xa30010
/-- PLK_REPLAY (R348). -/
abbrev PLK_REPLAY (i : Nat) : Nat := 0xa30014 + 0x4 * i
/-- PWR_CFG (R364). -/
abbrev PWR_CFG : Nat := 0x20000
/-- PWR_LIMIT_STAT (R364). -/
abbrev PWR_LIMIT_STAT : Nat := 0x20010
/-- PWR_DOM_STAT (R364). -/
abbrev PWR_DOM_STAT (i : Nat) : Nat := 0x20100 + 0x4 * i
/-- PWR_CHIP_MW (R364). -/
abbrev PWR_CHIP_MW : Nat := 0x20014
/-- PWR_MEAN_1MS (R364). -/
abbrev PWR_MEAN_1MS : Nat := 0x20018
/-- PWR_MEAN_10MS (R364). -/
abbrev PWR_MEAN_10MS : Nat := 0x2001c
/-- PWR_ENERGY_LO (R364). -/
abbrev PWR_ENERGY_LO : Nat := 0x20020
/-- PWR_ENERGY_HI (R364). -/
abbrev PWR_ENERGY_HI : Nat := 0x20024
/-- PWR_RAIL_MV (R364). -/
abbrev PWR_RAIL_MV (i : Nat) : Nat := 0x20040 + 0x4 * i
/-- PWR_RAIL_MA (R364). -/
abbrev PWR_RAIL_MA (i : Nat) : Nat := 0x20080 + 0x4 * i
/-- PWR_DOM_CTL (R364). -/
abbrev PWR_DOM_CTL (i : Nat) : Nat := 0x20200 + 0x4 * i
/-- MON_TEMP (R364). -/
abbrev MON_TEMP (i : Nat) : Nat := 0xa60000 + 0x4 * i
/-- MON_TEMP_MAX (R364). -/
abbrev MON_TEMP_MAX : Nat := 0xa60100
/-- MON_DROOP_CNT (R364). -/
abbrev MON_DROOP_CNT (i : Nat) : Nat := 0xa60200 + 0x4 * i
/-- MON_PROC (R364). -/
abbrev MON_PROC : Nat := 0xa60300
/-- RCK_RESET (R378). -/
abbrev RCK_RESET : Nat := 0x30000
/-- RCK_LP (R378). -/
abbrev RCK_LP : Nat := 0x30010
/-- RCK_CAUSE (R378). -/
abbrev RCK_CAUSE : Nat := 0x30004
/-- RCK_WAKE_T_LO (R378). -/
abbrev RCK_WAKE_T_LO : Nat := 0x30014
/-- RCK_WAKE_T_HI (R378). -/
abbrev RCK_WAKE_T_HI : Nat := 0x30018
/-- RCK_BOOT (R378). -/
abbrev RCK_BOOT : Nat := 0x30030
/-- NVM_STAT (R378). -/
abbrev NVM_STAT : Nat := 0xa00000
/-- NVM_GEN (R378). -/
abbrev NVM_GEN : Nat := 0xa00004
/-- NVM_WEAR (R378). -/
abbrev NVM_WEAR : Nat := 0xa00008
/-- SEC_LC (R393). -/
abbrev SEC_LC : Nat := 0xa10000
/-- SEC_POLICY (R393). -/
abbrev SEC_POLICY : Nat := 0xa10004
/-- SEC_KEY_STAT (R393). -/
abbrev SEC_KEY_STAT : Nat := 0xa10008
/-- DBG_AUTH_STAT (R393). -/
abbrev DBG_AUTH_STAT : Nat := 0xa20000
/-- SEC_MIN_MSEQ (R393). -/
abbrev SEC_MIN_MSEQ : Nat := 0xa1000c
/-- SEC_UID (R393). -/
abbrev SEC_UID (i : Nat) : Nat := 0xa10010 + 0x4 * i
/-- DBG_AUTH_FAIL_CNT (R393). -/
abbrev DBG_AUTH_FAIL_CNT : Nat := 0xa20004
/-- GLB_ELOG_WR (R400). -/
abbrev GLB_ELOG_WR : Nat := 0x800
/-- GLB_ELOG_RD (R400). -/
abbrev GLB_ELOG_RD : Nat := 0x804
/-- GLB_ELOG_LOST (R400). -/
abbrev GLB_ELOG_LOST : Nat := 0x808
/-- GLB_ELOG_ENT (R400). -/
abbrev GLB_ELOG_ENT (i j : Nat) : Nat := 0x2000 + 0x20 * i + 0x4 * j
/-- SO_WIN (R147). -/
abbrev SO_WIN (i : Nat) : Nat := 0x140000 + 0x4 * i

/-! ### Fields -/

abbrev PCI_BAR2_BASE_LO_BASE : Fld := ⟨PCI_BAR2_BASE_LO, 16, 16⟩
abbrev PCI_BAR2_BASE_HI_BASE : Fld := ⟨PCI_BAR2_BASE_HI, 0, 32⟩
abbrev PCI_LINK_STAT_UP : Fld := ⟨PCI_LINK_STAT, 8, 1⟩
abbrev PCI_LINK_STAT_WIDTH : Fld := ⟨PCI_LINK_STAT, 4, 4⟩
abbrev PCI_LINK_STAT_RATE : Fld := ⟨PCI_LINK_STAT, 0, 4⟩
abbrev ARB_BEAD_MAP_REMAPPED (i : Nat) : Fld := ⟨ARB_BEAD_MAP i, 31, 1⟩
abbrev ARB_BEAD_MAP_Y (i : Nat) : Fld := ⟨ARB_BEAD_MAP i, 19, 7⟩
abbrev ARB_BEAD_MAP_X (i : Nat) : Fld := ⟨ARB_BEAD_MAP i, 13, 6⟩
abbrev ARB_BEAD_MAP_PHYS (i : Nat) : Fld := ⟨ARB_BEAD_MAP i, 0, 13⟩
abbrev ARB_FAC_MAP_REMAPPED (i : Nat) : Fld := ⟨ARB_FAC_MAP i, 31, 1⟩
abbrev ARB_FAC_MAP_PHYS (i : Nat) : Fld := ⟨ARB_FAC_MAP i, 0, 6⟩
abbrev ARB_REMAP_GEN_GEN : Fld := ⟨ARB_REMAP_GEN, 0, 32⟩
abbrev GLB_ID_MEMBER : Fld := ⟨GLB_ID, 24, 8⟩
abbrev GLB_ID_STEPPING : Fld := ⟨GLB_ID, 16, 8⟩
abbrev GLB_ID_GRADE : Fld := ⟨GLB_ID, 8, 8⟩
abbrev GLB_ARITH_SIG_SIG : Fld := ⟨GLB_ARITH_SIG, 0, 32⟩
abbrev GLB_CHIP_ID_CHIP : Fld := ⟨GLB_CHIP_ID, 0, 4⟩
abbrev FAC_DESC_LO_ADDR_LO (i : Nat) : Fld := ⟨FAC_DESC_LO i, 6, 26⟩
abbrev FAC_DESC_HI_ADDR_HI (i : Nat) : Fld := ⟨FAC_DESC_HI i, 0, 32⟩
abbrev FAC_URGENT_LO_ADDR_LO (i : Nat) : Fld := ⟨FAC_URGENT_LO i, 6, 26⟩
abbrev FAC_URGENT_HI_ADDR_HI (i : Nat) : Fld := ⟨FAC_URGENT_HI i, 0, 32⟩
abbrev FAC_CTL_ABORT (i : Nat) : Fld := ⟨FAC_CTL i, 2, 1⟩
abbrev FAC_CTL_RESUME (i : Nat) : Fld := ⟨FAC_CTL i, 1, 1⟩
abbrev FAC_CTL_PREEMPT (i : Nat) : Fld := ⟨FAC_CTL i, 0, 1⟩
abbrev FAC_STATUS_CTX_VALID (i : Nat) : Fld := ⟨FAC_STATUS i, 7, 1⟩
abbrev FAC_STATUS_QDEPTH (i : Nat) : Fld := ⟨FAC_STATUS i, 4, 3⟩
abbrev FAC_STATUS_STATE (i : Nat) : Fld := ⟨FAC_STATUS i, 0, 3⟩
abbrev FAC_LAST_TASK (i : Nat) : Fld := ⟨FAC_LAST i, 16, 16⟩
abbrev FAC_LAST_ST (i : Nat) : Fld := ⟨FAC_LAST i, 0, 16⟩
abbrev FAC_FLAGS_COMBINE_REFUSED (i : Nat) : Fld := ⟨FAC_FLAGS i, 7, 1⟩
abbrev FAC_FLAGS_DESC_ERR (i : Nat) : Fld := ⟨FAC_FLAGS i, 6, 1⟩
abbrev FAC_FLAGS_ECC (i : Nat) : Fld := ⟨FAC_FLAGS i, 5, 1⟩
abbrev FAC_FLAGS_DELTA_REBUILD (i : Nat) : Fld := ⟨FAC_FLAGS i, 4, 1⟩
abbrev FAC_FLAGS_QOVF (i : Nat) : Fld := ⟨FAC_FLAGS i, 3, 1⟩
abbrev FAC_FLAGS_OVERFLOW (i : Nat) : Fld := ⟨FAC_FLAGS i, 2, 1⟩
abbrev FAC_FLAGS_NAN_SEEN (i : Nat) : Fld := ⟨FAC_FLAGS i, 1, 1⟩
abbrev FAC_FLAGS_SATURATED (i : Nat) : Fld := ⟨FAC_FLAGS i, 0, 1⟩
abbrev FAC_DELTA_CNT_UPDATED (i : Nat) : Fld := ⟨FAC_DELTA_CNT i, 16, 16⟩
abbrev FAC_DELTA_CNT_FULL (i : Nat) : Fld := ⟨FAC_DELTA_CNT i, 0, 16⟩
abbrev FAC_ATTN_CNT_DEEP_ROWS (i : Nat) : Fld := ⟨FAC_ATTN_CNT i, 16, 16⟩
abbrev FAC_ATTN_CNT_RESCALES (i : Nat) : Fld := ⟨FAC_ATTN_CNT i, 0, 16⟩
abbrev BEAD_CTL_STOP (i : Nat) : Fld := ⟨BEAD_CTL i, 3, 1⟩
abbrev BEAD_CTL_RESUME (i : Nat) : Fld := ⟨BEAD_CTL i, 2, 1⟩
abbrev BEAD_CTL_YIELD_REQ (i : Nat) : Fld := ⟨BEAD_CTL i, 1, 1⟩
abbrev BEAD_CTL_START (i : Nat) : Fld := ⟨BEAD_CTL i, 0, 1⟩
abbrev BEAD_STATUS_YPEND (i : Nat) : Fld := ⟨BEAD_STATUS i, 16, 1⟩
abbrev BEAD_STATUS_CAUSE (i : Nat) : Fld := ⟨BEAD_STATUS i, 8, 8⟩
abbrev BEAD_STATUS_STATE (i : Nat) : Fld := ⟨BEAD_STATUS i, 0, 3⟩
abbrev BEAD_FLAGS_MOV_ERR (i : Nat) : Fld := ⟨BEAD_FLAGS i, 5, 1⟩
abbrev BEAD_FLAGS_YLATE (i : Nat) : Fld := ⟨BEAD_FLAGS i, 4, 1⟩
abbrev BEAD_FLAGS_REMOTE_ERR (i : Nat) : Fld := ⟨BEAD_FLAGS i, 3, 1⟩
abbrev BEAD_FLAGS_ECC (i : Nat) : Fld := ⟨BEAD_FLAGS i, 2, 1⟩
abbrev BEAD_FLAGS_ANCHOR (i : Nat) : Fld := ⟨BEAD_FLAGS i, 1, 1⟩
abbrev BEAD_FLAGS_RANGE (i : Nat) : Fld := ⟨BEAD_FLAGS i, 0, 1⟩
abbrev BEAD_WIN_EPOCH (i : Nat) : Fld := ⟨BEAD_WIN i, 16, 16⟩
abbrev BEAD_WIN_WIN (i : Nat) : Fld := ⟨BEAD_WIN i, 0, 16⟩
abbrev BEAD_MOV_CTL_GO (i : Nat) : Fld := ⟨BEAD_MOV_CTL i, 31, 1⟩
abbrev BEAD_MOV_CTL_ERR_SO (i : Nat) : Fld := ⟨BEAD_MOV_CTL i, 14, 14⟩
abbrev BEAD_MOV_CTL_DONE_SO (i : Nat) : Fld := ⟨BEAD_MOV_CTL i, 0, 14⟩
abbrev BEAD_MOV_STAT_QDEPTH (i : Nat) : Fld := ⟨BEAD_MOV_STAT i, 16, 2⟩
abbrev BEAD_MOV_STAT_ST (i : Nat) : Fld := ⟨BEAD_MOV_STAT i, 0, 16⟩
abbrev MM_CTL_REQ (i : Nat) : Fld := ⟨MM_CTL i, 0, 2⟩
abbrev MM_STATUS_LAST_ST (i : Nat) : Fld := ⟨MM_STATUS i, 16, 16⟩
abbrev MM_STATUS_INFLIGHT (i : Nat) : Fld := ⟨MM_STATUS i, 8, 7⟩
abbrev MM_STATUS_STATE (i : Nat) : Fld := ⟨MM_STATUS i, 0, 3⟩
abbrev MM_ECC_CORR (i : Nat) : Fld := ⟨MM_ECC i, 0, 32⟩
abbrev MM_REJ_COUNT (i : Nat) : Fld := ⟨MM_REJ i, 0, 32⟩
abbrev ARB_WIN_BASE_BASE (i : Nat) : Fld := ⟨ARB_WIN_BASE i, 6, 26⟩
abbrev ARB_WIN_SIZE_SIZE (i : Nat) : Fld := ⟨ARB_WIN_SIZE i, 6, 14⟩
abbrev ARB_WIN_CTL_EPOCH (i : Nat) : Fld := ⟨ARB_WIN_CTL i, 16, 16⟩
abbrev ARB_WIN_CTL_ERR (i : Nat) : Fld := ⟨ARB_WIN_CTL i, 4, 1⟩
abbrev ARB_WIN_CTL_BUSY (i : Nat) : Fld := ⟨ARB_WIN_CTL i, 3, 1⟩
abbrev ARB_WIN_CTL_STATE (i : Nat) : Fld := ⟨ARB_WIN_CTL i, 2, 1⟩
abbrev ARB_WIN_CTL_CLOSE (i : Nat) : Fld := ⟨ARB_WIN_CTL i, 1, 1⟩
abbrev ARB_WIN_CTL_OPEN (i : Nat) : Fld := ⟨ARB_WIN_CTL i, 0, 1⟩
abbrev ARB_WIN_REJ_COUNT (i : Nat) : Fld := ⟨ARB_WIN_REJ i, 0, 32⟩
abbrev ARB_WAIT_DEF_TMO : Fld := ⟨ARB_WAIT_DEF, 0, 16⟩
abbrev ARB_WAIT_TMO_CNT_COUNT : Fld := ⟨ARB_WAIT_TMO_CNT, 0, 32⟩
abbrev ARB_CLASP_STAT_MASTER : Fld := ⟨ARB_CLASP_STAT, 16, 13⟩
abbrev ARB_CLASP_STAT_COUNT : Fld := ⟨ARB_CLASP_STAT, 0, 16⟩
abbrev ARB_CLASS_CLASS (i : Nat) : Fld := ⟨ARB_CLASS i, 0, 32⟩
abbrev ARB_CONFL_COUNT (i : Nat) : Fld := ⟨ARB_CONFL i, 0, 32⟩
abbrev IFE_CTL_LANES (i : Nat) : Fld := ⟨IFE_CTL i, 18, 2⟩
abbrev IFE_CTL_DT (i : Nat) : Fld := ⟨IFE_CTL i, 12, 6⟩
abbrev IFE_CTL_LAYOUT (i : Nat) : Fld := ⟨IFE_CTL i, 10, 1⟩
abbrev IFE_CTL_PRED (i : Nat) : Fld := ⟨IFE_CTL i, 9, 1⟩
abbrev IFE_CTL_DECOMP (i : Nat) : Fld := ⟨IFE_CTL i, 6, 3⟩
abbrev IFE_CTL_DEPTH (i : Nat) : Fld := ⟨IFE_CTL i, 4, 2⟩
abbrev IFE_CTL_VC (i : Nat) : Fld := ⟨IFE_CTL i, 2, 2⟩
abbrev IFE_CTL_SOURCE (i : Nat) : Fld := ⟨IFE_CTL i, 0, 2⟩
abbrev IFE_CUT_ROI_EN (i : Nat) : Fld := ⟨IFE_CUT i, 12, 1⟩
abbrev IFE_CUT_BATCH (i : Nat) : Fld := ⟨IFE_CUT i, 6, 6⟩
abbrev IFE_CUT_ROI_MAXAGE (i : Nat) : Fld := ⟨IFE_CUT i, 4, 2⟩
abbrev IFE_CUT_REFRESH_DIV (i : Nat) : Fld := ⟨IFE_CUT i, 0, 4⟩
abbrev IFE_STAT_DSC_FREE (i : Nat) : Fld := ⟨IFE_STAT i, 8, 7⟩
abbrev IFE_STAT_STATE (i : Nat) : Fld := ⟨IFE_STAT i, 0, 2⟩
abbrev SLE_CTL_STO (i : Nat) : Fld := ⟨SLE_CTL i, 4, 1⟩
abbrev SLE_CTL_SS1 (i : Nat) : Fld := ⟨SLE_CTL i, 3, 1⟩
abbrev SLE_CTL_STOP (i : Nat) : Fld := ⟨SLE_CTL i, 2, 1⟩
abbrev SLE_CTL_RUN (i : Nat) : Fld := ⟨SLE_CTL i, 1, 1⟩
abbrev SLE_STATUS_GATED (i : Nat) : Fld := ⟨SLE_STATUS i, 7, 1⟩
abbrev SLE_STATUS_STOPPING (i : Nat) : Fld := ⟨SLE_STATUS i, 6, 1⟩
abbrev SLE_STATUS_SP_LATE (i : Nat) : Fld := ⟨SLE_STATUS i, 5, 1⟩
abbrev SLE_STATUS_ENC_EXTRAP (i : Nat) : Fld := ⟨SLE_STATUS i, 4, 1⟩
abbrev SLE_STATUS_OUT_EN (i : Nat) : Fld := ⟨SLE_STATUS i, 3, 1⟩
abbrev SLE_STATUS_STATE (i : Nat) : Fld := ⟨SLE_STATUS i, 0, 2⟩
abbrev SLE_FAULT_FIRST (i : Nat) : Fld := ⟨SLE_FAULT i, 16, 5⟩
abbrev SLE_FAULT_FE_WARN (i : Nat) : Fld := ⟨SLE_FAULT i, 10, 1⟩
abbrev SLE_FAULT_FAULT (i : Nat) : Fld := ⟨SLE_FAULT i, 0, 10⟩
abbrev SLE_SD_CFG_ALIGN (i : Nat) : Fld := ⟨SLE_SD_CFG i, 20, 1⟩
abbrev SLE_SD_CFG_EDGE (i : Nat) : Fld := ⟨SLE_SD_CFG i, 19, 1⟩
abbrev SLE_SD_CFG_SD_DIV (i : Nat) : Fld := ⟨SLE_SD_CFG i, 12, 7⟩
abbrev SLE_SD_CFG_CLK_SRC (i : Nat) : Fld := ⟨SLE_SD_CFG i, 11, 1⟩
abbrev SLE_SD_CFG_OSR (i : Nat) : Fld := ⟨SLE_SD_CFG i, 2, 9⟩
abbrev SLE_SD_CFG_ORDER (i : Nat) : Fld := ⟨SLE_SD_CFG i, 0, 2⟩
abbrev SLE_ENC_CFG_ENC_MISS (i : Nat) : Fld := ⟨SLE_ENC_CFG i, 26, 2⟩
abbrev SLE_ENC_CFG_ABZ_FILT (i : Nat) : Fld := ⟨SLE_ENC_CFG i, 22, 4⟩
abbrev SLE_ENC_CFG_SSI_DIV (i : Nat) : Fld := ⟨SLE_ENC_CFG i, 14, 8⟩
abbrev SLE_ENC_CFG_GRAY (i : Nat) : Fld := ⟨SLE_ENC_CFG i, 12, 1⟩
abbrev SLE_ENC_CFG_PAR (i : Nat) : Fld := ⟨SLE_ENC_CFG i, 10, 2⟩
abbrev SLE_ENC_CFG_EBITS (i : Nat) : Fld := ⟨SLE_ENC_CFG i, 7, 3⟩
abbrev SLE_ENC_CFG_NBITS (i : Nat) : Fld := ⟨SLE_ENC_CFG i, 1, 6⟩
abbrev SLE_ENC_CFG_MODE (i : Nat) : Fld := ⟨SLE_ENC_CFG i, 0, 1⟩
abbrev SLE_SP_COMMIT_SEQ (i : Nat) : Fld := ⟨SLE_SP_COMMIT i, 0, 16⟩
abbrev HLT_BIND_NODE (i : Nat) : Fld := ⟨HLT_BIND i, 16, 13⟩
abbrev HLT_BIND_BASE (i : Nat) : Fld := ⟨HLT_BIND i, 6, 10⟩
abbrev HLT_LCFG_ACT_EN (i : Nat) : Fld := ⟨HLT_LCFG i, 31, 1⟩
abbrev HLT_LCFG_IMM_N (i : Nat) : Fld := ⟨HLT_LCFG i, 28, 3⟩
abbrev HLT_LCFG_ESIZE (i : Nat) : Fld := ⟨HLT_LCFG i, 24, 4⟩
abbrev HLT_LCFG_GSIZE (i : Nat) : Fld := ⟨HLT_LCFG i, 20, 4⟩
abbrev HLT_LCFG_VON_DLY (i : Nat) : Fld := ⟨HLT_LCFG i, 8, 12⟩
abbrev HLT_LCFG_TRIG_DIV (i : Nat) : Fld := ⟨HLT_LCFG i, 0, 8⟩
abbrev HLT_COMMIT_CONF (i : Nat) : Fld := ⟨HLT_COMMIT i, 16, 16⟩
abbrev HLT_COMMIT_CYC (i : Nat) : Fld := ⟨HLT_COMMIT i, 8, 8⟩
abbrev HLT_COMMIT_FLAGS (i : Nat) : Fld := ⟨HLT_COMMIT i, 0, 5⟩
abbrev HLT_LSTAT_IMM_CNT (i : Nat) : Fld := ⟨HLT_LSTAT i, 8, 4⟩
abbrev HLT_LSTAT_ACTED (i : Nat) : Fld := ⟨HLT_LSTAT i, 4, 1⟩
abbrev HLT_LSTAT_RES_LATE (i : Nat) : Fld := ⟨HLT_LSTAT i, 3, 1⟩
abbrev HLT_LSTAT_UNCAL_L (i : Nat) : Fld := ⟨HLT_LSTAT i, 2, 1⟩
abbrev HLT_LSTAT_UNCAL_H (i : Nat) : Fld := ⟨HLT_LSTAT i, 1, 1⟩
abbrev HLT_LSTAT_LINK_DOWN (i : Nat) : Fld := ⟨HLT_LSTAT i, 0, 1⟩
abbrev SAF_STATUS_ESTOP_B : Fld := ⟨SAF_STATUS, 7, 1⟩
abbrev SAF_STATUS_ESTOP_A : Fld := ⟨SAF_STATUS, 6, 1⟩
abbrev SAF_STATUS_SS1_TIMER : Fld := ⟨SAF_STATUS, 5, 1⟩
abbrev SAF_STATUS_STO_B : Fld := ⟨SAF_STATUS, 4, 1⟩
abbrev SAF_STATUS_STO_A : Fld := ⟨SAF_STATUS, 3, 1⟩
abbrev SAF_STATUS_STATE : Fld := ⟨SAF_STATUS, 0, 2⟩
abbrev SAF_FIRST_CAUSE_CAUSE : Fld := ⟨SAF_FIRST_CAUSE, 0, 8⟩
abbrev HMK_LAST_NET : Fld := ⟨HMK_LAST, 20, 6⟩
abbrev HMK_LAST_VERDICT : Fld := ⟨HMK_LAST, 16, 4⟩
abbrev HMK_LAST_CYCLE : Fld := ⟨HMK_LAST, 0, 16⟩
abbrev RNG_BASE_LO_BASE (i : Nat) : Fld := ⟨RNG_BASE_LO i, 12, 20⟩
abbrev RNG_BASE_HI_BASE (i : Nat) : Fld := ⟨RNG_BASE_HI i, 0, 32⟩
abbrev RNG_CFG_FUNC (i : Nat) : Fld := ⟨RNG_CFG i, 24, 8⟩
abbrev RNG_CFG_LOG2SIZE (i : Nat) : Fld := ⟨RNG_CFG i, 16, 5⟩
abbrev RNG_CFG_MODE (i : Nat) : Fld := ⟨RNG_CFG i, 8, 1⟩
abbrev RNG_CFG_DIR (i : Nat) : Fld := ⟨RNG_CFG i, 0, 1⟩
abbrev RNG_LINK_PEER (i : Nat) : Fld := ⟨RNG_LINK i, 16, 16⟩
abbrev RNG_LINK_IRQ_EN (i : Nat) : Fld := ⟨RNG_LINK i, 15, 1⟩
abbrev RNG_LINK_VECTOR (i : Nat) : Fld := ⟨RNG_LINK i, 0, 11⟩
abbrev RNG_PI_INDEX (i : Nat) : Fld := ⟨RNG_PI i, 0, 32⟩
abbrev RNG_CI_INDEX (i : Nat) : Fld := ⟨RNG_CI i, 0, 32⟩
abbrev RNG_CTL_COAL (i : Nat) : Fld := ⟨RNG_CTL i, 16, 16⟩
abbrev RNG_CTL_CAUSE (i : Nat) : Fld := ⟨RNG_CTL i, 8, 8⟩
abbrev RNG_CTL_STATE (i : Nat) : Fld := ⟨RNG_CTL i, 5, 3⟩
abbrev RNG_CTL_EVENTS (i : Nat) : Fld := ⟨RNG_CTL i, 3, 1⟩
abbrev RNG_CTL_ENABLE (i : Nat) : Fld := ⟨RNG_CTL i, 0, 1⟩
abbrev RNG_WITHHELD_COUNT (i : Nat) : Fld := ⟨RNG_WITHHELD i, 0, 32⟩
abbrev MBX_CTL_VECTOR (i : Nat) : Fld := ⟨MBX_CTL i, 8, 11⟩
abbrev MBX_CTL_IRQ_EN (i : Nat) : Fld := ⟨MBX_CTL i, 3, 1⟩
abbrev MBX_CTL_BUSY (i : Nat) : Fld := ⟨MBX_CTL i, 2, 1⟩
abbrev MBX_CTL_DONE (i : Nat) : Fld := ⟨MBX_CTL i, 1, 1⟩
abbrev MBX_CTL_GO (i : Nat) : Fld := ⟨MBX_CTL i, 0, 1⟩
abbrev MBX_FW_STAGE : Fld := ⟨MBX_FW, 0, 3⟩
abbrev MBX_HOST_SESSION : Fld := ⟨MBX_HOST, 16, 16⟩
abbrev MBX_HOST_PERIOD : Fld := ⟨MBX_HOST, 6, 10⟩
abbrev MBX_HOST_ATTACHED : Fld := ⟨MBX_HOST, 3, 1⟩
abbrev MBX_HOST_LOST : Fld := ⟨MBX_HOST, 2, 1⟩
abbrev MBX_HOST_POLICY : Fld := ⟨MBX_HOST, 0, 2⟩
abbrev MBX_DATA_W (i j : Nat) : Fld := ⟨MBX_DATA i j, 0, 32⟩
abbrev GLB_FW_VER_MAJOR (i : Nat) : Fld := ⟨GLB_FW_VER i, 24, 8⟩
abbrev GLB_FW_VER_MINOR (i : Nat) : Fld := ⟨GLB_FW_VER i, 16, 8⟩
abbrev GLB_FW_VER_BUILD (i : Nat) : Fld := ⟨GLB_FW_VER i, 0, 16⟩
abbrev GLB_FW_SET_OVERRIDE : Fld := ⟨GLB_FW_SET, 31, 1⟩
abbrev GLB_FW_SET_SLOT : Fld := ⟨GLB_FW_SET, 24, 1⟩
abbrev GLB_FW_SET_ENTRY : Fld := ⟨GLB_FW_SET, 16, 8⟩
abbrev GLB_FW_SET_MSEQ : Fld := ⟨GLB_FW_SET, 0, 16⟩
abbrev GLB_PROC_STAT_RESTARTS (i : Nat) : Fld := ⟨GLB_PROC_STAT i, 24, 8⟩
abbrev GLB_PROC_STAT_CAUSE (i : Nat) : Fld := ⟨GLB_PROC_STAT i, 12, 4⟩
abbrev GLB_PROC_STAT_STATE (i : Nat) : Fld := ⟨GLB_PROC_STAT i, 0, 3⟩
abbrev TIM_TB_LO_NS (i : Nat) : Fld := ⟨TIM_TB_LO i, 16, 16⟩
abbrev TIM_TB_LO_FRAC (i : Nat) : Fld := ⟨TIM_TB_LO i, 0, 16⟩
abbrev TIM_TB_CFG_STEPS (i : Nat) : Fld := ⟨TIM_TB_CFG i, 16, 16⟩
abbrev TIM_TB_CFG_STEP_REF (i : Nat) : Fld := ⟨TIM_TB_CFG i, 3, 1⟩
abbrev TIM_TB_CFG_FOLLOW (i : Nat) : Fld := ⟨TIM_TB_CFG i, 0, 3⟩
abbrev TIM_PO_CFG_ARM (i : Nat) : Fld := ⟨TIM_PO_CFG i, 8, 1⟩
abbrev TIM_PO_CFG_POL (i : Nat) : Fld := ⟨TIM_PO_CFG i, 4, 1⟩
abbrev TIM_PO_CFG_TB (i : Nat) : Fld := ⟨TIM_PO_CFG i, 0, 3⟩
abbrev TIM_CAP_CFG_LEVEL (i : Nat) : Fld := ⟨TIM_CAP_CFG i, 16, 5⟩
abbrev TIM_CAP_CFG_EDGE (i : Nat) : Fld := ⟨TIM_CAP_CFG i, 4, 2⟩
abbrev TIM_CAP_CFG_ENABLE (i : Nat) : Fld := ⟨TIM_CAP_CFG i, 3, 1⟩
abbrev TIM_CAP_CFG_TB (i : Nat) : Fld := ⟨TIM_CAP_CFG i, 0, 3⟩
abbrev PLK_CFG_EQUALISE : Fld := ⟨PLK_CFG, 8, 1⟩
abbrev PLK_CFG_NCHIPS : Fld := ⟨PLK_CFG, 4, 4⟩
abbrev PLK_CFG_MODE : Fld := ⟨PLK_CFG, 0, 2⟩
abbrev PWR_CFG_CAP : Fld := ⟨PWR_CFG, 16, 8⟩
abbrev PWR_CFG_MESH_OP : Fld := ⟨PWR_CFG, 5, 3⟩
abbrev PWR_CFG_COSCALE : Fld := ⟨PWR_CFG, 4, 1⟩
abbrev PWR_CFG_IDLE_OP : Fld := ⟨PWR_CFG, 0, 3⟩
abbrev PWR_LIMIT_STAT_TELEM_LOST : Fld := ⟨PWR_LIMIT_STAT, 9, 1⟩
abbrev PWR_LIMIT_STAT_SUPPLY : Fld := ⟨PWR_LIMIT_STAT, 8, 1⟩
abbrev PWR_LIMIT_STAT_CAP_UNMET : Fld := ⟨PWR_LIMIT_STAT, 7, 1⟩
abbrev PWR_LIMIT_STAT_SHORT : Fld := ⟨PWR_LIMIT_STAT, 6, 1⟩
abbrev PWR_LIMIT_STAT_LONG : Fld := ⟨PWR_LIMIT_STAT, 5, 1⟩
abbrev PWR_LIMIT_STAT_CURRENT : Fld := ⟨PWR_LIMIT_STAT, 4, 1⟩
abbrev PWR_LIMIT_STAT_TEMP : Fld := ⟨PWR_LIMIT_STAT, 3, 1⟩
abbrev PWR_LIMIT_STAT_DROOP : Fld := ⟨PWR_LIMIT_STAT, 2, 1⟩
abbrev PWR_LIMIT_STAT_CAP_ACTIVE : Fld := ⟨PWR_LIMIT_STAT, 1, 1⟩
abbrev PWR_LIMIT_STAT_CLAMP_ACTIVE : Fld := ⟨PWR_LIMIT_STAT, 0, 1⟩
abbrev PWR_DOM_STAT_REQ (i : Nat) : Fld := ⟨PWR_DOM_STAT i, 29, 3⟩
abbrev PWR_DOM_STAT_SW_CEIL (i : Nat) : Fld := ⟨PWR_DOM_STAT i, 26, 3⟩
abbrev PWR_DOM_STAT_HW_CEIL (i : Nat) : Fld := ⟨PWR_DOM_STAT i, 23, 3⟩
abbrev PWR_DOM_STAT_CO_CEIL (i : Nat) : Fld := ⟨PWR_DOM_STAT i, 20, 3⟩
abbrev PWR_DOM_STAT_PAIR_CEIL (i : Nat) : Fld := ⟨PWR_DOM_STAT i, 17, 3⟩
abbrev PWR_DOM_STAT_GRANTED (i : Nat) : Fld := ⟨PWR_DOM_STAT i, 14, 3⟩
abbrev PWR_DOM_STAT_PSTATE (i : Nat) : Fld := ⟨PWR_DOM_STAT i, 0, 2⟩
abbrev RCK_RESET_KEY : Fld := ⟨RCK_RESET, 16, 16⟩
abbrev RCK_RESET_DEVICE : Fld := ⟨RCK_RESET, 0, 1⟩
abbrev RCK_LP_LAST_ST : Fld := ⟨RCK_LP, 16, 16⟩
abbrev RCK_LP_STATE : Fld := ⟨RCK_LP, 8, 3⟩
abbrev RCK_LP_WAKE_PIN : Fld := ⟨RCK_LP, 3, 1⟩
abbrev RCK_LP_WAKE_TIME : Fld := ⟨RCK_LP, 2, 1⟩
abbrev RCK_LP_REQ : Fld := ⟨RCK_LP, 0, 2⟩
abbrev SEC_LC_PENDING : Fld := ⟨SEC_LC, 8, 4⟩
abbrev SEC_LC_STATE : Fld := ⟨SEC_LC, 0, 4⟩
abbrev SEC_POLICY_SEAL : Fld := ⟨SEC_POLICY, 2, 1⟩
abbrev SEC_POLICY_REQUIRE_ENC : Fld := ⟨SEC_POLICY, 1, 1⟩
abbrev SEC_POLICY_FW_SET_OVERRIDE : Fld := ⟨SEC_POLICY, 0, 1⟩
abbrev SEC_KEY_STAT_DBG : Fld := ⟨SEC_KEY_STAT, 16, 1⟩
abbrev SEC_KEY_STAT_AES_REV : Fld := ⟨SEC_KEY_STAT, 12, 4⟩
abbrev SEC_KEY_STAT_AES : Fld := ⟨SEC_KEY_STAT, 8, 4⟩
abbrev SEC_KEY_STAT_PUB_REV : Fld := ⟨SEC_KEY_STAT, 4, 4⟩
abbrev SEC_KEY_STAT_PUB : Fld := ⟨SEC_KEY_STAT, 0, 4⟩
abbrev DBG_AUTH_STAT_PERM : Fld := ⟨DBG_AUTH_STAT, 14, 9⟩
abbrev DBG_AUTH_STAT_FAILS : Fld := ⟨DBG_AUTH_STAT, 12, 2⟩
abbrev DBG_AUTH_STAT_LOCKOUT : Fld := ⟨DBG_AUTH_STAT, 11, 1⟩

/-! ### The table -/

/-- Block GLB. -/
def regsGLB : List RegRow := [
  ⟨0x0, 0, 1, 0, 1, (if Config.gradeXT then 0x09B00200 else 0x09B00100), 0, 0, 0, 0, 0, .any⟩,
  ⟨0x4, 0, 1, 0, 1, 0x5a170b00, 0, 0, 0, 0, 0, .any⟩,
  ⟨0x8, 0, 1, 0, 1, 0, 0, 0, 0, 0, 0, .any⟩,
  ⟨0x10, 0x4, 3, 0, 1, 0, 0, 0, 0, 0, 0, .any⟩,
  ⟨0x1c, 0, 1, 0, 1, 0, 0, 0, 0, 0, 0, .any⟩,
  ⟨0x20, 0x4, 3, 0, 1, 0, 0, 0, 0, 0, 0, .any⟩,
  ⟨0x2c, 0, 1, 0, 1, 0, 0, 0, 0, 0xffffffff, 0, .scp⟩,
  ⟨0x30, 0, 1, 0, 1, 0, 0, 0, 0, 0xffffffff, 0, .hip⟩,
  ⟨0x100, 0x40, 3, 0x4, 12, 0, 0, 0, 0, 0, 0, .any⟩,
  ⟨0x800, 0, 1, 0, 1, 0, 0, 0, 0, 0, 0, .any⟩,
  ⟨0x804, 0, 1, 0, 1, 0, 0xffffffff, 0, 0, 0, 0, .hipHost⟩,
  ⟨0x808, 0, 1, 0, 1, 0, 0, 0, 0, 0, 0xffffffff, .any⟩,
  ⟨0x2000, 0x20, 256, 0x4, 8, 0, 0, 0, 0, 0, 0, .any⟩]

/-- Block MBX. -/
def regsMBX : List RegRow := [
  ⟨0x10000, 0x4, 16, 0, 1, 0, 0x7ff08, 0x2, 0x1, 0, 0, .mbx⟩,
  ⟨0x10040, 0, 1, 0, 1, 0, 0, 0, 0, 0, 0, .mbx⟩,
  ⟨0x10044, 0, 1, 0, 1, 0, 0, 0, 0, 0xffffffff, 0, .mbx⟩,
  ⟨0x10048, 0, 1, 0, 1, 0, 0, 0, 0, 0, 0, .mbx⟩,
  ⟨0x11000, 0x100, 16, 0x4, 64, 0, 0xffffffff, 0, 0, 0, 0, .mbx⟩]

/-- Block PWR. -/
def regsPWR : List RegRow := [
  ⟨0x20000, 0, 1, 0, 1, 0x9600f2, 0xff00f7, 0, 0, 0, 0, .pwr⟩,
  ⟨0x20010, 0, 1, 0, 1, 0, 0, 0x3fc, 0, 0, 0, .pwr⟩,
  ⟨0x20014, 0, 1, 0, 1, 0, 0, 0, 0, 0, 0, .pwr⟩,
  ⟨0x20018, 0, 1, 0, 1, 0, 0, 0, 0, 0, 0, .pwr⟩,
  ⟨0x2001c, 0, 1, 0, 1, 0, 0, 0, 0, 0, 0, .pwr⟩,
  ⟨0x20020, 0, 1, 0, 1, 0, 0, 0, 0, 0, 0, .pwr⟩,
  ⟨0x20024, 0, 1, 0, 1, 0, 0, 0, 0, 0, 0, .pwr⟩,
  ⟨0x20040, 0x4, 9, 0, 1, 0, 0, 0, 0, 0, 0, .pwr⟩,
  ⟨0x20080, 0x4, 9, 0, 1, 0, 0, 0, 0, 0, 0, .pwr⟩,
  ⟨0x20100, 0x4, 50, 0, 1, 0xffffc000, 0, 0, 0, 0, 0, .pwr⟩,
  ⟨0x20200, 0x4, 50, 0, 1, 0x1, 0x1, 0, 0, 0, 0, .scpHip⟩]

/-- Block RCK. -/
def regsRCK : List RegRow := [
  ⟨0x30000, 0, 1, 0, 1, 0, 0, 0, 0, 0xffffffff, 0, .hipHost⟩,
  ⟨0x30004, 0, 1, 0, 1, 0, 0, 0, 0, 0, 0, .any⟩,
  ⟨0x30010, 0, 1, 0, 1, 0, 0xc, 0, 0, 0x3, 0, .any⟩,
  ⟨0x30014, 0, 1, 0, 1, 0, 0xffffffff, 0, 0, 0, 0, .any⟩,
  ⟨0x30018, 0, 1, 0, 1, 0, 0xffffffff, 0, 0, 0, 0, .any⟩,
  ⟨0x30030, 0, 1, 0, 1, 0, 0x1, 0, 0, 0, 0, .hipHost⟩]

/-- Block SAF. -/
def regsSAF : List RegRow := [
  ⟨0x40000, 0, 1, 0, 1, 0x18, 0, 0, 0, 0, 0, .sfp⟩,
  ⟨0x40004, 0, 1, 0, 1, 0, 0, 0, 0, 0, 0, .sfp⟩,
  ⟨0x40008, 0, 1, 0, 1, 0, 0, 0, 0, 0, 0, .sfp⟩,
  ⟨0x4000c, 0, 1, 0, 1, 0, 0, 0, 0, 0xffffffff, 0, .sfp⟩,
  ⟨0x40010, 0x4, 12, 0, 1, 0, 0, 0, 0, 0, 0, .sfp⟩,
  ⟨0x40100, 0, 1, 0, 1, 0, 0, 0, 0, 0, 0, .sfp⟩,
  ⟨0x40104, 0, 1, 0, 1, 0, 0, 0, 0, 0, 0xffffffff, .sfp⟩,
  ⟨0x40108, 0, 1, 0, 1, 0, 0, 0, 0, 0, 0xffffffff, .sfp⟩,
  ⟨0x40200, 0, 1, 0, 1, 0, 0, 0, 0, 0, 0xffffffff, .sfp⟩,
  ⟨0x40300, 0, 1, 0, 1, 0, 0, 0, 0, 0, 0, .sfp⟩]

/-- Block TIM. -/
def regsTIM : List RegRow := [
  ⟨0x50000, 0x40, 8, 0, 1, 0, 0, 0, 0, 0, 0, .tim⟩,
  ⟨0x50004, 0x40, 8, 0, 1, 0, 0, 0, 0, 0, 0, .tim⟩,
  ⟨0x50008, 0x40, 8, 0, 1, 0, 0xffffffff, 0, 0, 0, 0, .tim⟩,
  ⟨0x5000c, 0x40, 8, 0, 1, 0, 0, 0, 0, 0xffffffff, 0, .tim⟩,
  ⟨0x50010, 0x40, 8, 0, 1, 0, 0, 0, 0, 0xffffffff, 0, .tim⟩,
  ⟨0x50014, 0x40, 8, 0, 1, 0, 0x7, 0x8, 0, 0, 0, .tim⟩,
  ⟨0x50300, 0, 1, 0, 1, 0, 0, 0, 0xffffffff, 0, 0, .tim⟩,
  ⟨0x50320, 0x8, 8, 0, 1, 0, 0, 0, 0, 0, 0, .tim⟩,
  ⟨0x50324, 0x8, 8, 0, 1, 0, 0, 0, 0, 0, 0, .tim⟩,
  ⟨0x50400, 0x20, 8, 0, 1, 0, 0x117, 0, 0, 0, 0, .tim⟩,
  ⟨0x50404, 0x20, 8, 0, 1, 0, 0xffffffff, 0, 0, 0, 0, .tim⟩,
  ⟨0x50408, 0x20, 8, 0, 1, 0, 0xffffffff, 0, 0, 0, 0, .tim⟩,
  ⟨0x5040c, 0x20, 8, 0, 1, 0, 0xffffffff, 0, 0, 0, 0, .tim⟩,
  ⟨0x50410, 0x20, 8, 0, 1, 0x64, 0xffffffff, 0, 0, 0, 0, .tim⟩,
  ⟨0x50414, 0x20, 8, 0, 1, 0, 0, 0, 0, 0, 0xffffffff, .tim⟩,
  ⟨0x50600, 0x20, 4, 0, 1, 0, 0x3f, 0, 0, 0, 0, .tim⟩,
  ⟨0x50604, 0x20, 4, 0, 1, 0, 0, 0, 0, 0, 0, .tim⟩,
  ⟨0x50608, 0x20, 4, 0, 1, 0, 0, 0, 0, 0, 0, .tim⟩,
  ⟨0x5060c, 0x20, 4, 0, 1, 0, 0, 0, 0, 0, 0, .tim⟩,
  ⟨0x50610, 0x20, 4, 0, 1, 0, 0, 0, 0, 0, 0, .tim⟩,
  ⟨0x50614, 0x20, 4, 0, 1, 0, 0, 0, 0, 0, 0xffffffff, .tim⟩]

/-- Block CAN. -/
def regsCAN : List RegRow := [
  ⟨0x60000, 0x1000, 8, 0, 1, 0x8, 0x1e, 0, 0, 0, 0, .can⟩,
  ⟨0x60004, 0x1000, 8, 0, 1, 0, 0xffffffff, 0, 0, 0, 0, .can⟩,
  ⟨0x60008, 0x1000, 8, 0, 1, 0, 0xffffffff, 0, 0, 0, 0, .can⟩,
  ⟨0x6000c, 0x1000, 8, 0, 1, 0, 0, 0, 0, 0, 0, .can⟩,
  ⟨0x60010, 0x1000, 8, 0, 1, 0, 0, 0, 0xffffffff, 0, 0, .can⟩,
  ⟨0x60014, 0x1000, 8, 0, 1, 0, 0, 0, 0xffffffff, 0, 0, .can⟩,
  ⟨0x60018, 0x1000, 8, 0, 1, 0, 0, 0, 0, 0, 0xffffffff, .can⟩,
  ⟨0x60040, 0x1000, 8, 0x8, 32, 0, 0xffffffff, 0, 0, 0, 0, .can⟩,
  ⟨0x60044, 0x1000, 8, 0x8, 32, 0, 0xffffffff, 0, 0, 0, 0, .can⟩,
  ⟨0x60140, 0x1000, 8, 0, 1, 0, 0xffffffff, 0, 0, 0, 0, .can⟩,
  ⟨0x60144, 0x1000, 8, 0, 1, 0, 0xffffffff, 0, 0, 0, 0, .can⟩,
  ⟨0x60148, 0x1000, 8, 0, 1, 0x6, 0xf, 0, 0, 0, 0, .can⟩,
  ⟨0x6014c, 0x1000, 8, 0, 1, 0, 0xffffffff, 0, 0, 0, 0, .can⟩,
  ⟨0x60150, 0x1000, 8, 0, 1, 0, 0xffff7ffb, 0, 0, 0, 0, .can⟩,
  ⟨0x60200, 0x1000, 8, 0x80, 3, 0, 0xffffffff, 0, 0, 0, 0, .can⟩,
  ⟨0x60204, 0x1000, 8, 0x80, 3, 0, 0xf, 0, 0, 0, 0, .can⟩,
  ⟨0x60240, 0x1000, 8, 0x4, 16, 0, 0xffffffff, 0, 0, 0, 0, .can⟩,
  ⟨0x602c0, 0x1000, 8, 0x4, 16, 0, 0xffffffff, 0, 0, 0, 0, .can⟩,
  ⟨0x60340, 0x1000, 8, 0x4, 16, 0, 0xffffffff, 0, 0, 0, 0, .can⟩]

/-- Block ETH. -/
def regsETH : List RegRow := [
  ⟨0x80000, 0, 1, 0, 1, 0, 0xffffffff, 0, 0, 0, 0, .eth⟩,
  ⟨0x80004, 0, 1, 0, 1, 0, 0xffffffff, 0, 0, 0, 0, .eth⟩,
  ⟨0x80010, 0x4, 6, 0, 1, 0, 0xffffffff, 0, 0, 0, 0, .eth⟩,
  ⟨0x80030, 0, 1, 0, 1, 0, 0, 0, 0, 0, 0xffffffff, .eth⟩,
  ⟨0x80100, 0x20, 7, 0x4, 8, 0, 0, 0, 0, 0, 0xffffffff, .eth⟩,
  ⟨0x90000, 0x1000, 7, 0x8, 256, 0, 0xffffffff, 0, 0, 0, 0, .eth⟩,
  ⟨0x90004, 0x1000, 7, 0x8, 256, 0, 0xffffffff, 0, 0, 0, 0, .eth⟩]

/-- Block SLE. -/
def regsSLE : List RegRow := [
  ⟨0xa0000, 0x1000, 16, 0, 1, 0, 0, 0, 0x1e, 0, 0, .any⟩,
  ⟨0xa0004, 0x1000, 16, 0, 1, 0, 0, 0, 0, 0, 0, .sle⟩,
  ⟨0xa0008, 0x1000, 16, 0, 1, 0x1f0000, 0, 0x7ff, 0, 0, 0, .any⟩,
  ⟨0xa0010, 0x1000, 16, 0, 1, 0x17d784, 0xffffffff, 0, 0, 0, 0, .sle⟩,
  ⟨0xa0014, 0x1000, 16, 0, 1, 0x2, 0x11f, 0, 0, 0, 0, .sle⟩,
  ⟨0xa0018, 0x1000, 16, 0, 1, 0, 0xffffffff, 0, 0, 0, 0, .sle⟩,
  ⟨0xa001c, 0x1000, 16, 0, 1, 0, 0xffffffff, 0, 0, 0, 0, .sle⟩,
  ⟨0xa0020, 0x1000, 16, 0x4, 3, 0x2710, 0xfffff, 0, 0, 0, 0, .sle⟩,
  ⟨0xa002c, 0x1000, 16, 0x4, 3, 0x2710, 0xfffff, 0, 0, 0, 0, .sle⟩,
  ⟨0xa0038, 0x1000, 16, 0, 1, 0x1388, 0xffff, 0, 0, 0, 0, .sle⟩,
  ⟨0xa0040, 0x1000, 16, 0, 1, 0x190c8, 0x1fffff, 0, 0, 0, 0, .sle⟩,
  ⟨0xa0044, 0x1000, 16, 0x4, 4, 0, 0xffffff, 0, 0, 0, 0, .sle⟩,
  ⟨0xa0054, 0x1000, 16, 0x4, 4, 0x4000, 0xffff, 0, 0, 0, 0, .sle⟩,
  ⟨0xa0064, 0x1000, 16, 0, 1, 0x107333, 0xffffff, 0, 0, 0, 0, .sle⟩,
  ⟨0xa0068, 0x1000, 16, 0, 1, 0x73330ccd, 0xffffffff, 0, 0, 0, 0, .sle⟩,
  ⟨0xa006c, 0x1000, 16, 0, 1, 0xccd, 0xffff, 0, 0, 0, 0, .sle⟩,
  ⟨0xa0080, 0x1000, 16, 0, 1, 0x50034, 0xfffdfff, 0, 0, 0, 0, .sle⟩,
  ⟨0xa0084, 0x1000, 16, 0, 1, 0x12c00000, 0xffff00ff, 0, 0, 0, 0, .sle⟩,
  ⟨0xa0088, 0x1000, 16, 0, 1, 0xffffffff, 0xffffffff, 0, 0, 0, 0, .sle⟩,
  ⟨0xa008c, 0x1000, 16, 0, 1, 0, 0xffffffff, 0, 0, 0, 0, .sle⟩,
  ⟨0xa0090, 0x1000, 16, 0, 1, 0, 0xffffffff, 0, 0, 0, 0, .sle⟩,
  ⟨0xa0094, 0x1000, 16, 0, 1, 0, 0xffff, 0, 0, 0, 0, .sle⟩,
  ⟨0xa00a0, 0x1000, 16, 0, 1, 0, 0xffffffff, 0, 0, 0, 0, .sle⟩,
  ⟨0xa00a4, 0x1000, 16, 0, 1, 0, 0xffffff, 0, 0, 0, 0, .sle⟩,
  ⟨0xa00a8, 0x1000, 16, 0, 1, 0x7fff, 0xffff, 0, 0, 0, 0, .sle⟩,
  ⟨0xa00b0, 0x1000, 16, 0, 1, 0xffffffff, 0xffffffff, 0, 0, 0, 0, .sle⟩,
  ⟨0xa00b4, 0x1000, 16, 0, 1, 0xffff, 0xffff, 0, 0, 0, 0, .sle⟩,
  ⟨0xa00b8, 0x1000, 16, 0, 1, 0x20001, 0x3ffff, 0, 0, 0, 0, .sle⟩,
  ⟨0xa00bc, 0x1000, 16, 0, 1, 0, 0xffff, 0, 0, 0, 0, .sle⟩,
  ⟨0xa00c0, 0x1000, 16, 0, 1, 0, 0xffffff, 0, 0, 0, 0, .sle⟩,
  ⟨0xa00c4, 0x1000, 16, 0, 1, 0, 0xffffff, 0, 0, 0, 0, .sle⟩,
  ⟨0xa00c8, 0x1000, 16, 0, 1, 0, 0xffffffff, 0, 0, 0, 0, .sle⟩,
  ⟨0xa00cc, 0x1000, 16, 0, 1, 0x400001, 0xffffffff, 0, 0, 0, 0, .sle⟩,
  ⟨0xa00d0, 0x1000, 16, 0, 1, 0xfa00, 0xffffff, 0, 0, 0, 0, .sle⟩,
  ⟨0xa0100, 0x1000, 16, 0, 1, 0, 0xffffff, 0, 0, 0, 0, .sleSp⟩,
  ⟨0xa0104, 0x1000, 16, 0, 1, 0, 0xffffff, 0, 0, 0, 0, .sleSp⟩,
  ⟨0xa0108, 0x1000, 16, 0, 1, 0, 0x1ffffff, 0, 0, 0, 0, .sleSp⟩,
  ⟨0xa010c, 0x1000, 16, 0, 1, 0, 0x1ffffff, 0, 0, 0, 0, .sleSp⟩,
  ⟨0xa0110, 0x1000, 16, 0, 1, 0, 0xffffffff, 0, 0, 0, 0, .sleSp⟩,
  ⟨0xa0114, 0x1000, 16, 0, 1, 0, 0xffff, 0, 0, 0, 0, .sleSp⟩,
  ⟨0xa0118, 0x1000, 16, 0, 1, 0, 0xffffffff, 0, 0, 0, 0, .sleSp⟩,
  ⟨0xa011c, 0x1000, 16, 0, 1, 0, 0, 0, 0, 0xffffffff, 0, .sleSp⟩,
  ⟨0xa0120, 0x1000, 16, 0, 1, 0x1fff, 0x1fff, 0, 0, 0, 0, .scp⟩,
  ⟨0xa0140, 0x1000, 16, 0, 1, 0, 0, 0, 0, 0, 0, .sle⟩,
  ⟨0xa0144, 0x1000, 16, 0, 1, 0, 0, 0, 0, 0, 0, .sle⟩,
  ⟨0xa0148, 0x1000, 16, 0, 1, 0, 0, 0, 0, 0, 0, .sle⟩,
  ⟨0xa014c, 0x1000, 16, 0, 1, 0, 0, 0, 0, 0, 0, .sle⟩,
  ⟨0xa0150, 0x1000, 16, 0, 1, 0, 0, 0, 0, 0, 0, .sle⟩,
  ⟨0xa0154, 0x1000, 16, 0, 1, 0, 0, 0, 0, 0, 0xffffffff, .sle⟩,
  ⟨0xa0158, 0x1000, 16, 0, 1, 0, 0, 0, 0, 0, 0xffffffff, .sle⟩,
  ⟨0xa015c, 0x1000, 16, 0, 1, 0, 0, 0, 0, 0, 0xffffffff, .sle⟩,
  ⟨0xa0160, 0x1000, 16, 0, 1, 0, 0, 0, 0, 0, 0, .sle⟩,
  ⟨0xa0164, 0x1000, 16, 0, 1, 0, 0, 0, 0, 0, 0, .sle⟩,
  ⟨0xa0168, 0x1000, 16, 0, 1, 0, 0, 0, 0, 0, 0, .sle⟩,
  ⟨0xa016c, 0x1000, 16, 0, 1, 0, 0, 0, 0, 0, 0, .sle⟩,
  ⟨0xa0200, 0x1000, 16, 0x4, 33, 0x1000, 0xffff, 0, 0, 0, 0, .sle⟩,
  ⟨0xa0300, 0x1000, 16, 0x4, 33, 0x1000, 0xffff, 0, 0, 0, 0, .sle⟩]

/-- Block ETU. -/
def regsETU : List RegRow := [
  ⟨0xb0004, 0, 1, 0, 1, 0, 0, 0, 0, 0, 0, .hlt⟩,
  ⟨0xb0008, 0, 1, 0, 1, 0xa, 0xff, 0, 0, 0, 0, .hlt⟩,
  ⟨0xb000c, 0, 1, 0, 1, 0x32, 0xffff, 0, 0, 0, 0, .hlt⟩,
  ⟨0xb1000, 0x40, 48, 0, 1, 0x1fff0000, 0x1fffffc0, 0, 0, 0, 0, .scp⟩,
  ⟨0xb1004, 0x40, 48, 0, 1, 0x2a819002, 0xffffffff, 0, 0, 0, 0, .hlt⟩,
  ⟨0xb1008, 0x40, 48, 0, 1, 0x30d40, 0xfffff, 0, 0, 0, 0, .hlt⟩,
  ⟨0xb100c, 0x40, 48, 0, 1, 0xbb8e666, 0xffffffff, 0, 0, 0, 0, .hlt⟩,
  ⟨0xb1010, 0x40, 48, 0, 1, 0, 0xffff, 0, 0, 0, 0, .hlt⟩,
  ⟨0xb1014, 0x40, 48, 0, 1, 0, 0xffff, 0, 0, 0, 0, .hlt⟩,
  ⟨0xb1018, 0x40, 48, 0, 1, 0, 0xffffffff, 0, 0, 0, 0, .hltLeg⟩,
  ⟨0xb101c, 0x40, 48, 0, 1, 0, 0xffffffff, 0, 0, 0, 0, .hltLeg⟩,
  ⟨0xb1020, 0x40, 48, 0, 1, 0, 0, 0, 0, 0xffffffff, 0, .hltLeg⟩,
  ⟨0xb1024, 0x40, 48, 0, 1, 0, 0, 0x10, 0, 0, 0, .any⟩,
  ⟨0xb1028, 0x40, 48, 0, 1, 0, 0, 0, 0, 0, 0xffffffff, .hlt⟩,
  ⟨0xb102c, 0x40, 48, 0, 1, 0, 0, 0, 0, 0, 0xffffffff, .hlt⟩,
  ⟨0xb1030, 0x40, 48, 0, 1, 0, 0, 0, 0, 0, 0xffffffff, .hlt⟩,
  ⟨0xb1034, 0x40, 48, 0, 1, 0, 0, 0, 0, 0, 0xffffffff, .hlt⟩,
  ⟨0xb1038, 0x40, 48, 0, 1, 0, 0, 0, 0, 0, 0xffffffff, .hlt⟩]

/-- Block IFE. -/
def regsIFE : List RegRow := [
  ⟨0xc0000, 0x1000, 4, 0, 1, 0, 0xff7ff, 0, 0, 0, 0, .ife⟩,
  ⟨0xc0004, 0x1000, 4, 0, 1, 0x8, 0x1fff, 0, 0, 0, 0, .ife⟩,
  ⟨0xc0008, 0x1000, 4, 0, 1, 0x4000, 0, 0, 0, 0, 0, .ife⟩,
  ⟨0xc000c, 0x1000, 4, 0, 1, 0, 0xffffffff, 0, 0, 0, 0, .ife⟩,
  ⟨0xc0010, 0x1000, 4, 0, 1, 0, 0xffffffff, 0, 0, 0, 0, .ife⟩,
  ⟨0xc0014, 0x1000, 4, 0, 1, 0, 0xffffffff, 0, 0, 0, 0, .ife⟩,
  ⟨0xc0018, 0x1000, 4, 0, 1, 0, 0xffffffff, 0, 0, 0, 0, .ife⟩,
  ⟨0xc001c, 0x1000, 4, 0, 1, 0, 0xffffffff, 0, 0, 0, 0, .ife⟩,
  ⟨0xc0020, 0x1000, 4, 0, 1, 0, 0xffffffff, 0, 0, 0, 0, .ife⟩,
  ⟨0xc0024, 0x1000, 4, 0, 1, 0, 0xffffffff, 0, 0, 0, 0, .ife⟩,
  ⟨0xc0028, 0x1000, 4, 0, 1, 0, 0xffffffff, 0, 0, 0, 0, .ife⟩,
  ⟨0xc002c, 0x1000, 4, 0, 1, 0, 0xffffffff, 0, 0, 0, 0, .ife⟩,
  ⟨0xc0030, 0x1000, 4, 0, 1, 0, 0xffffffff, 0, 0, 0, 0, .ife⟩,
  ⟨0xc0034, 0x1000, 4, 0, 1, 0, 0xffffffff, 0, 0, 0, 0, .ife⟩,
  ⟨0xc0038, 0x1000, 4, 0, 1, 0, 0x3fff3fff, 0, 0, 0, 0, .ife⟩,
  ⟨0xc003c, 0x1000, 4, 0, 1, 0, 0x3fff, 0, 0, 0, 0, .ife⟩,
  ⟨0xc0040, 0x1000, 4, 0, 1, 0x78, 0xff, 0, 0, 0, 0, .ife⟩,
  ⟨0xc0044, 0x1000, 4, 0, 1, 0xf4240, 0xffffffff, 0, 0, 0, 0, .ife⟩,
  ⟨0xc0048, 0x1000, 4, 0, 1, 0, 0xffff, 0, 0, 0, 0, .ife⟩,
  ⟨0xc0050, 0x1000, 4, 0x4, 8, 0, 0xffffffff, 0, 0, 0, 0, .ife⟩,
  ⟨0xc0070, 0x1000, 4, 0, 1, 0, 0, 0, 0, 0, 0, .ife⟩,
  ⟨0xc0074, 0x1000, 4, 0, 1, 0, 0, 0, 0, 0, 0xffffffff, .ife⟩,
  ⟨0xc0078, 0x1000, 4, 0, 1, 0, 0, 0, 0, 0, 0xffffffff, .ife⟩,
  ⟨0xc007c, 0x1000, 4, 0, 1, 0, 0, 0, 0, 0, 0xffffffff, .ife⟩]

/-- Block RNG. -/
def regsRNG : List RegRow := [
  ⟨0x100000, 0x20, 8192, 0, 1, 0, 0xfffff000, 0, 0, 0, 0, .rng⟩,
  ⟨0x100004, 0x20, 8192, 0, 1, 0, 0xffffffff, 0, 0, 0, 0, .rng⟩,
  ⟨0x100008, 0x20, 8192, 0, 1, 0xc0000, 0xff1f0101, 0, 0, 0, 0, .rng⟩,
  ⟨0x10000c, 0x20, 8192, 0, 1, 0xffff0000, 0xffff87ff, 0, 0, 0, 0, .rng⟩,
  ⟨0x100010, 0x20, 8192, 0, 1, 0, 0xffffffff, 0, 0, 0, 0, .rng⟩,
  ⟨0x100014, 0x20, 8192, 0, 1, 0, 0xffffffff, 0, 0, 0, 0, .rng⟩,
  ⟨0x100018, 0x20, 8192, 0, 1, 0, 0xffff0009, 0, 0, 0, 0, .rng⟩,
  ⟨0x10001c, 0x20, 8192, 0, 1, 0, 0, 0, 0, 0, 0xffffffff, .rng⟩]

/-- Block SOW. -/
def regsSOW : List RegRow := [
  ⟨0x140000, 0x4, 16384, 0, 1, 0, 0, 0, 0, 0, 0, .any⟩]

/-- Block FAC. -/
def regsFAC : List RegRow := [
  ⟨0x200000, 0x10000, 32, 0, 1, 0, 0, 0, 0, 0xffffffff, 0, .scp⟩,
  ⟨0x200004, 0x10000, 32, 0, 1, 0, 0, 0, 0, 0xffffffff, 0, .scp⟩,
  ⟨0x200008, 0x10000, 32, 0, 1, 0, 0, 0, 0, 0xffffffff, 0, .scp⟩,
  ⟨0x20000c, 0x10000, 32, 0, 1, 0, 0, 0, 0, 0xffffffff, 0, .scp⟩,
  ⟨0x200010, 0x10000, 32, 0, 1, 0, 0, 0, 0x7, 0, 0, .scp⟩,
  ⟨0x200014, 0x10000, 32, 0, 1, 0x5, 0, 0, 0, 0, 0, .any⟩,
  ⟨0x200018, 0x10000, 32, 0, 1, 0, 0, 0, 0, 0, 0, .any⟩,
  ⟨0x20001c, 0x10000, 32, 0, 1, 0, 0, 0xff, 0, 0, 0, .any⟩,
  ⟨0x200030, 0x10000, 32, 0, 1, 0, 0, 0, 0, 0, 0, .any⟩,
  ⟨0x200034, 0x10000, 32, 0, 1, 0, 0, 0, 0, 0, 0, .any⟩,
  ⟨0x200038, 0x10000, 32, 0, 1, 0, 0, 0, 0, 0, 0, .any⟩,
  ⟨0x20003c, 0x10000, 32, 0, 1, 0, 0, 0, 0, 0, 0, .any⟩]

/-- Block BEAD. -/
def regsBEAD : List RegRow := [
  ⟨0x400000, 0x400, 4096, 0, 1, 0, 0, 0, 0xf, 0, 0, .scp⟩,
  ⟨0x400004, 0x400, 4096, 0, 1, 0x5, 0, 0, 0, 0, 0, .beadOwn⟩,
  ⟨0x400008, 0x400, 4096, 0, 1, 0, 0xffffffff, 0, 0, 0, 0, .scp⟩,
  ⟨0x40000c, 0x400, 4096, 0, 1, 0, 0xffffffff, 0, 0, 0, 0, .scp⟩,
  ⟨0x400010, 0x400, 4096, 0, 1, 0, 0, 0, 0, 0, 0, .beadOwn⟩,
  ⟨0x400014, 0x400, 4096, 0, 1, 0, 0, 0x3f, 0, 0, 0, .beadOwn⟩,
  ⟨0x400018, 0x400, 4096, 0, 1, 0xffff, 0xffffffff, 0, 0, 0, 0, .beadOwn⟩,
  ⟨0x40001c, 0x400, 4096, 0, 1, 0, 0x3fff, 0, 0, 0, 0, .beadOwn⟩,
  ⟨0x400020, 0x400, 4096, 0, 1, 0, 0x80000000, 0, 0, 0, 0, .beadOwn⟩,
  ⟨0x400024, 0x400, 4096, 0, 1, 0, 0xffffffff, 0, 0, 0, 0, .beadOwn⟩,
  ⟨0x400028, 0x400, 4096, 0, 1, 0xfd80, 0xffffffff, 0, 0, 0, 0, .scp⟩,
  ⟨0x40002c, 0x400, 4096, 0, 1, 0x1388, 0xffffffff, 0, 0, 0, 0, .scp⟩,
  ⟨0x400030, 0x400, 4096, 0, 1, 0, 0, 0, 0, 0, 0, .beadOwn⟩,
  ⟨0x400034, 0x400, 4096, 0, 1, 0, 0, 0, 0, 0, 0, .beadOwn⟩,
  ⟨0x400038, 0x400, 4096, 0, 1, 0, 0, 0, 0, 0, 0xffffffff, .beadOwn⟩,
  ⟨0x400040, 0x400, 4096, 0, 1, 0, 0xffffffff, 0, 0, 0, 0, .beadOwn⟩,
  ⟨0x400044, 0x400, 4096, 0, 1, 0, 0xffffffff, 0, 0, 0, 0, .beadOwn⟩,
  ⟨0x400048, 0x400, 4096, 0, 1, 0, 0xffffffff, 0, 0, 0, 0, .beadOwn⟩,
  ⟨0x40004c, 0x400, 4096, 0, 1, 0, 0xffffffff, 0, 0, 0, 0, .beadOwn⟩,
  ⟨0x400050, 0x400, 4096, 0, 1, 0, 0xfffffff, 0, 0x80000000, 0, 0, .beadOwn⟩,
  ⟨0x400054, 0x400, 4096, 0, 1, 0, 0, 0, 0, 0, 0, .beadOwn⟩,
  ⟨0x400058, 0x400, 4096, 0, 1, 0, 0xffffffff, 0, 0, 0, 0, .beadOwn⟩]

/-- Block MM. -/
def regsMM : List RegRow := [
  ⟨0x800000, 0x100, 256, 0, 1, 0, 0x3, 0, 0, 0, 0, .scpHip⟩,
  ⟨0x800004, 0x100, 256, 0, 1, 0, 0, 0, 0, 0, 0, .any⟩,
  ⟨0x800008, 0x100, 256, 0, 1, 0, 0, 0, 0, 0, 0xffffffff, .any⟩,
  ⟨0x80000c, 0x100, 256, 0, 1, 0, 0, 0, 0, 0, 0xffffffff, .any⟩]

/-- Block ARB. -/
def regsARB : List RegRow := [
  ⟨0x900000, 0, 1, 0, 1, 0x3e8, 0xffff, 0, 0, 0, 0, .any⟩,
  ⟨0x900004, 0, 1, 0, 1, 0, 0, 0, 0, 0, 0xffffffff, .any⟩,
  ⟨0x900010, 0, 1, 0, 1, 0, 0, 0, 0, 0, 0xffff, .any⟩,
  ⟨0x901000, 0x4, 260, 0, 1, 0, 0xffffffff, 0, 0, 0, 0, .scp⟩,
  ⟨0x904000, 0x4, 4096, 0, 1, 0, 0, 0, 0, 0, 0, .any⟩,
  ⟨0x908000, 0x4, 32, 0, 1, 0, 0, 0, 0, 0, 0, .any⟩,
  ⟨0x908100, 0, 1, 0, 1, 0, 0, 0, 0, 0, 0, .any⟩,
  ⟨0x920000, 0x4, 4160, 0, 1, 0, 0, 0, 0, 0, 0xffffffff, .any⟩,
  ⟨0x940000, 0x10, 4096, 0, 1, 0, 0xffffffc0, 0, 0, 0, 0, .win⟩,
  ⟨0x940004, 0x10, 4096, 0, 1, 0, 0xfffc0, 0, 0, 0, 0, .win⟩,
  ⟨0x940008, 0x10, 4096, 0, 1, 0, 0, 0x10, 0x3, 0, 0, .win⟩,
  ⟨0x94000c, 0x10, 4096, 0, 1, 0, 0, 0, 0, 0, 0xffffffff, .any⟩,
  ⟨0x950000, 0x4, 16384, 0, 1, 0, 0, 0, 0, 0xffffffff, 0, .any⟩,
  ⟨0x960000, 0x4, 16384, 0, 1, 0, 0xffffffff, 0, 0, 0, 0, .any⟩]

/-- Block NVM. -/
def regsNVM : List RegRow := [
  ⟨0xa00000, 0, 1, 0, 1, 0, 0, 0, 0, 0, 0, .any⟩,
  ⟨0xa00004, 0, 1, 0, 1, 0, 0, 0, 0, 0, 0, .any⟩,
  ⟨0xa00008, 0, 1, 0, 1, 0, 0, 0, 0, 0, 0, .any⟩]

/-- Block SEC. -/
def regsSEC : List RegRow := [
  ⟨0xa10000, 0, 1, 0, 1, 0x1, 0, 0, 0, 0, 0, .sec⟩,
  ⟨0xa10004, 0, 1, 0, 1, 0, 0, 0, 0, 0, 0, .sec⟩,
  ⟨0xa10008, 0, 1, 0, 1, 0, 0, 0, 0, 0, 0, .sec⟩,
  ⟨0xa1000c, 0, 1, 0, 1, 0, 0, 0, 0, 0, 0, .sec⟩,
  ⟨0xa10010, 0x4, 4, 0, 1, 0, 0, 0, 0, 0, 0, .sec⟩]

/-- Block DBG. -/
def regsDBG : List RegRow := [
  ⟨0xa20000, 0, 1, 0, 1, 0, 0, 0, 0, 0, 0, .sec⟩,
  ⟨0xa20004, 0, 1, 0, 1, 0, 0, 0, 0, 0, 0xffffffff, .sec⟩]

/-- Block PLK. -/
def regsPLK : List RegRow := [
  ⟨0xa30000, 0, 1, 0, 1, 0x100, 0x1f3, 0, 0, 0, 0, .plk⟩,
  ⟨0xa30004, 0, 1, 0, 1, 0, 0, 0, 0, 0, 0, .plk⟩,
  ⟨0xa30008, 0, 1, 0, 1, 0, 0, 0, 0, 0, 0, .plk⟩,
  ⟨0xa3000c, 0, 1, 0, 1, 0, 0, 0, 0, 0, 0xffffffff, .plk⟩,
  ⟨0xa30010, 0, 1, 0, 1, 0, 0, 0, 0, 0, 0xffffffff, .plk⟩,
  ⟨0xa30014, 0x4, 2, 0, 1, 0, 0, 0, 0, 0, 0xffffffff, .plk⟩]

/-- Block PCI. -/
def regsPCI : List RegRow := [
  ⟨0xa40000, 0, 1, 0, 1, 0, 0xffff0000, 0, 0, 0, 0, .hipHost⟩,
  ⟨0xa40004, 0, 1, 0, 1, 0xffff0010, 0xffffffff, 0, 0, 0, 0, .hipHost⟩,
  ⟨0xa40008, 0, 1, 0, 1, 0, 0, 0, 0, 0, 0, .hipHost⟩]

/-- Block DDR. -/
def regsDDR : List RegRow := [
  ⟨0xa50000, 0, 1, 0, 1, 0, 0, 0, 0, 0, 0, .any⟩,
  ⟨0xa50004, 0, 1, 0, 1, 0, 0, 0, 0, 0, 0, .any⟩,
  ⟨0xa50008, 0, 1, 0, 1, 0, 0, 0, 0, 0, 0, .any⟩,
  ⟨0xa5000c, 0, 1, 0, 1, 0, 0, 0, 0, 0, 0, .any⟩,
  ⟨0xa50010, 0, 1, 0, 1, 0, 0, 0, 0, 0, 0xffffffff, .any⟩,
  ⟨0xa50014, 0, 1, 0, 1, 0, 0, 0, 0, 0, 0xffffffff, .any⟩,
  ⟨0xa50018, 0, 1, 0, 1, 0, 0, 0, 0, 0, 0, .any⟩]

/-- Block MON. -/
def regsMON : List RegRow := [
  ⟨0xa60000, 0x4, 56, 0, 1, 0, 0, 0, 0, 0, 0, .any⟩,
  ⟨0xa60100, 0, 1, 0, 1, 0, 0, 0, 0, 0, 0xffffffff, .any⟩,
  ⟨0xa60200, 0x4, 50, 0, 1, 0, 0, 0, 0, 0, 0xffffffff, .any⟩,
  ⟨0xa60300, 0, 1, 0, 1, 0, 0, 0, 0, 0, 0, .any⟩]

/-- The rows of the block of offset `off` (R27). -/
def regBlock (off : Nat) : List RegRow :=
  if off < 0x10000 then regsGLB
  else if off < 0x20000 then regsMBX
  else if off < 0x30000 then regsPWR
  else if off < 0x40000 then regsRCK
  else if off < 0x50000 then regsSAF
  else if off < 0x60000 then regsTIM
  else if off < 0x68000 then regsCAN
  else if off < 0xa0000 then regsETH
  else if off < 0xb0000 then regsSLE
  else if off < 0xc0000 then regsETU
  else if off < 0x100000 then regsIFE
  else if off < 0x140000 then regsRNG
  else if off < 0x150000 then regsSOW
  else if off < 0x400000 then regsFAC
  else if off < 0x800000 then regsBEAD
  else if off < 0x810000 then regsMM
  else if off < 0xa00000 then regsARB
  else if off < 0xa10000 then regsNVM
  else if off < 0xa20000 then regsSEC
  else if off < 0xa30000 then regsDBG
  else if off < 0xa40000 then regsPLK
  else if off < 0xa50000 then regsPCI
  else if off < 0xa60000 then regsDDR
  else if off < 0xa70000 then regsMON
  else []

/-- The two indexes of the register at `off`, when `off` is in the row. -/
def RegRow.index (r : RegRow) (off : Nat) : Option (Nat × Nat) :=
  if off < r.off then none
  else
    let d := off - r.off
    let e := d % r.s1
    if d / r.s1 < r.n1 && e / r.s2 < r.n2 && e % r.s2 == 0 then some (d / r.s1, e / r.s2) else none

/-- The register at `off` with its two indexes. -/
def regAt (off : Nat) : Option (RegRow × Nat × Nat) :=
  (regBlock off).findSome? fun r => (r.index off).map fun p => (r, p)

/-- Values that the table cannot hold in one column: the class word 258 (R157), the factory
remap (R427), the device id (R382) and the mailbox words, undefined until written (R298). -/
def csrReset (off : Nat) : Word :=
  match regAt off with
  | none => 0
  | some (r, i, j) =>
    if off = ARB_CLASS 258 then 0x0CEFAAAF
    else if r.off = ARB_BEAD_MAP 0 then
      BitVec.ofNat 32 (Config.meshY (260 * (i / 256) + i % 256) * 2 ^ 19
        + Config.meshX (260 * (i / 256) + i % 256) * 2 ^ 13 + (260 * (i / 256) + i % 256))
    else if r.off = ARB_FAC_MAP 0 then BitVec.ofNat 32 i
    else if r.off = SEC_UID 0 then Config.devUid i
    else if r.off = MBX_DATA 0 0 then Config.mailboxWord (64 * i + j)
    else BitVec.ofNat 32 r.reset

end Sys2Proof.Machine
end

