-- ==== Sys2Proof/Machine/Ops.lean ====
section
/-! DEFINITION. The shared operations: sparse maps, bit fields, registers, time bases, the
error log, byte memories, addresses and sync objects. -/

namespace Sys2Proof.Machine

/-- What a command answers. -/
abbrev Out := Host.Outcome State Fault Refusal

/-- A status code (R394). -/
abbrev St := BitVec 16

/-! ### Sparse maps -/

/-- The entry at key `k`, or `d`. -/
def kget {α : Type} (d : α) : KMap α → Nat → α
  | [], _ => d
  | (a, v) :: m, k => if a = k then v else kget d m k

/-- Write the entry at key `k`; keys stay rising. -/
def kput {α : Type} (k : Nat) (v : α) : KMap α → KMap α
  | [] => [(k, v)]
  | (a, w) :: m =>
    if k < a then (k, v) :: (a, w) :: m
    else if a = k then (k, v) :: m
    else (a, w) :: kput k v m

/-- Remove the entry at key `k`. -/
def kdel {α : Type} (k : Nat) (m : KMap α) : KMap α := m.filter fun p => p.1 ≠ k

/-- Replace element `k` of a list. -/
def listPut {α : Type} (k : Nat) (v : α) (l : List α) : List α := l.set k v

/-! ### Bits and numbers -/

/-- Bits [lo + len − 1:lo] of a number. -/
def bitsN (w lo len : Nat) : Nat := w / 2 ^ lo % 2 ^ len

/-- The value of a field in a word. -/
def Fld.get (F : Fld) (w : Word) : Nat := bitsN w.toNat F.lo F.len

/-- A word with a field replaced. -/
def Fld.set (F : Fld) (v : Nat) (w : Word) : Word :=
  let mask := BitVec.ofNat 32 ((2 ^ F.len - 1) * 2 ^ F.lo)
  (w &&& ~~~mask) ||| (BitVec.ofNat 32 (v % 2 ^ F.len * 2 ^ F.lo))

/-- A number of `w` bits read as two's complement. -/
def signedN (w n : Nat) : Int := if n % 2 ^ w < 2 ^ (w - 1) then (n % 2 ^ w : Int) else (n % 2 ^ w : Int) - 2 ^ w

/-- The `w`-bit two's complement of an integer. -/
def wrapN (w : Nat) (i : Int) : Nat := (i % (2 ^ w : Nat)).toNat

/-- An integer clamped to `w`-bit two's complement. -/
def satS (w : Nat) (i : Int) : Int := max (-(2 ^ (w - 1) : Nat)) (min i ((2 ^ (w - 1) : Nat) - 1))

/-- The difference of two `w`-bit counters as R8 reads it. -/
def diffC (w a b : Nat) : Int := signedN w (a + 2 ^ w - b % 2 ^ w)

/-- Counter `a` is at or later than counter `b` (R8). -/
def reached (w a b : Nat) : Bool := 0 ≤ diffC w a b

/-- The little-endian bytes of a number (R6). -/
def leBytes : Nat → Nat → List Byte
  | 0, _ => []
  | n + 1, v => BitVec.ofNat 8 v :: leBytes n (v / 256)

/-- The number that little-endian bytes spell (R6). -/
def leNat : List Byte → Nat
  | [] => 0
  | b :: bs => b.toNat + 256 * leNat bs

/-- A little-endian field of a byte string: `n` bytes at offset `o`. -/
def fieldN (b : List Byte) (o n : Nat) : Nat := leNat ((b.drop o).take n)

/-! ### Status codes (R394) -/

abbrev ST_OK : St := 0x0000
abbrev ST_OK_FLAGGED : St := 0x0001
abbrev ST_BAD_OPCODE : St := 0x1001
abbrev ST_BAD_FIELD : St := 0x1002
abbrev ST_BAD_STATE : St := 0x1003
abbrev ST_IFACE_VERSION : St := 0x1004
abbrev ST_NOT_PERMITTED : St := 0x1005
abbrev ST_RING_FULL : St := 0x2001
abbrev ST_WINDOW_CLOSED : St := 0x2101
abbrev ST_WINDOW_EPOCH : St := 0x2102
abbrev ST_BANK_OFF : St := 0x2201
abbrev ST_BANK_BUSY : St := 0x2202
abbrev ST_WAIT_TIMEOUT : St := 0x2301
abbrev ST_CLASP_TIMEOUT : St := 0x2302
abbrev ST_SAMPLE_CORRUPT : St := 0x3001
abbrev ST_DIM_CLAIM : St := 0x3002
abbrev ST_PAD_RANGE : St := 0x3003
abbrev ST_LENGTH_LIMIT : St := 0x3004
abbrev ST_RESULT_STALE : St := 0x4001
abbrev ST_COMPARE_MISMATCH : St := 0x4002
abbrev ST_SAFE_STATE : St := 0x4003
abbrev ST_SELFTEST_DEFERRED : St := 0x4004
abbrev ST_ECC_UNCORRECTED : St := 0x5001
abbrev ST_HW_LIMIT : St := 0x5002
abbrev ST_PROC_RESTART : St := 0x5003
abbrev ST_FW_SET_INVALID : St := 0x6001
abbrev ST_PACKAGE_TARGET : St := 0x6002

/-! ### Master ids (R137) -/

abbrev mFacet (f : Nat) : Nat := 4096 + f
abbrev mSCP : Nat := 4128
abbrev mSFP : Nat := 4129
abbrev mHIP : Nat := 4130
abbrev mPCIe : Nat := 4131
abbrev mIFE (c : Nat) : Nat := 4132 + c
abbrev mPLK (k : Nat) : Nat := 4136 + k
abbrev mETH : Nat := 4138
abbrev mSLE : Nat := 4139
abbrev mDebug : Nat := 4140
abbrev mSafety : Nat := 4141
/-- R400: the safe-state logic or the power controller in a log entry. -/
abbrev mLogic : Nat := 0xFFFF

/-! ### Registers -/

/-- The word of the register at a CSR offset. -/
def State.rd (s : State) (off : Nat) : Word := kget (csrReset off) s.csr off

/-- The register at a CSR offset takes a word; no access rule applies. -/
def State.wr (s : State) (off : Nat) (v : Word) : State := { s with csr := kput off v s.csr }

/-- The value of a register field. -/
def State.fld (s : State) (F : Fld) : Nat := F.get (s.rd F.off)

/-- A one-bit field is set. -/
def State.flag (s : State) (F : Fld) : Bool := s.fld F != 0

/-- A register field takes a value. -/
def State.setF (s : State) (F : Fld) (v : Nat) : State := s.wr F.off (F.set v (s.rd F.off))

/-- The register takes a number. -/
def State.wrN (s : State) (off v : Nat) : State := s.wr off (BitVec.ofNat 32 v)

/-- A counting register advances and saturates at 0xFFFF_FFFF. -/
def State.incN (s : State) (off n : Nat) : State := s.wrN off (min 0xFFFFFFFF ((s.rd off).toNat + n))

/-- A counting register advances by one. -/
def State.inc (s : State) (off : Nat) : State := s.incN off 1

/-- A counting field advances by `n` and saturates. -/
def State.incF (s : State) (F : Fld) (n : Nat) : State := s.setF F (min (2 ^ F.len - 1) (s.fld F + n))

/-- Two registers, the low half first, as a 64-bit number. -/
def State.rd64 (s : State) (lo hi : Nat) : BitVec 64 :=
  BitVec.ofNat 64 ((s.rd lo).toNat + (s.rd hi).toNat * 2 ^ 32)

/-- Answer to the source of the request. -/
def State.answer (s : State) (st : St) (data : List Byte := []) : State :=
  { s with reply := { st := st, data := data } }

/-! ### Access types (R32) -/

/-- A register takes a written word under its access types: RW and WO bits are set to it, W1C
bits cleared by 1, W1S bits set by 1, all others kept (R31, R32). -/
def State.plainWrite (s : State) (off : Nat) (v : Word) : State :=
  match regAt off with
  | none => s
  | some (r, _) =>
    let old := s.rd off
    let set := BitVec.ofNat 32 (r.rw ||| r.wo)
    let w1c := BitVec.ofNat 32 r.w1c
    let w1s := BitVec.ofNat 32 r.w1s
    s.wr off ((((old &&& ~~~set) ||| (v &&& set)) &&& ~~~(v &&& w1c)) ||| (v &&& w1s))

/-- No bit of the register takes a written value: a write to it is ignored (R32). -/
def readOnly (off : Nat) : Bool :=
  match regAt off with
  | none => true
  | some (r, _) => r.rw == 0 && r.wo == 0 && r.w1c == 0 && r.w1s == 0

/-- A read of a register: WO bits read as zero, RC bits are cleared by it (R32). -/
def State.plainRead (s : State) (off : Nat) : Word × State :=
  match regAt off with
  | none => (0, s)
  | some (r, _) =>
    let v := s.rd off &&& ~~~BitVec.ofNat 32 r.wo
    (v, if r.rc = 0 then s else s.wr off (s.rd off &&& ~~~BitVec.ofNat 32 r.rc))

/-! ### Time bases (R319) -/

/-- Time base `n`: 48 bits of ns above 48 fraction bits. -/
def State.tb (s : State) (n : Nat) : BitVec 96 := kget 0 s.time.tb n

/-- The ns of time base `n`. -/
def State.tbNs (s : State) (n : Nat) : Nat := (s.tb n).toNat / 2 ^ 48

/-- Time base `n` in the 64-bit form of R319: [63:16] ns, [15:0] fraction. -/
def State.tb64 (s : State) (n : Nat) : BitVec 64 := BitVec.ofNat 64 ((s.tb n).toNat / 2 ^ 32)

/-- Time of TB0 in ns. -/
def State.now (s : State) : Nat := s.tbNs 0

/-- ns from `a` to `b` on a time base (R8, R319: 48 bits of ns). -/
def sinceNs (b a : Nat) : Nat := (b + 2 ^ 48 - a % 2 ^ 48) % 2 ^ 48

/-- `n` ns have passed on a time base from `a` to `b`, which lies before `a` where the base has stepped back
(R8). -/
def passedNs (n b a : Nat) : Bool := (n : Int) ≤ diffC 48 b a

/-- TB7 in units of 10 ps. -/
def State.tb7Tick (s : State) : Nat := (s.tb 7).toNat * 100 / 2 ^ 48

/-- The major cycle in ns: the package's, or the default 250 µs. -/
def State.major (s : State) : Nat := (s.model.pkg.map Package.majorNs).getD 250000

/-- Boundaries lie at the multiples of the major cycle on TB7; a step of TB7 or another major
cycle sets where the present cycle began (DEDUCED, log entry 27). -/
def State.rephase (s : State) : State :=
  { s with model := { s.model with cycleStart := s.tbNs 7 / s.major * s.major } }

/-! ### The error log (R400) -/

/-- The eight words of an entry. -/
def logWords (s : State) (st source event aux : Nat) (addr : BitVec 64) : List Nat :=
  let t := (s.tb64 0).toNat
  [t % 2 ^ 32, t / 2 ^ 32, st + source * 65536, event + aux % 65536 * 65536,
    addr.toNat % 2 ^ 32, addr.toNat / 2 ^ 32, s.model.cycle.toNat, 0]

/-- Registers `off`, `off + 4`, … take the numbers. -/
def State.wrList (s : State) (off : Nat) : List Nat → State
  | [] => s
  | v :: vs => (s.wrN off v).wrList (off + 4) vs

/-- Append one entry where there is room. -/
def State.logPut (s : State) (ws : List Nat) : State :=
  let n := (s.rd GLB_ELOG_WR).toNat
  (s.wrList (GLB_ELOG_ENT (n % 256) 0) ws).wrN GLB_ELOG_WR (n + 1)

/-- The log has no room (R400). -/
def State.logFull (s : State) : Bool :=
  diffC 32 (s.rd GLB_ELOG_WR).toNat (s.rd GLB_ELOG_RD).toNat == 256

/-- An entry that found no room is counted (R400). -/
def State.logLose (s : State) : State :=
  { s.inc GLB_ELOG_LOST with elogLost := s.elogLost + 1 }

/-- Enter an event in the log, after an OVERRUN entry where entries were lost (R400). -/
def State.log (s : State) (st : St) (source event aux : Nat) (addr : BitVec 64 := 0) : State :=
  if s.logFull then s.logLose
  else if s.elogLost = 0 then s.logPut (logWords s st.toNat source event aux addr)
  else
    let s1 := { s.logPut (logWords s 0 mLogic 0x00FF (min 0xFFFF s.elogLost) 0) with elogLost := 0 }
    if s1.logFull then s1.logLose
    else s1.logPut (logWords s1 st.toNat source event aux addr)

abbrev EV_WRITE_REFUSED : Nat := 1
abbrev EV_REQUEST_REFUSED : Nat := 2
abbrev EV_ECC : Nat := 3
abbrev EV_SAFE_CAUSE : Nat := 4
abbrev EV_AXIS_FAULT : Nat := 5
abbrev EV_HW_LIMIT : Nat := 6
abbrev EV_PROC_CRASH : Nat := 7
abbrev EV_SECURITY : Nat := 8
abbrev EV_SAFETY_EVENT : Nat := 9
abbrev EV_PAIR : Nat := 0xA
abbrev EV_STORE : Nat := 0xB

/-! ### Waking (R370, R371) -/

/-- RCK_LP.STATE codes. -/
abbrev lpACTIVE : Nat := 0
abbrev lpLIGHT : Nat := 1
abbrev lpSTANDBY : Nat := 2
abbrev lpENTERING : Nat := 3
abbrev lpEXITING : Nat := 4

def State.lpState (s : State) : Nat := s.fld RCK_LP_STATE

/-- The device rests in STANDBY, enters it or leaves it. -/
def State.inStandby (s : State) : Bool :=
  s.lpState == lpSTANDBY || s.reset_.lp == .entering lpSTANDBY || s.reset_.lp == .exiting lpSTANDBY

/-- A wake event starts the exit; during entry it is served when entry has completed (R371). -/
def State.wake (s : State) : State :=
  if s.lpState = lpLIGHT || s.lpState = lpSTANDBY then
    { s.setF RCK_LP_STATE lpEXITING with reset_ := { s.reset_ with lp := .exiting s.lpState } }
  else if s.lpState = lpENTERING then { s with reset_ := { s.reset_ with wakeHeld := true } }
  else s

/-- An access of the host through BAR0 or BAR2 wakes the device from STANDBY (R370). -/
def State.hostAccess (s : State) (src : Nat) : State :=
  if src = mPCIe && s.inStandby then s.wake else s

/-- A CSR write that is not applied: the source receives the status and the log an entry
(R31, R88, R400). -/
def State.refuseWrite (s : State) (st : St) (src off : Nat) : State :=
  ((s.hostAccess src).log st src EV_WRITE_REFUSED (off / 65536) (BitVec.ofNat 64 off)).answer st

/-- The SCP receives a report. -/
def State.report (s : State) (r : Report) : State :=
  { s with model := { s.model with reports := s.model.reports ++ [r] } }

/-! ### Byte memories -/

/-- The value of byte `a`. -/
def Memory.byte (m : Memory) (a : Nat) : Byte :=
  match m.cells.lookup a with
  | some v => v
  | none =>
    match (m.fresh.find? (·.covers a)).bind FreshRange.gen with
    | some g => Config.freeByte g a
    | none => 0

/-- Insert a cell, addresses rising. -/
def cellPut (a : Nat) (v : Byte) : List Host.Cell → List Host.Cell
  | [] => [(a, v)]
  | (b, w) :: m =>
    if a < b then (a, v) :: (b, w) :: m
    else if b = a then (a, v) :: m
    else (b, w) :: cellPut a v m

/-- Byte `a` takes a value; the canonical form is kept. -/
def Memory.put (m : Memory) (a : Nat) (v : Byte) : Memory :=
  { m with cells :=
      if m.unlisted a = some v then m.cells.filter (fun p => p.1 ≠ a) else cellPut a v m.cells }

/-- `n` bytes from `a`. -/
def Memory.bytes (m : Memory) (a n : Nat) : List Byte := (List.range n).map fun i => m.byte (a + i)

/-- The bytes from `a` take values. -/
def Memory.putBytes (m : Memory) (a : Nat) : List Byte → Memory
  | [] => m
  | v :: vs => (m.put a v).putBytes (a + 1) vs

/-- The cells and the poison outside a range. -/
def Memory.outside (m : Memory) (w base len : Nat) : Memory :=
  { cells := m.cells.filter (fun p => !(base ≤ p.1 && p.1 < base + len))
    fresh := m.fresh.filter (fun r => !(base ≤ r.base && r.base + r.len ≤ base + len))
    poison := m.poison.filter (fun p => !(base ≤ p.1 * w && p.1 * w < base + len)) }

/-- A range loses its contents: its bytes read as zero, its words as clean. `w` is the ECC
word's size in bytes. -/
def Memory.zero (m : Memory) (w base len : Nat) : Memory :=
  let o := m.outside w base len
  { o with fresh := if o.fresh.isEmpty then [] else ⟨base, len, none⟩ :: o.fresh }

/-- A range loses its contents and they are open until written (R373 L). -/
def Memory.lose (m : Memory) (w base len gen : Nat) : Memory :=
  let o := m.outside w base len
  { o with fresh := ⟨base, len, some gen⟩ :: o.fresh }

/-- ECC word number `k` is poisoned (R398). -/
def Memory.bad (m : Memory) (k : Nat) : Bool := kget false m.poison k

/-- Poison or clean ECC word `k`. -/
def Memory.setBad (m : Memory) (k : Nat) (b : Bool) : Memory :=
  { m with poison := if b then kput k true m.poison else kdel k m.poison }

/-- The ECC words that `n` bytes from `a` touch. -/
def wordsOf (w a n : Nat) : List Nat :=
  if n = 0 then [] else (List.range ((a + n - 1) / w - a / w + 1)).map fun i => a / w + i

/-- A poisoned word lies among `n` bytes from `a`. -/
def Memory.anyBad (m : Memory) (w a n : Nat) : Bool := (wordsOf w a n).any m.bad

/-- A poisoned word is only partly covered by `n` bytes from `a` (R398). -/
def Memory.partBad (m : Memory) (w a n : Nat) : Bool :=
  (wordsOf w a n).any fun k => m.bad k && !(a ≤ k * w && k * w + w ≤ a + n)

/-- A write of whole words cleans them (R398). -/
def Memory.clean (m : Memory) (w a n : Nat) : Memory :=
  (wordsOf w a n).foldl (fun m k => if a ≤ k * w && k * w + w ≤ a + n then m.setBad k false else m) m

/-- A plain write: refused on a partly covered poisoned word (R398). -/
def Memory.store (m : Memory) (w a : Nat) (d : List Byte) : Option Memory :=
  if m.partBad w a d.length then none else some ((m.clean w a d.length).putBytes a d)

/-! ### The address space (R20–R22, R29) -/

/-- The memories by name. -/
inductive Space where
  | map | blm | fom | nvm | ddr | dmem
  deriving DecidableEq, Repr

/-- Bytes in an ECC word of a memory (R398). -/
def Space.ecc : Space → Nat
  | .blm | .dmem => 4
  | _ => 8

def State.mem (s : State) : Space → Memory
  | .map => s.mems.map
  | .blm => s.mems.blm
  | .fom => s.mems.fom
  | .nvm => s.mems.nvm
  | .ddr => s.mems.ddr
  | .dmem => s.mems.dmem

def State.setMem (s : State) (sp : Space) (m : Memory) : State :=
  match sp with
  | .map => { s with mems := { s.mems with map := m } }
  | .blm => { s with mems := { s.mems with blm := m } }
  | .fom => { s with mems := { s.mems with fom := m } }
  | .nvm => { s with mems := { s.mems with nvm := m } }
  | .ddr => { s with mems := { s.mems with ddr := m } }
  | .dmem => { s with mems := { s.mems with dmem := m } }

/-- The aliases of map memory (R21). -/
inductive Alias where
  | normal | set | clear
  deriving DecidableEq, Repr

/-- What a local address names. Bead and Facet addresses carry the logical id (R29). -/
inductive Target where
  | csr (off : Nat)
  | map (al : Alias) (off : Nat)
  | blm (n off : Nat)
  | fom (f off : Nat)
  | nvm (off : Nat)
  | ddr (off : Nat)
  | remote (chip : Nat)
  | none
  deriving DecidableEq, Repr

/-- The destination's master id in a log entry of a refused request: a node's or a Facet's, else
0xFFFF (R400; DESIGN CHOICE, log entry 124). -/
def Target.master : Target → Nat
  | .blm n _ => n
  | .fom f _ => 4096 + f
  | _ => 0xFFFF

/-- The physical node that serves a logical node (R29). -/
def State.physBead (s : State) (n : Nat) : Nat := s.fld (ARB_BEAD_MAP_PHYS n)

/-- The physical Facet that serves a logical Facet (R29). -/
def State.physFacet (s : State) (f : Nat) : Nat := s.fld (ARB_FAC_MAP_PHYS f)

/-- A chip id other than the own one that PLK_CFG.MODE puts in use (R20). -/
def State.chipInUse (s : State) (c : Nat) : Bool :=
  match s.fld PLK_CFG_MODE with
  | 1 => c < 2
  | 2 => c ≤ s.fld PLK_CFG_NCHIPS
  | _ => false

/-- Bytes of LPDDR5X that a master may address (R22, R162). -/
def State.ddrLimit (s : State) (src : Nat) : Nat :=
  let usable := (s.rd DDR_SIZE).toNat * 2 ^ 20
  if src = mHIP then usable + (s.rd DDR_STAGE).toNat * 2 ^ 20 else usable

/-- What `a` names for master `src` (R20–R22). -/
def State.target (s : State) (src : Nat) (a : BitVec 64) : Target :=
  let chip := a.toNat / 2 ^ 48
  let l := a.toNat % 2 ^ 48
  if chip ≠ 0xFFFF && chip ≠ s.fld GLB_CHIP_ID_CHIP then
    if s.chipInUse chip then .remote chip else .none
  else if l < 0x04000000 then .csr l
  else if 0x10000000 ≤ l && l < 0x18000000 then .map .normal (l - 0x10000000)
  else if 0x20000000 ≤ l && l < 0x28000000 then .map .set (l - 0x20000000)
  else if 0x30000000 ≤ l && l < 0x38000000 then .map .clear (l - 0x30000000)
  else if 0x40000000 ≤ l && l < 0x50000000 then .blm ((l - 0x40000000) / 0x10000) (l % 0x10000)
  else if 0x50000000 ≤ l && l < 0x54000000 then .fom ((l - 0x50000000) / 0x200000) (l % 0x200000)
  else if 0x60000000 ≤ l && l < 0x60400000 then .nvm (l - 0x60000000)
  else if 0x1000000000 ≤ l && l < 0x1800000000 && l - 0x1000000000 < s.ddrLimit src then
    .ddr (l - 0x1000000000)
  else .none

/-- Byte address of a map-memory offset in the local address space. -/
abbrev mapBase : Nat := 0x10000000

/-- The memory and the offset in it that hold a target. -/
def State.locate (s : State) : Target → Option (Space × Nat)
  | .map _ off => some (.map, off)
  | .blm n off => some (.blm, s.physBead n * 0x10000 + off)
  | .fom f off => some (.fom, s.physFacet f * 0x200000 + off)
  | .nvm off => some (.nvm, off)
  | .ddr off => some (.ddr, off)
  | _ => none

/-! ### Sync objects (R145–R149) -/

/-- Where the count of object `n` lies in map memory (R145). -/
def soAddr (n : Nat) : Nat := (248 + n / 2048) * 0x80000 + 4 * (n % 2048)

/-- The count of object `n`. -/
def State.so (s : State) (n : Nat) : Word := BitVec.ofNat 32 (leNat (s.mems.map.bytes (soAddr n) 4))

/-- The stored word of the object is poisoned (R398). -/
def State.soBad (s : State) (n : Nat) : Bool := s.mems.map.bad (soAddr n / 8)

/-- The count is at or past the target (R146). -/
def soMet (count target : Word) : Bool := reached 32 count.toNat target.toNat

/-- Insert a wait in ascending master order (R148). -/
def waitInsert (w : Wait) : List Wait → List Wait
  | [] => [w]
  | x :: xs => if w.src ≤ x.src then w :: x :: xs else x :: waitInsert w xs

/-- The WAITs that a new count satisfies are answered in ascending master order (R148). -/
def State.soWake (s : State) (n : Nat) : State :=
  let c := s.so n
  let hit := s.fab.waits.filter fun w => w.so = n && soMet c w.target
  let ans := (hit.foldr waitInsert []).map fun w =>
    (w.src, ({ st := ST_OK, data := leBytes 4 c.toNat } : Reply))
  { s with fab := { s.fab with
      waits := s.fab.waits.filter fun w => !(w.so = n && soMet c w.target)
      answered := s.fab.answered ++ ans } }

/-- The age monitor sees when a watched object reaches its target (R14, R264). -/
def State.agmSee (s : State) (n : Nat) : State :=
  let now := s.tbNs 7 / 1000
  { s with safety := { s.safety with agmInsts := s.safety.agmInsts.map fun i =>
      if i.ent.so = n && i.met.isNone && soMet (s.so n) i.target then { i with met := some now } else i } }

/-- The stored count takes a value; the waits it satisfies are answered and the age monitor sees it. -/
def State.soPut (s : State) (n : Nat) (v : Word) : State :=
  ((s.setMem .map (s.mems.map.putBytes (soAddr n) (leBytes 4 v.toNat))).soWake n).agmSee n

/-- A sync-object operation met a poisoned count (R399). -/
def State.soPoison (s : State) (src n : Nat) (data : List Byte) : State :=
  (s.log ST_ECC_UNCORRECTED src EV_ECC 3 (BitVec.ofNat 64 (mapBase + soAddr n))).answer
    ST_ECC_UNCORRECTED data

/-- ADD(n, v) (R146) at the sync-object engine. -/
def State.soAddNow (s : State) (src n : Nat) (v : Word) : State :=
  if s.soBad n then s.soPoison src n []
  else (s.soPut n (s.so n + v)).answer ST_OK

/-- The request writes memory. -/
def ReqOp.isWrite : ReqOp → Bool
  | .read _ => false
  | .clasp _ => false
  | .add _ _ => false
  | _ => true

/-- ADD(n, v) is a release: it is issued once every earlier write of the master has been
acknowledged (R146, R158). -/
def State.soAdd (s : State) (src n : Nat) (v : Word) : State :=
  if s.fab.raised.any (fun q => q.src = src && q.op.isWrite) then
    { s with fab := { s.fab with raised := s.fab.raised ++ [{ src := src, addr := 0, op := .add n v, unit := 0 }] } }
  else s.soAddNow src n v

/-- The endpoint holds a new request of the host: an earlier one is held, or an earlier write has
not been performed (R279). -/
def State.hostStalls (s : State) (src : Nat) : Bool :=
  src = mPCIe && (!s.reset_.heldHost.isEmpty || s.fab.raised.any fun q => q.src = mPCIe && q.op.isWrite)

/-- The endpoint holds a request of the host. -/
def State.holdHost (s : State) (q : HostReq) : State :=
  { s with reset_ := { s.reset_ with heldHost := s.reset_.heldHost ++ [q] } }

/-- A register write that keeps its place behind the host's earlier ones (R279). -/
def State.hostWrite (s : State) (src off : Nat) (v : Word) (f : State → State) : State :=
  if s.hostStalls src then s.holdHost (.write off v) else f s

/-- A register read that keeps its place behind the host's earlier writes (R279). -/
def State.hostRead (s : State) (src off : Nat) (f : State → State) : State :=
  if s.hostStalls src then s.holdHost (.read off) else f s

/-- SET(n, v) (R146); the written count is clean (R399). -/
def State.soSet (s : State) (_src n : Nat) (v : Word) : State :=
  ((s.setMem .map (s.mems.map.setBad (soAddr n / 8) false)).soPut n v).answer ST_OK

/-- READ(n) (R146). -/
def State.soRead (s : State) (src n : Nat) : State :=
  if s.soBad n then s.soPoison src n (leBytes 4 0)
  else s.answer ST_OK (leBytes 4 (s.so n).toNat)

/-- WAIT(n, target, tmo) (R146–R148). -/
def State.soWait (s : State) (src n : Nat) (target : Word) (tmoUs : Nat) (aliased : Bool) : State :=
  if src = mPCIe then s.soRead src n
  else if s.fab.waits.any (fun w => w.src = src) then s.answer ST_BAD_STATE (leBytes 4 0)
  else if s.soBad n then s.soPoison src n (leBytes 4 0)
  else if soMet (s.so n) target then s.answer ST_OK (leBytes 4 (s.so n).toNat)
  else if tmoUs = 0 then
    (s.inc ARB_WAIT_TMO_CNT).answer (if aliased then ST_OK else ST_WAIT_TIMEOUT)
      (leBytes 4 (s.so n).toNat)
  else { s with fab := { s.fab with waits := s.fab.waits ++ [⟨src, n, target, tmoUs, s.now, aliased⟩] } }

/-! ### Unit records -/

def State.facet (s : State) (f : Nat) : FacetSt := kget {} s.facets f
def State.setFacet (s : State) (f : Nat) (x : FacetSt) : State := { s with facets := kput f x s.facets }
def State.bead (s : State) (n : Nat) : BeadSt := kget {} s.beads n
def State.setBead (s : State) (n : Nat) (x : BeadSt) : State := { s with beads := kput n x s.beads }
def State.cam (s : State) (c : Nat) : CamSt := kget {} s.cams c
def State.setCam (s : State) (c : Nat) (x : CamSt) : State := { s with cams := kput c x s.cams }
def State.axis (s : State) (a : Nat) : AxisSt := kget {} s.axes a
def State.setAxis (s : State) (a : Nat) (x : AxisSt) : State := { s with axes := kput a x s.axes }
def State.can (s : State) (n : Nat) : CanSt := kget {} s.cans n
def State.setCan (s : State) (n : Nat) (x : CanSt) : State := { s with cans := kput n x s.cans }
def State.proc (s : State) (p : Nat) : ProcSt := kget {} s.procs p
def State.setProc (s : State) (p : Nat) (x : ProcSt) : State := { s with procs := kput p x s.procs }

/-- A free value of 32 bits and the state that has used it up. -/
def State.fresh (s : State) : Word × State := (Config.freeWord s.free, { s with free := s.free + 1 })

/-- Fold a state over a list. -/
def State.each {α : Type} (s : State) (l : List α) (f : State → α → State) : State := l.foldl f s

end Sys2Proof.Machine
end

