-- ==== Sys2Proof/Machine/Access.lean ====
section
/-! DEFINITION. One mesh request at its target (R20–R22, R60, R136–R145, R151, R398): the
checks in their order and the effect on the addressed memory. Requests to CSR space are
performed by `Machine/Csr.lean`. -/

namespace Sys2Proof.Machine

/-- Bank state codes of MM_STATUS.STATE (R140). -/
abbrev bankON : Nat := 0
abbrev bankRET : Nat := 1
abbrev bankOFF : Nat := 2
abbrev bankDRAIN : Nat := 3
abbrev bankWAKE : Nat := 4

/-- The bank serves requests (R142). -/
def State.bankServes (s : State) (b : Nat) : Bool :=
  s.fld (MM_STATUS_STATE b) == bankON || s.fld (MM_STATUS_STATE b) == bankDRAIN

/-- A sync-object or mailbox area of map memory (R145). -/
def syncArea (off n : Nat) : Bool :=
  let b := off / 0x80000
  let o := off % 0x80000
  248 ≤ b && (o < 0x2000 || (b == 255 && 0x7F000 < o + n))

/-- A target refuses before any memory is looked at (R20, R22, R60, R145); `w` is a write. -/
def State.regionCheck (_s : State) (t : Target) (n : Nat) (w : Bool) : St :=
  match t with
  | .none => ST_BAD_FIELD
  | .nvm _ => if w then ST_NOT_PERMITTED else ST_OK
  | .fom _ off => if 0x180000 ≤ off then ST_NOT_PERMITTED else ST_OK
  | .map _ off => if syncArea off n then ST_NOT_PERMITTED else ST_OK
  | _ => ST_OK

/-- The map bank of a target is not ON or DRAINING (R142). -/
def State.bankRefuses (s : State) : Target → Bool
  | .map _ off => !s.bankServes (off / 0x80000)
  | _ => false

/-- A request refused by its bank is counted (R142). -/
def State.countRej (s : State) : Target → State
  | .map _ off => s.inc (MM_REJ (off / 0x80000))
  | _ => s

/-- The unit that holds a local address, as a window's owner sees it (R150). -/
inductive WinUnit where
  | bank (b : Nat) | node (n : Nat) | facet (f : Nat) | none
  deriving DecidableEq, Repr

/-- The target is on another chip. -/
def Target.isRemote : Target → Bool
  | .remote _ => true
  | _ => false

/-- The unit and offset of a target (R150). -/
def Target.unit : Target → WinUnit
  | .map _ off => .bank (off / 0x80000)
  | .blm n _ => .node n
  | .fom f off => if off < 0x180000 then .facet f else .none
  | _ => .none

/-- The unit of a local address of 32 bits (R150). -/
def localUnit (l : Nat) : WinUnit :=
  if 0x10000000 ≤ l && l < 0x18000000 then .bank ((l - 0x10000000) / 0x80000)
  else if 0x40000000 ≤ l && l < 0x50000000 then .node ((l - 0x40000000) / 0x10000)
  else if 0x50000000 ≤ l && l < 0x54000000 && l % 0x200000 < 0x180000 then
    .facet ((l - 0x50000000) / 0x200000)
  else .none

/-- First local address of window `w`. -/
def State.winBase (s : State) (w : Nat) : Nat := s.fld (ARB_WIN_BASE_BASE w) * 64

/-- Bytes of window `w`. -/
def State.winSize (s : State) (w : Nat) : Nat := s.fld (ARB_WIN_SIZE_SIZE w) * 64

/-- A local address as the normal map names it: aliases name the same bytes (R21). -/
def normalLocal (l : Nat) : Nat :=
  if 0x20000000 ≤ l && l < 0x28000000 then l - 0x10000000
  else if 0x30000000 ≤ l && l < 0x38000000 then l - 0x20000000
  else l

/-- A clasp that master `src` had open when window `w` closed is still performed under it (R152). -/
def State.graceOf (s : State) (src : Nat) (w epoch : BitVec 16) : Bool :=
  s.fab.clasps.any fun c => c.owner = src && c.grace.contains (w, epoch)

/-- The checks of R151 on a write of `src` that carries window `w`, in their order. Another chip
checks the writes that reach it. -/
def State.winCheck (s : State) (src : Nat) (t : Target) (l n : Nat) (w epoch : BitVec 16) : St :=
  if w = 0xFFFF || t.isRemote then ST_OK
  else if 4096 ≤ w.toNat then ST_WINDOW_CLOSED
  else if localUnit (s.winBase w.toNat) = .none || localUnit (s.winBase w.toNat) ≠ t.unit then ST_WINDOW_CLOSED
  else if s.graceOf src w epoch then
    if s.winBase w.toNat ≤ l && l + n ≤ s.winBase w.toNat + s.winSize w.toNat then ST_OK else ST_BAD_FIELD
  else if !s.flag (ARB_WIN_CTL_STATE w.toNat) then ST_WINDOW_CLOSED
  else if s.fld (ARB_WIN_CTL_EPOCH w.toNat) ≠ epoch.toNat then ST_WINDOW_EPOCH
  else if s.winBase w.toNat ≤ l && l + n ≤ s.winBase w.toNat + s.winSize w.toNat then ST_OK
  else ST_BAD_FIELD

/-- A refused window write is counted under the id that it carries (R151). An id that is no window's
counts nowhere; whoever sent the write logs its refusal, as of every refused request (R400). -/
def State.countWinRej (s : State) (w : BitVec 16) : State :=
  if w.toNat < 4096 then s.inc (ARB_WIN_REJ w.toNat) else s

/-- The route to another chip has no port that is down (R341): port `k` is up in bit 2 + k of
PLK_STAT. -/
def State.routeUp (s : State) (chip : Nat) : Bool :=
  let up (k : Nat) : Bool := bitsN (s.rd PLK_STAT).toNat (2 + k) 1 == 1
  match s.fld PLK_CFG_MODE with
  | 1 => up 0 || up 1
  | 2 => if s.fld GLB_CHIP_ID_CHIP < chip then up 1 else up 0
  | _ => false

/-- The status with which another chip answers a request: a free value (log entry 9), or
ST_BAD_STATE where the route is down (R341). -/
def State.remoteSt (s : State) (chip : Nat) : St × State :=
  if s.routeUp chip then (BitVec.setWidth 16 s.fresh.1, s.fresh.2) else (ST_BAD_STATE, s)

/-! ### Arbiters (R153, R154) -/

/-- The arbitrated resource that a target lies in (R153). No request ever waits at a CSR block or at an
injection point: one there is performed when its command comes (log entry 123). -/
def resourceOf : Target → Option Resource
  | .map _ off => some (.bank (off / 0x80000))
  | .blm n _ => some (.blm n)
  | .fom f _ => some (.fom f)
  | .ddr _ => some (.bridge 0)
  | .nvm _ => some (.bridge 1)
  | _ => none

/-- A number for a resource. -/
def Resource.key : Resource → Nat
  | .bank b => b
  | .blm n => 256 + n
  | .fom f => 4352 + f
  | .bridge k => 4384 + k

/-- Class of a master (R154). -/
def State.classOf (s : State) (m : Nat) : Nat := bitsN (s.rd (ARB_CLASS (m / 16))).toNat (2 * (m % 16)) 2

/-- Record a grant in the round-robin pointer of the resource and class (R153). -/
def State.granted (s : State) (r : Resource) (src : Nat) : State :=
  { s with fab := { s.fab with rr := kput (r.key * 4 + s.classOf src) (src + 1) s.fab.rr } }

/-- A grant at the resource of a target, where it has one. -/
def State.grantAt (s : State) (t : Target) (src : Nat) : State :=
  match resourceOf t with
  | some r => s.granted r src
  | none => s

/-- The clasp open on a resource (R155). -/
def State.claspOn (s : State) (r : Resource) : Option Clasp := s.fab.clasps.find? fun c => c.res = r

/-- The resource is clasped by another master. -/
def State.claspedFrom (s : State) (src : Nat) (r : Resource) : Bool :=
  match s.claspOn r with
  | some c => c.owner ≠ src
  | none => false

/-- Corrected errors that a read meets are written back and counted (R123, R138, R163). A single-bit error
comes from outside: how many a read meets is open (log entry 101). -/
def State.corrected (s : State) (t : Target) : State :=
  let s' := { s with free := s.free + 1 }
  match t with
  | .map _ off => s'.incN (MM_ECC (off / 0x80000)) (Config.eccCorrected s.free)
  | .blm n _ => s'.incN (BEAD_ECC n) (Config.eccCorrected s.free)
  | .ddr _ => s'.incN DDR_ECC_CORR (Config.eccCorrected s.free)
  | _ => s

/-- What a read request gives: status, bytes, the poisoned byte offsets' words. -/
structure ReadRes where
  st : St
  data : List Byte
  bad : Bool
  deriving DecidableEq, Repr

/-- Read `n` bytes of the memory that a target names, after its checks. Bytes are returned
with their poison (R398); an uncorrected LPDDR5X word is counted (R163). What another chip
holds is a free value (log entry 9). -/
def State.readAt (s : State) (src : Nat) (addr : BitVec 64) (n : Nat) : ReadRes × State :=
  let t := s.target src addr
  let st := s.regionCheck t n false
  if st ≠ ST_OK then (⟨st, List.replicate n 0, false⟩, s)
  else if s.bankRefuses t then (⟨ST_BANK_OFF, List.replicate n 0, false⟩, s.countRej t)
  else
    let s := (s.grantAt t src).corrected t
    match t, s.locate t with
    | .remote c, _ =>
      let (rst, s') := s.remoteSt c
      (⟨rst, if s.routeUp c then
          (List.range n).map fun i => Config.freeByte (2 ^ 40 + s.free) (addr.toNat + i)
        else List.replicate n 0, false⟩, s')
    | .nvm off, _ =>
      (⟨ST_OK, (List.range n).map fun i => if off + i < 0x100000 then 0 else s.mems.nvm.byte (off + i),
        false⟩, s)
    | .ddr off, _ =>
      let hits := (wordsOf 8 off n).countP s.mems.ddr.bad
      (⟨ST_OK, s.mems.ddr.bytes off n, hits ≠ 0⟩, if hits = 0 then s else s.incN DDR_ECC_UNCORR hits)
    | _, some (sp, a) => (⟨ST_OK, (s.mem sp).bytes a n, (s.mem sp).anyBad sp.ecc a n⟩, s)
    | _, none => (⟨ST_OK, List.replicate n 0, false⟩, s)

/-- How a write combines with the stored bytes (R21, R139). -/
def aliasBytes (al : Alias) (old new : List Byte) : List Byte :=
  match al with
  | .normal => new
  | .set => List.zipWith (· ||| ·) old new
  | .clear => List.zipWith (fun o d => o &&& ~~~d) old new

/-- The alias through which a target is written. -/
def Target.alias : Target → Alias
  | .map al _ => al
  | _ => .normal

/-- Write bytes at a target after its checks (R136, R142, R151, R398). A refused write is
applied neither in whole nor in part. -/
def State.writeAt (s : State) (src : Nat) (addr : BitVec 64) (data : List Byte)
    (w : BitVec 16 := 0xFFFF) (epoch : BitVec 16 := 0) : St × State :=
  let t := s.target src addr
  let n := data.length
  let st := s.regionCheck t n true
  if st ≠ ST_OK then (st, s)
  else if s.bankRefuses t then (ST_BANK_OFF, s.countRej t)
  else
    let ws := s.winCheck src t (normalLocal (addr.toNat % 2 ^ 48)) n w epoch
    if ws ≠ ST_OK then (ws, s.countWinRej w)
    else
      let s := s.grantAt t src
      match t, s.locate t with
      | .remote c, _ => s.remoteSt c
      | _, none => (ST_OK, s)
      | _, some (sp, a) =>
        let m := s.mem sp
        if t.alias ≠ .normal && m.anyBad sp.ecc a n then (ST_ECC_UNCORRECTED, s)
        else
          match m.store sp.ecc a (aliasBytes t.alias (m.bytes a n) data) with
          | none => (ST_ECC_UNCORRECTED, s)
          | some m' => (ST_OK, s.setMem sp m')

/-- The lengths of the line requests that make up `n` bytes from `a` (R136); `k` bounds their
number. -/
def lineSplit : Nat → Nat → Nat → List (Nat × Nat)
  | 0, _, _ => []
  | k + 1, a, n =>
    if n = 0 then []
    else
      let m := min n (64 - a % 64)
      (a, m) :: lineSplit k (a + m) (n - m)

/-- The line requests of `n` bytes from a device address. -/
def lines (addr : BitVec 64) (n : Nat) : List (Nat × Nat) := lineSplit (n / 64 + 2) addr.toNat n

/-- Read `n` bytes as a sequence of line requests; the first failure is the status (R395). -/
def State.readLong (s : State) (src : Nat) (addr : BitVec 64) (n : Nat) : ReadRes × State :=
  (lines addr n).foldl (fun (r, s) (a, k) =>
    let (x, s) := s.readAt src (BitVec.ofNat 64 a) k
    (⟨if r.st = ST_OK then x.st else r.st, r.data ++ x.data, r.bad || x.bad⟩, s)) (⟨ST_OK, [], false⟩, s)

/-- Write bytes as a sequence of line requests up to the first refusal: status and the number
of bytes written. -/
def State.writeLong (s : State) (src : Nat) (addr : BitVec 64) (data : List Byte)
    (w : BitVec 16 := 0xFFFF) (epoch : BitVec 16 := 0) : (St × Nat) × State :=
  (lines addr data.length).foldl (fun (r, s) (a, k) =>
    if r.1 ≠ ST_OK then (r, s)
    else
      let (st, s) := s.writeAt src (BitVec.ofNat 64 a) ((data.drop (a - addr.toNat)).take k) w epoch
      ((st, if st = ST_OK then r.2 + k else r.2), s)) ((ST_OK, 0), s)

/-- Bytes at a device address as unit `src` sees them, without the bank check, the log or a counter. -/
def State.peekBy (s : State) (src addr n : Nat) : List Byte :=
  match s.locate (s.target src (BitVec.ofNat 64 addr)) with
  | some (sp, a) => (s.mem sp).bytes a n
  | none => List.replicate n 0

/-- Bytes at a device address as Woad sees them. -/
def State.peek (s : State) (addr n : Nat) : List Byte := s.peekBy mHIP addr n

/-- A little-endian number of `n` bytes at a device address. -/
def State.peekN (s : State) (addr n : Nat) : Nat := leNat (s.peek addr n)

/-- A poisoned word lies among `n` bytes at a device address. -/
def State.peekBad (s : State) (addr n : Nat) : Bool :=
  match s.locate (s.target mHIP (BitVec.ofNat 64 addr)) with
  | some (sp, a) => (s.mem sp).anyBad sp.ecc a n
  | none => false

/-- Bytes at a device address take values whatever their state. -/
def State.poke (s : State) (addr : Nat) (d : List Byte) : State :=
  match s.locate (s.target mHIP (BitVec.ofNat 64 addr)) with
  | some (sp, a) => s.setMem sp (((s.mem sp).clean sp.ecc a d.length).putBytes a d)
  | none => s

end Sys2Proof.Machine
end

