-- ==== Sys2Proof/Machine/CamOps.lean ====
section
/-! DEFINITION. Geometry of an input stream and of its decoded-sample cache (R197, R200,
R204). -/

namespace Sys2Proof.Machine

abbrev camSTOPPED : Nat := 0
abbrev camCONFIG : Nat := 1
abbrev camRUNNING : Nat := 2
abbrev camFAULT : Nat := 3

/-- Sources of IFE_CTL.SOURCE (R189). -/
abbrev srcCSI : Nat := 0
abbrev srcJXS : Nat := 1
abbrev srcREPLAY : Nat := 2

def State.camW (s : State) (c : Nat) : Nat := (s.rd (IFE_GEOM c)).toNat % 65536
def State.camH (s : State) (c : Nat) : Nat := (s.rd (IFE_GEOM c)).toNat / 65536

/-- Bits of a component. -/
def State.camDepth (s : State) (c : Nat) : Nat := [8, 10, 12].getD (s.fld (IFE_CTL_DEPTH c)) 12

/-- Components of a stream: one for CSI-2; no register gives the count of the others. -/
def State.camNc (s : State) (c : Nat) : Nat :=
  if s.fld (IFE_CTL_SOURCE c) = srcCSI then 1 else if Config.threeComponents c then 3 else 1

/-- Bytes of a row in the U16 layout: padded to 64 B (R197). -/
def State.camRowBytes (s : State) (c : Nat) : Nat := (s.camW c * s.camNc c * 2 + 63) / 64 * 64

/-- Bytes of a sample in the U16 layout. -/
def State.u16Bytes (s : State) (c : Nat) : Nat := s.camRowBytes c * s.camH c

/-- Bytes of a DSC entry (R200). -/
def State.dscBytes (s : State) (c : Nat) : Nat :=
  (s.camW c * s.camH c * s.camNc c * 2 + 65535) / 65536 * 65536

def State.dscBase (s : State) (c : Nat) : Nat := (s.rd64 (IFE_DSC_LO c) (IFE_DSC_HI c)).toNat

/-- Device address of DSC entry `e`. -/
def State.dscAddr (s : State) (c e : Nat) : Nat := s.dscBase c + e * s.dscBytes c

/-- Device address of the sample record of an index: a ring of 64 records of 32 B at the end of
the DSC area (R204). -/
def State.sampleRec (s : State) (c idx : Nat) : Nat := s.dscAddr c 64 + 32 * (idx % 64)

end Sys2Proof.Machine
end

