-- ==== Sys2Proof/Machine/Crypto.lean ====
section
/-! DEFINITION. The checks and ciphers the spec names by their standards: CRCs (R76, R240,
R270), SHA-384 and ECDSA P-384 (FIPS 180-4, FIPS 186-5; R164, R384, R385), AES-256-GCM
(SP 800-38D; R386), ChaCha8 (R202). PRESUMED: the details of each standard, log entry 11. -/

namespace Sys2Proof.Machine

/-! ### CRCs -/

/-- One bit of a CRC of width `w` that is not reflected. -/
def crcBit (w poly c : Nat) : Nat :=
  if c / 2 ^ (w - 1) % 2 = 1 then (c * 2 % 2 ^ w) ^^^ poly else c * 2 % 2 ^ w

/-- A CRC of width `w`, not reflected, not inverted, over bytes. -/
def crcPlain (w poly init : Nat) (b : List Byte) : Nat :=
  b.foldl (fun c x => (List.range 8).foldl (fun c _ => crcBit w poly c) (c ^^^ (x.toNat * 2 ^ (w - 8)))) init

/-- The CRC-64 of R76. -/
def crc64 (b : List Byte) : BitVec 64 := BitVec.ofNat 64 (crcPlain 64 0x42F0E1EBA9EA3693 0 b)

/-- The CRC-8 of R240. -/
def crc8 (b : List Byte) : Byte := BitVec.ofNat 8 (crcPlain 8 0x07 0 b)

/-- One bit of the reflected CRC-32C. -/
def crcBitR (c : Nat) : Nat := if c % 2 = 1 then (c / 2) ^^^ 0x82F63B78 else c / 2

/-- The CRC-32C of R270. -/
def crc32c (b : List Byte) : Nat :=
  (b.foldl (fun c x => (List.range 8).foldl (fun c _ => crcBitR c) (c ^^^ x.toNat)) 0xFFFFFFFF) ^^^ 0xFFFFFFFF

/-! ### SHA-384 -/

def shaK0 : List (BitVec 64) :=
  [0x428a2f98d728ae22, 0x7137449123ef65cd, 0xb5c0fbcfec4d3b2f, 0xe9b5dba58189dbbc,
   0x3956c25bf348b538, 0x59f111f1b605d019, 0x923f82a4af194f9b,
   0xab1c5ed5da6d8118, 0xd807aa98a3030242, 0x12835b0145706fbe]

def shaK1 : List (BitVec 64) :=
  [0x243185be4ee4b28c, 0x550c7dc3d5ffb4e2, 0x72be5d74f27b896f, 0x80deb1fe3b1696b1,
   0x9bdc06a725c71235, 0xc19bf174cf692694, 0xe49b69c19ef14ad2,
   0xefbe4786384f25e3, 0x0fc19dc68b8cd5b5, 0x240ca1cc77ac9c65]

def shaK2 : List (BitVec 64) :=
  [0x2de92c6f592b0275, 0x4a7484aa6ea6e483, 0x5cb0a9dcbd41fbd4, 0x76f988da831153b5,
   0x983e5152ee66dfab, 0xa831c66d2db43210, 0xb00327c898fb213f,
   0xbf597fc7beef0ee4, 0xc6e00bf33da88fc2, 0xd5a79147930aa725]

def shaK3 : List (BitVec 64) :=
  [0x06ca6351e003826f, 0x142929670a0e6e70, 0x27b70a8546d22ffc, 0x2e1b21385c26c926,
   0x4d2c6dfc5ac42aed, 0x53380d139d95b3df, 0x650a73548baf63de,
   0x766a0abb3c77b2a8, 0x81c2c92e47edaee6, 0x92722c851482353b]

def shaK4 : List (BitVec 64) :=
  [0xa2bfe8a14cf10364, 0xa81a664bbc423001, 0xc24b8b70d0f89791, 0xc76c51a30654be30,
   0xd192e819d6ef5218, 0xd69906245565a910, 0xf40e35855771202a,
   0x106aa07032bbd1b8, 0x19a4c116b8d2d0c8, 0x1e376c085141ab53]

def shaK5 : List (BitVec 64) :=
  [0x2748774cdf8eeb99, 0x34b0bcb5e19b48a8, 0x391c0cb3c5c95a63, 0x4ed8aa4ae3418acb,
   0x5b9cca4f7763e373, 0x682e6ff3d6b2b8a3, 0x748f82ee5defb2fc,
   0x78a5636f43172f60, 0x84c87814a1f0ab72, 0x8cc702081a6439ec]

def shaK6 : List (BitVec 64) :=
  [0x90befffa23631e28, 0xa4506cebde82bde9, 0xbef9a3f7b2c67915, 0xc67178f2e372532b,
   0xca273eceea26619c, 0xd186b8c721c0c207, 0xeada7dd6cde0eb1e,
   0xf57d4f7fee6ed178, 0x06f067aa72176fba, 0x0a637dc5a2c898a6]

def shaK7 : List (BitVec 64) :=
  [0x113f9804bef90dae, 0x1b710b35131c471b, 0x28db77f523047d84, 0x32caab7b40c72493,
   0x3c9ebe0a15c9bebc, 0x431d67c49c100d4c, 0x4cc5d4becb3e42b6,
   0x597f299cfc657e2a, 0x5fcb6fab3ad6faec, 0x6c44198c4a475817]

/-- The round constants. -/
def shaK : List (BitVec 64) := shaK0 ++ shaK1 ++ shaK2 ++ shaK3 ++ shaK4 ++ shaK5 ++ shaK6 ++ shaK7

/-- The initial hash value of SHA-384. -/
def shaH0 : List (BitVec 64) :=
  [0xcbbb9d5dc1059ed8, 0x629a292a367cd507, 0x9159015a3070dd17, 0x152fecd8f70e5939,
   0x67332667ffc00b31, 0x8eb44a8768581511, 0xdb0c2e0d64f98fa7, 0x47b5481dbefa4fa4]

/-- The number that big-endian bytes spell. -/
def beNat (b : List Byte) : Nat := b.foldl (fun n x => n * 256 + x.toNat) 0

/-- The big-endian bytes of a number. -/
def beBytes (n v : Nat) : List Byte := (leBytes' n v).reverse
where leBytes' : Nat → Nat → List Byte
  | 0, _ => []
  | n + 1, v => BitVec.ofNat 8 v :: leBytes' n (v / 256)

/-- The padded message. -/
def shaPad (b : List Byte) : List Byte :=
  b ++ [0x80] ++ List.replicate ((239 - b.length % 128) % 128) 0 ++ beBytes 16 (b.length * 8)

/-- The message schedule, newest word first. -/
def shaExtend : Nat → List (BitVec 64) → List (BitVec 64)
  | 0, w => w
  | k + 1, w =>
    let g (i : Nat) : BitVec 64 := w.getD (i - 1) 0
    let s0 := (g 15).rotateRight 1 ^^^ (g 15).rotateRight 8 ^^^ ((g 15) >>> 7)
    let s1 := (g 2).rotateRight 19 ^^^ (g 2).rotateRight 61 ^^^ ((g 2) >>> 6)
    shaExtend k ((g 16 + s0 + g 7 + s1) :: w)

/-- One round on the working variables a–h. -/
def shaRound (v : List (BitVec 64)) (kw : BitVec 64) : List (BitVec 64) :=
  match v with
  | [a, b, c, d, e, f, g, h] =>
    let s1 := e.rotateRight 14 ^^^ e.rotateRight 18 ^^^ e.rotateRight 41
    let ch := (e &&& f) ^^^ (~~~e &&& g)
    let t1 := h + s1 + ch + kw
    let s0 := a.rotateRight 28 ^^^ a.rotateRight 34 ^^^ a.rotateRight 39
    let maj := (a &&& b) ^^^ (a &&& c) ^^^ (b &&& c)
    [t1 + s0 + maj, a, b, c, d + t1, e, f, g]
  | v => v

/-- One block of 128 bytes. -/
def shaBlock (h : List (BitVec 64)) (b : List Byte) : List (BitVec 64) :=
  let w := (List.range 16).map fun i => BitVec.ofNat 64 (beNat ((b.drop (8 * i)).take 8))
  let ws := (shaExtend 64 w.reverse).reverse
  List.zipWith (· + ·) h ((List.zipWith (· + ·) shaK ws).foldl shaRound h)

/-- The blocks of a padded message. -/
def shaBlocks : Nat → List (BitVec 64) → List Byte → List (BitVec 64)
  | 0, h, _ => h
  | k + 1, h, b => shaBlocks k (shaBlock h (b.take 128)) (b.drop 128)

/-- SHA-384 as 48 bytes. -/
def sha384 (b : List Byte) : List Byte :=
  let p := shaPad b
  ((shaBlocks (p.length / 128) shaH0 p).take 6).flatMap fun w => beBytes 8 w.toNat

/-- SHA-384 as a number. -/
def sha384N (b : List Byte) : BitVec 384 := BitVec.ofNat 384 (beNat (sha384 b))

/-! ### ECDSA P-384 -/

def p384P : Nat := 2 ^ 384 - 2 ^ 128 - 2 ^ 96 + 2 ^ 32 - 1
def p384N : Nat := 0xffffffffffffffffffffffffffffffffffffffffffffffffc7634d81f4372ddf581a0db248b0a77aecec196accc52973
def p384B : Nat := 0xb3312fa7e23ee7e4988e056be3f82d19181d9c6efe8141120314088f5013875ac656398d8a2ed19d2a85c8edd3ec2aef
def p384Gx : Nat := 0xaa87ca22be8b05378eb1c71ef320ad746e1d3b628ba79b9859f741e082542a385502f25dbf55296c3a545e3872760ab7
def p384Gy : Nat := 0x3617de4a96262c6f5d9e98bf9292dc29f8f41dbd289a147ce9da3113b5f0b8c00a60b1ce1d7e819d7a431d7c90ea0e5f

/-- b^e mod m by squaring, `k` bits of `e`. -/
def powMod (m : Nat) : Nat → Nat → Nat → Nat
  | 0, _, _ => 1 % m
  | k + 1, b, e => (if e % 2 = 1 then b else 1) * powMod m k (b * b % m) (e / 2) % m

/-- The inverse modulo a prime of 384 bits. -/
def invMod (m a : Nat) : Nat := powMod m 384 (a % m) (m - 2)

/-- A point of the curve in Jacobian coordinates: x = X / Z², y = Y / Z³; Z = 0 is the point at infinity. -/
abbrev JPoint := Nat × Nat × Nat

/-- `a - b` modulo the field's prime, of reduced numbers. -/
def fpSub (a b : Nat) : Nat := (a + p384P - b) % p384P

/-- The double of a point (a = -3). -/
def jDouble (p : JPoint) : JPoint :=
  let (x, y, z) := p
  let zz := z * z % p384P
  let yy := y * y % p384P
  let s := 4 * x * yy % p384P
  let m := 3 * fpSub x zz * (x + zz) % p384P
  let x3 := fpSub (m * m % p384P) (2 * s % p384P)
  (x3, fpSub (m * fpSub s x3 % p384P) (8 * yy * yy % p384P), 2 * y * z % p384P)

/-- The sum of two points. -/
def jAdd (p q : JPoint) : JPoint :=
  let (x1, y1, z1) := p
  let (x2, y2, z2) := q
  if z1 = 0 then q
  else if z2 = 0 then p
  else
    let zz1 := z1 * z1 % p384P
    let zz2 := z2 * z2 % p384P
    let u1 := x1 * zz2 % p384P
    let h := fpSub (x2 * zz1 % p384P) u1
    let s1 := y1 * zz2 * z2 % p384P
    let r := fpSub (y2 * zz1 * z1 % p384P) s1
    if h = 0 then (if r = 0 then jDouble p else (1, 1, 0))
    else
      let hh := h * h % p384P
      let hhh := hh * h % p384P
      let v := u1 * hh % p384P
      let x3 := fpSub (r * r % p384P) ((hhh + 2 * v) % p384P)
      (x3, fpSub (r * fpSub v x3 % p384P) (s1 * hhh % p384P), z1 * z2 * h % p384P)

/-- Multiples of a point, `k` bits of the factor. -/
def jMul : Nat → Nat → JPoint → JPoint
  | 0, _, _ => (1, 1, 0)
  | k + 1, n, p =>
    let r := jMul k (n / 2) (jDouble p)
    if n % 2 = 1 then jAdd p r else r

/-- ECDSA verification of (r, s) on a 384-bit hash with public key (x, y). -/
def ecdsaVerify (x y : BitVec 384) (hash : List Byte) (r s : BitVec 384) : Bool :=
  let n := p384N
  let onCurve := (y.toNat * y.toNat) % p384P
    == (x.toNat * x.toNat % p384P * x.toNat + p384B + 3 * (p384P - x.toNat % p384P)) % p384P
  let (rn, sn) := (r.toNat, s.toNat)
  if x.toNat < p384P && y.toNat < p384P && onCurve && 1 ≤ rn && rn < n && 1 ≤ sn && sn < n then
    let w := invMod n sn
    let u1 := beNat (hash.take 48) * w % n
    let u2 := rn * w % n
    let q := jAdd (jMul 384 u1 (p384Gx, p384Gy, 1)) (jMul 384 u2 (x.toNat, y.toNat, 1))
    let i := invMod p384P q.2.2
    q.2.2 ≠ 0 && (q.1 * i % p384P * i % p384P) % n == rn
  else false

/-! ### AES-256-GCM -/

/-- Multiplication by x in GF(2^8). -/
def gfX (a : Byte) : Byte := if a.getLsbD 7 then (a <<< 1) ^^^ 0x1b else a <<< 1

/-- Multiplication in GF(2^8). -/
def gfMul (a b : Byte) : Byte :=
  ((List.range 8).foldl (fun (r, x) i => (if b.getLsbD i then r ^^^ x else r, gfX x)) ((0 : Byte), a)).1

/-- a^254, the inverse in GF(2^8). -/
def gfInv (a : Byte) : Byte :=
  let a2 := gfMul a a
  let a3 := gfMul a2 a
  let a12 := gfMul (gfMul a3 a3) (gfMul a3 a3)
  let a15 := gfMul a12 a3
  let a30 := gfMul a15 a15
  let a60 := gfMul a30 a30
  let a120 := gfMul a60 a60
  let a240 := gfMul a120 a120
  gfMul (gfMul a240 a12) a2

/-- The S-box. -/
def aesSub (a : Byte) : Byte :=
  let b := gfInv a
  b ^^^ b.rotateLeft 1 ^^^ b.rotateLeft 2 ^^^ b.rotateLeft 3 ^^^ b.rotateLeft 4 ^^^ 0x63

/-- The key schedule: words of four bytes, newest first. -/
def aesExpand : Nat → Nat → Byte → List (List Byte) → List (List Byte)
  | 0, _, _, w => w
  | k + 1, i, rc, w =>
    let t := w.headD []
    let t' := if i % 8 = 0 then
        match t with
        | [a, b, c, d] => [aesSub b ^^^ rc, aesSub c, aesSub d, aesSub a]
        | t => t
      else if i % 8 = 4 then t.map aesSub else t
    aesExpand k (i + 1) (if i % 8 = 0 then gfX rc else rc) (List.zipWith (· ^^^ ·) (w.getD 7 []) t' :: w)

/-- The 15 round keys of a 32-byte key. -/
def aesKeys (key : List Byte) : List (List Byte) :=
  let w0 := ((List.range 8).map fun i => (key.drop (4 * i)).take 4).reverse
  let ws := (aesExpand 52 8 1 w0).reverse
  (List.range 15).map fun r => ((ws.drop (4 * r)).take 4).flatten

/-- ShiftRows of a 16-byte column-major state. -/
def aesShift (s : List Byte) : List Byte :=
  (List.range 16).map fun i => s.getD ((i + 4 * (i % 4)) % 16) 0

/-- MixColumns. -/
def aesMix (s : List Byte) : List Byte :=
  (List.range 16).map fun i =>
    let c := i / 4 * 4
    let g (k : Nat) : Byte := s.getD (c + (i + k) % 4) 0
    gfX (g 0) ^^^ (gfX (g 1) ^^^ g 1) ^^^ g 2 ^^^ g 3

/-- One block under the round keys. -/
def aesEncrypt (ks : List (List Byte)) (b : List Byte) : List Byte :=
  let x (a k : List Byte) := List.zipWith (· ^^^ ·) a k
  let s := x b (ks.getD 0 [])
  let s := ((ks.drop 1).take 13).foldl (fun s k => x (aesMix (aesShift (s.map aesSub))) k) s
  x (aesShift (s.map aesSub)) (ks.getD 14 [])

/-- Multiplication in GF(2^128) as GCM numbers its bits: bit 0 is the leftmost. -/
def ghMul (x y : BitVec 128) : BitVec 128 :=
  ((List.range 128).foldl (fun (z, v) i =>
    (if x.getMsbD i then z ^^^ v else z,
     if v.getLsbD 0 then (v >>> 1) ^^^ 0xE1000000000000000000000000000000#128 else v >>> 1))
    ((0 : BitVec 128), y)).1

/-- GHASH over zero-padded bytes. -/
def ghash (h : BitVec 128) : Nat → BitVec 128 → List Byte → BitVec 128
  | 0, y, _ => y
  | k + 1, y, b =>
    if b.isEmpty then y
    else
      let blk := b.take 16 ++ List.replicate (16 - (b.take 16).length) 0
      ghash h k (ghMul (y ^^^ BitVec.ofNat 128 (beNat blk)) h) (b.drop 16)

/-- Counter mode from counter `c`, `k` blocks. -/
def gctr (ks : List (List Byte)) (iv : List Byte) : Nat → Nat → List Byte → List Byte
  | 0, _, _ => []
  | k + 1, c, b =>
    if b.isEmpty then []
    else List.zipWith (· ^^^ ·) (b.take 16) (aesEncrypt ks (iv ++ beBytes 4 c)) ++ gctr ks iv k (c + 1) (b.drop 16)

/-- Authenticated decryption with a 12-byte IV: the plaintext, or none. -/
def gcmOpen (key iv aad ct tag : List Byte) : Option (List Byte) :=
  let ks := aesKeys key
  let h := BitVec.ofNat 128 (beNat (aesEncrypt ks (List.replicate 16 0)))
  let y := ghash h (aad.length / 16 + 1) 0 aad
  let y := ghash h (ct.length / 16 + 1) y ct
  let y := ghash h 1 y (beBytes 8 (8 * aad.length) ++ beBytes 8 (8 * ct.length))
  let t := List.zipWith (· ^^^ ·) (beBytes 16 y.toNat) (aesEncrypt ks (iv ++ beBytes 4 1))
  if t = tag then some (gctr ks iv (ct.length / 16 + 1) 2 ct) else none

/-! ### ChaCha8 (R202) -/

/-- A quarter round on words a, b, c, d of the block. -/
def chachaQ (w : List Word) (a b c d : Nat) : List Word :=
  let g (w : List Word) (i : Nat) : Word := w.getD i 0
  let half (w : List Word) (r1 r2 : Nat) : List Word :=
    let w := w.set a (g w a + g w b)
    let w := w.set d ((g w d ^^^ g w a).rotateLeft r1)
    let w := w.set c (g w c + g w d)
    w.set b ((g w b ^^^ g w c).rotateLeft r2)
  half (half w 16 12) 8 7

/-- Two rounds: columns, then diagonals. -/
def chachaDouble (w : List Word) : List Word :=
  let w := chachaQ (chachaQ (chachaQ (chachaQ w 0 4 8 12) 1 5 9 13) 2 6 10 14) 3 7 11 15
  chachaQ (chachaQ (chachaQ (chachaQ w 0 5 10 15) 1 6 11 12) 2 7 8 13) 3 4 9 14

/-- The ChaCha8 block of 16 input words. -/
def chacha8 (w : List Word) : List Word :=
  List.zipWith (· + ·) w ((List.range 4).foldl (fun w _ => chachaDouble w) w)

end Sys2Proof.Machine
end

