-- ==== Sys2Proof/Machine/Numbers.lean ====
section
/-! DEFINITION. Number formats, wide sums, final rounding and requantisation (R34–R54). -/

namespace Sys2Proof.Machine

/-! ### Exact values -/

/-- An exact fraction; the denominator is not zero. -/
structure Fr where
  n : Int
  d : Nat
  deriving DecidableEq, Repr

def Fr.zero : Fr := ⟨0, 1⟩
def Fr.ofInt (i : Int) : Fr := ⟨i, 1⟩
def Fr.add (a b : Fr) : Fr := ⟨a.n * b.d + b.n * a.d, a.d * b.d⟩
def Fr.neg (a : Fr) : Fr := ⟨-a.n, a.d⟩
def Fr.sub (a b : Fr) : Fr := a.add b.neg
def Fr.mul (a b : Fr) : Fr := ⟨a.n * b.n, a.d * b.d⟩
/-- `a / b` for `b` not zero. -/
def Fr.div (a b : Fr) : Fr := ⟨a.n * b.d * b.n.sign, a.d * b.n.natAbs⟩
def Fr.lt (a b : Fr) : Bool := a.n * b.d < b.n * a.d
def Fr.le (a b : Fr) : Bool := a.n * b.d ≤ b.n * a.d
def Fr.eq (a b : Fr) : Bool := a.n * b.d == b.n * a.d
def Fr.abs (a : Fr) : Fr := ⟨a.n.natAbs, a.d⟩
def Fr.isZero (a : Fr) : Bool := a.n == 0
def Fr.floor (a : Fr) : Int := a.n / (a.d : Int)

/-- 2^e. -/
def pow2 (e : Int) : Fr := if 0 ≤ e then ⟨(2 ^ e.toNat : Nat), 1⟩ else ⟨1, 2 ^ (-e).toNat⟩

/-- m × 2^e. -/
def dyad (m e : Int) : Fr := (Fr.ofInt m).mul (pow2 e)

/-- floor(log2 |a|) for `a` not zero. -/
def Fr.log2 (a : Fr) : Int :=
  let g : Int := (Nat.log2 a.n.natAbs : Int) - Nat.log2 a.d
  if (pow2 g).le a.abs then g else g - 1

/-- How a value between two neighbours is rounded: the five modes of IEEE 754 as RISC-V
numbers them. -/
inductive Rm where
  | rne | rtz | rdn | rup | rmm
  deriving DecidableEq, Repr

/-- The quotient `n / d` of magnitudes rounded to a natural number; `neg` is the sign. -/
def roundNat (rm : Rm) (neg : Bool) (n d : Nat) : Nat :=
  let q := n / d
  let r := n % d
  if r = 0 then q
  else
    match rm with
    | .rne => if 2 * r < d then q else if d < 2 * r then q + 1 else q + q % 2
    | .rtz => q
    | .rdn => if neg then q + 1 else q
    | .rup => if neg then q else q + 1
    | .rmm => if 2 * r < d then q else q + 1

/-- An exact fraction rounded to an integer. -/
def Fr.round (rm : Rm) (a : Fr) : Int :=
  let k : Int := roundNat rm (a.n < 0) a.n.natAbs a.d
  if a.n < 0 then -k else k

/-- A fraction rounded at `p` significant bits, no step finer than 2^(emin − p + 1): the step's
exponent and the rounded magnitude in steps. -/
def roundSig (rm : Rm) (p : Nat) (emin : Int) (a : Fr) : Int × Nat :=
  let e := (max a.log2 emin) - (p : Int) + 1
  let q := a.abs.mul (pow2 (-e))
  (e, roundNat rm (a.n < 0) q.n.natAbs q.d)

/-! ### Values with infinities and NaN -/

/-- A value: an exact number, an infinity, a NaN. -/
inductive Val where
  | num (q : Fr)
  | inf (neg : Bool)
  | nan
  deriving DecidableEq, Repr

def Val.zero : Val := .num .zero

def Val.isNan : Val → Bool
  | .nan => true
  | _ => false

/-- Multiplication with the special values of IEEE 754 (R51). -/
def Val.mul : Val → Val → Val
  | .nan, _ => .nan
  | _, .nan => .nan
  | .num a, .num b => .num (a.mul b)
  | .inf s, .inf t => .inf (s != t)
  | .inf s, .num b => if b.isZero then .nan else .inf (s != decide (b.n < 0))
  | .num a, .inf t => if a.isZero then .nan else .inf (t != decide (a.n < 0))

/-- Addition with the special values of IEEE 754 (R51). -/
def Val.add : Val → Val → Val
  | .nan, _ => .nan
  | _, .nan => .nan
  | .num a, .num b => .num (a.add b)
  | .inf s, .inf t => if s = t then .inf s else .nan
  | .inf s, .num _ => .inf s
  | .num _, .inf t => .inf t

/-- A binary format: precision, exponent field width (bias 2^(w − 1) − 1). -/
structure Bin where
  p : Nat
  w : Nat
  deriving DecidableEq, Repr

def fFP32 : Bin := ⟨24, 8⟩
def fFP16 : Bin := ⟨11, 5⟩
def fBF16 : Bin := ⟨8, 8⟩

def Bin.bits (f : Bin) : Nat := f.p + f.w
def Bin.emin (f : Bin) : Int := 2 - (2 ^ (f.w - 1) : Nat)
def Bin.infCode (f : Bin) : Nat := (2 ^ f.w - 1) * 2 ^ (f.p - 1)
/-- The positive quiet NaN (R51). -/
def Bin.nanCode (f : Bin) : Nat := f.infCode + 2 ^ (f.p - 2)
def Bin.signBit (f : Bin) (neg : Bool) : Nat := if neg then 2 ^ (f.p + f.w - 1) else 0

/-- Decode an IEEE 754 code; both zeros are zero. -/
def Bin.val (f : Bin) (c : Nat) : Val :=
  let neg := 1 ≤ c / 2 ^ (f.p + f.w - 1) % 2
  let e := c / 2 ^ (f.p - 1) % 2 ^ f.w
  let m := c % 2 ^ (f.p - 1)
  if e = 2 ^ f.w - 1 then (if m = 0 then .inf neg else .nan)
  else
    let k := if e = 0 then m else m + 2 ^ (f.p - 1)
    let x := dyad k (f.emin - (f.p : Int) + 1 + (max e 1 : Nat) - 1)
    .num (if neg then x.neg else x)

/-- An FP32 word as a value. -/
def fp32Val (w : Nat) : Val := fFP32.val (w % 2 ^ 32)

/-- The magnitude code of a fraction rounded to a format, which may lie beyond the largest
finite code. -/
def Bin.magCode (f : Bin) (rm : Rm) (a : Fr) : Nat :=
  if a.isZero then 0
  else
    let (e, k) := roundSig rm f.p f.emin a
    (e - (f.emin - (f.p : Int) + 1)).toNat * 2 ^ (f.p - 1) + k

/-- Final rounding (R51): the code, and whether a finite value overflowed. -/
def Bin.round (f : Bin) (sat : Bool) : Val → Nat × Bool
  | .nan => (f.nanCode, false)
  | .inf neg => (f.infCode + f.signBit neg, false)
  | .num a =>
    let neg := a.n < 0
    let c := f.magCode .rne a
    if f.infCode ≤ c then
      ((if sat then f.infCode - 1 else f.infCode) + f.signBit neg, true)
    else (c + f.signBit neg, false)

/-- A value rounded once to FP32, as a value. -/
def Val.toFP32 (v : Val) : Val := fp32Val (fFP32.round false v).1

/-! ### Element codes (R34, R35) -/

/-- Element codes in the order of their numbers. -/
inductive Code where
  | n8i | n8e4 | n8e5 | n6e2 | n6e3 | n4e2 | n4i
  deriving DecidableEq, Repr

/-- The code that a number names; 7–15 are reserved. -/
def codeOf : Nat → Option Code
  | 0 => some .n8i
  | 1 => some .n8e4
  | 2 => some .n8e5
  | 3 => some .n6e2
  | 4 => some .n6e3
  | 5 => some .n4e2
  | 6 => some .n4i
  | _ => none

def Code.bits : Code → Nat
  | .n8i | .n8e4 | .n8e5 => 8
  | .n6e2 | .n6e3 => 6
  | .n4e2 | .n4i => 4

/-- Fraction bits and bias of a floating code; none for the integer codes. -/
def Code.float : Code → Option (Nat × Int)
  | .n8e4 => some (3, 7)
  | .n8e5 => some (2, 15)
  | .n6e2 => some (3, 1)
  | .n6e3 => some (2, 3)
  | .n4e2 => some (1, 1)
  | _ => none

/-- The max magnitude of R34. -/
def Code.maxMag : Code → Fr
  | .n8i => ⟨128, 1⟩
  | .n8e4 => ⟨448, 1⟩
  | .n8e5 => ⟨57344, 1⟩
  | .n6e2 => ⟨15, 2⟩
  | .n6e3 => ⟨28, 1⟩
  | .n4e2 => ⟨6, 1⟩
  | .n4i => ⟨8, 1⟩

/-- The requantisation limit of R53. -/
def Code.qmax : Code → Fr
  | .n8i => ⟨127, 1⟩
  | .n4i => ⟨7, 1⟩
  | c => c.maxMag

/-- The NaN code of R53. -/
def Code.nanCode : Code → Nat
  | .n8e4 | .n8e5 => 0x7F
  | _ => 0

/-- The value of an element code (R34, R35). -/
def Code.val (c : Code) (k : Nat) : Val :=
  match c.float with
  | none => .num (.ofInt (signedN c.bits k))
  | some (m, b) =>
    let neg := 1 ≤ k / 2 ^ (c.bits - 1) % 2
    let mag := k % 2 ^ (c.bits - 1)
    if c = .n8e4 && mag = 0x7F then .nan
    else if c = .n8e5 && mag = 0x7C then .inf neg
    else if c = .n8e5 && 0x7C < mag then .nan
    else
      let e := mag / 2 ^ m
      let f := mag % 2 ^ m
      let x := if e = 0 then dyad f (1 - b - m) else dyad (2 ^ m + f) (e - b - m)
      .num (if neg then x.neg else x)

/-- Element `i` of packed codes (R34). -/
def codeAt (w : Nat) (b : List Byte) (i : Nat) : Nat :=
  fieldN b (i * w / 8) 2 / 2 ^ (i * w % 8) % 2 ^ w

/-! ### Block scales (R37, R38) -/

/-- The value of a BSF code. -/
def bsfVal (c : Nat) : Fr :=
  let e : Int := c / 8 % 32
  let f : Int := c % 8
  if e = 0 then dyad f (-17) else dyad (8 + f) (e - 18)

/-- The value of a block-scale code; `bsp` selects E8M0. -/
def scaleVal (bsp : Bool) (c : Nat) : Val :=
  if bsp then (if c = 0xFF then .nan else .num (pow2 ((c : Int) - 127))) else .num (bsfVal c)

/-! ### Wide sums (R43–R50) -/

/-- Special states combine (R48). -/
def Special.add : Special → Special → Special
  | .none, b => b
  | a, .none => a
  | .posInf, .posInf => .posInf
  | .negInf, .negInf => .negInf
  | _, _ => .nan

/-- The special state that a product sets (R48). -/
def Special.ofVal : Val → Special
  | .num _ => .none
  | .inf neg => if neg then .negInf else .posInf
  | .nan => .nan

/-- The special state of bits [1:0] (R49). -/
def specialOf : Nat → Special
  | 0 => .none
  | 1 => .posInf
  | 2 => .negInf
  | _ => .nan

def Special.code : Special → Nat
  | .none => 0
  | .posInf => 1
  | .negInf => 2
  | .nan => 3

/-- The floor α − 128 (R43). -/
def WideSum.floor (x : WideSum) : Int := x.anchor.toInt - 128

/-- A number in units of 2^floor, cut toward zero (R45). -/
def cutAt (floor : Int) (q : Fr) : Int :=
  let x := q.mul (pow2 (-floor))
  x.n.tdiv x.d

/-- Add `sign` times a product to W: the accumulation step of R45. -/
def WideSum.addCut (x : WideSum) (sign : Int) (q : Fr) : WideSum :=
  { x with w := BitVec.ofInt 168 (x.w.toInt + sign * cutAt x.floor q) }

/-- Take in one product of two element values with non-zero, non-NaN block scales (R45, R48). -/
def WideSum.take (x : WideSum) (a b : Val) : WideSum :=
  match a.mul b with
  | .num q => { x.addCut 1 q with count := x.count + 1 }
  | v => { x with special := x.special.add (Special.ofVal v), count := x.count + 1 }

/-- Combine two wide sums of equal anchors (R50). -/
def WideSum.add (x y : WideSum) : WideSum :=
  { x with w := x.w + y.w, special := x.special.add y.special, count := x.count + y.count }

/-- The combination is performed (R50). -/
def WideSum.canAdd (x y : WideSum) : Bool := x.anchor = y.anchor && x.count + y.count ≤ 32768

/-- The 32 bytes of a wide sum (R49). -/
def WideSum.bytes (x : WideSum) : List Byte :=
  leBytes 21 x.w.toNat ++ leBytes 1 x.special.code ++ leBytes 2 x.anchor.toNat ++ leBytes 2 x.count
    ++ leBytes 6 0

/-- Read a wide sum; bits [7:2] of SPECIAL and bytes 26–31 are ignored (R49). -/
def WideSum.ofBytes (b : List Byte) : WideSum :=
  { w := BitVec.ofNat 168 (fieldN b 0 21), special := specialOf (fieldN b 21 1 % 4),
    anchor := BitVec.ofNat 16 (fieldN b 22 2), count := fieldN b 24 2 }

/-- W × 2^floor with the special state in place of it (R48). -/
def WideSum.val (x : WideSum) : Val :=
  match x.special with
  | .none => .num (dyad x.w.toInt x.floor)
  | .posInf => .inf false
  | .negInf => .inf true
  | .nan => .nan

/-- A block of one operand: 32 code values and the block scale (R36). -/
structure Block where
  vals : List Val := []
  scale : Val := .num .zero
  /-- what rotation adds to the anchor term (R97) -/
  lift : Int := 0
  deriving DecidableEq, Repr

/-- A scale is zero. -/
def Val.isZero : Val → Bool
  | .num q => q.isZero
  | _ => false

/-- floor(log2(maxmag × scale)) of a block, with the rotary term (R43, R97). -/
def Block.top (b : Block) (mm : Fr) : Int :=
  match b.scale with
  | .num q => (mm.mul q).log2 + b.lift
  | _ => 0

/-- The anchor term of a pair of blocks: none where a scale is zero or NaN (R43). -/
def blockAnchor (ma mb : Fr) (a b : Block) : Option Int :=
  if a.scale.isZero || b.scale.isZero || a.scale.isNan || b.scale.isNan then none
  else some (a.top ma + b.top mb - 22)

/-- The anchor of a reduction (R43). -/
def anchorOf (ma mb : Fr) (bs : List (Block × Block)) : Int :=
  ((bs.filterMap fun p => blockAnchor ma mb p.1 p.2).foldl (fun (a : Option Int) t =>
    some (match a with | none => t | some x => max x t)) none).getD 0

/-- Take in the products of one pair of blocks (R37, R38, R45, R48). -/
def WideSum.takeBlock (x : WideSum) (a b : Block) : WideSum :=
  if a.scale.isZero || b.scale.isZero then x
  else if a.scale.isNan || b.scale.isNan then { x with special := x.special.add .nan }
  else (List.zip a.vals b.vals).foldl (fun x p => x.take (p.1.mul a.scale) (p.2.mul b.scale)) x

/-! ### Requantisation (R53, R54) -/

/-- What the epilogue presents for one output: its value, or poison under R87. -/
structure Outp where
  v : Val
  bad : Bool
  deriving DecidableEq, Repr

/-- The smallest BSF code whose value × qmax reaches amax. -/
def bsfFor (c : Code) (amax : Fr) : Option Nat :=
  ((List.range 256).drop 1).find? fun k => amax.le ((bsfVal k).mul c.qmax)

/-- The code of qmax in a floating code. -/
def Code.qmaxCode : Code → Nat
  | .n8e4 => 0x7E
  | .n8e5 => 0x7B
  | .n6e2 => 0x1F
  | .n6e3 => 0x1F
  | _ => 0x7

/-- A quotient rounded to an element code: the code, and whether it passed qmax. -/
def Code.round (c : Code) (q : Fr) : Nat × Bool :=
  match c.float with
  | none =>
    let k := q.round .rne
    let m := c.qmax.n
    if m < k then (wrapN c.bits m, true) else if k < -m then (wrapN c.bits (-m), true)
    else (wrapN c.bits k, false)
  | some (m, b) =>
    let sign := if q.n < 0 then 2 ^ (c.bits - 1) else 0
    if q.isZero then (0, false)
    else
      let (e, k) := roundSig .rne (m + 1) (1 - b) q
      let x := dyad k e
      if c.qmax.lt x then (c.qmaxCode + sign, true)
      else ((e - (1 - b - m)).toNat * 2 ^ m + k + sign, false)

/-- The result of requantising a block: scale code, element codes, SATURATED, NAN_SEEN. -/
structure Requant where
  scale : Nat
  q : List Nat
  sat : Bool
  nan : Bool
  deriving DecidableEq, Repr

/-- Largest |v / t| among the finite, unpoisoned values. -/
def amaxOf (t : Fr) (vs : List Outp) : Fr :=
  vs.foldl (fun a o =>
    match o.v with
    | .num q => if o.bad then a else
        let x := (q.div t).abs
        if a.lt x then x else a
    | _ => a) .zero

/-- Requantise one block of outputs (R53, R87). -/
def requant (c : Code) (t : Fr) (vs : List Outp) : Requant :=
  let amax := amaxOf t vs
  let (s, sat0) := if amax.isZero then (0, false) else
    match bsfFor c amax with
    | some k => (k, false)
    | none => (0xFF, true)
  let one (o : Outp) : Nat × Bool × Bool :=
    if o.bad then (c.nanCode, false, false)
    else match o.v with
      | .nan => (c.nanCode, false, true)
      | .inf neg =>
        ((c.round (if neg then c.qmax.neg else c.qmax)).1, true, false)
      | .num q =>
        if s = 0 then (0, false, false)
        else
          let r := c.round (q.div (t.mul (bsfVal s)))
          (r.1, r.2, false)
  let rs := vs.map one
  ⟨s, rs.map (·.1), sat0 || rs.any (·.2.1), rs.any (·.2.2)⟩

/-- The statistic of a tile over its finite elements, as an FP32 code (R54). -/
def mseOf (es : List Val) : Nat :=
  if es.isEmpty then 0
  else
    let sum := es.foldl (fun a e => a.add (e.mul e)) Val.zero
    (fFP32.round false (sum.mul (.num ⟨1, es.length⟩))).1

/-- e of R54: round_fp32(q × s × t − v). -/
def mseTerm (c : Code) (s q : Nat) (t v : Fr) : Val :=
  match c.val q with
  | .num x => (Val.num (((x.mul (bsfVal s)).mul t).sub v)).toFP32
  | _ => .nan

end Sys2Proof.Machine
end

