-- ==== Sys2Proof/Machine/BeadOps.lean ====
section
/-! DEFINITION. A Bead node's control: start, stop, yield, park, resume, faults, its register
block (R112, R129, R130, R133). -/

namespace Sys2Proof.Machine

abbrev bdIDLE : Nat := 0
abbrev bdRUNNING : Nat := 1
abbrev bdPARKED : Nat := 2
abbrev bdFAULT : Nat := 3
abbrev bdSELFTEST : Nat := 4
abbrev bdOFF : Nat := 5
abbrev bdHALTED : Nat := 6

/-- State code of node `n`. -/
def State.beadState (s : State) (n : Nat) : Nat := s.fld (BEAD_STATUS_STATE n)

def State.setBeadState (s : State) (n v : Nat) : State := s.setF (BEAD_STATUS_STATE n) v

/-- The core executes its next instruction: it is RUNNING and waits for nothing (R114, R129). -/
def State.beadReady (s : State) (n : Nat) : Bool :=
  s.beadState n == bdRUNNING && (s.bead n).stall.isNone && !(s.bead n).fencing && !(s.bead n).parking

/-- An exception stops the core: CAUSE and the faulting pc (R112). -/
def State.beadFault (s : State) (n cause : Nat) : State :=
  let s := (s.setF (BEAD_STATUS_CAUSE n) cause).wr (BEAD_PC n) (s.bead n).pc
  s.setBeadState n bdFAULT

/-- A load met an uncorrected word (R112, R399). -/
def State.beadEcc (s : State) (n : Nat) (addr : BitVec 64) : State :=
  ((s.setF (BEAD_FLAGS_ECC n) 1).log ST_ECC_UNCORRECTED n EV_ECC 1 addr).beadFault n 0x18

/-- Registers x1–x31; x0 reads as zero and takes no value (R110). -/
def BeadSt.xr (b : BeadSt) (r : Nat) : Word := if r = 0 then 0 else kget 0 b.x r

def BeadSt.setX (b : BeadSt) (r : Nat) (v : Word) : BeadSt := if r = 0 then b else { b with x := kput r v b.x }

def BeadSt.fr (b : BeadSt) (r : Nat) : Word := kget 0 b.f r
def BeadSt.setFr (b : BeadSt) (r : Nat) (v : Word) : BeadSt := { b with f := kput r v b.f }
def BeadSt.vr (b : BeadSt) (r : Nat) : BitVec 128 := kget 0 b.v r
def BeadSt.setV (b : BeadSt) (r : Nat) (v : BitVec 128) : BeadSt := { b with v := kput r v b.v }
def BeadSt.wsr (b : BeadSt) (r : Nat) : WideSum := kget {} b.ws r
def BeadSt.setWs (b : BeadSt) (r : Nat) (v : WideSum) : BeadSt := { b with ws := kput r v b.ws }

/-- A write to the block of a node from a source that may not write the register (R133). -/
def State.beadRefuse (s : State) (src off : Nat) : State := s.refuseWrite ST_NOT_PERMITTED src off

/-- START from IDLE (R133). -/
def State.beadStartOp (s : State) (src n : Nat) : State :=
  if src ≠ mSCP then s.beadRefuse src (BEAD_CTL n)
  else if s.beadState n ≠ bdIDLE then s.answer ST_OK
  else
    let b := { s.bead n with pc := s.rd (BEAD_ENTRY n), stall := none, fencing := false, parking := false }
    let s := s.setBead n (b.setX 10 (s.rd (BEAD_ARG n)))
    (s.setBeadState n bdRUNNING).answer ST_OK

/-- STOP stops the core in IDLE (R133); it acts in RUNNING, PARKED and FAULT. -/
def State.beadStopOp (s : State) (src n : Nat) : State :=
  if src ≠ mSCP then s.beadRefuse src (BEAD_CTL n)
  else if s.beadState n = bdRUNNING || s.beadState n = bdPARKED || s.beadState n = bdFAULT then
    let s := s.setBead n { s.bead n with stall := none, fencing := false, parking := false, ylimFrom := none }
    let s := (s.setF (BEAD_STATUS_YPEND n) 0).setF (BEAD_CTL_YIELD_REQ n) 0
    (s.setBeadState n bdIDLE).answer ST_OK
  else s.answer ST_OK

/-- YIELD_REQ: a yield request is pending (R129). -/
def State.yieldReqOp (s : State) (src n : Nat) : State :=
  if src ≠ mSCP then s.beadRefuse src (BEAD_CTL n)
  else
    let b := s.bead n
    let s := s.setBead n { b with ylimFrom := some (b.ylimFrom.getD s.now) }
    ((s.setF (BEAD_CTL_YIELD_REQ n) 1).setF (BEAD_STATUS_YPEND n) 1).answer ST_OK

/-- The state that the save area holds is restored and the core continues (R129, R177). -/
def State.beadRestore (s : State) (n : Nat) : State :=
  let b := s.bead n
  match b.saved with
  | none => s
  | some c =>
    let ns := b.outNs + (match b.outAt with | some t => sinceNs s.now t | none => 0)
    (s.setBead n { b with
      pc := c.pc, x := c.x, f := c.f, fcsr := c.fcsr, v := c.v, ws := c.ws, saved := none
      outAt := none, outNs := ns, stall := none, fencing := false, parking := false }).setBeadState n bdRUNNING

/-- RESUME restores the saved state and continues (R129). -/
def State.beadResumeOp (s : State) (src n : Nat) : State :=
  if src ≠ mSCP then s.beadRefuse src (BEAD_CTL n)
  else if s.beadState n ≠ bdPARKED then s.answer ST_OK
  else (s.beadRestore n).answer ST_OK

/-- A write to BEAD_CTL, its bits from the lowest up (R133). -/
def State.beadCtlWrite (s : State) (src n : Nat) (v : Word) : State :=
  if src ≠ mSCP then s.beadRefuse src (BEAD_CTL n)
  else
    let s := if v.getLsbD 0 then s.beadStartOp src n else s
    let s := if v.getLsbD 1 then s.yieldReqOp src n else s
    let s := if v.getLsbD 2 then s.beadResumeOp src n else s
    let s := if v.getLsbD 3 then s.beadStopOp src n else s
    s.answer ST_OK

/-- Transfers queued or running (R133). -/
def State.setMovers (s : State) (n : Nat) (l : List Mover) : State :=
  (s.setBead n { s.bead n with movers := l }).setF (BEAD_MOV_STAT_QDEPTH n) l.length

/-- A write to BEAD_MOV_CTL: the sync objects, and with GO a transfer is queued; with both slots
full it is not applied and sets MOV_ERR (R131). -/
def State.moverGoOp (s : State) (src n : Nat) (v : Word) : State :=
  if src ≠ mSCP && src ≠ n then s.beadRefuse src (BEAD_MOV_CTL n)
  else if !v.getLsbD 31 then (s.wr (BEAD_MOV_CTL n) (v &&& 0x0FFFFFFF)).answer ST_OK
  else if 2 ≤ (s.bead n).movers.length then (s.setF (BEAD_FLAGS_MOV_ERR n) 1).answer ST_OK
  else
    let s := s.wr (BEAD_MOV_CTL n) (v &&& 0x0FFFFFFF)
    let m : Mover :=
      { src := s.rd64 (BEAD_MOV_SRC_LO n) (BEAD_MOV_SRC_HI n)
        dst := s.rd64 (BEAD_MOV_DST_LO n) (BEAD_MOV_DST_HI n)
        len := (s.rd (BEAD_MOV_LEN n)).toNat
        doneSo := s.fld (BEAD_MOV_CTL_DONE_SO n), errSo := s.fld (BEAD_MOV_CTL_ERR_SO n)
        win := BitVec.ofNat 16 (s.fld (BEAD_WIN_WIN n)), epoch := BitVec.ofNat 16 (s.fld (BEAD_WIN_EPOCH n)) }
    (s.setMovers n ((s.bead n).movers ++ [m])).answer ST_OK

/-- The registers of the block that the SCP alone may write (R133). -/
def beadScpOnly (n off : Nat) : Bool :=
  off == BEAD_CTL n || off == BEAD_ENTRY n || off == BEAD_ARG n || off == BEAD_SAVE n || off == BEAD_YLIM n

/-- A write to the block of node `n` (R133). -/
def State.beadBlockWrite (s : State) (src n off : Nat) (v : Word) : State :=
  if off = BEAD_CTL n then s.beadCtlWrite src n v
  else if off = BEAD_MOV_CTL n then s.moverGoOp src n v
  else if src ≠ mSCP && (beadScpOnly n off || src ≠ n) then s.beadRefuse src off
  else (s.plainWrite off v).answer ST_OK

/-- A read in the block of node `n`: reading ACTIVE_CLK LO latches HI (R133). -/
def State.beadBlockRead (s : State) (n off : Nat) : Word × State :=
  if off = BEAD_ACTIVE_CLK_LO n then
    let c := (s.bead n).activeClk
    (c.setWidth 32, s.wr (BEAD_ACTIVE_CLK_HI n) ((c >>> 32).setWidth 32))
  else s.plainRead off

/-! ### The commands -/

/-- BEAD_PARKED (R129): the 36-clock save is over, and the posted stores are acknowledged. How
the save area is laid out is open, so its 576 bytes hold nothing defined; the state itself is
kept as it is. -/
def execBeadParked (n : Fin 4096) (s : State) : Out :=
  let n := n.val
  let b := s.bead n
  if !b.parking || !b.posted.isEmpty || s.beadState n ≠ bdRUNNING then .next s
  else
    let base := s.physBead n * 0x10000 + (s.rd (BEAD_SAVE n)).toNat % 0x10000 / 64 * 64
    let s := { s.setMem .blm (s.mems.blm.lose 4 base 576 s.free) with free := s.free + 1 }
    let s := s.setBead n { b with
      parking := false, ylimFrom := none, outAt := some s.now
      saved := some ⟨b.pc, b.x, b.f, b.fcsr, b.v, b.ws⟩ }
    let s := s.wr (BEAD_PC n) b.pc
    let s := (s.setF (BEAD_CTL_YIELD_REQ n) 0).setF (BEAD_STATUS_YPEND n) 0
    .next (s.setBeadState n bdPARKED)

/-- BEAD_START (R133). -/
def execBeadStart (src : Nat) (n : Fin 4096) (s : State) : Out := .next (s.beadStartOp src n.val)

/-- BEAD_STOP (R133). -/
def execBeadStop (src : Nat) (n : Fin 4096) (s : State) : Out := .next (s.beadStopOp src n.val)

/-- YIELD_REQ (R129). -/
def execYieldReq (src : Nat) (n : Fin 4096) (s : State) : Out := .next (s.yieldReqOp src n.val)

/-- BEAD_RESUME (R129). -/
def execBeadResume (src : Nat) (n : Fin 4096) (s : State) : Out := .next (s.beadResumeOp src n.val)

/-- YIELD_LIMIT_EXPIRED (R130): YLATE and a report to the SCP; the core goes on. -/
def execYieldLimitExpired (n : Fin 4096) (s : State) : Out :=
  let n := n.val
  match (s.bead n).ylimFrom with
  | none => .next s
  | some t =>
    if (s.rd (BEAD_YLIM n)).toNat < sinceNs s.now t then .next ((s.setF (BEAD_FLAGS_YLATE n) 1).report (.yieldLate n))
    else .next s

/-- MOVER_GO (R131). -/
def execMoverGo (src : Nat) (n : Fin 4096) (v : Word) (s : State) : Out :=
  .next (s.moverGoOp src n.val v)

end Sys2Proof.Machine
end

