-- ==== Sys2Proof/Machine/Fabric.lean ====
section
/-! DEFINITION. Arbitration, clasps, map-bank states, windows and sync objects: the commands of
the memory fabric that address no CSR space (R134–R158). -/

namespace Sys2Proof.Machine

/-! ### One request at its target -/

/-- CMPSET or COUNT at a Bead local memory (R127, R128, R398). -/
def State.rmw (s : State) (src : Nat) (addr : BitVec 64) (f : Word → Word) : Reply × State :=
  match s.target src addr with
  | .blm n off =>
    let a := s.physBead n * 0x10000 + off
    if s.mems.blm.bad (a / 4) then ({ st := ST_ECC_UNCORRECTED, data := leBytes 4 0 }, s)
    else
      let old := BitVec.ofNat 32 (leNat (s.mems.blm.bytes a 4))
      ({ st := ST_OK, data := leBytes 4 old.toNat },
        s.setMem .blm (s.mems.blm.putBytes a (leBytes 4 (f old).toNat)))
  | .remote c =>
    let (st, s) := s.remoteSt c
    let (v, s) := s.fresh
    ({ st := st, data := leBytes 4 v.toNat }, s)
  | t =>
    if s.bankRefuses t then ({ st := ST_BANK_OFF, data := leBytes 4 0 }, s.countRej t)
    else ({ st := ST_BAD_FIELD, data := leBytes 4 0 }, s)

/-- CMPSET (R127). -/
def cmpsetF (cmp new : Word) (old : Word) : Word := if old = cmp then new else old

/-- COUNT (R127). -/
def countF (inc : Word) (old : Word) : Word := old + inc

/-- Perform a granted request on memory. -/
def State.perform (s : State) (src : Nat) (addr : BitVec 64) (op : ReqOp) : Reply × State :=
  match op with
  | .read n => let (r, s) := s.readAt src addr n; ({ st := r.st, data := r.data, ep := r.bad }, s)
  | .write d w e => let (st, s) := s.writeAt src addr d w e; ({ st := st }, s)
  | .setBits d w e => let (st, s) := s.writeAt src addr d w e; ({ st := st }, s)
  | .clearBits d w e => let (st, s) := s.writeAt src addr d w e; ({ st := st }, s)
  | .cmpset c n => (s.grantAt (s.target src addr) src).rmw src addr (cmpsetF c n)
  | .count i => (s.grantAt (s.target src addr) src).rmw src addr (countF i)
  | .clasp _ => ({ st := ST_OK }, s)
  | .add n v => let t := s.soAddNow src n v; (t.reply, { t with reply := s.reply })

/-! ### Arbitration (R153, R155, R157) -/

/-- A request without its window, which its arrival has checked (R152). -/
def ReqOp.checked : ReqOp → ReqOp
  | .write d _ _ => .write d 0xFFFF 0
  | .setBits d _ _ => .setBits d 0xFFFF 0
  | .clearBits d _ _ => .clearBits d 0xFFFF 0
  | o => o

/-- The window that a write carries. -/
def ReqOp.window : ReqOp → BitVec 16
  | .write _ w _ => w
  | .setBits _ w _ => w
  | .clearBits _ w _ => w
  | _ => 0xFFFF

/-- Where a raised request waits: an ADD waits at its source (R158). -/
def State.waitsAt (s : State) (q : Req) : Option Resource :=
  match q.op with
  | .add _ _ => none
  | _ => resourceOf (s.target q.src q.addr)

/-- The physical unit that serves a target (R30). -/
def State.unitAt (s : State) : Target → Nat
  | .blm n _ => s.physBead n
  | .fom f _ => s.physFacet f
  | _ => 0

/-- An access issued while physical unit `u` served its target completes there, whatever swap has
taken effect since (R30). -/
def State.atUnit {α : Type} (s : State) (t : Target) (u : Nat) (f : State → α × State) : α × State :=
  if s.unitAt t = u then f s
  else
    match t with
    | .blm n _ =>
      let x := f (s.setF (ARB_BEAD_MAP_PHYS n) u)
      (x.1, x.2.wr (ARB_BEAD_MAP n) (s.rd (ARB_BEAD_MAP n)))
    | .fom k _ =>
      let x := f (s.setF (ARB_FAC_MAP_PHYS k) u)
      (x.1, x.2.wr (ARB_FAC_MAP k) (s.rd (ARB_FAC_MAP k)))
    | _ => f s

/-- A request of the master must wait at a resource: another master's clasp is open there, or one
of its own earlier requests waits there (R155, R158). -/
def State.blocked (s : State) (src : Nat) (r : Option Resource) : Bool :=
  match r with
  | none => false
  | some r => s.claspedFrom src r || s.fab.raised.any fun q => q.src = src && s.waitsAt q = some r

/-- INFLIGHT of a bank follows the requests that wait at it (R141). -/
def State.setRaised (s : State) (l : List Req) : State :=
  let s0 := { s with fab := { s.fab with raised := l } }
  let banks := ((s.fab.raised ++ l).filterMap fun q =>
    match s.waitsAt q with | some (.bank b) => some b | _ => none).eraseDups
  s0.each banks fun s b =>
    s.setF (MM_STATUS_INFLIGHT b) (min 64 (l.countP fun q => s.waitsAt q == some (.bank b)))

/-- A resource clock that masters lost (R157). -/
def State.conflict (s : State) (ms : List Nat) : State := s.each ms fun s m => s.inc (ARB_CONFL m)

/-- The further clocks that a request waited at a clasp are counted; how many is a matter of
time, hence open (R157; log entry 122). -/
def State.waited (s : State) (m : Nat) : State :=
  { s.incN (ARB_CONFL m) (Config.waitClocks s.free) with free := s.free + 1 }

/-- A beat of the owner is performed: one fewer is left, and the clasp ends after the last. -/
def State.claspBeat (s : State) (src : Nat) (r : Resource) : State :=
  let step (c : Clasp) : Option Clasp :=
    if c.res = r && c.owner = src then (if c.left ≤ 1 then none else some { c with left := c.left - 1 })
    else some c
  { s with fab := { s.fab with clasps := s.fab.clasps.filterMap step } }

/-- The waiting request that wins: the highest class, then round robin in master order after the
last master of that class granted there (R153); of one master's the oldest (R158). -/
def State.winner (s : State) (r : Resource) (qs : List Req) : Option Req :=
  let top := qs.foldl (fun m q => max m (s.classOf q.src)) 0
  let cs := qs.filter fun q => s.classOf q.src = top
  let ptr := kget 0 s.fab.rr (r.key * 4 + top)
  let dist (q : Req) : Nat := (q.src + 4160 - ptr % 4160) % 4160
  cs.foldl (fun (b : Option Req) q =>
    match b with
    | none => some q
    | some x => if dist q < dist x then some q else some x) none

/-- The master holds an open clasp. -/
def State.holdsClasp (s : State) (src : Nat) : Bool := s.fab.clasps.any fun c => c.owner = src

/-- Open a clasp of B beats. -/
def State.openClasp (s : State) (r : Resource) (src beats : Nat) (addr : BitVec 64) : State :=
  { s with fab := { s.fab with clasps := s.fab.clasps ++ [{ res := r, owner := src, left := beats, addr := addr }] } }

/-- An answer that comes after its request. -/
def State.answerLater (s : State) (src : Nat) (a : Reply) : State :=
  { s with fab := { s.fab with answered := s.fab.answered ++ [(src, a)] } }

/-- The requests that a resource may grant: its clasp's owner's alone while one is open (R155). -/
def State.grantable (s : State) (r : Resource) : List Req :=
  s.fab.raised.filter fun q => s.waitsAt q = some r && !s.claspedFrom q.src r

/-- A raised request is granted: it is performed, opens its clasp, or gets the answer that its
arrival gave it (R153, R155, R158). -/
def State.grantOne (s : State) (r : Resource) (q : Req) : State :=
  match q.refused with
  | some a => s.answerLater q.src a
  | none =>
    match q.op with
    | .clasp b =>
      if s.holdsClasp q.src then s.answerLater q.src { st := ST_BAD_STATE }
      else ((s.granted r q.src).openClasp r q.src b q.addr).answerLater q.src { st := ST_OK }
    | op =>
      let (a, s) := s.atUnit (s.target q.src q.addr) q.unit fun s => s.perform q.src q.addr op.checked
      (s.claspBeat q.src r).answerLater q.src a

/-- Grant the requests that wait at a resource, one a clock, until none may be granted. -/
def State.grantRaised (r : Resource) : Nat → State → State
  | 0, s => s
  | k + 1, s =>
    let qs := s.grantable r
    match s.winner r qs with
    | none => s
    | some q =>
      let s := s.setRaised (s.fab.raised.erase q)
      let s := (s.waited q.src).conflict ((qs.erase q).map (·.src))
      State.grantRaised r k (s.grantOne r q)

/-- The ADDs whose master has no earlier write waiting are performed, the oldest first (R158). -/
def State.addsDue : Nat → State → State
  | 0, s => s
  | k + 1, s =>
    let due := s.fab.raised.find? fun q =>
      match q.op with
      | .add _ _ => !(s.fab.raised.takeWhile (· ≠ q)).any fun p => p.src = q.src && p.op.isWrite
      | _ => false
    match due with
    | none => s
    | some q =>
      let s := s.setRaised (s.fab.raised.erase q)
      let (a, s) := s.perform q.src q.addr q.op
      State.addsDue k (s.answerLater q.src a)

/-- A resource that may have become free serves what waits at it, and the ADDs held behind. -/
def State.serve (s : State) (r : Resource) : State :=
  if s.fab.raised.isEmpty then s
  else
    let t := State.grantRaised r s.fab.raised.length s
    State.addsDue t.fab.raised.length t

/-- What a request that would be refused anyway receives, before it is raised (R142, R151). -/
def State.precheck (s : State) (src : Nat) (addr : BitVec 64) (op : ReqOp) : St :=
  let t := s.target src addr
  let n := match op with
    | .read n => n | .write d _ _ => d.length | .setBits d _ _ => d.length | .clearBits d _ _ => d.length
    | _ => 4
  let st := s.regionCheck t n op.isWrite
  if st ≠ ST_OK then st
  else if s.bankRefuses t then ST_BANK_OFF
  else
    match op with
    | .write d w e => s.winCheck src t (normalLocal (addr.toNat % 2 ^ 48)) d.length w e
    | .setBits d w e => s.winCheck src t (normalLocal (addr.toNat % 2 ^ 48)) d.length w e
    | .clearBits d w e => s.winCheck src t (normalLocal (addr.toNat % 2 ^ 48)) d.length w e
    | _ => ST_OK

/-- The request is answered later: it waits at a clasp, or behind one of its master's that does;
a refused one waits for the latter alone (R155, R158). -/
def State.mustWait (s : State) (src : Nat) (addr : BitVec 64) (op : ReqOp) : Bool :=
  match resourceOf (s.target src addr) with
  | none => false
  | some r =>
    (s.claspedFrom src r && s.precheck src addr op = ST_OK)
      || s.fab.raised.any fun q => q.src = src && s.waitsAt q = some r

/-- A request that waits is raised; one that is refused keeps the answer of its arrival. -/
def State.raise (s : State) (src : Nat) (addr : BitVec 64) (op : ReqOp) : State :=
  let u := s.unitAt (s.target src addr)
  if s.precheck src addr op = ST_OK then
    (s.setRaised (s.fab.raised ++ [{ src := src, addr := addr, op := op, unit := u }])).conflict [src]
  else
    let (a, s) := s.perform src addr op
    s.setRaised (s.fab.raised ++ [{ src := src, addr := addr, op := op, unit := u, refused := some a }])

/-- A request arrives at a memory: it is raised where it must wait, and performed otherwise; the
beats of a clasp's owner count (R153, R155). -/
def State.request (s : State) (src : Nat) (addr : BitVec 64) (op : ReqOp) : Reply × State :=
  if s.mustWait src addr op then (s.reply, s.raise src addr op)
  else
    let (a, t) := s.perform src addr op
    match resourceOf (s.target src addr) with
    | none => (a, t)
    | some r => (a, (t.claspBeat src r).serve r)

/-- The operation of a write request at its target: a write through an alias sets or clears bits
(R21, R139). -/
def State.writeOp (s : State) (src : Nat) (addr : BitVec 64) (d : List Byte) (win epoch : BitVec 16) : ReqOp :=
  match s.target src addr with
  | .map .set _ => .setBits d win epoch
  | .map .clear _ => .clearBits d win epoch
  | _ => .write d win epoch

/-- The range of local addresses that a resource on which clasps open covers (R21). -/
def Resource.range : Resource → Nat × Nat
  | .bank b => (0x10000000 + b * 0x80000, 0x80000)
  | .blm n => (0x40000000 + n * 0x10000, 0x10000)
  | _ => (0, 0)

/-- Another master's clasp is open at some byte of a range of this chip (R155): a unit that needs
the range waits. -/
def State.claspMeets (s : State) (src addr len : Nat) : Bool :=
  let chip := addr / 2 ^ 48
  (chip = 0xFFFF || chip = s.fld GLB_CHIP_ID_CHIP) && s.fab.clasps.any fun c =>
    c.owner ≠ src && decide (normalLocal (addr % 2 ^ 48) < c.res.range.1 + c.res.range.2)
      && decide (c.res.range.1 < normalLocal (addr % 2 ^ 48) + len)

/-- A posted write of a device unit: where it must wait it is raised and counts as sent. -/
def State.postWrite (s : State) (src : Nat) (addr : BitVec 64) (data : List Byte)
    (w : BitVec 16 := 0xFFFF) (epoch : BitVec 16 := 0) : St × State :=
  let op := ReqOp.write data w epoch
  if s.mustWait src addr op then (s.precheck src addr op, s.raise src addr op)
  else s.writeAt src addr data w epoch

/-- Posted writes as a sequence of line requests up to the first refusal: status and the number of
bytes sent. -/
def State.postLong (s : State) (src : Nat) (addr : BitVec 64) (data : List Byte)
    (w : BitVec 16 := 0xFFFF) (epoch : BitVec 16 := 0) : (St × Nat) × State :=
  (lines addr data.length).foldl (fun (r, s) (a, k) =>
    if r.1 ≠ ST_OK then (r, s)
    else
      let (st, s) := s.postWrite src (BitVec.ofNat 64 a) ((data.drop (a - addr.toNat)).take k) w epoch
      ((st, if st = ST_OK then r.2 + k else r.2), s)) ((ST_OK, 0), s)

/-! ### Map banks (R140–R144) -/

def State.bankMove (s : State) (b : Nat) : BankMove := kget .none s.fab.banks b
def State.setMove (s : State) (b : Nat) (m : BankMove) : State :=
  { s with fab := { s.fab with banks := kput b m s.fab.banks } }
def State.bankState (s : State) (b : Nat) : Nat := s.fld (MM_STATUS_STATE b)
def State.lastSt (s : State) (b : Nat) (st : St) : State := s.setF (MM_STATUS_LAST_ST b) st.toNat

/-- An applied request for a state (R143). -/
def State.bankApply (s : State) (src b req : Nat) : State :=
  let st := s.bankState b
  let s := (s.setF (MM_CTL_REQ b) req).lastSt b ST_OK
  if req = st then s
  else if req = bankON then
    if st = bankRET then s.setMove b .toOn
    else
      let s := (s.setF (MM_STATUS_STATE b) bankWAKE).setMove b .waking
      { s with power := { s.power with other := kput (50 + b / 32) false s.power.other } }
  else if st = bankON then
    (s.setF (MM_STATUS_STATE b) bankDRAIN).setMove b (.drain (req = bankOFF) s.now src)
  else s.setMove b .toOff

/-- A write of MM_CTL.REQ (R143, R144). -/
def State.bankReq (s : State) (src b req : Nat) : State :=
  if src ≠ mSCP && src ≠ mHIP then s.refuseWrite ST_NOT_PERMITTED src (MM_CTL b)
  else
    let st := s.bankState b
    let s := s.answer ST_OK
    if req = 3 then s.lastSt b ST_BAD_FIELD
    else if 248 ≤ b then s.lastSt b (if req = bankON then ST_OK else ST_NOT_PERMITTED)
    else if s.bankMove b ≠ .none then s.lastSt b ST_BAD_STATE
    else if req = bankRET && st = bankOFF then s.lastSt b ST_BAD_STATE
    else s.bankApply src b req

/-- Nothing holds up a draining bank: no accepted request is left and no clasp is open (R141). -/
def State.bankEmpty (s : State) (b : Nat) : Bool :=
  s.fld (MM_STATUS_INFLIGHT b) == 0 && (s.claspOn (.bank b)).isNone

/-- The contents of a bank are lost and read as zero with valid ECC (R140). -/
def State.bankZero (s : State) (b : Nat) : State :=
  s.setMem .map (s.mems.map.zero 8 (b * 0x80000) 0x80000)

/-- When all 32 banks of a group are OFF its power domain is switched off (R143). -/
def State.groupCheck (s : State) (b : Nat) : State :=
  let g := b / 32
  if (List.range 32).all fun i => s.bankState (32 * g + i) = bankOFF && s.bankMove (32 * g + i) = .none then
    { s with power := { s.power with other := kput (50 + g) true s.power.other } }
  else s

/-! ### Windows (R150–R152) -/

/-- An open window's owner. -/
def State.winOwner (s : State) (w : Nat) : WinUnit := localUnit (s.winBase w)

/-- OPEN may be applied: one unit holds the range, and the owner has a place (R150). -/
def State.winFits (s : State) (w : Nat) : Bool :=
  let u := s.winOwner w
  let n := s.winSize w
  u != .none && 1 ≤ n && localUnit (s.winBase w + n - 1) == u
    && ((List.range 4096).countP fun v => v ≠ w && s.flag (ARB_WIN_CTL_STATE v) && s.winOwner v == u) < 16

/-- The source may write the registers of a window (R152): the SCP, or a Bead core for its own
local memory; `base` is the BASE that decides. -/
def winMay (src base : Nat) : Bool := src == mSCP || (src < 4096 && localUnit base == .node src)

/-- A clasp open to a window that closes goes on under it (R152). -/
def State.claspGrace (s : State) (w : Nat) (c : Clasp) : Clasp :=
  let l := normalLocal (c.addr.toNat % 2 ^ 48)
  if s.winBase w ≤ l && l < s.winBase w + s.winSize w then
    { c with grace := c.grace ++ [(BitVec.ofNat 16 w, BitVec.ofNat 16 (s.fld (ARB_WIN_CTL_EPOCH w)))] }
  else c

/-- A write to ARB_WIN_CTL (R150, R152). -/
def State.winCtlWrite (s : State) (src w : Nat) (v : Word) : State :=
  if !winMay src (s.winBase w) then s.refuseWrite ST_NOT_PERMITTED src (ARB_WIN_CTL w)
  else
    let s := (if v.getLsbD 4 then s.setF (ARB_WIN_CTL_ERR w) 0 else s).answer ST_OK
    if v.getLsbD 0 && v.getLsbD 1 then s.setF (ARB_WIN_CTL_ERR w) 1
    else if v.getLsbD 0 then
      if s.winFits w then
        (s.setF (ARB_WIN_CTL_STATE w) 1).setF (ARB_WIN_CTL_EPOCH w) (s.fld (ARB_WIN_CTL_EPOCH w) + 1)
      else s.setF (ARB_WIN_CTL_ERR w) 1
    else if v.getLsbD 1 && s.flag (ARB_WIN_CTL_STATE w) then
      let t := (s.setF (ARB_WIN_CTL_STATE w) 0).setF (ARB_WIN_CTL_BUSY w) 1
      { t with fab := { t.fab with
        closing := kput w true t.fab.closing
        clasps := t.fab.clasps.map (s.claspGrace w) } }
    else s

/-- A write to ARB_WIN_BASE or ARB_WIN_SIZE: while CLOSED only (R152). -/
def State.winRangeWrite (s : State) (src w off : Nat) (v : Word) : State :=
  let base := if off = ARB_WIN_BASE w then v.toNat / 64 * 64 else s.winBase w
  if !winMay src base then s.refuseWrite ST_NOT_PERMITTED src off
  else if s.flag (ARB_WIN_CTL_STATE w) then s.answer ST_BAD_STATE
  else (s.plainWrite off v).answer ST_OK

/-! ### Sync objects through their aliases (R147) -/

/-- The target that a master has armed on an object. -/
def State.armed (s : State) (src n : Nat) : Option Word := kget none (kget [] s.fab.armed src) n

def State.setArmed (s : State) (src n : Nat) (v : Option Word) : State :=
  { s with fab := { s.fab with armed := kput src (kput n v (kget [] s.fab.armed src)) s.fab.armed } }

/-- A read of ARB_SO_WAIT[n] (R147). -/
def State.soAliasRead (s : State) (src n : Nat) : State :=
  match s.armed src n with
  | none => s.soRead src n
  | some t => (s.setArmed src n none).soWait src n t (s.fld ARB_WAIT_DEF_TMO) true

/-! ### The commands -/

/-- BANK_REQ_ON (R143). -/
def execBankReqOn (src : Nat) (b : Fin 256) (s : State) : Out := .next (s.bankReq src b.val bankON)

/-- BANK_REQ_RETENTION (R143). -/
def execBankReqRetention (src : Nat) (b : Fin 256) (s : State) : Out := .next (s.bankReq src b.val bankRET)

/-- BANK_REQ_OFF (R143). -/
def execBankReqOff (src : Nat) (b : Fin 256) (s : State) : Out := .next (s.bankReq src b.val bankOFF)

/-- BANK_DRAINED (R141): the bank refuses from here on and enters its state. -/
def execBankDrained (b : Fin 256) (s : State) : Out :=
  let b := b.val
  match s.bankMove b with
  | .drain off _ _ =>
    if !s.bankEmpty b then .next s
    else if off then .next ((s.setF (MM_STATUS_STATE b) bankOFF).setMove b .toOff)
    else .next ((s.setF (MM_STATUS_STATE b) bankRET).setMove b .toRetention)
  | _ => .next s

/-- BANK_DRAIN_TIMEOUT (R141): 10 µs of TB0 have passed. -/
def execBankDrainTimeout (b : Fin 256) (s : State) : Out :=
  let b := b.val
  match s.bankMove b with
  | .drain _ t src =>
    if s.bankEmpty b || sinceNs s.now t < 10000 then .next s
    else
      let s := ((s.setF (MM_STATUS_STATE b) bankON).setMove b .none).lastSt b ST_BANK_BUSY
      let s := s.log ST_BANK_BUSY src EV_REQUEST_REFUSED 0xFFFF (BitVec.ofNat 64 (MM_CTL b))
      .next { s with fab := { s.fab with answered := s.fab.answered ++ [(src, { st := ST_BANK_BUSY })] } }
  | _ => .next s

/-- BANK_TRANSITION_COMPLETE (R140, R143). -/
def execBankTransitionComplete (b : Fin 256) (s : State) : Out :=
  let b := b.val
  match s.bankMove b with
  | .toRetention => .next (s.setMove b .none)
  | .toOff =>
    let s := ((s.setF (MM_STATUS_STATE b) bankOFF).setMove b .none).bankZero b
    .next (s.groupCheck b)
  | .toOn => .next ((s.setF (MM_STATUS_STATE b) bankON).setMove b .none)
  | .waking => .next (((s.bankZero b).setF (MM_STATUS_STATE b) bankON).setMove b .none)
  | _ => .next s

/-- PATROL_SCRUB (R138): in an ON bank a corrected word is written back and counted, an
uncorrected one is poisoned and stays so. -/
def execPatrolScrub (b : Fin 256) (word : Fin 65536) (found : EccFinding) (s : State) : Out :=
  let b := b.val
  if s.bankState b ≠ bankON then .next s
  else
    match found with
    | .clean => .next s
    | .corrected => .next (s.inc (MM_ECC b))
    | .uncorrected => .next (s.setMem .map (s.mems.map.setBad (b * 0x10000 + word.val) true))

/-- SO_ADD (R146). -/
def execSoAdd (src : Nat) (n : Fin 16384) (v : Word) (s : State) : Out :=
  .next (s.hostWrite src (0x140000 + 4 * n.val) v fun s => s.soAdd src n.val v)

/-- SO_SET (R146). -/
def execSoSet (src : Nat) (n : Fin 16384) (v : Word) (s : State) : Out :=
  .next (s.hostWrite src (ARB_SO_SET n.val) v fun s => s.soSet src n.val v)

/-- SO_READ (R146). -/
def execSoRead (src : Nat) (n : Fin 16384) (s : State) : Out :=
  .next (s.hostRead src (0x140000 + 4 * n.val) fun s => s.soRead src n.val)

/-- SO_WAIT (R146–R148): a request type with its target and timeout, or a read of ARB_SO_WAIT. -/
def execSoWait (src : Nat) (n : Fin 16384) (req : Option (Word × BitVec 16)) (s : State) : Out :=
  match req with
  | some (t, tmo) => .next (s.hostRead src (0x140000 + 4 * n.val) fun s => s.soWait src n.val t tmo.toNat false)
  | none => .next (s.hostRead src (ARB_SO_WAIT n.val) fun s => s.soAliasRead src n.val)

/-- SO_WAIT_ARM (R147). -/
def execSoWaitArm (src : Nat) (n : Fin 16384) (target : Word) (s : State) : Out :=
  .next (s.hostWrite src (ARB_SO_WAIT n.val) target fun s => (s.setArmed src n.val (some target)).answer ST_OK)

/-- A held WAIT whose time has passed ends with the current count (R148). -/
def State.waitTimeout (s : State) (w : Wait) : State :=
  let a : Reply := { st := if w.aliased then ST_OK else ST_WAIT_TIMEOUT, data := leBytes 4 (s.so w.so).toNat }
  { s.inc ARB_WAIT_TMO_CNT with fab := { s.fab with
      waits := s.fab.waits.filter (fun x => x.src ≠ w.src), answered := s.fab.answered ++ [(w.src, a)] } }

/-- WINDOW_OPEN_REQUEST (R150, R152). -/
def execWindowOpenRequest (src : Nat) (w : Fin 4096) (v : Word) (s : State) : Out :=
  .next (s.winCtlWrite src w.val (v ||| 1))

/-- WINDOW_CLOSE (R152). -/
def execWindowClose (src : Nat) (w : Fin 4096) (v : Word) (s : State) : Out :=
  .next (s.winCtlWrite src w.val (v ||| 2))

/-- WINDOW_CLOSE_DRAINED (R152): no write accepted under the window waits any more, and no clasp to
it is open. -/
def execWindowCloseDrained (w : Fin 4096) (s : State) : Out :=
  let w := w.val
  let waits := (s.fab.raised.any fun q => q.op.window.toNat = w && q.refused.isNone)
    || s.fab.clasps.any fun c => c.grace.any fun g => g.1.toNat = w
  if !kget false s.fab.closing w || waits then .next s
  else
    let s := s.setF (ARB_WIN_CTL_BUSY w) 0
    .next { s with fab := { s.fab with closing := kdel w s.fab.closing } }

/-- A write to ARB_CLASS (R154). -/
def State.classWrite (s : State) (src k : Nat) (v : Word) : State :=
  if src ≠ mSCP then s.refuseWrite ST_NOT_PERMITTED src (ARB_CLASS k)
  else (s.wr (ARB_CLASS k) v).answer ST_OK

/-- ARB_CLASS_WRITE (R154). -/
def execArbClassWrite (src : Nat) (k : Fin 260) (v : Word) (s : State) : Out :=
  .next (s.classWrite src k.val v)

/-- The masters that issue clasps: Bead nodes with their movers, and the three firmware processors
(R156). -/
def claspMaster (src : Nat) : Bool := src < 4096 || src = mSCP || src = mSFP || src = mHIP

/-- The resources on which clasps open: map banks and Bead local memories (R155). -/
def Resource.claspable : Resource → Bool
  | .bank _ => true
  | .blm _ => true
  | _ => false

/-- CLASP_OPEN (R155): refused while the master holds a clasp; it waits while another master's
clasp is open at the resource (log entry 125). -/
def execClaspOpen (src : Nat) (addr : BitVec 64) (beats : Nat) (s : State) : Out :=
  if beats = 0 || 16 < beats || !claspMaster src then .fault .badOperand
  else if s.holdsClasp src then .next (s.answer ST_BAD_STATE)
  else
    match resourceOf (s.target src addr) with
    | none => .next (s.answer ST_BAD_FIELD)
    | some r =>
      if !r.claspable then .next (s.answer ST_BAD_FIELD)
      else if s.bankRefuses (s.target src addr) then
        .next ((s.countRej (s.target src addr)).answer ST_BANK_OFF)
      else if s.blocked src (some r) then
        .next ((s.setRaised (s.fab.raised ++
          [{ src := src, addr := addr, op := .clasp beats, unit := s.unitAt (s.target src addr) }])).conflict [src])
      else .next (((s.granted r src).openClasp r src beats addr).answer ST_OK)

end Sys2Proof.Machine
end

