-- ==== Sys2Proof/Machine/Facet.lean ====
section
/-! DEFINITION. Facet commands: descriptor, checks, operands, reductions, epilogue, delta
execution (R58–R81, R87, R425, R426). -/

namespace Sys2Proof.Machine

/-! ### Descriptor (R63) -/

/-- The fields of a Facet command descriptor. -/
structure FacDesc where
  op : Nat
  flags : Nat
  task : Nat
  kseg : Nat
  fmt : Nat
  m : Nat
  n : Nat
  k : Nat
  pitch : Nat
  a : Nat
  b : Nat
  tsa : Nat
  tsb : Nat
  out : Nat
  aux : Nat
  act : Nat
  delta : Nat
  stat : Nat
  ih : Nat
  iw : Nat
  kh : Nat
  kw : Nat
  sh : Nat
  sw : Nat
  dh : Nat
  dw : Nat
  pt : Nat
  pb : Nat
  pl : Nat
  pr : Nat
  padMode : Nat
  poolOp : Nat
  cin : Nat
  doneSo : Nat
  errSo : Nat
  cycle : Nat
  outTs : Nat
  batch : Nat
  rsvd : Nat
  deriving DecidableEq, Repr

/-- Read a descriptor's fields. -/
def facDesc (d : List Byte) : FacDesc where
  op := fieldN d 0 2
  flags := fieldN d 2 2
  task := fieldN d 4 2
  kseg := fieldN d 6 2
  fmt := fieldN d 8 4
  m := fieldN d 0x0C 4
  n := fieldN d 0x10 2
  k := fieldN d 0x12 2
  pitch := fieldN d 0x14 4
  a := fieldN d 0x18 8
  b := fieldN d 0x20 8
  tsa := fieldN d 0x28 8
  tsb := fieldN d 0x30 8
  out := fieldN d 0x38 8
  aux := fieldN d 0x40 8
  act := fieldN d 0x48 8
  delta := fieldN d 0x50 8
  stat := fieldN d 0x58 8
  ih := fieldN d 0x60 2
  iw := fieldN d 0x62 2
  kh := fieldN d 0x64 1 / 16
  kw := fieldN d 0x64 1 % 16
  sh := fieldN d 0x65 1 / 16
  sw := fieldN d 0x65 1 % 16
  dh := fieldN d 0x66 1
  dw := fieldN d 0x67 1
  pt := fieldN d 0x68 1
  pb := fieldN d 0x69 1
  pl := fieldN d 0x6A 1
  pr := fieldN d 0x6B 1
  padMode := fieldN d 0x6C 1
  poolOp := fieldN d 0x6D 1
  cin := fieldN d 0x6E 2
  doneSo := fieldN d 0x70 2
  errSo := fieldN d 0x72 2
  cycle := fieldN d 0x74 4
  outTs := fieldN d 0x78 4
  batch := fieldN d 0x7C 2
  rsvd := fieldN d 0x7E 2

/-- Flag bit `i` of a descriptor. -/
def FacDesc.fl (d : FacDesc) (i : Nat) : Bool := bitsN d.flags i 1 == 1

def FacDesc.aCode (d : FacDesc) : Nat := bitsN d.fmt 0 4
def FacDesc.bCode (d : FacDesc) : Nat := bitsN d.fmt 4 4
def FacDesc.bsp (d : FacDesc) : Bool := bitsN d.fmt 8 1 == 1
def FacDesc.outFmt (d : FacDesc) : Nat := bitsN d.fmt 12 4
def FacDesc.rqCode (d : FacDesc) : Nat := bitsN d.fmt 16 4
def FacDesc.rqDim (d : FacDesc) : Nat := bitsN d.fmt 20 1
def FacDesc.codeA (d : FacDesc) : Code := (codeOf d.aCode).getD .n8i
def FacDesc.codeB (d : FacDesc) : Code := (codeOf d.bCode).getD .n8i
def FacDesc.codeQ (d : FacDesc) : Code := (codeOf d.rqCode).getD .n8i

/-- ceil(a / b). -/
def ceilDiv (a b : Nat) : Nat := (a + b - 1) / b

/-- Channels padded to whole blocks (R66). -/
def FacDesc.cpad (d : FacDesc) : Nat := 32 * ceilDiv d.cin 32

/-- Reduction blocks (R65). -/
def FacDesc.nb (d : FacDesc) : Nat := ceilDiv d.k 32

/-- Output height (R68). -/
def FacDesc.oh (d : FacDesc) : Int :=
  ((d.ih + d.pt + d.pb : Int) - d.dh * ((d.kh : Int) - 1) - 1) / d.sh + 1

/-- Output width (R68). -/
def FacDesc.ow (d : FacDesc) : Int :=
  ((d.iw + d.pl + d.pr : Int) - d.dw * ((d.kw : Int) - 1) - 1) / d.sw + 1

/-- Width of an output element in bits (R67). -/
def outWidth (fmt : Nat) (c : Code) : Nat :=
  match fmt with
  | 0 => 32
  | 1 | 2 => 16
  | 4 => 256
  | _ => c.bits

def FacDesc.width (d : FacDesc) : Nat := outWidth d.outFmt d.codeQ

/-- Bytes of a tile of codes and scales (R65). -/
def tileBytes (c : Code) : Nat := 256 * c.bits + 64

/-- Row tiles and column tiles. -/
def FacDesc.rt (d : FacDesc) : Nat := ceilDiv d.m 64
def FacDesc.ct (d : FacDesc) : Nat := ceilDiv d.n 64

/-- CONV or POOL, which read an input map. -/
def FacDesc.isMap (d : FacDesc) : Bool := d.op == 2 || d.op == 3

/-- OUT_TS is finite and not zero (R53). -/
def tsOk (t : Nat) : Bool := t % 2 ^ 31 != 0 && bitsN t 23 8 != 0xFF

/-- First 64-byte boundary at or after an address. -/
def up64 (a : Nat) : Nat := ceilDiv a 64 * 64

/-- Positions of the input map. -/
def FacDesc.positions (d : FacDesc) : Nat := d.batch * d.ih * d.iw

/-- Where the block-scale plane of the input map starts: at the first multiple of 64 bytes of the
layout after the last code (R66). A snapshot of the map keeps this layout (R78). -/
def FacDesc.mapPlane (d : FacDesc) : Nat := d.a + up64 (d.positions * d.cpad * d.codeA.bits / 8)

/-- Bytes of the A operand (R65, R66, R425). -/
def FacDesc.aBytes (d : FacDesc) : Nat :=
  if d.op = 1 then d.rt * d.nb * tileBytes d.codeA
  else if d.op = 5 then 32 * d.m * d.n
  else d.mapPlane - d.a + d.positions * d.cpad / 32

/-- Bytes of an output row (R76). -/
def rowBytes (n w : Nat) : Nat := ceilDiv (n * w) 8

/-! ### Checks (R64) -/

/-- Check 2: codes, formats, flags, reserved and unused fields. -/
def FacDesc.check2 (d : FacDesc) : Bool :=
  d.flags < 256 && bitsN d.fmt 9 3 == 0 && bitsN d.fmt 21 11 == 0 && d.rsvd == 0
    && d.outFmt ≤ 4
    && (d.outFmt != 4 || (!d.fl 0 && !d.fl 1 && !d.fl 2 && !d.fl 3 && !d.fl 5))
    && (d.outFmt != 4 || d.op != 3)
    && (!d.fl 3 || d.outFmt == 3)
    && (!d.fl 6 || d.op == 1 || d.op == 2) && (!d.fl 7 || d.fl 6)
    && d.rqCode ≤ 6 && (d.outFmt != 3 || tsOk d.outTs)
    && (!(d.fl 2 || d.fl 3 || d.fl 4) || d.stat != 0)
    && (if d.op = 5 then d.aCode == 0 && d.bCode == 0 && !d.bsp
        else d.aCode ≤ 6 && (if d.op = 3 then d.bCode == 0 && d.b == 0 && d.tsb == 0 else d.bCode ≤ 6))
    && (d.op == 1 || d.op == 2 || d.delta == 0)
    && (if d.isMap then d.padMode ≤ 2 && d.poolOp ≤ 2 && (d.op == 3 || d.poolOp == 0)
        else d.ih == 0 && d.iw == 0 && d.kh == 0 && d.kw == 0 && d.sh == 0 && d.sw == 0
          && d.dh == 0 && d.dw == 0 && d.pt == 0 && d.pb == 0 && d.pl == 0 && d.pr == 0
          && d.padMode == 0 && d.poolOp == 0 && d.cin == 0 && d.batch == 0)

/-- Check 3: dimensions. KSEG is held to its range for every opcode, also for POOL and WCOMBINE,
which have no reduction blocks (DESIGN CHOICE, log entry 89). -/
def FacDesc.check3 (d : FacDesc) : Bool :=
  1 ≤ d.kseg && d.kseg ≤ 128 && 1 ≤ d.m && d.m ≤ 16777215 && 1 ≤ d.n && d.k ≤ 32768
    && d.pitch % 64 == 0
    && (d.op != 1 || 1 ≤ d.k) && ((d.op != 3 && d.op != 5) || d.k == 0)
    && (d.m ≤ 1 || rowBytes d.n d.width ≤ d.pitch)
    && (!d.isMap ||
      (1 ≤ d.ih && 1 ≤ d.iw && 1 ≤ d.kh && 1 ≤ d.kw && 1 ≤ d.sh && 1 ≤ d.sw && 1 ≤ d.dh && 1 ≤ d.dw
        && 1 ≤ d.cin && d.cin ≤ 32768 && 1 ≤ d.batch && 1 ≤ d.oh && 1 ≤ d.ow
        && (d.m : Int) == d.batch * d.oh * d.ow
        && (if d.op = 2 then d.k == d.kh * d.kw * d.cpad else d.n == d.cin)))

/-- Check 4: reflect padding. -/
def FacDesc.check4 (d : FacDesc) : Bool :=
  !d.isMap || d.padMode != 2 || (d.pt < d.ih && d.pb < d.ih && d.pl < d.iw && d.pr < d.iw)

/-- The region of R21 that holds an address: chip, region number. -/
def State.regionOf (s : State) (a : Nat) : Option (Nat × Nat) :=
  let loc := match s.target mHIP (BitVec.ofNat 64 (a % 2 ^ 48 + 0xFFFF * 2 ^ 48)) with
    | .csr _ => some 0
    | .map .normal _ => some 1
    | .map .set _ => some 2
    | .map .clear _ => some 3
    | .blm _ _ => some 4
    | .fom _ _ => some 5
    | .nvm _ => some 6
    | .ddr _ => some 7
    | _ => none
  match s.target mHIP (BitVec.ofNat 64 a) with
  | .none => none
  | .remote c => loc.map fun r => (c, r)
  | _ => loc.map fun r => (0xFFFF, r)

/-- A range is 64-byte aligned and lies in one region. -/
def State.rangeOk (s : State) (a n : Nat) : Bool :=
  a % 64 == 0 && 1 ≤ n && a + n ≤ 2 ^ 64 && (s.regionOf a).isSome && s.regionOf a == s.regionOf (a + n - 1)

/-- A statistics range lies where R64 check 5 lets it lie. -/
def State.statOk (s : State) (a n : Nat) : Bool :=
  s.rangeOk a n &&
    (match s.regionOf a with
    | some (_, 1) | some (_, 4) | some (_, 7) => true
    | some (_, 5) => (a % 2 ^ 48 - 0x50000000) % 0x200000 + n ≤ 0x180000
    | _ => false)

/-- A delta state lies in map memory or LPDDR5X (R78). -/
def State.deltaOk (s : State) (a n : Nat) : Bool :=
  s.rangeOk a n && (match s.regionOf a with | some (_, 1) | some (_, 7) => true | _ => false)

/-- Bytes of the output with its block-scale plane (R67). -/
def outBytes (out m n w pitch fmt dim : Nat) : Nat :=
  let sz := (m - 1) * pitch + rowBytes n w
  if fmt = 3 then
    up64 (out + sz) - out + (if dim = 0 then m * ceilDiv n 32 else ceilDiv m 32 * n)
  else sz

/-- Bytes of the statistics area (R77). -/
def FacDesc.statBytes (d : FacDesc) : Nat :=
  let z := 64 + (if d.fl 3 then 4 * d.rt * d.ct else 0)
  if d.fl 2 then up64 z + 2 * d.m else z

/-- Every address of the descriptor is 64-byte aligned, those that the command does not follow too
(R64 check 5). -/
def FacDesc.aligned (d : FacDesc) : Bool :=
  [d.a, d.b, d.tsa, d.tsb, d.out, d.aux, d.act, d.delta, d.stat].all fun a => a % 64 == 0

/-- Check 5: addresses and ranges. -/
def State.facCheck5 (s : State) (d : FacDesc) : Bool :=
  d.aligned && s.rangeOk d.a d.aBytes
    && (d.op == 3 || s.rangeOk d.b
      (if d.op = 5 then 32 * d.m * d.n else d.ct * d.nb * tileBytes d.codeB))
    && (d.outFmt == 4 || (s.rangeOk d.tsa (if d.isMap then 4 else 4 * d.rt)
      && (d.op == 3 || s.rangeOk d.tsb (4 * d.ct))))
    && s.rangeOk d.out (outBytes d.out d.m d.n d.width d.pitch d.outFmt d.rqDim)
    && (!d.fl 0 || s.rangeOk d.aux (4 * d.n)) && (!d.fl 1 || s.rangeOk d.act 1152)
    && (!d.fl 6 || s.deltaOk d.delta (64 + 32 * d.m * d.n + d.aBytes))
    && (d.stat == 0 || s.statOk d.stat d.statBytes)

/-- Operand bytes as the engine reads them: the status is a refusal's, or ST_ECC_UNCORRECTED
for poisoned data (R87). -/
def State.fetchOp (s : State) (f addr n : Nat) : St × List Byte :=
  let r := (s.readLong (mFacet f) (BitVec.ofNat 64 addr) n).1
  (if r.st ≠ ST_OK then r.st else if r.bad then ST_ECC_UNCORRECTED else ST_OK, r.data)

/-- An FP32 operand word. -/
def State.fetchF32 (s : State) (f addr : Nat) : St × Val :=
  let (st, b) := s.fetchOp f addr 4
  (st, fp32Val (leNat b))

/-- An FP32 word that is finite, or cannot be read (its users are written as NaN, R87). -/
def State.finiteAt (s : State) (f addr : Nat) : Bool :=
  match s.fetchF32 f addr with
  | (_, .num _) => true
  | (st, _) => st ≠ ST_OK

/-- Check 6: X0 and the knots of the activation table are finite. -/
def State.facCheck6 (s : State) (f : Nat) (d : FacDesc) : Bool :=
  !d.fl 1 || (s.finiteAt f d.act && (List.range 257).all fun i => s.finiteAt f (d.act + 64 + 4 * i))

/-- The checks of R64 on MATMUL, CONV, POOL and WCOMBINE, in their order. -/
def State.facCheck (s : State) (f : Nat) (d : FacDesc) : St :=
  if !(d.op == 1 || d.op == 2 || d.op == 3 || d.op == 5) then ST_BAD_OPCODE
  else if !d.check2 || !d.check3 then ST_BAD_FIELD
  else if !d.check4 then ST_PAD_RANGE
  else if !s.facCheck5 d then ST_BAD_FIELD
  else if !s.facCheck6 f d then ST_BAD_FIELD
  else ST_OK

/-! ### Operands (R65, R66, R69, R70) -/

/-- A block from its packed codes and its scale byte. -/
def blockOf (c : Code) (bsp : Bool) (codes : List Byte) (scale : Nat) : Block :=
  { vals := (List.range 32).map fun i => c.val (codeAt c.bits codes i), scale := scaleVal bsp scale }

/-- The 64 blocks of a tile of R65 at an address. -/
def State.matTile (s : State) (f : Nat) (c : Code) (bsp : Bool) (addr : Nat) : St × List Block :=
  let (st, b) := s.fetchOp f addr (tileBytes c)
  (st, (List.range 64).map fun i =>
    blockOf c bsp ((b.drop (i * 4 * c.bits)).take (4 * c.bits)) (fieldN b (256 * c.bits + i) 1))

/-- A coordinate mapped into 0 … size − 1, or padding (R69). -/
def padMap (v : Int) (size mode : Nat) : Option Nat :=
  if 0 ≤ v && v < size then some v.toNat
  else
    match mode with
    | 1 => some (if v < 0 then 0 else size - 1)
    | 2 => some (if v < 0 then (-v).toNat else (2 * ((size : Int) - 1) - v).toNat)
    | _ => none

/-- The map position that output row `i` reads at tap `t`; none for padding (R68, R69). -/
def FacDesc.tapPos (d : FacDesc) (i t : Nat) : Option Nat :=
  let oh := d.oh.toNat
  let ow := d.ow.toNat
  let n := i / (oh * ow)
  let oy := i / ow % oh
  let ox := i % ow
  let y := padMap ((oy * d.sh : Int) - d.pt + t / d.kw * d.dh) d.ih d.padMode
  let x := padMap ((ox * d.sw : Int) - d.pl + t % d.kw * d.dw) d.iw d.padMode
  match y, x with
  | some y, some x => some ((n * d.ih + y) * d.iw + x)
  | _, _ => none

/-- The codes and the scale byte of channel block `cb` of map position `p` (R66). -/
def State.mapRaw (s : State) (f : Nat) (d : FacDesc) (p cb : Nat) : St × List Byte × Nat :=
  let w := d.codeA.bits
  let (st, b) := s.fetchOp f (d.a + p * d.cpad * w / 8 + cb * 4 * w) (4 * w)
  let (st2, sc) := s.fetchOp f (d.mapPlane + p * (d.cpad / 32) + cb) 1
  (if st ≠ ST_OK then st else st2, b, leNat sc)

/-- Channel block `cb` of map position `p`. -/
def State.mapBlock (s : State) (f : Nat) (d : FacDesc) (p cb : Nat) : St × Block :=
  let x := s.mapRaw f d p cb
  (x.1, blockOf d.codeA d.bsp x.2.1 x.2.2)

/-- Rows of row tile `r`. -/
def FacDesc.rows (d : FacDesc) (r : Nat) : List Nat := (List.range (min 64 (d.m - 64 * r))).map (64 * r + ·)

/-- Columns of column tile `c`. -/
def FacDesc.cols (d : FacDesc) (c : Nat) : List Nat := (List.range (min 64 (d.n - 64 * c))).map (64 * c + ·)

/-- The first status that is not ST_OK. -/
def firstBad (l : List St) : St := (l.find? (· ≠ ST_OK)).getD ST_OK

/-- Reduction block `b` of row tile `r` as it is stored: per row its packed codes and its scale byte,
none for a padding tap (R65, R70). -/
def State.aRaw (s : State) (f : Nat) (d : FacDesc) (r b : Nat) : St × List (Option (List Byte × Nat)) :=
  let w := d.codeA.bits
  if d.op = 1 then
    let (st, x) := s.fetchOp f (d.a + (r * d.nb + b) * tileBytes d.codeA) (tileBytes d.codeA)
    (st, (List.range 64).map fun i => some ((x.drop (i * 4 * w)).take (4 * w), fieldN x (256 * w + i) 1))
  else
    let cbs := d.cpad / 32
    let xs := (d.rows r).map fun i =>
      match d.tapPos i (b / cbs) with
      | none => (ST_OK, none)
      | some p => let x := s.mapRaw f d p (b % cbs); (x.1, some x.2)
    (firstBad (xs.map (·.1)), xs.map (·.2))

/-- The block of a row; a padding tap's block is empty with scale zero (R70). -/
def FacDesc.rowBlock (d : FacDesc) : Option (List Byte × Nat) → Block
  | none => {}
  | some x => blockOf d.codeA d.bsp x.1 x.2

/-- Reduction block `b` of row tile `r`: one block per row. -/
def State.aTile (s : State) (f : Nat) (d : FacDesc) (r b : Nat) : St × List Block :=
  let x := s.aRaw f d r b
  (x.1, x.2.map d.rowBlock)

/-- Reduction block `b` of column tile `c`. -/
def State.bTile (s : State) (f : Nat) (d : FacDesc) (c b : Nat) : St × List Block :=
  s.matTile f d.codeB d.bsp (d.b + (c * d.nb + b) * tileBytes d.codeB)

/-- The tap of reduction block `b` is padding for every row of the tile (R70). -/
def FacDesc.skips (d : FacDesc) (r b : Nat) : Bool :=
  d.op == 2 && (d.rows r).all fun i => (d.tapPos i (b / (d.cpad / 32))).isNone

/-- Take the products of a pair of blocks out of W (R79). -/
def WideSum.dropBlock (x : WideSum) (a b : Block) : WideSum :=
  let y := ({ anchor := x.anchor } : WideSum).takeBlock a b
  { x with w := x.w - y.w, count := x.count - y.count }

/-- A tile's reduction: the status of its reads, and per reduction block the rows' and the columns'
blocks. Where a delta command updates the tile by difference, `old` holds the snapshot's blocks beside
the changed ones and `start` the retained sums (R79). -/
structure TileOps where
  st : St
  a : List (List Block)
  b : List (List Block)
  old : List (List Block) := []
  start : List (List WideSum) := []
  deriving DecidableEq, Repr

/-- Read the operands of tile (r, c). A skipped block is not read. -/
def State.tileOps (s : State) (f : Nat) (d : FacDesc) (r c : Nat) : TileOps :=
  let bs := (List.range d.nb).filter fun b => !d.skips r b
  let xs := bs.map fun b => (s.aTile f d r b, s.bTile f d c b)
  { st := firstBad (xs.flatMap fun x => [x.1.1, x.2.1]), a := xs.map (·.1.2), b := xs.map (·.2.2) }

/-- The pairs of blocks of element (i, j) among two operands' blocks. -/
def pairsAt (a b : List (List Block)) (i j : Nat) : List (Block × Block) :=
  List.zipWith (fun x y => (x.getD i {}, y.getD j {})) a b

/-- Where the wide sum of element (i, j) of a tile begins: the retained sum, or zero with its anchor.
The anchor is that of the command's own blocks. No descriptor field carries the block scales of a
longer reduction of which this command is a slice, so the members of a collective whose slices differ
in their largest scales get different anchors (R43, R44; DESIGN CHOICE, log entry 90). -/
def TileOps.init (t : TileOps) (d : FacDesc) (i j : Nat) : WideSum :=
  match t.start with
  | [] => { anchor := BitVec.ofInt 16 (anchorOf d.codeA.maxMag d.codeB.maxMag (pairsAt t.a t.b i j)) }
  | ws => (ws.getD i []).getD j {}

/-- Take in reduction block `k` of element (i, j): in a tile updated by difference the snapshot's
products leave first (R79). -/
def TileOps.step (t : TileOps) (i j : Nat) (x : WideSum) (k : Nat) : WideSum :=
  let b := (t.b.getD k []).getD j {}
  let x := match t.old[k]? with
    | some o => x.dropBlock (o.getD i {}) b
    | none => x
  x.takeBlock ((t.a.getD k []).getD i {}) b

/-- The wide sum of element (i, j) after reduction blocks `k` … `k + n − 1`, which go on from `x`
(R43, R45, R82). -/
def TileOps.sum (t : TileOps) (x : WideSum) (k n i j : Nat) : WideSum :=
  ((List.range n).map (k + ·)).foldl (t.step i j) x

/-- The wide sums of tile (r, c) after `n` blocks from block `k`, whose sums so far are `ws`, row by
row. -/
def TileOps.sums (t : TileOps) (d : FacDesc) (ws : List WideSum) (k n r c : Nat) : List (List WideSum) :=
  let w := (d.cols c).length
  (List.range (d.rows r).length).map fun i => (List.range w).map fun j =>
    t.sum (if k = 0 then t.init d i j else ws.getD (i * w + j) {}) k n i j

/-- The special state of a reduction over blocks (R48). -/
def specialAt (a b : List (List Block)) (i j : Nat) : Special :=
  ((pairsAt a b i j).foldl (fun x p => x.takeBlock p.1 p.2) ({} : WideSum)).special

/-! ### Outputs (R51, R53, R54, R67, R72–R76) -/

/-- Where and how outputs are written. -/
structure OutSpec where
  fmt : Nat
  code : Code
  dim : Nat
  ts : Nat
  sat : Bool
  out : Nat
  pitch : Nat
  m : Nat
  n : Nat
  mse : Bool
  deriving DecidableEq, Repr

def OutSpec.w (o : OutSpec) : Nat := outWidth o.fmt o.code

/-- The block-scale plane of requantised outputs (R67). -/
def OutSpec.plane (o : OutSpec) : Nat := up64 (o.out + (o.m - 1) * o.pitch + rowBytes o.n o.w)

def FacDesc.outSpec (d : FacDesc) : OutSpec :=
  ⟨d.outFmt, d.codeQ, d.rqDim, d.outTs, d.fl 5, d.out, d.pitch, d.m, d.n, d.fl 3⟩

/-- The IEEE format of OUT_FMT 0–2. -/
def outBin (fmt : Nat) : Bin :=
  match fmt with
  | 1 => fBF16
  | 2 => fFP16
  | _ => fFP32

/-- A tile's encoded outputs: a code per element and row, scale bytes by plane index, flags
(SATURATED, NAN_SEEN, OVERFLOW), and the statistic. -/
structure TileEnc where
  codes : List (List Nat)
  scales : List (Nat × Nat)
  flags : Nat
  mse : Nat
  deriving DecidableEq, Repr

/-- Round a tile to FP32, BF16 or FP16 (R51, R75). A poisoned element is written as NaN (R87). -/
def OutSpec.encFloat (o : OutSpec) (vs : List (List Outp)) : TileEnc :=
  let xs := vs.map fun row => row.map fun e => (outBin o.fmt).round o.sat (if e.bad then .nan else e.v)
  ⟨xs.map fun r => r.map (·.1), [], if xs.any fun r => r.any (·.2) then 4 else 0, 0⟩

/-- Transpose of a rectangle of `n` columns. -/
def transpose {α : Type} [Inhabited α] (n : Nat) (vs : List (List α)) : List (List α) :=
  (List.range n).map fun j => vs.map fun r => r.getD j default

/-- Cut a list into pieces of 32. -/
def by32 {α : Type} : Nat → List α → List (List α)
  | 0, _ => []
  | k + 1, l => if l.isEmpty then [] else l.take 32 :: by32 k (l.drop 32)

/-- The FP32 output tile scale as a fraction. -/
def tsFr (t : Nat) : Fr := match fp32Val t with | .num q => q | _ => ⟨1, 1⟩

/-- Requantise the lines of a tile along their length: per line its blocks' results. -/
def requantLines (c : Code) (t : Fr) (vs : List (List Outp)) : List (List Requant) :=
  vs.map fun l => (by32 (l.length + 1) l).map (requant c t)

/-- The errors of R54 over lines and their requantised codes. -/
def mseTerms (c : Code) (t : Fr) (vs : List (List Outp)) (qs : List (List Requant)) : List Val :=
  (List.zip vs qs).flatMap fun (l, rs) =>
    (List.zip (by32 (l.length + 1) l) rs).flatMap fun (es, r) =>
      (List.zip es r.q).filterMap fun (e, q) =>
        if e.bad then none
        else match e.v with
          | .num v => some (mseTerm c r.scale q t v)
          | _ => none

/-- Requantise tile (r, c) (R53, R54, R67). -/
def OutSpec.encQuant (o : OutSpec) (r c : Nat) (vs : List (List Outp)) : TileEnc :=
  let t := tsFr o.ts
  let ncol := (vs.headD []).length
  let ls := if o.dim = 0 then vs else (List.range ncol).map fun j => vs.map fun row => row.getD j ⟨.nan, true⟩
  let qs := requantLines o.code t ls
  let codes := qs.map fun rs => rs.flatMap (·.q)
  let scales := (List.zip (List.range qs.length) qs).flatMap fun (i, rs) =>
    (List.zip (List.range rs.length) rs).map fun (b, q) =>
      (if o.dim = 0 then (64 * r + i) * ceilDiv o.n 32 + 2 * c + b
       else (2 * r + b) * o.n + 64 * c + i, q.scale)
  let sat := qs.any fun rs => rs.any (·.sat)
  let nan := qs.any fun rs => rs.any (·.nan)
  ⟨if o.dim = 0 then codes else transpose vs.length codes, scales,
    (if sat then 1 else 0) + (if nan then 2 else 0), if o.mse then mseOf (mseTerms o.code t ls qs) else 0⟩

/-- Encode a tile of values. -/
def OutSpec.enc (o : OutSpec) (r c : Nat) (vs : List (List Outp)) : TileEnc :=
  if o.fmt = 3 then o.encQuant r c vs else o.encFloat vs

/-- Codes of `w` bits packed from bit 0 up (R34, R67). The unused high bits of the last byte are zero,
in memory and in the signature (DESIGN CHOICE, log entry 91). -/
def packCodes (w : Nat) (cs : List Nat) : List Byte :=
  leBytes (ceilDiv (cs.length * w) 8) (cs.foldr (fun c n => c % 2 ^ w + n * 2 ^ w) 0)

/-- Where a rank in the index of maximum stands: NaN above +Inf above numbers above −Inf (R74). -/
def argBestOf (v : Val) (j : Nat) : ArgBest :=
  match v with
  | .nan => ⟨true, 0, 0, 1, j⟩
  | .inf neg => ⟨false, if neg then -1 else 1, 0, 1, j⟩
  | .num q => ⟨false, 0, q.n, q.d, j⟩

/-- `y` ranks above `x`. -/
def ArgBest.above (y x : ArgBest) : Bool :=
  if x.nan then false
  else if y.nan then true
  else if y.inf ≠ x.inf then x.inf < y.inf
  else (Fr.lt ⟨x.num, x.den⟩ ⟨y.num, y.den⟩)

/-- Enter values of a row into its index of maximum, columns ascending (R74). -/
def argEnter (b : Option ArgBest) (vs : List (Nat × Val)) : Option ArgBest :=
  vs.foldl (fun b (j, v) =>
    let y := argBestOf v j
    match b with
    | none => some y
    | some x => if y.above x then some y else some x) b

/-- What an engine writes is refused: the first such status stays with the command (R87, R395). -/
def State.facWrite (s : State) (f : Nat) (st : St) (addr : Nat) (d : List Byte) : St × State :=
  let ((w, _), s) := s.postLong (mFacet f) (BitVec.ofNat 64 addr) d
  (if st ≠ ST_OK then st else w, s)

/-- Write the rows of tile (r, c), keep the canonical bytes, the flags and the statistic. -/
def State.putTile (s : State) (f : Nat) (o : OutSpec) (cmd : FacetCmd) (r c : Nat) (e : TileEnc) :
    FacetCmd × State :=
  let rb := rowBytes o.n o.w
  let rows := (List.zip (List.range e.codes.length) e.codes).map fun (i, cs) =>
    (64 * r + i, 64 * c * o.w / 8, packCodes o.w cs)
  let (st, s) := rows.foldl (fun (st, s) (i, x, b) => s.facWrite f st (o.out + i * o.pitch + x) b)
    (cmd.status, s)
  let out := rows.foldl (fun m (i, x, b) =>
    (List.zip (List.range b.length) b).foldl (fun m (k, v) => kput (i * rb + x + k) v m) m) cmd.out
  let out := e.scales.foldl (fun m (i, v) => kput (o.m * rb + i) (BitVec.ofNat 8 v) m) out
  ({ cmd with
      status := st, out := out, flags := cmd.flags ||| BitVec.ofNat 16 e.flags,
      mse := if o.mse then kput (r * ceilDiv o.n 64 + c) (BitVec.ofNat 32 e.mse) cmd.mse else cmd.mse }, s)

/-- The runs of consecutive keys of a sparse byte map from index `lo` on. -/
def byteRuns (lo : Nat) (m : KMap Byte) : List (Nat × List Byte) :=
  ((m.filter fun p => lo ≤ p.1).foldl (fun (acc : List (Nat × List Byte)) p =>
    match acc with
    | (a, bs) :: rest => if p.1 = a + bs.length then (a, bs ++ [p.2]) :: rest else (p.1, [p.2]) :: acc
    | [] => [(p.1, [p.2])]) []).reverse

/-- Write the block-scale bytes of the tiles done (R67). -/
def State.putPlane (s : State) (f : Nat) (o : OutSpec) (cmd : FacetCmd) : FacetCmd × State :=
  if o.fmt ≠ 3 then (cmd, s)
  else
    let lo := o.m * rowBytes o.n o.w
    let (st, s) := (byteRuns lo cmd.out).foldl (fun (st, s) (a, b) =>
      s.facWrite f st (o.plane + (a - lo)) b) (cmd.status, s)
    ({ cmd with status := st }, s)

/-- A fault status is met: the first stays; poisoned data sets the ECC flag (R87). -/
def FacetCmd.meet (cmd : FacetCmd) (st : St) : FacetCmd :=
  if st = ST_OK then cmd
  else
    { cmd with
      status := if cmd.status = ST_OK then st else cmd.status
      flags := if st = ST_ECC_UNCORRECTED then cmd.flags ||| 8 else cmd.flags }

/-! ### Epilogue (R51, R72, R73) -/

/-- The activation of a value already rounded to FP32: the result, and the status of the table
words it read (R73, R87). -/
def State.activate (s : State) (f : Nat) (d : FacDesc) (x : Val) : Val × St :=
  let (st0, x0) := s.fetchF32 f d.act
  let (st1, eb) := s.fetchOp f (d.act + 4) 1
  let st0 := firstBad [st0, st1]
  let knot (i : Nat) := s.fetchF32 f (d.act + 64 + 4 * i)
  let e := signedN 8 (leNat eb)
  match x, x0 with
  | .nan, _ => (.nan, st0)
  | .inf neg, _ => let (st, y) := knot (if neg then 0 else 256); (y, firstBad [st0, st])
  | .num q, .num p =>
    let u := (q.sub p).mul (pow2 (-e))
    if u.n < 0 then let (st, y) := knot 0; (y, firstBad [st0, st])
    else if Fr.le ⟨256, 1⟩ u then let (st, y) := knot 256; (y, firstBad [st0, st])
    else
      let i := u.floor.toNat
      let g := u.sub (.ofInt i)
      let (sa, ya) := knot i
      let (sb, yb) := knot (i + 1)
      (match ya, yb with
       | .num a, .num b => (Val.num (a.add (g.mul (b.sub a)))).toFP32
       | _, _ => .nan, firstBad [st0, sa, sb])
  | .num _, _ => (.nan, st0)

/-- Steps 1 and 2 of R72 on one element: the value presented, whether it is poisoned, and the
first status met. -/
def State.epilogue (s : State) (f : Nat) (d : FacDesc) (v : Val) (bias : St × Val) : Outp × St :=
  let v := if d.fl 0 then v.add bias.2 else v
  let st := if d.fl 0 then bias.1 else ST_OK
  if d.fl 1 then
    let (y, sy) := s.activate f d v.toFP32
    let st := firstBad [st, sy]
    (⟨y, st ≠ ST_OK⟩, st)
  else (⟨v, st ≠ ST_OK⟩, st)

/-- Carry a tile's exact values through the epilogue and write it (R72). `bad` says per element
that it was poisoned before the epilogue. -/
def State.finishTile (s : State) (f : Nat) (d : FacDesc) (cmd : FacetCmd) (r c : Nat)
    (vs : List (List Outp)) : FacetCmd × State :=
  let bias := (d.cols c).map fun j => if d.fl 0 then s.fetchF32 f (d.aux + 4 * j) else (ST_OK, .zero)
  let xs := vs.map fun row => List.zipWith (fun e b =>
    let (o, st) := s.epilogue f d e.v b
    (({ v := o.v, bad := e.bad || o.bad } : Outp), st)) row bias
  let cmd := (xs.flatMap fun r => r.map (·.2)).foldl FacetCmd.meet cmd
  let os := xs.map fun r => r.map (·.1)
  let cmd := if !d.fl 2 then cmd else
    (List.zip (d.rows r) os).foldl (fun cmd (i, row) =>
      { cmd with best := kput i (argEnter (kget none cmd.best i)
          (List.zip (d.cols c) (row.map fun e => if e.bad then .nan else e.v))) cmd.best }) cmd
  let o := d.outSpec
  s.putTile f o cmd r c (o.enc r c os)

/-- Final values of a tile of wide sums: W × 2^floor × t_A × t_B (R51). -/
def State.roundTile (s : State) (f : Nat) (d : FacDesc) (cmd : FacetCmd) (r c : Nat) (bad : Bool)
    (ws : List (List WideSum)) : FacetCmd × State :=
  let (sa, ta) := s.fetchF32 f (if d.isMap then d.tsa else d.tsa + 4 * r)
  let (sb, tb) := s.fetchF32 f (d.tsb + 4 * c)
  let cmd := (cmd.meet sa).meet sb
  let bad := bad || sa ≠ ST_OK || sb ≠ ST_OK
  s.finishTile f d cmd r c (ws.map fun row => row.map fun x => ⟨(x.val.mul ta).mul tb, bad⟩)

/-- Write a tile of wide sums (OUT_FMT WIDE, R67); a poisoned one takes the special state NAN. The spec
does not say what its W, ANCHOR and COUNT hold: they are those summed (DESIGN CHOICE, log entry 92). -/
def State.wideTile (s : State) (f : Nat) (d : FacDesc) (cmd : FacetCmd) (r c : Nat) (bad : Bool)
    (ws : List (List WideSum)) : FacetCmd × State :=
  let enc (x : WideSum) : Nat := leNat (if bad then { x with special := .nan } else x).bytes
  s.putTile f d.outSpec cmd r c ⟨ws.map fun row => row.map enc, [], 0, 0⟩

/-- A tile's sums leave through the epilogue. -/
def State.leaveTile (s : State) (f : Nat) (d : FacDesc) (cmd : FacetCmd) (r c : Nat) (bad : Bool)
    (ws : List (List WideSum)) : FacetCmd × State :=
  if d.outFmt = 4 then s.wideTile f d cmd r c bad ws else s.roundTile f d cmd r c bad ws

/-! ### Tiles of each operation -/

/-- One element of POOL before its rounding: the exact value and the status of its reads
(R71). -/
def State.poolElem (s : State) (f : Nat) (d : FacDesc) (t : Val) (i ch : Nat) : Val × St :=
  let taps := (List.range (d.kh * d.kw)).filterMap fun k => (d.tapPos i k).map fun p =>
    let (st, b) := s.mapBlock f d p (ch / 32)
    (st, (b.vals.getD (ch % 32) .zero).mul b.scale)
  let st := firstBad (taps.map (·.1))
  let vs := taps.map (·.2)
  let total := vs.foldl Val.add .zero
  let v :=
    if d.poolOp = 0 then
      match argEnter none (List.zip (List.range vs.length) vs) with
      | none => .zero
      | some b => t.mul (vs.getD b.idx .zero)
    else if d.poolOp = 1 then t.mul (total.mul (.num ⟨1, d.kh * d.kw⟩))
    else if vs.isEmpty then .zero
    else t.mul (total.mul (.num ⟨1, vs.length⟩))
  (v, st)

/-- Tile (r, c) of POOL (R71). -/
def State.poolTile (s : State) (f : Nat) (d : FacDesc) (cmd : FacetCmd) (r c : Nat) :
    FacetCmd × State :=
  let (sa, t) := s.fetchF32 f d.tsa
  let xs := (d.rows r).map fun i => (d.cols c).map fun j => s.poolElem f d t i j
  let st := firstBad (xs.flatMap fun row => row.map (·.2))
  let cmd := (cmd.meet st).meet sa
  let bad := st ≠ ST_OK || sa ≠ ST_OK
  s.finishTile f d cmd r c (xs.map fun row => row.map fun x => ⟨x.1, bad⟩)

/-- Combine one element of WCOMBINE: a refused one is NaN with the anchor of A (R425). -/
def combineElem (a b : WideSum) : WideSum × Bool :=
  if a.canAdd b then (a.add b, false) else ({ anchor := a.anchor, special := .nan }, true)

/-- Tile (r, c) of WCOMBINE (R425). -/
def State.combineTile (s : State) (f : Nat) (d : FacDesc) (cmd : FacetCmd) (r c : Nat) :
    FacetCmd × State :=
  let xs := (d.rows r).map fun i => (d.cols c).map fun j =>
    let (sa, a) := s.fetchOp f (d.a + (i * d.n + j) * 32) 32
    let (sb, b) := s.fetchOp f (d.b + (i * d.n + j) * 32) 32
    (firstBad [sa, sb], combineElem (WideSum.ofBytes a) (WideSum.ofBytes b))
  let st := firstBad (xs.flatMap fun row => row.map (·.1))
  let refused := xs.any fun row => row.any fun x => x.1 = ST_OK && x.2.2
  let cmd := cmd.meet st
  let cmd := if refused then { cmd with flags := cmd.flags ||| 0x100 } else cmd
  s.leaveTile f d cmd r c (st ≠ ST_OK) (xs.map fun row => row.map (·.2.1))

/-! ### Delta execution (R78–R81, R426) -/

/-- The header's copy of the descriptor (R78): bytes 0x08–0x17, 0x20–0x27, 0x60–0x6F, 0x7C–0x7D. -/
def deltaCopy (d : List Byte) : List Byte :=
  (d.drop 0x08).take 16 ++ (d.drop 0x20).take 8 ++ (d.drop 0x60).take 16 ++ (d.drop 0x7C).take 2

/-- The 64-byte header: VALID in bit 0 of byte 0, the copy from byte 1 on (log entry 10). -/
def deltaHeader (valid : Bool) (d : List Byte) : List Byte :=
  let h := leBytes 1 (if valid then 1 else 0) ++ deltaCopy d
  h ++ List.replicate (64 - h.length) 0

/-- How the delta state is used: rebuilt, or updated. -/
structure DeltaPlan where
  rebuild : Bool
  /-- poisoned words were met (R426) -/
  ecc : Bool
  deriving DecidableEq, Repr

/-- Look at the header (R79, R426). -/
def State.deltaPlan (s : State) (f : Nat) (d : FacDesc) (raw : List Byte) : DeltaPlan :=
  let (st, h) := s.fetchOp f d.delta 64
  let ecc := st = ST_ECC_UNCORRECTED
  ⟨d.fl 7 || st ≠ ST_OK || h ≠ deltaHeader true raw, ecc && !d.fl 7⟩

/-- The descriptor with its A operand moved to the snapshot. -/
def FacDesc.old (d : FacDesc) : FacDesc := { d with a := d.delta + 64 + 32 * d.m * d.n }

/-- How one tile of a delta command is made: in full, or from its retained sums with the blocks
that changed (R79, R426). -/
structure DeltaTile where
  full : Bool
  ecc : Bool
  changed : List Nat
  deriving DecidableEq, Repr

/-- The scale bytes and the packed codes of stored rows. -/
def rawScales (l : List (Option (List Byte × Nat))) : List (Option Nat) := l.map fun x => x.map (·.2)
def rawCodes (l : List (Option (List Byte × Nat))) : List (Option (List Byte)) := l.map fun x => x.map (·.1)

/-- Compare the stored codes and scales of row tile `r` with the snapshot (R79, R426). -/
def State.deltaRow (s : State) (f : Nat) (d : FacDesc) (r : Nat) : DeltaTile :=
  let xs := (List.range d.nb).map fun b => (b, (s.aRaw f d r b).2, s.aRaw f d.old r b)
  { full := xs.any fun x => x.2.2.1 ≠ ST_OK || rawScales x.2.1 ≠ rawScales x.2.2.2
    ecc := xs.any fun x => x.2.2.1 = ST_ECC_UNCORRECTED
    changed := (xs.filter fun x => rawCodes x.2.1 ≠ rawCodes x.2.2.2).map (·.1) }

/-- The retained wide sum of an output element. -/
def State.retained (s : State) (f : Nat) (d : FacDesc) (i j : Nat) : St × WideSum :=
  let (st, b) := s.fetchOp f (d.delta + 64 + 32 * (i * d.n + j)) 32
  (st, WideSum.ofBytes b)

/-- How tile (r, c) of a delta command is reduced: its operands, the changed blocks (none for a tile
recomputed in full), whether poison was met (R79, R426). -/
def State.deltaOps (s : State) (f : Nat) (d : FacDesc) (p : DeltaPlan) (r c : Nat) :
    TileOps × Option (List Nat) × Bool :=
  let t := s.tileOps f d r c
  if p.rebuild then (t, none, false)
  else
    let row := s.deltaRow f d r
    let kept := (d.rows r).map fun i => (d.cols c).map fun j => s.retained f d i j
    let ecc := row.ecc || kept.any fun l => l.any fun x => x.1 = ST_ECC_UNCORRECTED
    if row.full || kept.any fun l => l.any fun x => x.1 ≠ ST_OK then (t, none, ecc)
    else
      ({ st := t.st
         a := row.changed.map fun b => (s.aTile f d r b).2
         b := row.changed.map fun b => (s.bTile f d c b).2
         old := row.changed.map fun b => (s.aTile f d.old r b).2
         start := kept.map fun l => l.map (·.2) }, some row.changed, false)

/-- The special state of an element updated by difference: the stored bits joined with the new
products'. Where products that leave had set it, the stored bits no longer say what is left, and it is
that of the whole reduction (R48, R49, R80; DESIGN CHOICE, log entry 93). -/
def State.deltaSpecial (s : State) (f : Nat) (d : FacDesc) (t : TileOps) (r c : Nat)
    (ws : List (List WideSum)) : List (List WideSum) :=
  let all := s.tileOps f d r c
  (List.zip (List.range ws.length) ws).map fun (i, l) => (List.zip (List.range l.length) l).map fun (j, x) =>
    if specialAt t.old t.b i j = .none then x else { x with special := specialAt all.a all.b i j }

/-- Write the delta state: header, sums and the snapshot of A (R78, R79). It is written when the last
tile is done: a command ended by ABORT leaves the state as it was (DESIGN CHOICE, log entry 14). -/
def State.putDelta (s : State) (f : Nat) (d : FacDesc) (cmd : FacetCmd) : FacetCmd × State :=
  let ws : List (Nat × List Byte) := cmd.kept.flatMap fun (t, l) =>
    let r := t / d.ct
    let c := t % d.ct
    let w := (d.cols c).length
    (List.zip (List.range (d.rows r).length) (d.rows r)).map fun (k, i) =>
      (d.delta + 64 + 32 * (i * d.n + 64 * c), ((l.drop (k * w)).take w).flatMap WideSum.bytes)
  let snap := (s.fetchOp f d.a d.aBytes).2
  let ws := ws ++ [(d.old.a, snap), (d.delta, deltaHeader true cmd.desc)]
  let (st, s) := ws.foldl (fun (st, s) (a, b) => s.facWrite f st a b) (cmd.status, s)
  ({ cmd with status := st }, s)

/-! ### Clocks (R89) -/

/-- Reduction clocks of a tile of a delta command (R89). -/
def FacDesc.deltaClocks (d : FacDesc) : Option (List Nat) → Nat
  | none => max (32 * d.nb) 64
  | some [] => 64
  | some ch => 128 * ch.length

/-- Reduction clocks of tile (r, c) computed in full. -/
def FacDesc.tileClocks (d : FacDesc) (r c : Nat) : Nat :=
  if d.op = 5 then 64
  else if d.op = 3 then
    let taps := ((d.rows r).map fun i => (List.range (d.kh * d.kw)).countP fun k =>
      (d.tapPos i k).isSome).sum * (d.cols c).length
    max (ceilDiv taps 512) 64
  else max (32 * ((List.range d.nb).countP fun b => !d.skips r b)) 64

/-! ### What the loader reads (R61, R89) -/

/-- The 64-byte lines that ranges touch. -/
def lineSet (rs : List (Nat × Nat)) : List Nat := (rs.flatMap fun x => wordsOf 64 x.1 x.2).eraseDups

/-- The loader reads lines: their arbitration, their refusals and their poison count at the memories
(R142, R153, R163). What another chip holds is looked at where it is used. -/
def State.load (s : State) (f : Nat) (ls : List Nat) : State :=
  s.each ls fun s l =>
    let a := BitVec.ofNat 64 (64 * l)
    if (s.target (mFacet f) a).isRemote then s else (s.readAt (mFacet f) a 64).2

/-- The lines of the input map that row tile `r` reaches. -/
def FacDesc.mapLines (d : FacDesc) (r : Nat) : List Nat :=
  let ps := ((d.rows r).flatMap fun i => (List.range (d.kh * d.kw)).filterMap (d.tapPos i)).eraseDups
  let w := d.cpad * d.codeA.bits / 8
  lineSet (ps.flatMap fun p => [(d.a + p * w, w), (d.mapPlane + p * (d.cpad / 32), d.cpad / 32)])

/-- What the loader reads for tile (r, c) that it has not read for an earlier tile of the command: A
and B once per command, scales, bias and table once per row tile (R89; log entry 94). -/
def FacDesc.tileLines (d : FacDesc) (r c : Nat) : List Nat :=
  let pick (p : Bool) (l : List Nat) : List Nat := if p then l else []
  let a :=
    if d.op = 1 then pick (c == 0) (lineSet [(d.a + r * d.nb * tileBytes d.codeA, d.nb * tileBytes d.codeA)])
    else if d.op = 5 then
      lineSet ((d.rows r).flatMap fun i => [(d.a + 32 * (i * d.n + 64 * c), 32 * (d.cols c).length),
        (d.b + 32 * (i * d.n + 64 * c), 32 * (d.cols c).length)])
    else pick (c == 0) ((d.mapLines r).filter fun l => !(List.range r).any fun q => (d.mapLines q).contains l)
  let b := pick (r == 0 && (d.op == 1 || d.op == 2))
    (lineSet [(d.b + c * d.nb * tileBytes d.codeB, d.nb * tileBytes d.codeB)])
  let ts := pick (c == 0 && d.outFmt != 4) (lineSet ([(if d.isMap then d.tsa else d.tsa + 4 * r, 4)]
    ++ (if d.op = 3 then [] else [(d.tsb, 4 * d.ct)])))
  let epi := pick (c == 0) (lineSet ((if d.fl 0 then [(d.aux, 4 * d.n)] else [])
    ++ (if d.fl 1 then [(d.act, 1092)] else [])))
  let dl := if !d.fl 6 || d.fl 7 then []
    else pick (r == 0 && c == 0) (lineSet [(d.delta, 64), (d.old.a, d.aBytes)])
      ++ lineSet ((d.rows r).map fun i => (d.delta + 64 + 32 * (i * d.n + 64 * c), 32 * (d.cols c).length))
  a ++ b ++ ts ++ epi ++ dl

/-- Clocks of the reduction of a whole command, at most (R89): a delta tile in full. -/
def FacDesc.timeClocks (d : FacDesc) : Nat :=
  ((List.range d.rt).map fun r => ((List.range d.ct).map fun c =>
    if d.fl 6 then d.deltaClocks none else d.tileClocks r c).sum).sum + 40

/-- Bytes of a range that the engine reads over the mesh: none of those in its own resident area (R61). -/
def State.meshBytes (s : State) (f : Nat) (x : Nat × Nat) : Nat :=
  match s.target (mFacet f) (BitVec.ofNat 64 x.1) with
  | .fom g off => if g = f && off < 0x180000 then 0 else x.2
  | _ => x.2

/-- Bytes of A that row tile `r` reads (R89). -/
def FacDesc.rowBytesA (d : FacDesc) (r : Nat) : Nat :=
  if d.op = 1 then d.nb * tileBytes d.codeA
  else ((d.rows r).flatMap fun i => (List.range (d.kh * d.kw)).filterMap (d.tapPos i)).eraseDups.length
    * (d.cpad * d.codeA.bits / 8 + d.cpad / 32)

/-- L of R89: the bytes that a command reads over the mesh. -/
def State.facBytes (s : State) (f : Nat) (d : FacDesc) : Nat :=
  let mb := s.meshBytes f
  let perRow := d.rt * (mb (d.tsa, 4) + (if d.op = 3 then 0 else mb (d.tsb, 4 * d.ct))
    + (if d.fl 0 then mb (d.aux, 4 * d.n) else 0) + (if d.fl 1 then mb (d.act, 1152) else 0))
  let dl := if d.fl 6 then mb (d.delta, 64 + 32 * d.m * d.n + d.aBytes) else 0
  if d.op = 5 then mb (d.a, 32 * d.m * d.n) + mb (d.b, 32 * d.m * d.n) + perRow
  else
    let b := d.ct * d.nb * tileBytes d.codeB
    let big := (List.range d.rt).filter fun r => 98304 < d.rowBytesA r
    let a := if big.length = d.rt then 0 else mb (d.a, d.aBytes)
    a + (big.map fun r => mb (d.a, d.rowBytesA r * d.ct)).sum
      + (if d.op = 3 then 0 else mb (d.b, if 262144 < b then b * d.rt else b)) + perRow + dl

/-- The ranges that a command reads or writes (R64 check 5). -/
def FacDesc.ranges (d : FacDesc) : List (Nat × Nat) :=
  [(d.a, d.aBytes), (d.out, outBytes d.out d.m d.n d.width d.pitch d.outFmt d.rqDim)]
    ++ (if d.op = 3 then [] else
      [(d.b, if d.op = 5 then 32 * d.m * d.n else d.ct * d.nb * tileBytes d.codeB)])
    ++ (if d.outFmt = 4 then [] else [(d.tsa, if d.isMap then 4 else 4 * d.rt)]
      ++ (if d.op = 3 then [] else [(d.tsb, 4 * d.ct)]))
    ++ (if d.fl 0 then [(d.aux, 4 * d.n)] else []) ++ (if d.fl 1 then [(d.act, 1152)] else [])
    ++ (if d.fl 6 then [(d.delta, 64 + 32 * d.m * d.n + d.aBytes)] else [])

end Sys2Proof.Machine
end

