-- ==== Sys2Proof/Machine/Attention.lean ====
section
/-! DEFINITION. The ATTN command: descriptor, checks, rotation, masks, scores, base-2 weights,
two-pass and streaming accumulation, outputs and flags (R90–R109). -/

namespace Sys2Proof.Machine

/-- The fields of an ATTN descriptor (R90). -/
structure AttnDesc where
  flags : Nat
  task : Nat
  kseg : Nat
  fmt : Nat
  nq : Nat
  dim : Nat
  nkey : Nat
  pitch : Nat
  q : Nat
  k : Nat
  tsq : Nat
  v : Nat
  out : Nat
  kvts : Nat
  rope : Nat
  mask : Nat
  stat : Nat
  cap : Nat
  start : Nat
  kpos : Nat
  qpos : Nat
  window : Nat
  nh : Nat
  nkv : Nat
  ropeLen : Nat
  rsvd : Nat
  outTs : Nat
  score : Nat
  deriving DecidableEq, Repr

/-- Read an ATTN descriptor; `nh` and `nkv` are the numbers of heads. -/
def attnDesc (d : List Byte) : AttnDesc where
  flags := fieldN d 2 2
  task := fieldN d 4 2
  kseg := fieldN d 6 2
  fmt := fieldN d 8 4
  nq := fieldN d 0x0C 4
  dim := fieldN d 0x10 2
  nkey := fieldN d 0x12 2
  pitch := fieldN d 0x14 4
  q := fieldN d 0x18 8
  k := fieldN d 0x20 8
  tsq := fieldN d 0x28 8
  v := fieldN d 0x30 8
  out := fieldN d 0x38 8
  kvts := fieldN d 0x40 8
  rope := fieldN d 0x48 8
  mask := fieldN d 0x50 8
  stat := fieldN d 0x58 8
  cap := fieldN d 0x60 2
  start := fieldN d 0x62 2
  kpos := fieldN d 0x64 2
  qpos := fieldN d 0x66 2
  window := fieldN d 0x68 2
  nh := fieldN d 0x6A 1 + 1
  nkv := fieldN d 0x6B 1 + 1
  ropeLen := fieldN d 0x6C 2
  rsvd := fieldN d 0x6E 2
  outTs := fieldN d 0x78 4
  score := fieldN d 0x7C 4

def AttnDesc.codeA (d : AttnDesc) : Code := (codeOf (bitsN d.fmt 0 4)).getD .n8i
def AttnDesc.codeB (d : AttnDesc) : Code := (codeOf (bitsN d.fmt 4 4)).getD .n8i
def AttnDesc.bsp (d : AttnDesc) : Bool := bitsN d.fmt 8 1 == 1
def AttnDesc.outFmt (d : AttnDesc) : Nat := bitsN d.fmt 12 4
def AttnDesc.codeQ (d : AttnDesc) : Code := (codeOf (bitsN d.fmt 16 4)).getD .n8i
def AttnDesc.ropeEn (d : AttnDesc) : Bool := bitsN d.flags 8 1 == 1
def AttnDesc.mode (d : AttnDesc) : Nat := bitsN d.flags 9 2
def AttnDesc.maskMode (d : AttnDesc) : Nat := bitsN d.flags 11 2
def AttnDesc.mseEn (d : AttnDesc) : Bool := bitsN d.flags 3 1 == 1
def AttnDesc.sigEn (d : AttnDesc) : Bool := bitsN d.flags 4 1 == 1
def AttnDesc.cols (d : AttnDesc) : Nat := d.nh * d.dim
def AttnDesc.qt (d : AttnDesc) : Nat := ceilDiv d.nq 64
def AttnDesc.kt (d : AttnDesc) : Nat := ceilDiv d.nkey 64
def AttnDesc.slices (d : AttnDesc) : Nat := ceilDiv d.dim 64
/-- R102: two-pass or streaming. -/
def AttnDesc.twoPass (d : AttnDesc) : Bool := d.mode == 1 || (d.mode == 0 && d.nkey ≤ 4096)
/-- Bytes of a cache page (R93). -/
def AttnDesc.page (d : AttnDesc) : Nat := 64 * d.dim * d.codeB.bits / 8 + 2 * d.dim
def AttnDesc.outSpec (d : AttnDesc) : OutSpec :=
  ⟨d.outFmt, d.codeQ, 0, d.outTs, bitsN d.flags 5 1 == 1, d.out, d.pitch, d.nq, d.cols, d.mseEn⟩
/-- The key-value head of a query head (R90). -/
def AttnDesc.kvHead (d : AttnDesc) (h : Nat) : Nat := h * d.nkv / d.nh

/-! ### Checks (R91) -/

/-- Check 2. -/
def AttnDesc.check2 (d : AttnDesc) : Bool :=
  bitsN d.fmt 0 4 ≤ 6 && bitsN d.fmt 4 4 ≤ 6 && bitsN d.fmt 9 3 == 0 && d.outFmt ≤ 3
    && bitsN d.fmt 16 4 ≤ 6
    && bitsN d.fmt 20 12 == 0 && bitsN d.flags 0 3 == 0 && bitsN d.flags 6 2 == 0
    && bitsN d.flags 13 3 == 0 && d.mode != 3 && d.rsvd == 0
    && d.nh % d.nkv == 0
    && (d.outFmt != 3 || tsOk d.outTs)
    && (!d.mseEn || d.outFmt == 3)
    && (!(d.sigEn || d.mseEn) || d.stat != 0)

/-- Check 3: lengths. -/
def AttnDesc.check3 (d : AttnDesc) : Bool :=
  d.nkey ≤ 16384 && (d.mode != 1 || d.nkey ≤ 4096)
    && d.kpos + d.nkey ≤ 16384 && d.qpos + d.nq ≤ 16384
    && (!d.ropeEn || (d.kpos + d.nkey ≤ d.ropeLen && d.qpos + d.nq ≤ d.ropeLen))

/-- Check 4: the remaining fields (R90). -/
def AttnDesc.check4 (d : AttnDesc) : Bool :=
  1 ≤ d.kseg && d.kseg ≤ 128 && 1 ≤ d.nq && d.nq ≤ 16384 && 32 ≤ d.dim && d.dim ≤ 256
    && d.dim % 32 == 0 && 1 ≤ d.nkey && d.cap % 64 == 0 && 64 ≤ d.cap && d.cap ≤ 16384
    && d.start < d.cap && d.nkey ≤ d.cap && d.nh ≤ 128 && d.nkv ≤ 128
    && 1 ≤ d.window && d.window ≤ 16384 && 1 ≤ d.ropeLen && d.ropeLen ≤ 16384
    && d.pitch % 64 == 0
    && (d.nq ≤ 1 || rowBytes d.cols (outWidth d.outFmt d.codeQ) ≤ d.pitch)

/-- Where the row flags start in the statistics area (R107). -/
def AttnDesc.rowFlagsAt (d : AttnDesc) : Nat :=
  if d.mseEn then up64 (64 + 4 * d.qt * ceilDiv d.cols 64) else 64

/-- The ranges that the command reads or writes. -/
def AttnDesc.ranges (d : AttnDesc) : List (Nat × Nat) :=
  let cache := d.nkv * (d.cap / 64) * d.page
  [(d.q, d.nh * d.qt * (d.dim / 32) * tileBytes d.codeA), (d.k, cache), (d.v, cache),
    (d.tsq, 4 * d.nh * d.qt), (d.kvts, 8 * d.nkv),
    (d.out, outBytes d.out d.nq d.cols d.outSpec.w d.pitch d.outFmt 0)]
    ++ (if d.ropeEn then [(d.rope, d.ropeLen * d.dim * 4)] else [])
    ++ (if d.maskMode = 3 then [(d.mask, d.nq * 64 * ceilDiv d.nkey 512)] else [])

/-- Clocks of a command, at most: every key tile visible, and in streaming mode every one rescaling
(R109). -/
def AttnDesc.timeClocks (d : AttnDesc) : Nat :=
  d.qt * d.nh * ((if d.twoPass then d.kt * (d.dim + 64 * d.slices)
    else d.slices * d.kt * (d.dim + 64) + 64 * d.kt) + 40)

/-- L of a command, at most: per unit its queries, every key and value with its scales, the scale
prefetch, the bitmask and the rotary entries (R89, R109; log entry 103). -/
def State.attnBytes (s : State) (f : Nat) (d : AttnDesc) : Nat :=
  let mb := s.meshBytes f
  let row := d.dim * d.codeB.bits / 8 + d.dim / 32
  d.qt * d.nh * (mb (d.q, d.dim / 32 * tileBytes d.codeA) + mb (d.tsq, 4) + mb (d.kvts, 8)
    + mb (d.k, d.nkey * row) + mb (d.v, d.nkey * (row + d.dim / 32))
    + (if d.maskMode = 3 then mb (d.mask, 4096 * ceilDiv d.nkey 512) else 0)
    + (if d.ropeEn then mb (d.rope, (d.nkey + 64) * d.dim * 4) else 0))

/-- Check 5: every address is aligned, every range lies in one region. -/
def State.attnCheck5 (s : State) (d : AttnDesc) : Bool :=
  d.rope % 64 == 0 && d.mask % 64 == 0 && d.ranges.all (fun x => s.rangeOk x.1 x.2)
    && (d.stat == 0 || s.statOk d.stat (d.rowFlagsAt + d.nq * d.nh))

/-- The checks of R91 in their order. -/
def State.attnCheck (s : State) (d : AttnDesc) : St :=
  if !d.check2 then ST_BAD_FIELD
  else if !d.check3 then ST_LENGTH_LIMIT
  else if !d.check4 || !s.attnCheck5 d then ST_BAD_FIELD
  else ST_OK

/-! ### Operands (R92–R98) -/

/-- Query `i` of head `h`: its blocks (R92). -/
def State.queryBlocks (s : State) (f : Nat) (d : AttnDesc) (h i : Nat) : List (St × Block) :=
  let nb := d.dim / 32
  let w := d.codeA.bits
  (List.range nb).map fun b =>
    let t := d.q + ((h * d.qt + i / 64) * nb + b) * tileBytes d.codeA
    let (st, cs) := s.fetchOp f (t + i % 64 * 4 * w) (4 * w)
    let (st2, sc) := s.fetchOp f (t + 256 * w + i % 64) 1
    (firstBad [st, st2], blockOf d.codeA d.bsp cs (leNat sc))

/-- Row of key or value `j` in the cache at `base` of head `g` (R93, R95). -/
def State.cacheBlocks (s : State) (f : Nat) (d : AttnDesc) (base g j : Nat) : List (St × Block) :=
  let row := (d.start + j) % d.cap
  let pg := base + (g * (d.cap / 64) + row / 64) * d.page
  let w := d.codeB.bits
  (List.range (d.dim / 32)).map fun b =>
    let (st, cs) := s.fetchOp f (pg + row % 64 * d.dim * w / 8 + b * 4 * w) (4 * w)
    let (st2, sc) := s.fetchOp f (pg + 64 * d.dim * w / 8 + row % 64 * (d.dim / 32) + b) 1
    (firstBad [st, st2], blockOf d.codeB d.bsp cs (leNat sc))

/-- Round to nearest even at the 12-bit FX significand (R97). The spec gives no result where the
exponent leaves the FX range X = 1–511 (R41): it is unbounded here (DESIGN CHOICE, log entry 95). -/
def roundFx (v : Val) : Val :=
  match v with
  | .num q => if q.isZero then .zero else
      let (e, k) := roundSig .rne 12 (-2000) q
      let x := dyad k e
      .num (if q.n < 0 then x.neg else x)
  | x => x

/-- A value divided by a scale that is not zero. -/
def Val.over (v : Val) (sc : Val) : Val :=
  match v, sc with
  | .num q, .num t => .num (q.div t)
  | .nan, _ => .nan
  | x, _ => x

/-- Negate a value. -/
def Val.neg : Val → Val
  | .num q => .num q.neg
  | .inf n => .inf !n
  | .nan => .nan

/-- Rotate block `b` of the element at position `pos` (R97). The rotated values are kept in units
of the block scale, and the anchor term rises by one. The spec says nothing of an infinite code or of a
table word that is not finite: they give what IEEE 754 gives (DESIGN CHOICE, log entry 95). -/
def State.rotate (s : State) (f : Nat) (d : AttnDesc) (pos b : Nat) (x : St × Block) : St × Block :=
  if x.2.scale.isZero || x.2.scale.isNan then (x.1, { x.2 with lift := 1 })
  else
    let ps := (List.range 16).map fun k =>
      let ent := d.rope + (pos * (d.dim / 2) + b * 16 + k) * 8
      let (sc, c) := s.fetchF32 f ent
      let (ss, sn) := s.fetchF32 f (ent + 4)
      let u := (x.2.vals.getD (2 * k) .zero).mul x.2.scale
      let v := (x.2.vals.getD (2 * k + 1) .zero).mul x.2.scale
      let bad := u.isNan || v.isNan
      let y0 : Val := if bad then .nan else roundFx ((u.mul c).add (v.mul sn).neg)
      let y1 : Val := if bad then .nan else roundFx ((u.mul sn).add (v.mul c))
      (firstBad [sc, ss], [y0.over x.2.scale, y1.over x.2.scale])
    (firstBad (x.1 :: ps.map (·.1)), { x.2 with vals := ps.flatMap (·.2), lift := 1 })

/-- Blocks of a query or key, rotated under ROPE_EN. -/
def State.rotated (s : State) (f : Nat) (d : AttnDesc) (pos : Nat) (xs : List (St × Block)) :
    List (St × Block) :=
  if d.ropeEn then (List.zip (List.range xs.length) xs).map fun (b, x) => s.rotate f d pos b x else xs

/-- Bit `j` of bitmask row `i`, with the status of its read (R98). -/
def State.maskBit (s : State) (f : Nat) (d : AttnDesc) (i j : Nat) : St × Bool :=
  let (st, b) := s.fetchOp f (d.mask + i * 64 * ceilDiv d.nkey 512 + j / 8) 1
  (st, bitsN (leNat b) (j % 8) 1 == 1)

/-- Key `j` is visible to query `i` (R98). -/
def State.visible (s : State) (f : Nat) (d : AttnDesc) (i j : Nat) : Bool :=
  let pq : Int := d.qpos + i
  let pk : Int := d.kpos + j
  match d.maskMode with
  | 0 => true
  | 1 => pk ≤ pq
  | 2 => 0 ≤ pq - pk && pq - pk < d.window
  | _ => (s.maskBit f d i j).2

/-- Queries of query tile `t`. -/
def AttnDesc.queries (d : AttnDesc) (t : Nat) : List Nat :=
  (List.range (min 64 (d.nq - 64 * t))).map (64 * t + ·)

/-- Keys of key tile `t`. -/
def AttnDesc.keys (d : AttnDesc) (t : Nat) : List Nat :=
  (List.range (min 64 (d.nkey - 64 * t))).map (64 * t + ·)

/-- The key tiles of a query tile that are not skipped (R98). -/
def State.keyTiles (s : State) (f : Nat) (d : AttnDesc) (qt : Nat) : List Nat :=
  (List.range d.kt).filter fun t =>
    (d.queries qt).any fun i => (d.keys t).any fun j => s.visible f d i j

/-! ### Scores and weights (R99–R101) -/

/-- The wide sum of a score (R97, R99, R101). -/
def scoreSum (d : AttnDesc) (q k : List (St × Block)) : WideSum :=
  let ps := List.zip (q.map (·.2)) (k.map (·.2))
  ps.foldl (fun x p => x.takeBlock p.1 p.2)
    { anchor := BitVec.ofInt 16 (anchorOf d.codeA.maxMag d.codeB.maxMag ps) }

/-- Largest k with k² ≤ n, by its bits from bit `b − 1` down. -/
def isqrt (n : Nat) : Nat → Nat → Nat
  | 0, r => r
  | b + 1, r =>
    let t := r + 2 ^ b
    isqrt n b (if t * t ≤ n then t else r)

/-- 2^f in units of 2^−256 from the bits of `f` = n / d, one square root of 2 a bit. -/
def exp2Bits : Nat → Nat → Nat → Nat → Nat → Nat
  | 0, _, _, _, acc => acc
  | k + 1, n, d, root, acc =>
    let root := isqrt (root * 2 ^ 256) 258 0
    let n := 2 * n
    if d ≤ n then exp2Bits k (n - d) d root (acc * root / 2 ^ 256)
    else exp2Bits k n d root acc

/-- E2(f) × 2^11: 2^f rounded to nearest at 12 significant bits (R100). -/
def e2 (f : Fr) : Nat :=
  let p := exp2Bits 192 f.n.toNat f.d (2 ^ 257) (2 ^ 256)
  (p * 2 ^ 11 + 2 ^ 255) / 2 ^ 256

/-- The weight of a score against the maximum m (R100). -/
def weight (sc : Fr) (m : Int) : Fr :=
  let fl := sc.floor
  if fl - m < -250 then .zero else dyad (e2 (sc.sub (.ofInt fl))) (fl - m - 11)

/-- Index of the lowest non-zero bit of a product above a floor (R104); none for zero. -/
def lowBit (floor : Int) (q : Fr) : Option Int :=
  if q.isZero then none
  else some ((List.range (Nat.log2 q.n.natAbs + 1)).find? (fun i => q.n.natAbs / 2 ^ i % 2 = 1)
    |>.map (fun i => (i : Int) - Nat.log2 q.d - floor) |>.getD 0)

/-- A visible key as a row sees it: key number, score, its value blocks. -/
structure KeyIn where
  j : Nat
  score : Val
  v : List Block
  deriving DecidableEq, Repr

/-- The score ends the row (R99). -/
def badScore : Val → Bool
  | .num q => Fr.le ⟨2 ^ 30, 1⟩ q.abs
  | _ => true

/-- The score as a fraction. -/
def KeyIn.fr (k : KeyIn) : Fr := match k.score with | .num q => q | _ => .zero

/-- Value element `e` of a key. -/
def KeyIn.elem (k : KeyIn) (e : Nat) : Val × Val :=
  let b := k.v.getD (e / 32) {}
  (b.vals.getD (e % 32) .zero, b.scale)

/-- Accumulate p × v into one dimension of O (R45, R48, R100). -/
def accO (x : WideSum) (p : Fr) (v : Val × Val) : WideSum :=
  if v.2.isZero then x
  else if v.2.isNan then { x with special := x.special.add .nan }
  else x.take (.num p) (v.1.mul v.2)

/-- Add one visible key (R100, R104). -/
def RowAcc.add (a : RowAcc) (es : List Nat) (k : KeyIn) (m : Int) : RowAcc :=
  let p := weight k.fr m
  let os := List.zipWith (fun x e => accO x p (k.elem e)) a.o es
  let lows := (List.zipWith (fun x e =>
    match (k.elem e).1.mul (k.elem e).2 with
    | .num v => lowBit x.floor (p.mul v)
    | _ => none) a.o es) ++ [lowBit a.l.floor p]
  let low := lows.foldl (fun (a : Option Int) b =>
    match a, b with
    | none, b => b
    | a, none => a
    | some x, some y => some (min x y)) a.low
  { a with o := os, l := a.l.take (.num p) (.num ⟨1, 1⟩), low := low }

/-- Divide the accumulators by 2^d, toward zero (R104). -/
def RowAcc.rescale (a : RowAcc) (d : Nat) : RowAcc :=
  let sh (x : WideSum) : WideSum := { x with w := BitVec.ofInt 168 (x.w.toInt.tdiv (2 ^ d : Nat)) }
  { a with
    o := a.o.map sh, l := sh a.l
    deep := a.deep || (match a.low with | none => false | some x => x < d)
    low := a.low.map (· - d) }

/-- The floor of the largest of some scores. -/
def maxFloor (ks : List KeyIn) : Option Int :=
  ks.foldl (fun (a : Option Int) k =>
    match a with
    | none => some k.fr.floor
    | some m => some (max m k.fr.floor)) none

/-- One key tile in streaming mode (R104). -/
def RowAcc.stream (a : RowAcc) (es : List Nat) (t : Nat) (ks : List KeyIn) : RowAcc :=
  match maxFloor ks with
  | none => a
  | some mt =>
    let a := match a.m with
      | none => { a with m := some mt }
      | some m =>
        if m < mt then { a.rescale (mt - m).toNat with m := some mt, rescaled := a.rescaled ++ [t] } else a
    ks.foldl (fun a k => a.add es k (a.m.getD mt)) a

/-- The anchor of O in dimension `e` over all keys' value scales (R101). -/
def anchorO (c : Code) (scales : List Val) : Int :=
  (scales.foldl (fun (a : Option Int) sc =>
    match sc with
    | .num q =>
      if q.isZero then a
      else
        let t := 1 + (c.maxMag.mul q).log2 - 22
        some (match a with | none => t | some x => max x t)
    | _ => a) none).getD 0

/-! ### A unit, one key-tile pass after another (R108) -/

/-- The dimensions of slice `sl`. -/
def AttnDesc.sliceDims (d : AttnDesc) (sl : Nat) : List Nat :=
  (List.range (min 64 (d.dim - 64 * sl))).map (64 * sl + ·)

/-- Key-tile passes of a unit with `n` key tiles (R108). -/
def AttnDesc.passes (d : AttnDesc) (n : Nat) : Nat := if d.twoPass then n * (1 + d.slices) else n * d.slices

/-- Key-tile passes of unit `n`. -/
def State.attnPasses (s : State) (f : Nat) (d : AttnDesc) (n : Nat) : Nat :=
  d.passes (s.keyTiles f d (n / d.nh)).length

/-- Lines of `n` rows of 8-byte rotary entries, one row per position (R96). -/
def AttnDesc.ropeLines (d : AttnDesc) (pos n : Nat) : List (Nat × Nat) :=
  if d.ropeEn then [(d.rope + pos * d.dim * 4, n * d.dim * 4)] else []

/-- Lines of a row of the cache at `base`: its codes where `codes`, and its scales (R93, R95). -/
def AttnDesc.rowLines (d : AttnDesc) (base g j : Nat) (codes : Bool) : List (Nat × Nat) :=
  let row := (d.start + j) % d.cap
  let pg := base + (g * (d.cap / 64) + row / 64) * d.page
  let w := d.dim * d.codeB.bits / 8
  (if codes then [(pg + row % 64 * w, w)] else []) ++ [(pg + 64 * w + row % 64 * (d.dim / 32), d.dim / 32)]

/-- What the loader reads for a unit: queries, scales, bitmask, all value scales, and the keys and
values of the key tiles that are not skipped (R98, R101, R109; log entry 94). -/
def State.attnLines (s : State) (f : Nat) (d : AttnDesc) (qt h : Nat) : List Nat :=
  let g := d.kvHead h
  let nq := (d.queries qt).length
  let nb := d.dim / 32
  let js := (s.keyTiles f d qt).flatMap d.keys
  lineSet ([(d.q + (h * d.qt + qt) * nb * tileBytes d.codeA, nb * tileBytes d.codeA),
      (d.tsq + (h * d.qt + qt) * 4, 4), (d.kvts + 8 * g, 8)]
    ++ d.ropeLines (d.qpos + 64 * qt) nq
    ++ (if d.maskMode = 3 then [(d.mask + 64 * qt * 64 * ceilDiv d.nkey 512, nq * 64 * ceilDiv d.nkey 512)] else [])
    ++ ((List.range d.nkey).flatMap fun j => d.rowLines d.v g j false)
    ++ js.flatMap fun j => d.rowLines d.k g j true ++ d.rowLines d.v g j true ++ d.ropeLines (d.kpos + j) 1)

/-- A unit begins: its key tiles and the anchors of O are known before the first key tile (R98, R101). -/
def State.attnStart (s : State) (f : Nat) (d : AttnDesc) (qt h : Nat) : AttnRun :=
  let g := d.kvHead h
  let sc := (List.range (d.dim / 32)).map fun b => (List.range d.nkey).map fun j =>
    let x := (s.cacheBlocks f d d.v g j).getD b (ST_OK, {})
    let st := (s.fetchOp f (d.v + (g * (d.cap / 64) + (d.start + j) % d.cap / 64) * d.page
      + 64 * d.dim * d.codeB.bits / 8 + (d.start + j) % d.cap % 64 * (d.dim / 32) + b) 1).1
    (st, x.2.scale)
  let masks := if d.maskMode = 3 then
      (d.queries qt).flatMap fun i => (List.range d.nkey).map fun j => (s.maskBit f d i j).1
    else []
  { tiles := s.keyTiles f d qt
    anchors := sc.map fun l => anchorO d.codeB (l.map (·.2))
    st := firstBad ([(s.fetchF32 f (d.tsq + (h * d.qt + qt) * 4)).1, (s.fetchF32 f (d.kvts + 8 * g)).1,
      (s.fetchF32 f (d.kvts + 8 * g + 4)).1] ++ masks)
    vst := sc.map fun l => firstBad (l.map (·.1))
    rows := (d.queries qt).map fun _ => {} }

/-- The wide sums of the scores of key tile `t`, per query every key with whether it is visible, and
the status of the reads (R99). -/
def State.scoreTile (s : State) (f : Nat) (d : AttnDesc) (qt h t : Nat) :
    St × List (List (Nat × Bool × WideSum)) :=
  let ks := (d.keys t).map fun j => (j, s.rotated f d (d.kpos + j) (s.cacheBlocks f d d.k (d.kvHead h) j))
  let qs := (d.queries qt).map fun i => (i, s.rotated f d (d.qpos + i) (s.queryBlocks f d h i))
  (firstBad ((qs.flatMap fun q => q.2.map (·.1)) ++ ks.flatMap fun k => k.2.map (·.1)),
    qs.map fun (i, q) => ks.map fun (j, k) => (j, s.visible f d i j, scoreSum d q k))

/-- The score of a wide sum, rounded once to FP32 (R99). -/
def State.scoreVal (s : State) (f : Nat) (d : AttnDesc) (qt h : Nat) (x : WideSum) : Val :=
  let tq := (s.fetchF32 f (d.tsq + (h * d.qt + qt) * 4)).2
  let tk := (s.fetchF32 f (d.kvts + 8 * d.kvHead h)).2
  (((x.val.mul tq).mul tk).mul (fp32Val d.score)).toFP32

/-- The FP32 code of a value. -/
def fp32Code (v : Val) : Word := BitVec.ofNat 32 (fFP32.round false v).1

/-- The visible scores of a tile enter a row (R99, R103). -/
def State.scoreRow (s : State) (f : Nat) (d : AttnDesc) (qt h : Nat) (row : AttnRow)
    (xs : List (Nat × Bool × WideSum)) : AttnRow :=
  let vs := (xs.filter (·.2.1)).map fun x => (x.1, s.scoreVal f d qt h x.2.2)
  { row with
    scores := (if d.twoPass then row.scores else []) ++ vs.map fun x => (x.1, fp32Code x.2)
    nan := row.nan || vs.any fun x => badScore x.2
    seen := row.seen || !vs.isEmpty }

/-- The row's visible keys of tile `t` with their scores and value blocks. -/
def AttnRow.keysIn (row : AttnRow) (t : Nat) (vals : List (Nat × List Block)) : List KeyIn :=
  (row.scores.filter fun x => x.1 / 64 = t).map fun x =>
    { j := x.1, score := fp32Val x.2.toNat, v := (vals.lookup x.1).getD [] }

/-- The row's accumulators at the first key tile of a slice: against the maximum of the score buffer in
two-pass mode (R103), from nothing in streaming mode (R104). -/
def AttnRow.begin (row : AttnRow) (d : AttnDesc) (u : AttnRun) (sl : Nat) : AttnRow :=
  let es := d.sliceDims sl
  let m := if d.twoPass then maxFloor (row.scores.map fun x => { j := x.1, score := fp32Val x.2.toNat, v := [] })
    else none
  { row with acc := { row.acc with
      m := m
      o := es.map fun e => { anchor := BitVec.ofInt 16 (u.anchors.getD (e / 32) 0) }
      l := { anchor := BitVec.ofInt 16 (-22) }
      low := none } }

/-- A key tile enters the row's accumulators (R103, R104). -/
def AttnRow.take (row : AttnRow) (d : AttnDesc) (sl t : Nat) (vals : List (Nat × List Block)) : AttnRow :=
  if row.nan then row
  else
    let ks := row.keysIn t vals
    let es := d.sliceDims sl
    { row with acc := if d.twoPass then ks.foldl (fun a k => a.add es k (row.acc.m.getD 0)) row.acc
                      else row.acc.stream es t ks }

/-- The outputs of a row's slice (R106); `bad` where their computation read poison (R87). -/
def AttnRow.outs (row : AttnRow) (d : AttnDesc) (tv : Val) (sl : Nat) (bad : Bool) : List Outp :=
  let es := d.sliceDims sl
  if row.nan then es.map fun _ => ⟨.nan, bad⟩
  else if !row.seen then es.map fun _ => ⟨.zero, bad⟩
  else
    let l := dyad row.acc.l.w.toInt row.acc.l.floor
    row.acc.o.map fun x => ⟨if l.isZero then .zero else tv.mul (x.val.mul (.num ((Fr.ofInt 1).div l))), bad⟩

/-- The errors of R54 of a slice enter their canonical tiles as the elements are converted (R72, R77). -/
def AttnDesc.noteErrs (d : AttnDesc) (qt c0 : Nat) (vs : List (List Outp)) (m : KMap (List Word)) : KMap (List Word) :=
  if !d.mseEn then m
  else
    let t := tsFr d.outTs
    (List.range (ceilDiv (vs.headD []).length 32)).foldl (fun m b =>
      let part := vs.map fun row => (row.drop (32 * b)).take 32
      let es := mseTerms d.codeQ t part (requantLines d.codeQ t part)
      let k := qt * ceilDiv d.cols 64 + (c0 + 32 * b) / 64
      kput k (kget [] m k ++ es.map fp32Code) m) m

/-- Slice `sl` of unit (qt, h) leaves the array: its outputs are converted and written (R72, R106). -/
def State.attnDrain (s : State) (f : Nat) (d : AttnDesc) (qt h sl : Nat) (u : AttnRun) (cmd : FacetCmd) :
    FacetCmd × State :=
  let es := d.sliceDims sl
  let vst := firstBad ((es.map fun e => u.vst.getD (e / 32) ST_OK))
  let cmd := (cmd.meet u.st).meet vst
  let tv := (s.fetchF32 f (d.kvts + 8 * d.kvHead h + 4)).2
  let vs := u.rows.map fun row => row.outs d tv sl (u.st ≠ ST_OK || vst ≠ ST_OK)
  let o := { d.outSpec with mse := false }
  let e := o.enc qt 0 vs
  let c0 := h * d.dim + 64 * sl
  let rb := rowBytes o.n o.w
  let rows := (List.zip (List.range e.codes.length) e.codes).map fun (i, cs) =>
    (64 * qt + i, c0 * o.w / 8, packCodes o.w cs)
  let (st, s) := rows.foldl (fun (st, s) (i, x, b) => s.facWrite f st (o.out + i * o.pitch + x) b) (cmd.status, s)
  let out := rows.foldl (fun m (i, x, b) =>
    (List.zip (List.range b.length) b).foldl (fun m (k, v) => kput (i * rb + x + k) v m) m) cmd.out
  let nb := ceilDiv o.n 32
  let out := e.scales.foldl (fun m (i, v) =>
    kput (o.m * rb + i / nb * nb + c0 / 32 + i % nb) (BitVec.ofNat 8 v) m) out
  ({ cmd with status := st, out := out, flags := cmd.flags ||| BitVec.ofNat 16 e.flags
              errs := d.noteErrs qt c0 vs cmd.errs }, s)

/-- The key tiles of a unit that rescaled a row (R107). -/
def AttnRun.rescales (u : AttnRun) : Nat := (u.rows.flatMap fun r => if r.nan then [] else r.acc.rescaled).eraseDups.length

/-- A unit ends: its row flags and counts are kept (R107). -/
def AttnDesc.unitEnd (d : AttnDesc) (cmd : FacetCmd) (u : AttnRun) : FacetCmd :=
  let qt := cmd.tile / d.nh
  let h := cmd.tile % d.nh
  let deep (r : AttnRow) : Bool := r.acc.deep && !r.nan
  let fl := (if u.rows.any deep then 32 else 0) + (if u.rows.any (fun r => !r.seen) then 64 else 0)
    + (if u.rows.any (·.nan) then 128 else 0)
  { cmd with
    flags := cmd.flags ||| BitVec.ofNat 16 fl
    deepRows := cmd.deepRows + u.rows.countP deep
    rescales := cmd.rescales + u.rescales
    rowFlags := (List.zip (d.queries qt) u.rows).foldl (fun m (i, r) =>
      kput (i * d.nh + h) (BitVec.ofNat 8 ((if deep r then 1 else 0) + (if r.seen then 0 else 2)
        + (if r.nan then 4 else 0))) m) cmd.rowFlags
    tile := cmd.tile + 1, block := 0, sums := [], attn := none }

/-- The array after a score pass: the scores of one tile, row by row (R108). -/
def scoreArray (rs : List (List (Nat × Bool × WideSum))) : List WideSum :=
  rs.flatMap fun r => r.map (·.2.2) ++ List.replicate (64 - r.length) ({} : WideSum)

/-- The array in the output phase or in streaming mode: O of the current slice (R108). -/
def AttnRun.array (u : AttnRun) : List WideSum :=
  u.rows.flatMap fun r => r.acc.o ++ List.replicate (64 - r.acc.o.length) ({} : WideSum)

/-- One key-tile pass of the unit, and its clocks (R103, R104, R108, R109). -/
def State.attnPass (s : State) (f : Nat) (d : AttnDesc) (cmd : FacetCmd) (u : AttnRun) : (FacetCmd × Nat) × State :=
  let qt := cmd.tile / d.nh
  let h := cmd.tile % d.nh
  let n := u.tiles.length
  if d.twoPass && cmd.block < n then
    let (st, rs) := s.scoreTile f d qt h (u.tiles.getD cmd.block 0)
    let u := { u with st := firstBad [u.st, st], rows := List.zipWith (s.scoreRow f d qt h) u.rows rs }
    (({ cmd with block := cmd.block + 1, sums := scoreArray rs, attn := some u }, d.dim), s)
  else
    let k := if d.twoPass then cmd.block - n else cmd.block
    let sl := k / n
    let t := u.tiles.getD (k % n) 0
    let r0 := u.rescales
    let u := if k % n = 0 then { u with rows := u.rows.map fun r => r.begin d u sl } else u
    let (st, rs) := if d.twoPass then (ST_OK, []) else s.scoreTile f d qt h t
    let u := if d.twoPass then u
      else { u with st := firstBad [u.st, st], rows := List.zipWith (s.scoreRow f d qt h) u.rows rs }
    let vs := (d.keys t).map fun j => (j, s.cacheBlocks f d d.v (d.kvHead h) j)
    let vst := (List.zip (List.range u.vst.length) u.vst).map fun (b, st) =>
      firstBad (st :: vs.map fun v => (v.2.getD b (ST_OK, {})).1)
    let vals := vs.map fun v => (v.1, v.2.map (·.2))
    let u := { u with vst := vst, rows := u.rows.map fun r => r.take d sl t vals }
    let clk := if d.twoPass then 64 else d.dim + 64 + 64 * (u.rescales - r0)
    let cmd := { cmd with block := cmd.block + 1, sums := u.array, attn := some u }
    if k % n + 1 = n then
      let (cmd, s) := s.attnDrain f d qt h sl u cmd
      ((cmd, clk), s)
    else ((cmd, clk), s)

/-- The unit under way, begun where the command stands at its first pass. -/
def State.attnBegin (s : State) (f : Nat) (d : AttnDesc) (cmd : FacetCmd) : AttnRun × State :=
  match cmd.attn with
  | some u => (u, s)
  | none =>
    let qt := cmd.tile / d.nh
    let h := cmd.tile % d.nh
    (s.attnStart f d qt h, s.load f (s.attnLines f d qt h))

/-- `k` passes of the unit, with their clocks. -/
def State.attnSteps (f : Nat) (d : AttnDesc) : Nat → (FacetCmd × Nat) × State → (FacetCmd × Nat) × State
  | 0, x => x
  | k + 1, ((cmd, clk), s) =>
    let (u, s) := s.attnBegin f d cmd
    let ((cmd, c), s) := s.attnPass f d cmd u
    State.attnSteps f d k ((cmd, clk + c), s)

/-- Run the unit to its end; one without a visible key leaves at once (R106, R109). -/
def State.attnFinish (s : State) (f : Nat) (d : AttnDesc) (cmd : FacetCmd) : (FacetCmd × Nat) × State :=
  let (u, s) := s.attnBegin f d cmd
  let left := d.passes u.tiles.length - cmd.block
  let ((cmd, clk), s) := State.attnSteps f d left (({ cmd with attn := some u }, 0), s)
  let u := cmd.attn.getD u
  let (cmd, s) := if u.tiles.isEmpty then
      (List.range d.slices).foldl (fun (cmd, s) sl => s.attnDrain f d (cmd.tile / d.nh) (cmd.tile % d.nh) sl u cmd) (cmd, s)
    else (cmd, s)
  ((d.unitEnd cmd u, clk + 40), s)

/-- The array is reloaded from the save area: O of the current slice, or scores that are in the score
buffer already (R84, R108). -/
def AttnRun.reload (d : AttnDesc) (u : AttnRun) (block : Nat) (ws : List WideSum) : AttnRun :=
  if d.twoPass && block ≤ u.tiles.length then u
  else
    { u with rows := (List.zip (List.range u.rows.length) u.rows).map fun (i, r) =>
        { r with acc := { r.acc with o := (ws.drop (64 * i)).take r.acc.o.length } } }

/-- The statistic of every canonical tile of the output, from the errors gathered (R54, R77, R107). -/
def AttnDesc.mses (d : AttnDesc) (errs : KMap (List Word)) : KMap Word :=
  (List.range (d.qt * ceilDiv d.cols 64)).map fun t =>
    (t, BitVec.ofNat 32 (mseOf ((kget [] errs t).map fun w => fp32Val w.toNat)))

end Sys2Proof.Machine
end

