-- ==== Sys2Proof/Machine/HostOps.lean ====
section
/-! DEFINITION. Rings, mailboxes, completions and events (R281–R299). -/

namespace Sys2Proof.Machine

/-! ### Functions (R283) -/

abbrev fDEVICE : Nat := 0x00
abbrev fMODEL : Nat := 0x01
abbrev fAXIS (a : Nat) : Nat := 0x10 + a
abbrev fCAM (c : Nat) : Nat := 0x20 + c
abbrev fHEALTH : Nat := 0x28
abbrev fETH : Nat := 0x30
abbrev fCAN (n : Nat) : Nat := 0x38 + n
abbrev fTIME : Nat := 0x40
abbrev fPAIR : Nat := 0x48
abbrev fPOWER : Nat := 0x50

/-- The defined function ids, ascending (R283). -/
def allFuncs : List Nat :=
  [0x00, 0x01] ++ (List.range 16).map (0x10 + ·) ++ (List.range 4).map (0x20 + ·)
    ++ [0x28, 0x30] ++ (List.range 8).map (0x38 + ·) ++ [0x40, 0x48, 0x50]

abbrev opFN_STOP : Nat := 0x0101
abbrev opFN_CONFIG : Nat := 0x0102
abbrev opFN_START : Nat := 0x0103
abbrev opPKG_LOAD : Nat := 0x0201
abbrev opPKG_ACTIVATE : Nat := 0x0202
abbrev opDATA_PUT : Nat := 0x0301
abbrev opDATA_GET : Nat := 0x0302
abbrev opSETTINGS_STORE : Nat := 0x0401
abbrev opTELEMETRY : Nat := 0x0501
abbrev opHOST_HEARTBEAT : Nat := 0x0601
abbrev opATTACH : Nat := 0x0602
abbrev opIFACE_QUERY : Nat := 0x0603

/-- The opcode is in the table of opcodes. -/
def opDefined (op : Nat) : Bool :=
  op ∈ [opFN_STOP, opFN_CONFIG, opFN_START, opPKG_LOAD, opPKG_ACTIVATE, opDATA_PUT, opDATA_GET,
    opSETTINGS_STORE, opTELEMETRY, opHOST_HEARTBEAT, opATTACH, opIFACE_QUERY]

/-- The opcode accepts the function. -/
def opAccepts (op func : Nat) : Bool :=
  if op = opFN_STOP || op = opFN_CONFIG || op = opFN_START then func ≠ fDEVICE
  else if op = opPKG_LOAD || op = opPKG_ACTIVATE then func = fMODEL
  else if op = opDATA_PUT || op = opDATA_GET then func = fMODEL || (0x20 ≤ func && func < 0x24)
  else if op = opSETTINGS_STORE || op = opTELEMETRY then true
  else func = fDEVICE

/-- The opcode is accepted on rings. -/
def opOnRing (op : Nat) : Bool := op ≠ opATTACH && op ≠ opIFACE_QUERY

/-- Commands of one function that run one at a time (R285). -/
def opSerial (op : Nat) : Bool :=
  op = opFN_STOP || op = opFN_CONFIG || op = opFN_START || op = opPKG_ACTIVATE || op = opSETTINGS_STORE

/-! ### Rings (R290–R297) -/

abbrev rngDISABLED : Nat := 0
abbrev rngACTIVE : Nat := 1
abbrev rngFROZEN : Nat := 2
abbrev rngERROR : Nat := 3
abbrev rngDRAINING : Nat := 4

def State.ring (s : State) (r : Nat) : RingSt := kget {} s.host.rings r
def State.setRing (s : State) (r : Nat) (x : RingSt) : State :=
  { s with host := { s.host with rings := kput r x s.host.rings } }

/-- Lines of the ring (R290). -/
def State.ringLines (s : State) (r : Nat) : Nat := 2 ^ (s.fld (RNG_CFG_LOG2SIZE r) - 6)

/-- Ring base (R290). -/
def State.ringBase (s : State) (r : Nat) : Nat :=
  (s.rd (RNG_BASE_LO r)).toNat + (s.rd (RNG_BASE_HI r)).toNat * 2 ^ 32

/-- PI − CI modulo 2^32 (R290). -/
def State.ringUsed (s : State) (r : Nat) : Nat :=
  ((s.rd (RNG_PI r)).toNat + 2 ^ 32 - (s.rd (RNG_CI r)).toNat) % 2 ^ 32

/-- Lines free, reserved lines left aside (R294). -/
def State.ringFree (s : State) (r : Nat) : Nat :=
  s.ringLines r - s.ringUsed r - (s.ring r).reserved

/-- Address of line `i` (R290). -/
def State.ringLine (s : State) (r i : Nat) : BitVec 64 :=
  BitVec.ofNat 64 (s.ringBase r + 64 * (i % s.ringLines r))

/-- The ring memory lies in normal map memory or in the usable LPDDR5X (R290). -/
def State.ringMemOk (s : State) (r : Nat) : Bool :=
  let b := s.ringBase r
  let n := 2 ^ s.fld (RNG_CFG_LOG2SIZE r)
  match s.target mPCIe (BitVec.ofNat 64 b), s.target mPCIe (BitVec.ofNat 64 (b + n - 1)) with
  | .map .normal x, .map .normal y => x + n - 1 == y && !syncArea x n && !syncArea y 1
  | .ddr x, .ddr y => x + n - 1 == y
  | _, _ => false

/-- A ring takes the ERROR state (R293). -/
def State.ringError (s : State) (r cause : Nat) : State :=
  (s.setF (RNG_CTL_STATE r) rngERROR).setF (RNG_CTL_CAUSE r) cause

/-- Write 64-byte lines from line index `i`. -/
def State.ringWrite (s : State) (r : Nat) : Nat → List (List Byte) → St × State
  | _, [] => (ST_OK, s)
  | i, l :: ls =>
    let x := s.postWrite mHIP (s.ringLine r i) l
    if x.1 ≠ ST_OK then x else x.2.ringWrite r (i + 1) ls

/-- Cut bytes into lines of 64, the last padded with zeros. -/
def toLines : Nat → List Byte → List (List Byte)
  | 0, _ => []
  | k + 1, b => (b.take 64 ++ List.replicate (64 - (b.take 64).length) 0) :: toLines k (b.drop 64)

/-- Lines of an entry of `n` result bytes (R282). -/
def entryLines (n : Nat) : Nat := (32 + n + 63) / 64

/-- The 32-byte completion record (R282). -/
def compRecord (s : State) (tag st op seq sub flags func rlen aux : Nat) : List Byte :=
  leBytes 4 tag ++ leBytes 2 st ++ leBytes 2 op ++ leBytes 4 seq ++ leBytes 2 sub ++ leBytes 1 flags
    ++ leBytes 1 func ++ leBytes 8 (s.tb64 0).toNat ++ leBytes 4 rlen ++ leBytes 4 aux

/-- PHASE of an entry that starts at PI (R282). -/
def State.phase (s : State) (r : Nat) : Nat := 1 - (s.rd (RNG_PI r)).toNat / s.ringLines r % 2

/-- Signal an MSI-X vector (R296, R298): sent, or pending while MSI-X is off or the vector is masked. -/
def State.msix (s : State) (v : Nat) : State :=
  let p := s.host.pci
  if p.msixOn && !p.maskAll && p.unmasked.contains v then
    { s with host := { s.host with msix := s.host.msix ++ [v] } }
  else if s.host.msixPending.contains v then s
  else { s with host := { s.host with msixPending := s.host.msixPending ++ [v] } }

/-- The interrupt of a written entry: at once with no coalescing, else when COAL has passed
since the first entry not yet signalled (R296). -/
def State.ringIrq (s : State) (p : Nat) : State :=
  if !s.flag (RNG_LINK_IRQ_EN p) then s
  else if s.fld (RNG_CTL_COAL p) = 0 then s.msix (s.fld (RNG_LINK_VECTOR p))
  else
    let x := s.ring p
    s.setRing p { x with unsent := some (x.unsent.getD s.now) }

/-- Write the lines of an entry at line index `i`: the result lines first, the record's last (R282). -/
def State.entryWrite (s : State) (p i : Nat) (ls : List (List Byte)) : St × State :=
  let x := s.ringWrite p (i + 1) (ls.drop 1)
  if x.1 ≠ ST_OK then x else x.2.ringWrite p i (ls.take 1)

/-- Write an entry at PI and advance PI; refused ring memory puts the ring in ERROR. -/
def State.ringPut (s : State) (p : Nat) (entry : List Byte) : State :=
  let n := (entry.length + 63) / 64
  let i := (s.rd (RNG_PI p)).toNat
  let x := s.entryWrite p i (toLines n entry)
  if x.1 ≠ ST_OK then x.2.ringError p 4
  else (x.2.wrN (RNG_PI p) (i + n)).ringIrq p

/-- Write an event entry (R297); the ring's event number advances. -/
def State.putEvent (s : State) (p func code : Nat) (st : St) (aux : Nat) : State :=
  let x := s.ring p
  let hd := compRecord s 0xFFFFFFFF st.toNat code x.evno.toNat 0xFFFF (s.phase p + 2) func 0 aux
  (s.ringPut p hd).setRing p { (s.ringPut p hd).ring p with evno := x.evno + 1 }

/-- Room for an event, the reserved lines and the line kept free left aside (R294, R297). -/
def State.eventRoom (s : State) (p : Nat) : Bool := 2 ≤ s.ringFree p

/-- Once room has returned, the number withheld is told first (R297). -/
def State.flushWithheld (s : State) (p : Nat) : State :=
  let x := s.ring p
  if x.withheld = 0 || !s.eventRoom p then s
  else
    let s := s.setRing p { x with withheld := 0 }
    s.putEvent p (s.fld (RNG_CFG_FUNC p)) 0x8004 ST_RING_FULL x.withheld

/-- The ring serves completions: ACTIVE or FROZEN (R301). -/
def State.ringLive (s : State) (r : Nat) : Bool :=
  s.fld (RNG_CTL_STATE r) == rngACTIVE || s.fld (RNG_CTL_STATE r) == rngFROZEN

/-- The completion ring that takes the events of a function (R297). -/
def State.eventRing (s : State) (func : Nat) : Option Nat :=
  let live := (s.host.rings.map Prod.fst).filter fun r =>
    s.ringLive r && s.flag (RNG_CFG_DIR r) && s.flag (RNG_CTL_EVENTS r)
  match live.find? (fun r => s.fld (RNG_CFG_FUNC r) == func) with
  | some r => some r
  | none => live.find? (fun r => s.fld (RNG_CFG_FUNC r) == fDEVICE)

/-- Woad runs (R298, R302, R315). -/
def State.hipUp (s : State) : Bool := s.fld (GLB_PROC_STAT_STATE 2) == 1

/-- An event is withheld and counted (R297). -/
def State.withhold (s : State) (p : Nat) : State :=
  (s.setRing p { s.ring p with withheld := (s.ring p).withheld + 1 }).inc (RNG_WITHHELD p)

/-- An unsolicited event: written, or withheld and counted, or written nowhere (R297). Woad writes it: an
event that comes while Woad does not run is withheld (R17; log entry 40). -/
def State.event (s : State) (func code : Nat) (st : St) (aux : Nat) : State :=
  match s.eventRing func, s.hipUp with
  | none, _ => s
  | some p, false => s.withhold p
  | some p, true =>
    let s := s.flushWithheld p
    if (s.ring p).withheld = 0 && s.eventRoom p then s.putEvent p func code st aux
    else s.withhold p

abbrev evSTATE_CHANGE : Nat := 0x8001
abbrev evSAFE_STATE : Nat := 0x8002
abbrev evQUARANTINE : Nat := 0x8003
abbrev evPROC_RESTART : Nat := 0x8005
abbrev evHOST_LOSS : Nat := 0x8006
abbrev evHW_LIMIT : Nat := 0x8007

/-- The code of a function state (R297). -/
def FnState.code : FnState → Nat
  | .stopped => 0
  | .config => 1
  | .running => 2
  | .fault => 3

/-- A function has changed its state: the STATE_CHANGE event (R297). -/
def State.fnEvent (s : State) (func : Nat) (old new : Nat) (st : St) : State :=
  if old = new then s else s.event func evSTATE_CHANGE st new

/-! ### Completions (R282, R294, R295, R298) -/

/-- Registers `off`, `off + 4`, … take the little-endian words of bytes. -/
def State.wrBytes (s : State) (off : Nat) (b : List Byte) : State :=
  s.wrList off ((List.range ((b.length + 3) / 4)).map fun i => fieldN b (4 * i) 4)

/-- Complete a mailbox command: the entry replaces the contents, DONE is set, BUSY cleared
(R298). -/
def State.mbxComplete (s : State) (m : Nat) (c : HostCmd) (st : St) (aux : Nat) (res : List Byte) : State :=
  let hd := compRecord s c.tag.toNat st.toNat c.opcode 0 0xFFFE 0 c.func res.length aux
  let body := hd ++ res
  let s := s.wrBytes (MBX_DATA m 0) (body ++ List.replicate (256 - body.length) 0)
  let s := (s.setF (MBX_CTL_DONE m) 1).setF (MBX_CTL_BUSY m) 0
  if s.flag (MBX_CTL_IRQ_EN m) then s.msix (s.fld (MBX_CTL_VECTOR m)) else s

/-- Complete a ring command: its reserved room is released and the entry written (R294, R295). -/
def State.ringComplete (s : State) (r : Nat) (seq : Word) (c : HostCmd) (st : St) (aux : Nat)
    (res : List Byte) : State :=
  let p := s.fld (RNG_LINK_PEER r)
  let s := s.setRing p { s.ring p with reserved := (s.ring p).reserved - c.room }
  let s := if (s.ring p).withheld ≠ 0 && entryLines res.length + 2 ≤ s.ringFree p
    then s.flushWithheld p else s
  let hd := compRecord s c.tag.toNat st.toNat c.opcode seq.toNat r (s.phase p) c.func res.length aux
  let s := s.ringPut p (hd ++ res)
  s.setRing r { s.ring r with flight := (s.ring r).flight - 1 }

/-- A command ends: it leaves the commands in flight and its completion is written. A register
command answers its source. -/
def State.complete (s : State) (c : HostCmd) (st : St) (aux : Nat := 0) (res : List Byte := []) : State :=
  let s := { s with host := { s.host with inflight := s.host.inflight.filter fun x => x.via ≠ c.via } }
  match c.via with
  | .ring r seq => s.ringComplete r.val seq c st aux res
  | .mbx m => s.mbxComplete m.val c st aux res
  | .reg _ => s.answer st

/-- A command that starts what the low-power states switch off (R371). -/
def HostCmd.needsActive (c : HostCmd) : Bool :=
  c.opcode = opFN_START && (c.func = fMODEL || (0x10 ≤ c.func && c.func < 0x24) || c.func = fHEALTH)

/-- The in-flight command that came by `via`, when Woad runs, it has the opcode and function named,
no earlier command of the function must be performed first, and it waits for no exit from a
low-power state (R285, R302, R371). -/
def State.cmdOf (s : State) (via : Via) (op func : Nat) : Option HostCmd :=
  match s.host.inflight.find? (fun c => c.via = via) with
  | none => none
  | some c =>
    if !s.hipUp || c.opcode ≠ op || c.func ≠ func || (c.needsActive && s.fld RCK_LP_STATE ≠ 0) then none
    else if opSerial op then
      match s.host.inflight.find? (fun d => opSerial d.opcode && d.func = func) with
      | some d => if d.via = via then some c else none
      | none => none
    else some c

/-- The command that a deferred completion was promised to. -/
def State.cmdVia (s : State) (via : Via) : Option HostCmd := s.host.inflight.find? (fun c => c.via = via)

/-- Complete the command that came by `via`, if it is still in flight. While Woad does not run its
effect is noted for R302. -/
def State.completeVia (s : State) (via : Via) (st : St) (aux : Nat := 0) : State :=
  match via with
  | .reg _ => s
  | _ => match s.cmdVia via with
    | some c =>
      if s.hipUp then s.complete c st aux
      else { s with host := { s.host with
        inflight := s.host.inflight.map fun x => if x.via = via then { x with applied := true } else x } }
    | none => s

/-- PLEN and ARG of a command that takes neither (R284 check 7, R285). -/
def HostCmd.noArgs (c : HostCmd) : Bool := !c.bad && c.payload.isEmpty && c.arg.all (· == 0)

/-- The arguments beyond the first `n` bytes of ARG are zero (R281). -/
def HostCmd.argTail (c : HostCmd) (n : Nat) : Bool := !c.bad && (c.arg.drop n).all (· == 0)

/-- The command came through a mailbox. -/
def HostCmd.isMbx (c : HostCmd) : Bool := match c.via with | .mbx _ => true | _ => false

/-- A mailbox command's payload is at most 192 B (R298). -/
def HostCmd.plenOk (c : HostCmd) : Bool := !c.bad && (!c.isMbx || c.payload.length ≤ 192)

/-- The state a guarded host command meets: nothing happens where no such command is in
flight (log entry 6). -/
def State.hostCmd (s : State) (via : Via) (op func : Nat) (k : HostCmd → State) : State :=
  match s.cmdOf via op func with
  | none => s
  | some c => k c

/-- A command of a function without arguments or payload: checks 6 and 7 of R284, then its
effect. -/
def State.fnPlain (s : State) (via : Via) (op func : Nat) (stateOk : Bool) (k : HostCmd → State) : State :=
  s.hostCmd via op func fun c =>
    if !stateOk then s.complete c ST_BAD_STATE
    else if !c.noArgs then s.complete c ST_BAD_FIELD
    else k c

/-- The items of FN_CONFIG: offset and value (R286). -/
def fnItems : Nat → List Byte → List (Nat × Word)
  | 0, _ => []
  | k + 1, b => if b.isEmpty then [] else
      (fieldN b 0 4, BitVec.ofNat 32 (fieldN b 4 4)) :: fnItems k (b.drop 8)

/-- FN_CONFIG (R284, R286): every item is checked, then all are applied in order, then the
function's own checks; a failure applies nothing. -/
def State.fnConfigRun (s : State) (c : HostCmd) (stateOk : Bool) (itemOk : Nat → Word → Bool)
    (kept : Nat → Bool) (apply : State → Nat → Word → State) (own : State → Bool) (enter : State → State) : State :=
  if !stateOk then s.complete c ST_BAD_STATE
  else if !c.arg.all (· == 0) || c.payload.isEmpty || c.payload.length % 8 ≠ 0
      || 65536 < c.payload.length || !c.plenOk then s.complete c ST_BAD_FIELD
  else
    let items := fnItems (c.payload.length / 8) c.payload
    if !items.all (fun i => itemOk i.1 i.2) then s.complete c ST_BAD_FIELD
    else if items.any fun i => kept i.1 then s.complete c ST_NOT_PERMITTED
    else
      let s' := items.foldl (fun s i => apply s i.1 i.2) s
      if own s' then (enter s').complete c ST_OK items.length else s.complete c ST_BAD_FIELD

/-- FN_CONFIG of a function none of whose registers is kept for another source. -/
def State.fnConfig (s : State) (via : Via) (func : Nat) (stateOk : Bool) (itemOk : Nat → Word → Bool)
    (apply : State → Nat → Word → State) (own : State → Bool) (enter : State → State) : State :=
  s.hostCmd via opFN_CONFIG func fun c => s.fnConfigRun c stateOk itemOk (fun _ => false) apply own enter

end Sys2Proof.Machine
end

