-- ==== Sys2Proof/Machine/AxisOps.lean ====
section
/-! DEFINITION. Axis states, faults and controlled stops (R208, R229–R231). -/

namespace Sys2Proof.Machine

abbrev axSTOPPED : Nat := 0
abbrev axCONFIG : Nat := 1
abbrev axRUNNING : Nat := 2
abbrev axFAULT : Nat := 3

/-- State code of axis `a`. -/
def State.axState (s : State) (a : Nat) : Nat := s.fld (SLE_STATUS_STATE a)

/-- A status that the spec leaves open: a free value. -/
def State.freshSt (s : State) : St × State := (BitVec.setWidth 16 s.fresh.1, s.fresh.2)

/-- Complete a command whose status the spec does not give. -/
def State.completeFree (s : State) (v : Option Via) : State :=
  match v with
  | none => s
  | some via => let (st, s) := s.freshSt; s.completeVia via st

/-- Every gate output of the axis goes low (R230). -/
def State.gatesLow (s : State) (a : Nat) : State :=
  (s.setAxis a { s.axis a with pwmH := [], pwmL := [], cmp := none, cmpOld := none, shadow := none }).setF (SLE_STATUS_OUT_EN a) 0

/-- An axis enters a function state: the event of R297. -/
def State.axEnter (s : State) (a new : Nat) (st : St) : State :=
  (s.setF (SLE_STATUS_STATE a) new).fnEvent (fAXIS a) (s.axState a) new st

/-- The end of an axis's run: torque off, the controlled stop over, FN_STOP answered when the
axis enters STOPPED (R208, R229, R230). -/
def State.axEnd (s : State) (a : Nat) (toFault : Bool) (st : St) : State :=
  let x := s.axis a
  let vias := (x.stop.map StopSt.vias).getD []
  let s := (s.gatesLow a).setF (SLE_STATUS_STOPPING a) 0
  let s := s.setAxis a { s.axis a with stop := none, startVia := none }
  let s := s.axEnter a (if toFault then axFAULT else axSTOPPED) st
  let s := s.each vias fun s v => if toFault then s.completeFree (some v) else s.completeVia v ST_OK
  s.completeFree x.startVia

/-- Start a controlled stop; a second request has no effect on it (R229), and the FN_STOP that made it completes
with the first (R208). -/
def State.axStop (s : State) (a : Nat) (toFault : Bool) (via : Option Via) : State :=
  let x := s.axis a
  match x.stop with
  | some st => s.setAxis a { x with stop := some { st with vias := st.vias ++ via.toList } }
  | none =>
    let st : StopSt := ⟨x.vel * 65536, 0, 0, 0, toFault, via.toList⟩
    (s.setAxis a { x with stop := some st }).setF (SLE_STATUS_STOPPING a) 1

/-- Record a fault bit, the first one in FIRST, and enter it in the log (R230). -/
def State.axFaultBit (s : State) (a bit : Nat) : State :=
  let s := if s.fld (SLE_FAULT_FIRST a) = 0x1F then s.setF (SLE_FAULT_FIRST a) bit else s
  (s.setF ⟨SLE_FAULT a, bit, 1⟩ 1).log ST_OK mSLE EV_AXIS_FAULT (a * 256 + bit)

/-- Faults that arise together: all are recorded, and torque off prevails over a controlled
stop (R230). `off` says that one of them calls for torque off. Only a RUNNING axis takes a
fault (DEDUCED, log entry 20). -/
def State.axFaults (s : State) (a : Nat) (bits : List Nat) (off : Bool) : State :=
  if bits.isEmpty || s.axState a ≠ axRUNNING then s
  else
    let s := s.each bits fun s b => s.axFaultBit a b
    if off then s.axEnd a true ST_OK
    else
      match (s.axis a).stop with
      | some _ => s
      | none => s.axStop a true none

/-- Fault bits of R230. -/
abbrev fltOC : Nat := 0
abbrev fltSD_CLK : Nat := 1
abbrev fltISUM : Nat := 2
abbrev fltVDC : Nat := 3
abbrev fltENC : Nat := 4
abbrev fltFE : Nat := 5
abbrev fltSTOP_TIME : Nat := 6
abbrev fltSTO_EXT : Nat := 7
abbrev fltHEALTH : Nat := 8
abbrev fltSTO_FN : Nat := 9

/-- The axes, 0–15. -/
def axesAll : List Nat := List.range 16

/-- A safe-torque-off path is asserted (R231). -/
def State.stoOn (s : State) : Bool := s.flag SAF_STATUS_STO_A || s.flag SAF_STATUS_STO_B

/-- A path changes: GATED of every axis follows, and while a path is asserted every gate output
is low and a RUNNING axis takes fault STO_EXT (R231). -/
def State.stoApply (s : State) : State :=
  if s.stoOn then
    s.each axesAll fun s a =>
      let s := s.setF (SLE_STATUS_GATED a) 1
      if s.axState a = axRUNNING then s.axFaults a [fltSTO_EXT] true
      else s.setAxis a { s.axis a with pwmH := [], pwmL := [] }
  else s.each axesAll fun s a => s.setF (SLE_STATUS_GATED a) 0

/-- Every RUNNING axis makes a controlled stop that ends in STOPPED (R269, R275, R301). -/
def State.ss1All (s : State) : State :=
  s.each axesAll fun s a => if s.axState a = axRUNNING then s.axStop a false none else s

end Sys2Proof.Machine
end

