-- ==== Sys2Proof/Machine/NetOps.lean ====
section
/-! DEFINITION. What the safety functions need of the field networks: forwarding in the Ethernet
switch, the fields of a CAN channel, and the ports of the pair link (R327, R328, R331, R335, R339,
R341). -/

namespace Sys2Proof.Machine

/-! ### The switch -/

def State.port (s : State) (p : Nat) : PortSt := kget {} s.eth.ports p
def State.setPort (s : State) (p : Nat) (x : PortSt) : State :=
  { s with eth := { s.eth with ports := kput p x s.eth.ports } }

/-- A discarded frame is counted per port and reason (R328). -/
def State.ethDrop (s : State) (p r : Nat) : State := s.inc (ETH_DROP p r)

/-- The time base that a PTP domain is mapped to (R331). -/
def State.domBase (s : State) (d : BitVec 7) : Option Nat :=
  ((List.range 4).find? fun k => bitsN (s.rd ETH_DOM_MAP).toNat (8 * k) 8 == 128 + d.toNat).map (· + 1)

/-- The frame is a PTP event message of a mapping that the switch recognises (R331). -/
def ptpEvent (fr : EthFrame) : Option PtpInfo :=
  fr.ptp.bind fun i => if i.type ≠ .other && i.transport ≠ .udp6 then some i else none

/-- The stamps of an event message now (R331). -/
def State.ptpStamp (s : State) (i : PtpInfo) : BitVec 64 × Option (BitVec 64) :=
  (s.tb64 0, (s.domBase i.domain).map s.tb64)

/-! ### Forwarding (R327, R328) -/

/-- An individual MAC address. -/
def unicast (m : BitVec 48) : Bool := !m.getLsbD 40

/-- A reserved group address 01-80-C2-00-00-0x, which a bridge does not relay (IEEE 802.1Q). -/
def reservedMac (m : BitVec 48) : Bool := m.toNat / 16 == 0x0180C200000

/-- Learn or refresh the source address of a frame (R328). -/
def State.macLearn (s : State) (src : BitVec 48) (vlan p : Nat) : State :=
  let rest := s.eth.mac.filter fun e => !(e.1 = src && e.2.1 = vlan)
  if !unicast src then s
  else if rest.length < 4096 then { s with eth := { s.eth with mac := rest ++ [(src, vlan, p)] } }
  else s

/-- Stream that takes a UDP destination port (R191, R327). -/
def State.jxsPort (s : State) (port : BitVec 16) : Bool :=
  (List.range 4).any fun c => (s.rd (IFE_UDP_PORT c)).toNat == port.toNat && s.fld (IFE_CTL_SOURCE c) == 1

/-- The frame is a datagram to the port of the acknowledgement message, which is the SFP's (R272). -/
def State.ackDatagram (s : State) (fr : EthFrame) : Bool :=
  let x := s.safety.params
  x.ackMsg && x.msgCh == 8 && fr.udpPort == some (BitVec.ofNat 16 x.ackId)

/-- Egress ports of a frame that came in at `p` (R272, R327, R328). A frame to a station that the switch has
not learned does not go to port 6, where only the device's own address is. -/
def State.egress (s : State) (p : Nat) (fr : EthFrame) : List Nat :=
  let ports := (List.range 7).filter fun q => q ≠ p && (s.port q).up
  if p ≠ 6 && (fr.udpPort.any s.jxsPort || s.ackDatagram fr) then ports.filter (· == 6)
  else if fr.dst = Config.macAddress || reservedMac fr.dst then ports.filter (· == 6)
  else if !unicast fr.dst then ports
  else
    match s.eth.mac.find? fun e => e.1 = fr.dst && e.2.1 = fr.vlan with
    | some e => ports.filter (· == e.2.2)
    | none => ports.filter (· ≠ 6)

/-- Append a frame to the queue of an egress port. -/
def State.enqueue (s : State) (p : Nat) (q : QFrame) : State :=
  let x := s.port p
  s.setPort p { x with queue := x.queue ++ [q] }

/-- A frame that port `p` has taken in: its source is learned, and it is queued at its egress ports; a PTP
event message is stamped (R328, R331). -/
def State.ethForward (s : State) (p : Nat) (fr : EthFrame) : State :=
  let t := match ptpEvent fr with
    | some i => s.ptpStamp i
    | none => (s.tb64 0, none)
  let s := if (ptpEvent fr).isSome
    then { s with eth := { s.eth with stamps := s.eth.stamps ++ [{ port := p, egress := false, tb0 := t.1, dom := t.2 }] } } else s
  let s := s.macLearn fr.src fr.vlan p
  let out := s.egress p fr
  if out.isEmpty then s.ethDrop p 7
  else s.each out fun s q =>
    s.enqueue q { tc := fr.tc.val, ingress := p, fr := fr, stamp0 := t.1, stamp := t.2, held := false,
                  left := fr.timeNs }

/-! ### CAN channels -/

/-- Fields of CAN_CTL, CAN_STAT and CAN_TTC (R339). -/
abbrev canRECOVER (n : Nat) : Fld := ⟨CAN_CTL n, 5, 1⟩
abbrev canONESHOT (n : Nat) : Fld := ⟨CAN_CTL n, 4, 1⟩
abbrev canAUTO_REC (n : Nat) : Fld := ⟨CAN_CTL n, 3, 1⟩
abbrev canTXPRIO (n : Nat) : Fld := ⟨CAN_CTL n, 2, 1⟩
abbrev canERRST (n : Nat) : Fld := ⟨CAN_STAT n, 24, 2⟩
abbrev canREC (n : Nat) : Fld := ⟨CAN_STAT n, 16, 8⟩
abbrev canTEC (n : Nat) : Fld := ⟨CAN_STAT n, 0, 16⟩
abbrev ttcCYC_PER (n : Nat) : Fld := ⟨CAN_TTC n, 16, 16⟩
abbrev ttcREF_ID (n : Nat) : Fld := ⟨CAN_TTC n, 4, 11⟩
abbrev ttcGT_EN (n : Nat) : Fld := ⟨CAN_TTC n, 3, 1⟩
abbrev ttcLOST (n : Nat) : Fld := ⟨CAN_TTC n, 2, 1⟩
abbrev ttcMODE (n : Nat) : Fld := ⟨CAN_TTC n, 0, 2⟩

/-- Error states of CAN_STAT. -/
abbrev canActive : Nat := 0
abbrev canPassive : Nat := 1
abbrev canBusOff : Nat := 2

/-- Bit of transmit buffer `b` in CAN_TXREQ: its request is pending. -/
abbrev canPend (n b : Nat) : Fld := ⟨CAN_TXREQ n, b, 1⟩

/-- An ABORT of the buffer that is transmitting waits for its end (R335). -/
abbrev canAbort (n b : Nat) : Fld := ⟨CAN_TXABORT n, b, 1⟩

/-! ### The pair link -/

def State.pairFn (s : State) : Nat := bitsN (s.rd PLK_STAT).toNat 4 2
abbrev plkSTATE : Fld := ⟨PLK_STAT, 4, 2⟩
abbrev plkUp (k : Nat) : Fld := ⟨PLK_STAT, 2 + k, 1⟩
abbrev plkInUse : Fld := ⟨PLK_STAT, 1, 1⟩
abbrev plkPrimary : Fld := ⟨PLK_STAT, 0, 1⟩

def State.plkMode (s : State) : Nat := s.fld PLK_CFG_MODE

/-- Chips of the topology. -/
def State.plkChips (s : State) : Nat :=
  match s.plkMode with
  | 1 => 2
  | 2 => s.fld PLK_CFG_NCHIPS + 1
  | _ => 1

def State.ownChip (s : State) : Nat := s.fld GLB_CHIP_ID_CHIP

/-- The ports that the topology wires to this chip (R341). -/
def State.wired (s : State) (k : Nat) : Bool :=
  match s.plkMode with
  | 1 => true
  | 2 => if k = 0 then 0 < s.ownChip else s.ownChip + 1 < s.plkChips
  | _ => false

/-- The links carry traffic to every chip (R341, R342). -/
def State.linked (s : State) : Bool :=
  match s.plkMode with
  | 1 => s.flag (plkUp 0) || s.flag (plkUp 1)
  | 2 => [0, 1].all fun k => !s.wired k || s.flag (plkUp k)
  | _ => true

end Sys2Proof.Machine
end

