-- ==== Sys2Proof/Machine/SafetyOps.lean ====
section
/-! DEFINITION. Result descriptors (R396, R397), the safe-torque-off paths, and entry to and
exit from the safe state (R231, R268–R276). -/

namespace Sys2Proof.Machine

/-! ### Result descriptors -/

/-- Address of the descriptor of a cycle (R396). -/
def descAddr (d : RingDecl) (cyc : Word) : Nat := d.addr.toNat + 16 * (cyc.toNat % 2 ^ d.log2n)

/-- The fields of a result descriptor (R396). -/
structure Desc where
  cyc : Nat
  task : Nat
  status : Nat
  flags : Nat
  sample : Nat
  deriving DecidableEq, Repr

/-- The descriptor at an address. -/
def State.desc (s : State) (a : Nat) : Desc :=
  let b := s.peek a 16
  ⟨fieldN b 0 4, fieldN b 4 2, fieldN b 6 2, fieldN b 8 1, fieldN b 12 4⟩

/-- The 16 bytes of a descriptor. -/
def Desc.bytes (d : Desc) : List Byte :=
  leBytes 4 d.cyc ++ leBytes 2 d.task ++ leBytes 2 d.status ++ leBytes 1 d.flags ++ [0, 0, 0]
    ++ leBytes 4 d.sample

/-- Write a descriptor through the fabric; a refused write is logged. -/
def State.putDesc (s : State) (src a : Nat) (d : Desc) : State :=
  let (st, s) := s.writeAt src (BitVec.ofNat 64 (a % 2 ^ 48 + 0xFFFF * 2 ^ 48)) d.bytes
  if st = ST_OK then s else s.log st src EV_REQUEST_REFUSED 0xFFFF (BitVec.ofNat 64 a)

abbrev dVALID : Nat := 1
abbrev dVOID : Nat := 2
abbrev dSTALE : Nat := 4
abbrev dMISMATCH : Nat := 8
abbrev dDEGRADED : Nat := 16

/-- The first failure status stays; a later one is logged only (R395, R397). -/
def State.descFail (s : State) (src a : Nat) (cyc : Word) (st : St) : State :=
  let d := s.desc a
  if d.cyc ≠ cyc.toNat then s
  else if d.status ≤ 1 then s.putDesc src a { d with status := st.toNat }
  else s.log st src EV_REQUEST_REFUSED 0xFFFF (BitVec.ofNat 64 a)

/-- ST_OK_FLAGGED may replace ST_OK (R397). -/
def State.descFlagged (s : State) (src a : Nat) (cyc : Word) : State :=
  let d := s.desc a
  if d.cyc = cyc.toNat && d.status = 0 then s.putDesc src a { d with status := 1 } else s

/-- Set flags; VOID, STALE and MISMATCH clear VALID in the same write (R397). -/
def State.descFlag (s : State) (src a : Nat) (cyc : Word) (fl : Nat) : State :=
  let d := s.desc a
  if d.cyc ≠ cyc.toNat then s
  else
    let f := d.flags ||| fl
    s.putDesc src a { d with flags := if fl &&& 0xE = 0 then f else f &&& 0xFE }

/-- The declaration of a task's output (R396, R432). -/
def State.ringOf (s : State) (task : Nat) : Option RingDecl :=
  s.model.pkg.bind fun p => p.rings.find? fun d => d.task = task

/-- The outputs valid no longer: VALID is cleared in every descriptor (R269). -/
def State.clearValid (s : State) : State :=
  match s.model.pkg with
  | none => s
  | some p =>
    s.each p.rings fun s d =>
      s.each (List.range (2 ^ d.log2n)) fun s i =>
        let a := d.addr.toNat + 16 * i
        let x := s.desc a
        if x.flags % 2 = 1 then s.putDesc mSCP a { x with flags := x.flags - 1 } else s

/-! ### Paths (R231, R269, R275) -/

abbrev safINIT : Nat := 0
abbrev safNORMAL : Nat := 1
abbrev safSAFE : Nat := 2
abbrev safRESTART : Nat := 3

/-- State of a firmware processor (R318): 0 SCP, 1 SFP, 2 HIP. -/
def State.procState (s : State) (p : Nat) : Nat := s.fld (GLB_PROC_STAT_STATE p)

abbrev procOFF : Nat := 0
abbrev procRUN : Nat := 1
abbrev procRESTART : Nat := 2
abbrev procFAILED : Nat := 3
abbrev procHALTED : Nat := 4

/-- Since when each readback differs from its path: a high readback says that the path is released (R231,
R268). -/
def State.fbUpdate (s : State) : State :=
  let x := s.safety
  let since (level on : Bool) (t : Option Nat) : Option Nat := if level = on then some (t.getD s.now) else none
  { s with safety := { x with
      fbDiffA := since x.fbA (s.flag SAF_STATUS_STO_A) x.fbDiffA
      fbDiffB := since x.fbB (s.flag SAF_STATUS_STO_B) x.fbDiffB } }

/-- Path A follows the SFP's hold, the e-stop hold and the SFP's own state; path B the logic's
hold and the e-stop hold (R231, R275). -/
def State.paths (s : State) : State :=
  let x := s.safety
  let a := x.safeHoldA || x.estopHoldA || s.procState 1 ≠ procRUN
  let b := x.safeHoldB || x.estopHoldB
  ((s.setF SAF_STATUS_STO_A (if a then 1 else 0)).setF SAF_STATUS_STO_B (if b then 1 else 0)).fbUpdate.stoApply

/-- The SFP or the safe-state logic holds paths asserted. -/
def State.hold (s : State) (a b : Bool) : State :=
  { s with safety := { s.safety with
      safeHoldA := s.safety.safeHoldA || a, safeHoldB := s.safety.safeHoldB || b } }.paths

/-! ### The safety message (R270) -/

/-- The 16 bytes of the safety message. -/
def State.safetyMsg (s : State) : List Byte :=
  let fault := axesAll.any fun a => s.axState a == axFAULT
  let stopping := axesAll.any fun a => s.flag (SLE_STATUS_STOPPING a)
  let estop := !s.safety.estopA || !s.safety.estopB
  let axes := (if fault then 1 else 0) + (if stopping then 2 else 0) + (if estop then 4 else 0)
  let b := leBytes 2 s.safety.msgSeq.toNat ++ leBytes 1 (s.fld GLB_CHIP_ID_CHIP)
    ++ leBytes 1 (s.fld SAF_STATUS_STATE) ++ leBytes 1 (s.fld SAF_FIRST_CAUSE_CAUSE) ++ leBytes 1 axes
    ++ [0, 0] ++ leBytes 4 s.model.cycle.toNat
  b ++ leBytes 4 (crc32c b)

/-- The safety message that waits enters TXB2 of CAN channel `n`, which is reserved for the SFP, as a CAN FD
frame with identifier MSG_ID and 16 data bytes, unless the buffer is transmitting (R270, R335; log entry
112). -/
def State.safetyTx (s : State) (n : Nat) : State :=
  match s.safety.msgWait with
  | none => s
  | some m =>
    if (s.can n).current = some 2 then s
    else
      let s := (s.wrN (CAN_TXB_HDR n 2) (2 ^ 31 + s.safety.params.msgId)).wrN (CAN_TXB_DLC n 2) 10
      let s := s.wrBytes (CAN_TXB_DATA n 2 0) m
      { s.setF (canPend n 2) 1 with safety := { s.safety with msgWait := none } }

/-- The datagram of the safety message, to UDP port MSG_ID (R270). -/
def safetyFrame (msgId : Nat) (m : List Byte) : EthFrame :=
  { dst := Config.safetyMac, src := Config.macAddress, vlan := Config.safetyVlan, tc := Config.safetyClass
    fcsOk := true, udpPort := some (BitVec.ofNat 16 msgId), ptp := none, preemptable := false
    timeNs := Config.safetyNs, fragNs := Config.safetyNs, body := m }

/-- Madder sends the safety message: a frame of the CAN channel MSG_CH, or a datagram that enters the switch
at the internal port (R270, R327). -/
def State.sendSafety (s : State) : State :=
  let m := s.safetyMsg
  let x := s.safety.params
  let s := { s with safety := { s.safety with
      msgOut := s.safety.msgOut ++ [m], msgSeq := s.safety.msgSeq + 1, msgLast := s.now } }
  if x.msgCh < 8 then { s with safety := { s.safety with msgWait := some m } }.safetyTx x.msgCh
  else if (s.port 6).up then s.ethForward 6 (safetyFrame x.msgId m)
  else s

/-! ### Entry and exit (R268–R274) -/

/-- Safe-state causes (R268). -/
abbrev cINVALID_LIMIT : Nat := 0x01
abbrev cSELFTEST_LATE : Nat := 0x02
abbrev cSPARES : Nat := 0x03
abbrev cBACKLOG : Nat := 0x04
abbrev cSFP_WD : Nat := 0x05
abbrev cSFP_LOCKSTEP : Nat := 0x06
abbrev cPAIR : Nat := 0x07
abbrev cHMK_TEST : Nat := 0x08
abbrev cSTO_FB : Nat := 0x09
abbrev cESTOP_DISC : Nat := 0x0A
abbrev cSUPPLY : Nat := 0x0B

/-- Causes that the safe-state logic detects itself (R268). -/
def byLogic (c : Nat) : Bool := c == cSFP_WD || c == cSFP_LOCKSTEP || c == cSUPPLY

/-- The SAFE_STATE event of DEVICE (R297). -/
def State.safeEvent (s : State) (st : St) : State :=
  s.event fDEVICE evSAFE_STATE st (s.fld SAF_STATUS_STATE + 256 * s.fld SAF_FIRST_CAUSE_CAUSE)

/-- No axis is RUNNING: every axis is at standstill or off. -/
def State.allStill (s : State) : Bool := axesAll.all fun a => s.axState a ≠ axRUNNING

/-- Path B of an SS1 reaction is asserted, for the safe state, for the e-stop or for both, until what asked
for it releases the path (R269, R275). -/
def State.ss1Assert (s : State) : State :=
  let x := s.safety
  let s := { s with safety := { x with
      ss1From := none, ss1Safe := false, ss1Estop := false
      safeHoldB := x.safeHoldB || x.ss1Safe, estopHoldB := x.estopHoldB || x.ss1Estop } }
  (s.setF SAF_STATUS_SS1_TIMER 0).paths

/-- Standstill of all axes asserts path B of an SS1 reaction at once (R269). -/
def State.ss1Check (s : State) : State :=
  match s.safety.ss1From with
  | none => s
  | some _ => if s.allStill then s.ss1Assert else s

/-- Start an SS1 reaction for the safe state or for an e-stop: every RUNNING axis stops, the path B timer
runs; the limit of a reaction already under way is the shorter one (R269, R275, R276). -/
def State.ss1Start (s : State) (estop : Bool) : State :=
  let s := s.ss1All
  let s := { s with safety := { s.safety with
      ss1From := some (s.safety.ss1From.getD s.now)
      ss1Safe := s.safety.ss1Safe || !estop, ss1Estop := s.safety.ss1Estop || estop } }
  (s.setF SAF_STATUS_SS1_TIMER 1).ss1Check

/-- Entry to the safe state, in the order of R269; later causes are logged only (R268), but for the paths,
which the safe-state logic asserts on any cause of its own (R269). A cause of the SFP is detected while
Madder runs (log entry 50), and the message is Madder's (R270). -/
def State.safeEnter (s : State) (cause : Nat) : State :=
  let src := if byLogic cause then mLogic else mSFP
  let s0 := s.log ST_SAFE_STATE src EV_SAFE_CAUSE cause
  if !byLogic cause && s.procState 1 ≠ procRUN then s
  else if s.fld SAF_STATUS_STATE = safSAFE || s.fld SAF_STATUS_STATE = safRESTART then
    let s := s0.setF SAF_STATUS_STATE safSAFE
    if byLogic cause then s.hold true true else s
  else
    let s := (s0.setF SAF_FIRST_CAUSE_CAUSE cause).wr SAF_CAUSE_CYCLE s.model.cycle
    let s := s.setF SAF_STATUS_STATE safSAFE
    let s := { s with safety := { s.safety with
        outInvalid := true, safeN := false, ackHeld := false, causeGone := false } }
    let s := if byLogic cause || s.safety.params.ssReaction = 0 then s.hold true true else s.ss1Start false
    let s := s.clearValid
    let s := if cause = cSFP_WD || cause = cSFP_LOCKSTEP || s.procState 1 ≠ procRUN then s else s.sendSafety
    let s := s.safeEvent ST_SAFE_STATE
    if s.fld PLK_CFG_MODE = 0 then s else { s with pair := { s.pair with told := s.pair.told + 1 } }

/-- The condition of R268 for leaving, per first cause; `true` where an acknowledgement is all
that it asks. -/
def State.causeMet (s : State) : Bool :=
  let c := s.fld SAF_FIRST_CAUSE_CAUSE
  if c = cSELFTEST_LATE then s.safety.causeGone
  else if c = cSPARES || c = cHMK_TEST || c = cSUPPLY then false
  else if c = cESTOP_DISC then s.safety.estopA && s.safety.estopB
  else if c = cPAIR then s.pair.fn ≠ .running || s.linked
  else if c = cSTO_FB then
    s.safety.fbA == !s.flag SAF_STATUS_STO_A && s.safety.fbB == !s.flag SAF_STATUS_STO_B
  else true

/-- Exit from the safe state, in the order of R271: the counts are cleared, not the record of the cycles
judged (R259). A path that an e-stop holds stays asserted, and its SS1 reaction goes on (R275, R276). -/
def State.safeExit (s : State) : State :=
  let s := { s with safety := { s.safety with
      nets := s.safety.nets.map fun (n : Nat × NetSt) => (n.1, { n.2 with consec := 0, bad := [] }) } }
  let s := { s with safety := { s.safety with
      safeHoldA := false, safeHoldB := false, ss1Safe := false
      ss1From := if s.safety.ss1Estop then s.safety.ss1From else none } }
  let s := (if s.safety.ss1From.isSome then s else s.setF SAF_STATUS_SS1_TIMER 0).paths
  let s := { s with safety := { s.safety with
      safeN := true, outInvalid := false, validFrom := some (s.model.cycle + 1), ackHeld := false } }
  let s := (s.setF SAF_STATUS_STATE safNORMAL).setF SAF_FIRST_CAUSE_CAUSE 0
  s.sendSafety.safeEvent ST_OK

/-- Outputs may carry VALID in a cycle (R269, R271). -/
def State.mayValid (s : State) (cyc : Word) : Bool :=
  s.fld SAF_STATUS_STATE ≠ safSAFE && s.fld SAF_STATUS_STATE ≠ safRESTART &&
    match s.safety.validFrom with
    | none => true
    | some c => reached 32 cyc.toNat c.toNat

/-- The status that a setpoint hand-over of the package meets while hand-overs are held: under the policy HOLD,
in the safe state, or while Indigo does not run (R269, R301, R314; log entry 126). -/
def State.handoverHeld (s : State) : St :=
  if s.host.policyOn && s.fld MBX_HOST_POLICY = 1 then ST_NOT_PERMITTED
  else if s.safety.outInvalid then ST_SAFE_STATE
  else if s.procState 0 ≠ procRUN then ST_PROC_RESTART
  else ST_OK

/-- An event reaches the SFP: row `row` of the table of R277, recorded in the log. -/
def State.sfpEvent (s : State) (src row : Nat) (st : St) : State := s.log st src EV_SAFETY_EVENT row

end Sys2Proof.Machine
end

