-- ==== Sys2Proof/Machine/Package.lean ====
section
/-! DEFINITION. The package file: its layout and the checks of Woad and Madder (R164–R173,
R252, R253, R256, R263, R385–R387, R428–R432). -/

namespace Sys2Proof.Machine

/-- Byte `o`. -/
def byteN (b : List Byte) (o : Nat) : Nat := fieldN b o 1

/-- The `n` bytes at `o` exist and are zero. -/
def zerosAt (b : List Byte) (o n : Nat) : Bool :=
  o + n ≤ b.length && ((b.drop o).take n).all (· == 0)

/-- `n` bytes at offset `o` lie within the section. -/
def within (b : List Byte) (o n : Nat) : Bool := o + n ≤ b.length

/-- The entries of a list of `k` entries of `n` bytes at `o`. -/
def entries (b : List Byte) (o n k : Nat) : List (List Byte) :=
  (List.range k).map fun i => (b.drop (o + n * i)).take n

/-- No value occurs twice. -/
def nodupN (l : List Nat) : Bool := decide l.Nodup

/-- No two of the ranges [a, b) overlap, given in any order. -/
def apart (l : List (Nat × Nat)) : Bool :=
  let s := l.mergeSort fun a b => decide (a.1 ≤ b.1)
  (s.zip (s.drop 1)).all fun p => p.1.2 ≤ p.2.1

/-! ### Header and directory (R164, R167 check 1) -/

abbrev secTARGET : Nat := 1
abbrev secFWREQ : Nat := 2
abbrev secGRAPH : Nat := 3
abbrev secTENSORS : Nat := 4
abbrev secCYCLE : Nat := 5
abbrev secSAFETY : Nat := 6
abbrev secSIGNATURE : Nat := 7

/-- A directory entry: type, offset, size, its 32 bytes. -/
structure Sec where
  typ : Nat
  off : Nat
  size : Nat
  raw : List Byte
  deriving DecidableEq, Repr

/-- The directory. -/
def pkgSecs (b : List Byte) : List Sec :=
  (entries b 0x100 32 (fieldN b 6 2)).map fun e => ⟨fieldN e 0 2, fieldN e 8 8, fieldN e 16 8, e⟩

def pkgFlag (b : List Byte) (i : Nat) : Bool := bitsN (fieldN b 0x24 4) i 1 == 1

/-- Check 1 (R167). -/
def pkgShape (b : List Byte) : Bool :=
  let n := fieldN b 6 2
  let secs := pkgSecs b
  let dir := 0x100 + 32 * n
  let sig := (secs.find? (·.typ == secSIGNATURE)).map Sec.off |>.getD 0
  256 ≤ b.length && fieldN b 0 4 == 0x014B505A && fieldN b 4 2 == 1 && (n == 6 || n == 7)
    && fieldN b 8 8 == b.length && fieldN b 0x24 4 < 8 && zerosAt b 0x58 168 && dir ≤ b.length
    && secs.all (fun s => zerosAt s.raw 2 6 && zerosAt s.raw 24 8 && s.off % 64 == 0 && dir ≤ s.off
        && s.off + s.size ≤ b.length && 1 ≤ s.typ && s.typ ≤ 7)
    && nodupN (secs.map Sec.typ)
    && apart (secs.map fun s => (s.off, s.off + s.size))
    && [1, 2, 3, 4, 5, 7].all (fun t => secs.any (·.typ == t))
    && secs.any (·.typ == secSAFETY) == pkgFlag b 2
    && secs.all (fun s => s.typ == secSIGNATURE || s.off < sig)

/-- The bytes of a section as they stand in the file. -/
def secBytes (b : List Byte) (t : Nat) : List Byte :=
  match (pkgSecs b).find? (·.typ == t) with
  | some s => (b.drop s.off).take s.size
  | none => []

/-! ### Authenticity (R167 check 2, R385–R387) -/

/-- The SHA-384 of R164. -/
def pkgDigest (b : List Byte) : List Byte :=
  let sig := ((pkgSecs b).find? (·.typ == secSIGNATURE)).map Sec.off |>.getD 0
  let z := b.take 0x28 ++ List.replicate 48 0 ++ b.drop 0x58
  sha384 (z.take sig)

/-- A package public key is present and not revoked (R382, R385). -/
def State.pubOk (s : State) (slot : Nat) : Bool :=
  slot < 4 && bitsN (s.fld SEC_KEY_STAT_PUB) slot 1 == 1 && bitsN (s.fld SEC_KEY_STAT_PUB_REV) slot 1 == 0

/-- A package AES key is present and not revoked (R382, R386). -/
def State.aesOk (s : State) (slot : Nat) : Bool :=
  slot < 4 && bitsN (s.fld SEC_KEY_STAT_AES) slot 1 == 1 && bitsN (s.fld SEC_KEY_STAT_AES_REV) slot 1 == 0

/-- The signature verifies over DIGEST (R385). -/
def State.pkgSigned (s : State) (b : List Byte) : Bool :=
  let g := secBytes b secSIGNATURE
  let slot := byteN g 0
  let d := (b.drop 0x28).take 48
  within g 0 112 && s.pubOk slot && pkgDigest b == d
    && ecdsaVerify (kget 0 s.sec.pubX slot) (kget 0 s.sec.pubY slot) d
        (BitVec.ofNat 384 (beNat ((g.drop 16).take 48))) (BitVec.ofNat 384 (beNat ((g.drop 64).take 48)))

/-- The plaintext of an encrypted section, or none when it does not authenticate (R386). -/
def State.decrypt (s : State) (b : List Byte) (t : Nat) : Option (List Byte) :=
  match (pkgSecs b).find? (·.typ == t) with
  | none => some []
  | some e =>
    let g := (b.drop e.off).take e.size
    let slot := byteN g 0
    if !(within g 0 64 && s.aesOk slot && zerosAt g 1 3 && zerosAt g 32 32) then none
    else gcmOpen (beBytes 32 (kget 0 s.sec.aes slot).toNat) ((g.drop 4).take 12) e.raw (g.drop 64)
      ((g.drop 16).take 16)

/-- The plaintexts of GRAPH, TENSORS, CYCLE and SAFETY. -/
structure Plain where
  graph : List Byte
  tensors : List Byte
  cycle : List Byte
  safety : List Byte
  deriving DecidableEq, Repr

/-- Check 2 (R167, R387): the plaintexts where the package is authentic. -/
def State.pkgPlain (s : State) (b : List Byte) : Option Plain :=
  if !s.pkgSigned b || (s.flag SEC_POLICY_REQUIRE_ENC && !pkgFlag b 0) then none
  else if pkgFlag b 0 then
    match s.decrypt b secGRAPH, s.decrypt b secTENSORS, s.decrypt b secCYCLE, s.decrypt b secSAFETY with
    | some g, some t, some c, some a => some ⟨g, t, c, a⟩
    | _, _, _, _ => none
  else some ⟨secBytes b secGRAPH, secBytes b secTENSORS, secBytes b secCYCLE, secBytes b secSAFETY⟩

/-! ### Target and firmware (R167 checks 3 and 4, R344, R428) -/

/-- Check 3. NCHIPS of a chain is the register field plus one (R348). -/
def State.pkgTarget (s : State) (b : List Byte) : Bool :=
  let t := secBytes b secTARGET
  let sig := (s.rd GLB_ARITH_SIG).toNat
  let n := byteN t 12
  let want := match s.fld PLK_CFG_MODE with
    | 1 => some 2
    | 2 => some (s.fld PLK_CFG_NCHIPS + 1)
    | _ => none
  fieldN b 0x10 4 == 0x09 && fieldN b 0x14 4 == sig && fieldN t 0 4 == 0x09 && fieldN t 8 4 == sig
    && byteN t 4 == s.fld GLB_ID_STEPPING && (if pkgFlag b 1 then some n == want else n == 1)

/-- Check 4 (R305). -/
def State.pkgFw (s : State) (b : List Byte) : Bool :=
  let f := secBytes b secFWREQ
  (List.range 3).all fun i =>
    let v := (s.rd (GLB_FW_VER i)).toNat
    fieldN f (8 * i) 4 ≤ v && v ≤ fieldN f (8 * i + 4) 4

/-! ### The cycle table (R171) -/

/-- A window entry. -/
def windowOf (e : List Byte) : Window :=
  { start := fieldN e 0 4, deadline := fieldN e 4 4, facets := BitVec.ofNat 32 (fieldN e 8 4)
    regions := BitVec.ofNat 16 (fieldN e 12 2), share := byteN e 14 == 1, phase := byteN e 15
    rateDiv := byteN e 16, rateOfs := byteN e 17, classSet := byteN e 18 }

/-- The window entries of the section. -/
def cycWindows (c : List Byte) : List (List Byte) := entries c 0x340 32 (fieldN c 4 2)

/-- The section agrees with its layout (R171): all 64 bytes of a phase row are operating points, one
per switched domain (R349). -/
def cycleOk (c : List Byte) (ncls : Nat) : Bool :=
  let major := fieldN c 0 4
  let nwin := fieldN c 4 2
  50000 ≤ major && major ≤ 10000000 && 1 ≤ nwin && nwin ≤ 64 && c.length == 0x340 + 32 * nwin
    && zerosAt c 6 58
    && (List.range 512).all (fun i => byteN c (0x40 + i) ≤ 7)
    && (entries c 0x240 4 64).all (fun g => 1 ≤ fieldN g 0 2 && fieldN g 0 2 ≤ 1024 && fieldN g 2 2 ≤ 1)
    && (cycWindows c).all (fun e =>
        let w := windowOf e
        w.start < major && w.start < w.deadline && w.deadline ≤ 2 * major && byteN e 14 ≤ 1
          && w.phase ≤ 7 && 1 ≤ w.rateDiv && w.rateDiv ≤ 64 && w.rateOfs < w.rateDiv
          && (w.classSet == 255 || w.classSet < ncls) && zerosAt e 19 13)

/-! ### GRAPH (R165, R430–R432) -/

/-- Bytes of a descriptor template (R431). -/
def tmplSize (kind : Nat) : Nat :=
  if kind ≤ 1 then 128 else if kind = 6 then 64 else if kind = 5 then 16 else 32

/-- The task record (R165). -/
def taskOf (g e : List Byte) : Task :=
  let res := fieldN e 0x24 4
  { id := fieldN e 0 2, kind := byteN e 2, window := byteN e 3, group := byteN e 4
    cands := (List.range (byteN e 5)).map fun i => fieldN e (8 + 2 * i) 2
    descOfs := fieldN e 0x10 4, ndesc := fieldN e 0x14 2
    deps := (List.range (fieldN e 0x16 2)).map fun i => fieldN g (fieldN e 0x18 4 + 2 * i) 2
    boundNs := fieldN e 0x1C 4, redun := fieldN e 0x20 2, partner := fieldN e 0x22 2
    residency := if res = 0 then [] else
      (entries g (res + 4) 16 (fieldN g res 4)).map fun x => (fieldN x 0 8, fieldN x 8 4) }

/-- Template `i` of a task. -/
def tmplOf (g : List Byte) (t : Task) (i : Nat) : List Byte :=
  (g.drop (t.descOfs + tmplSize t.kind * i)).take (tmplSize t.kind)

/-- The task records of GRAPH. -/
def graphTasks (g : List Byte) : List (List Byte) := entries g (fieldN g 4 4) 64 (fieldN g 0 4)

/-- Ring declaration (R432). -/
def ringDeclOf (e : List Byte) : RingDecl :=
  ⟨BitVec.ofNat 64 (fieldN e 0 8), fieldN e 8 2, byteN e 10, byteN e 11⟩

/-- Window definition (R432). -/
def winDefOf (e : List Byte) : WinDef := ⟨fieldN e 0 2, fieldN e 2 2, BitVec.ofNat 64 (fieldN e 8 8)⟩

/-- The sync objects that a template names: completion and failure (R63, R131, R201, R431). -/
def tmplSos (kind : Nat) (d : List Byte) : List Nat :=
  if kind ≤ 1 then [fieldN d 0x70 2, fieldN d 0x72 2]
  else if kind = 2 || kind = 4 then [fieldN d 0x16 2, fieldN d 0x14 2]
  else if kind = 3 then [fieldN d 0x16 2, fieldN d 0x18 2]
  else if kind = 6 then [fieldN d 0x16 2, fieldN d 0x18 2]
  else []

/-- The window that a template names, 0xFFFF for none. -/
def tmplWin (kind : Nat) (d : List Byte) : Nat :=
  if kind = 2 || kind = 4 then fieldN d 0x10 2 else if kind = 3 then fieldN d 0x14 2 else 0xFFFF

/-- A device address as it names the same place on this chip. -/
def here (a : Nat) : Nat := a % 2 ^ 48 + 0xFFFF * 2 ^ 48

/-- `n` bytes at an address of this chip lie in one memory that a task or a tensor may name (R20–R22,
R60, R145). A length of zero is held to its address. -/
def State.memHere (s : State) (a n : Nat) : Bool :=
  let n := max 1 n
  match s.target mSCP (BitVec.ofNat 64 a), s.target mSCP (BitVec.ofNat 64 (a + n - 1)) with
  | .map .normal x, .map .normal y =>
    x + n - 1 == y && (List.range 8).all fun k =>
      let b := (248 + k) * 0x80000
      (y < b || b + 0x2000 ≤ x) && !(k == 7 && 0x7FFF000 ≤ y)
  | .blm u x, .blm v y => u == v && x + n - 1 == y
  | .fom u x, .fom v y => u == v && x + n - 1 == y && y < 0x180000
  | .ddr x, .ddr y => x + n - 1 == y
  | _, _ => false

/-- The chip of an address is this one, or another in use. -/
def State.chipOk (s : State) (a : Nat) : Bool :=
  let c := a / 2 ^ 48
  c == 0xFFFF || c == s.fld GLB_CHIP_ID_CHIP || s.chipInUse c

/-- `n` bytes at a device address lie in one memory of a chip in use. Another chip's memories are taken
to be as large as this one's (log entry 102). -/
def State.memRange (s : State) (a n : Nat) : Bool :=
  a < 2 ^ 64 && s.chipOk a && s.memHere (here a) n

/-- `n` bytes at a device address lie in one region of R21, whatever it is. -/
def State.devRange (s : State) (a n : Nat) : Bool :=
  let n := max 1 n
  a + n ≤ 2 ^ 64 && (s.regionOf a).isSome && s.regionOf a == s.regionOf (a + n - 1)

/-- The device ranges that a Facet descriptor names (R63, R64, R90). -/
def facRanges (d : List Byte) : List (Nat × Nat) :=
  let op := fieldN d 0 2
  let st := fieldN d 0x58 8
  (if op = 4 then (attnDesc d).ranges else if 1 ≤ op && op ≤ 5 then (facDesc d).ranges else [])
    ++ (if st = 0 then [] else [(st, 64)])

/-- A template's own fields lie in their ranges (R431, R201, R131). -/
def State.tmplOk (s : State) (t : Task) (nring : Nat) (nets : List Nat) (d : List Byte) : Bool :=
  match t.kind with
  | 0 | 1 => (facRanges d).all fun x => s.devRange x.1 x.2
  | 2 | 4 =>
    let nn := fieldN d 0x12 2
    1 ≤ nn && nn ≤ 4096 && t.cands.all (fun c => c + nn ≤ 4096) && byteN d 0x1C ≤ 4
      && fieldN d 0 4 < 0x10000 && fieldN d 0 4 % 2 == 0 && fieldN d 0x18 4 % 64 == 0
      && fieldN d 0x18 4 + 576 ≤ 0x10000
      && (if t.kind = 4 then byteN d 0x1D ≤ 15 && fieldN d 0x1E 2 < nring else zerosAt d 0x1D 3)
  | 3 =>
    let n := fieldN d 16 4
    4 ≤ n && n ≤ 65536 && n % 4 == 0 && zerosAt d 26 6 && s.devRange (fieldN d 0 8) n
      && s.devRange (fieldN d 8 8) n
  | 5 => nets.contains (fieldN d 0 2) && zerosAt d 2 14
  | 6 =>
    byteN d 2 ≤ 3 && fieldN d 16 2 ≤ 255 && fieldN d 18 2 ≤ 4095 && byteN d 20 ≤ 3 && zerosAt d 21 1
      && zerosAt d 26 2 && zerosAt d 32 32 && s.memRange (fieldN d 8 8) 1
  | _ => true

/-- A task record and what it names (R165, R430–R432). -/
def State.taskOk (s : State) (g e : List Byte) (ws : List Window) (ids sos wins nets : List Nat)
    (nring : Nat) : Bool :=
  let t := taskOf g e
  let dep := fieldN e 0x18 4
  let res := fieldN e 0x24 4
  let ts := (List.range t.ndesc).map (tmplOf g t)
  t.kind ≤ 6 && t.window < ws.length && 1 ≤ byteN e 5 && byteN e 5 ≤ 4 && 1 ≤ t.ndesc
    && fieldN e 0x16 2 ≤ 64 && t.redun ≤ 2 && zerosAt e 6 2 && zerosAt e 0x28 24
    && t.descOfs % 4 == 0 && dep % 4 == 0 && res % 4 == 0
    && within g t.descOfs (tmplSize t.kind * t.ndesc) && within g dep (2 * fieldN e 0x16 2)
    && (match ws[t.window]? with
        | some w => if w.share then t.group ≤ 63 else t.group == 255 && byteN e 5 == 1
        | none => false)
    && t.cands.all (fun c => if t.kind ≤ 1 then c < 32 else if t.kind ≤ 4 then c < 4096 else true)
    && t.deps.all ids.contains && (t.redun == 0 || ids.contains t.partner)
    && (res == 0 || (within g res 4 && fieldN g res 4 ≤ 1024 && within g (res + 4) (16 * fieldN g res 4)
        && (entries g (res + 4) 16 (fieldN g res 4)).all fun x =>
            zerosAt x 12 4 && s.memRange (fieldN x 0 8) (fieldN x 8 4)))
    && ts.all (fun d => (tmplSos t.kind d).all sos.contains
        && (tmplWin t.kind d == 0xFFFF || wins.contains (tmplWin t.kind d)) && s.tmplOk t nring nets d)

/-- A window definition (R432). -/
def State.winDefOk (s : State) (e : List Byte) : Bool :=
  let d := winDefOf e
  d.win < 4096 && 1 ≤ d.lines && d.lines ≤ 8192 && zerosAt e 4 4 && d.base.toNat % 64 == 0
    && (let l := d.base.toNat % 2 ^ 48
        s.chipOk d.base.toNat && localUnit l ≠ .none && localUnit l = localUnit (l + 64 * d.lines - 1))

/-- GRAPH agrees with its layout (R430–R432). -/
def State.graphOk (s : State) (g : List Byte) (ws : List Window) (nets : List Nat) : Bool :=
  let nt := fieldN g 0 4
  let nr := fieldN g 8 2
  let nw := fieldN g 10 2
  let ns := fieldN g 12 2
  let nc := fieldN g 14 2
  let ro := fieldN g 16 4
  let wo := fieldN g 20 4
  let so := fieldN g 24 4
  let co := fieldN g 28 4
  let ids := (graphTasks g).map fun e => fieldN e 0 2
  let sos := (entries g so 8 ns).map fun e => fieldN e 0 2
  let wins := (entries g wo 16 nw).map fun e => fieldN e 0 2
  within g 0 64 && 1 ≤ nt && nt ≤ 65536 && fieldN g 4 4 % 64 == 0 && within g (fieldN g 4 4) (64 * nt)
    && nr ≤ 4096 && nw ≤ 4096 && ns ≤ 16384 && 1 ≤ nc && nc ≤ 64 && zerosAt g 32 32
    && ro % 4 == 0 && wo % 4 == 0 && so % 4 == 0 && co % 4 == 0
    && within g ro (16 * nr) && within g wo (16 * nw) && within g so (8 * ns) && within g co (1040 * nc)
    && nodupN ids
    && (entries g ro 16 nr).all (fun e =>
        let d := ringDeclOf e
        ids.contains d.task && 2 ≤ d.log2n && d.log2n ≤ 10 && (d.stream ≤ 3 || d.stream == 255)
          && zerosAt e 12 4 && d.addr.toNat % 16 == 0 && s.memRange d.addr.toNat (16 * 2 ^ d.log2n)
          && (match s.target mSCP d.addr with | .map .normal _ => true | _ => false))
    && (entries g wo 16 nw).all s.winDefOk
    && (entries g so 8 ns).all (fun e => fieldN e 0 2 < 16384 && zerosAt e 2 2)
    && (graphTasks g).all (fun e => s.taskOk g e ws ids sos wins nets nr)

/-! ### TENSORS (R429) -/

/-- The tensors: device address and data. -/
def tensorsOf (t : List Byte) : List (BitVec 64 × List Byte) :=
  (entries t 64 16 (fieldN t 0 4)).map fun e =>
    (BitVec.ofNat 64 (fieldN e 0 8), (t.drop (fieldN e 8 4)).take (fieldN e 12 4))

/-- TENSORS agrees with its layout, and the tensors fit the memories they name (R167, R429). -/
def State.tensorsOk (s : State) (t : List Byte) : Bool :=
  let n := fieldN t 0 4
  within t 0 64 && n ≤ 1048576 && zerosAt t 4 60 && within t 64 (16 * n)
    && (entries t 64 16 n).all (fun e =>
        within t (fieldN e 8 4) (fieldN e 12 4) && 64 + 16 * n ≤ fieldN e 8 4
          && s.memRange (fieldN e 0 8) (fieldN e 12 4))
    && apart ((entries t 64 16 n).map fun e => (fieldN e 8 4, fieldN e 8 4 + fieldN e 12 4))

/-! ### SAFETY (R252, R253, R256, R263) -/

/-- The parameter block (R252). -/
def paramsOf (a : List Byte) : SafetyParams :=
  { dtiMs := fieldN a 4 2, invConsec := byteN a 6, invWinN := byteN a 7, invWinCyc := fieldN a 8 2
    ssReaction := byteN a 10, estopReact := byteN a 11, ss1TmaxUs := fieldN a 12 4
    estopDiscMs := fieldN a 16 2, msgCh := byteN a 18, msgPerMs := byteN a 19, skewUs := fieldN a 20 2
    msgId := fieldN a 22 2, ackMsg := byteN a 24 == 1, ackId := fieldN a 26 2 }

/-- A range entry. -/
def rangeOf (e : List Byte) : RangeEnt :=
  { addr := BitVec.ofNat 64 (fieldN e 0 8), tofs := fieldN e 8 4, len := fieldN e 12 4, exec := byteN e 16
    chk := byteN e 17, bead := byteN e 18 == 1, id := fieldN e 20 2, nnodes := fieldN e 22 2 }

/-- A network entry with its ranges. -/
def netOf (a e : List Byte) : Net :=
  { net := fieldN e 0 2, sigTask := fieldN e 2 2, taskB := fieldN e 4 2, triage := fieldN e 6 2
    agm := fieldN e 8 2, nchk := byteN e 10
    ranges := (entries a (fieldN e 12 4) 32 (fieldN e 16 2)).map rangeOf }

/-- An age-monitor entry. -/
def agmOf (e : List Byte) : AgmEnt :=
  { origin := byteN e 0, src := byteN e 1, so := fieldN e 2 2, limitUs := fieldN e 4 4, inc := fieldN e 8 2
    safety := byteN e 10 == 1 }

def annexNets (a : List Byte) : List (List Byte) := entries a 64 32 (fieldN a 0 2)

/-- Offset of the age-monitor entries. -/
def agmOfs (a : List Byte) : Nat :=
  64 + 32 * fieldN a 0 2 + 32 * ((annexNets a).map fun e => fieldN e 16 2).sum

def annexOf (a : List Byte) : Annex :=
  { params := paramsOf a, nets := (annexNets a).map (netOf a)
    agm := (entries a (agmOfs a) 16 (fieldN a 2 2)).map agmOf }

/-- Each network's ranges follow those of the network before (R252). -/
def rangesFollow : Nat → List (List Byte) → Bool
  | _, [] => true
  | o, e :: es => fieldN e 12 4 == o && 2 ≤ fieldN e 16 2 && fieldN e 16 2 ≤ 1024
      && rangesFollow (o + 32 * fieldN e 16 2) es

/-- SAFETY agrees with its layout (R252, R167 check 5). -/
def State.annexOk (s : State) (a : List Byte) : Bool :=
  let nn := fieldN a 0 2
  let na := fieldN a 2 2
  64 ≤ a.length && 1 ≤ nn && nn ≤ 64 && 1 ≤ na && na ≤ 256 && within a 64 (32 * nn)
    && zerosAt a 0x19 1 && zerosAt a 0x1C 36 && rangesFollow (64 + 32 * nn) (annexNets a)
    && a.length == agmOfs a + 16 * na
    && (annexNets a).all (fun e => zerosAt e 11 1 && zerosAt e 18 14 && fieldN e 0 2 < 64 && byteN e 10 ≤ 16)
    && ((annexNets a).flatMap fun e => entries a (fieldN e 12 4) 32 (fieldN e 16 2)).all (fun e =>
        let r := rangeOf e
        zerosAt e 19 1 && zerosAt e 24 8 && byteN e 18 ≤ 1
          && (if r.bead then r.id + r.nnodes ≤ 4096 else r.id < 32) && s.memRange r.addr.toNat r.len)
    && (entries a (agmOfs a) 16 na).all (fun e => zerosAt e 11 5)

/-- Every parameter lies in its range (R252, R253). -/
def paramsOk (a : List Byte) : Bool :=
  let p := paramsOf a
  let r (lo hi v : Nat) : Bool := lo ≤ v && v ≤ hi
  r 10 1000 p.dtiMs && r 1 2 p.invConsec && r 1 3 p.invWinN && r 1000 65535 p.invWinCyc && p.ssReaction ≤ 1
    && p.estopReact ≤ 1 && r 1000 2000000 p.ss1TmaxUs && r 1 500 p.estopDiscMs && p.msgCh ≤ 8
    && r 1 100 p.msgPerMs && r 10 1000 p.skewUs && p.msgId ≤ 2047 && byteN a 24 ≤ 1
    && (p.msgCh == 8 || p.ackId ≤ 2047)

/-- The ranges of one execution and checkpoint, in TOFS order. -/
def Net.pick (n : Net) (x chk : Nat) : List RangeEnt :=
  (n.ranges.filter fun r => r.exec == x && r.chk == chk).mergeSort fun a b => decide (a.tofs ≤ b.tofs)

/-- Length of the tensor that ranges tile, none where they leave a gap or overlap. -/
def tileLen : Nat → List RangeEnt → Option Nat
  | o, [] => some o
  | o, r :: rs => if r.tofs = o && r.len ≠ 0 then tileLen (o + r.len) rs else none

/-! ### The executions of a network (R252, R256, R260) -/

/-- The tasks that a task depends on, through the whole chain. -/
def upTasks (p : Package) : Nat → List Nat → List Nat
  | 0, l => l
  | n + 1, l =>
    let more := (p.tasks.filter fun t => l.contains t.id).flatMap Task.deps
    upTasks p n ((l ++ more).eraseDups)

/-- Execution C of a network: its first task and those that depend on it (R252, R260). -/
def Package.execC (p : Package) (n : Net) : List Task :=
  if n.triage = 0xFFFF then []
  else p.tasks.filter fun t => (upTasks p p.tasks.length [t.id]).contains n.triage

/-- Nodes of the run that template `i` of a task starts (R431). -/
def Package.nodesAt (p : Package) (t : Task) (i : Nat) : Nat :=
  if t.kind = 2 || t.kind = 4 then fieldN (tmplOf p.graph t i) 0x12 2 else 1

/-- Nodes that a Bead task occupies: those of its longest run. -/
def Package.nodes (p : Package) (t : Task) : Nat :=
  ((List.range t.ndesc).map (p.nodesAt t)).foldl max 1

/-- The engines that a task occupies at a candidate: Facet f at f, node n at 100 + n. -/
def Package.keys (p : Package) (t : Task) (cand : Nat) : List Nat :=
  if t.kind ≤ 1 then [cand]
  else if t.kind ≤ 4 then (List.range (p.nodes t)).map fun i => 100 + cand + i
  else []

def Task.cand (t : Task) : Nat := t.cands.headD 0

/-- The tasks of execution 1 A, 2 B or 3 C of a network: those marked with it that its final task depends
on, and that task (R165, R252). -/
def Package.execTasks (p : Package) (n : Net) (x : Nat) : List Task :=
  if x = 3 then p.execC n
  else
    let l := upTasks p p.tasks.length [if x = 1 then n.sigTask else n.taskB]
    p.tasks.filter fun t => t.redun = x && l.contains t.id

/-- Facets, and Bead regions from 100, that an execution uses: those of its ranges and of its tasks
(R256). -/
def Package.execUse (p : Package) (n : Net) (x : Nat) : List Nat :=
  ((n.ranges.filter fun r => r.exec == x).flatMap fun r =>
    if r.bead then (List.range r.nnodes).map fun i => 100 + (r.id + i) / 256 else [r.id])
  ++ ((p.execTasks n x).flatMap fun t => t.cands.flatMap (p.keys t)).map fun k =>
    if k < 100 then k else 100 + (k - 100) / 256

/-- The reductions that a Facet task carries out, each as operation and tile: M, N, K, KSEG. -/
def Package.reductions (p : Package) (t : Task) : List (List Nat) :=
  ((List.range t.ndesc).map fun i => facDesc (tmplOf p.graph t i)).filterMap fun d =>
    if d.op = 1 || d.op = 2 then some [d.op, d.m, d.n, d.k, d.kseg] else none

/-- The tiling of the Facet reductions of A differs from that of the partner tasks of B (R256; log entry
111). -/
def Package.tilesDiffer (p : Package) (n : Net) : Bool :=
  (p.execTasks n 1).all fun t =>
    t.kind ≠ 0 || (p.reductions t).isEmpty || match p.tasks.find? fun u => u.id = t.partner && u.redun = 2 with
      | some u => p.reductions u ≠ p.reductions t
      | none => true

/-- A network's ranges tile, its placements are disjoint and tiled apart, and what it names exists (R253,
R256). -/
def netOk (p : Package) (a : Annex) (n : Net) : Bool :=
  let ids := p.tasks.map Task.id
  let hasC := n.triage ≠ 0xFFFF || n.ranges.any fun r => r.exec == 3
  let execs := if hasC then [1, 2, 3] else [1, 2]
  n.ranges.all (fun r => 1 ≤ r.exec && r.exec ≤ 3 && r.chk ≤ n.nchk && 1 ≤ r.nnodes && (r.bead || r.nnodes == 1))
    && (List.range (n.nchk + 1)).all (fun k =>
        let ls := execs.map fun x => tileLen 0 (n.pick x k)
        ls.all fun l => l.isSome && l == ls.headD none && l ≠ some 0)
    && [(1, 2), (1, 3), (2, 3)].all (fun q => (p.execUse n q.1).all fun u => !(p.execUse n q.2).contains u)
    && p.tilesDiffer n
    && ids.contains n.sigTask && ids.contains n.taskB && (n.triage == 0xFFFF || ids.contains n.triage)
    && n.agm < a.agm.length

/-- Madder's checks of the annex at PKG_ACTIVATE (R253). `raw` is the section. -/
def annexCheck (p : Package) (raw : List Byte) : Bool :=
  match p.annex with
  | none => true
  | some a =>
    paramsOk raw && nodupN (a.nets.map Net.net) && a.nets.all (netOk p a)
      && a.agm.all fun e =>
        (p.soInit.any fun x => x.1 = e.so) && 1 ≤ e.limitUs && e.limitUs ≤ 10000000 && 1 ≤ e.inc
          && (match e.origin with
              | 0 => true
              | 1 => decide (e.src ≤ 3)
              | 2 => decide (e.src < p.windows.length)
              | _ => false)

/-! ### The whole check (R167) -/

/-- The package that the plaintexts spell. -/
def pkgBuild (b : List Byte) (x : Plain) : Package :=
  let g := x.graph
  { pair := pkgFlag b 1, safety := pkgFlag b 2, encrypted := pkgFlag b 0
    nchips := byteN (secBytes b secTARGET) 12, majorNs := fieldN x.cycle 0 4
    windows := (cycWindows x.cycle).map windowOf
    phases := (List.range 512).map fun i => byteN x.cycle (0x40 + i)
    groups := (entries x.cycle 0x240 4 64).map fun e => (fieldN e 0 2, fieldN e 2 2)
    graph := g, tasks := (graphTasks g).map (taskOf g)
    rings := (entries g (fieldN g 16 4) 16 (fieldN g 8 2)).map ringDeclOf
    wins := (entries g (fieldN g 20 4) 16 (fieldN g 10 2)).map winDefOf
    soInit := (entries g (fieldN g 24 4) 8 (fieldN g 12 2)).map fun e => (fieldN e 0 2, BitVec.ofNat 32 (fieldN e 4 4))
    classes := (List.range (fieldN g 14 2)).map fun k =>
      (List.range 260).map fun j => BitVec.ofNat 32 (fieldN g (fieldN g 28 4 + 1040 * k + 4 * j) 4)
    tensors := tensorsOf x.tensors
    annex := if pkgFlag b 2 then some (annexOf x.safety) else none
    annexRaw := x.safety, paramDigest := sha384N (x.safety.take 64) }

/-- Check 5 (R167). -/
def State.pkgContents (s : State) (b : List Byte) (x : Plain) : Bool :=
  let t := secBytes b secTARGET
  let f := secBytes b secFWREQ
  let g := secBytes b secSIGNATURE
  let nets := if pkgFlag b 2 then (annexNets x.safety).map fun e => fieldN e 0 2 else []
  t.length == 64 && zerosAt t 5 3 && zerosAt t 13 51 && f.length == 64 && zerosAt f 24 40
    && g.length == 112 && zerosAt g 1 15 && 1 ≤ byteN t 12 && byteN t 12 ≤ 16
    && cycleOk x.cycle (fieldN x.graph 14 2) && (!pkgFlag b 2 || s.annexOk x.safety)
    && s.graphOk x.graph ((cycWindows x.cycle).map windowOf) nets && s.tensorsOk x.tensors
    && (!pkgFlag b 2 || (annexOf x.safety).agm.all fun e =>
        (pkgBuild b x).soInit.any fun y => y.1 = e.so)

/-- The checks of R167 in order: the status of the first that fails, or the package. -/
def State.pkgCheck (s : State) (b : List Byte) : St × Option Package :=
  if !pkgShape b then (ST_BAD_FIELD, none)
  else
    match s.pkgPlain b with
    | none => (ST_NOT_PERMITTED, none)
    | some x =>
      if !s.pkgTarget b || !s.pkgFw b then (ST_PACKAGE_TARGET, none)
      else if s.pkgContents b x then (ST_OK, some (pkgBuild b x))
      else (ST_BAD_FIELD, none)

end Sys2Proof.Machine
end

