-- ==== Sys2Proof/Machine/PowerOps.lean ====
section
/-! DEFINITION. Requests, ceilings and grants of the Facet and Bead-region domains (R349–R353,
R357, R361, R362). -/

namespace Sys2Proof.Machine

/-- The domains with operating points (R349). -/
def opDomains : List Nat := List.range 50

/-- The lowest of request and ceilings (R352). -/
def State.grantOf (s : State) (d : Nat) : Nat :=
  min (s.fld (PWR_DOM_STAT_REQ d)) (min (s.fld (PWR_DOM_STAT_SW_CEIL d)) (min (s.fld (PWR_DOM_STAT_HW_CEIL d))
    (min (s.fld (PWR_DOM_STAT_CO_CEIL d)) (s.fld (PWR_DOM_STAT_PAIR_CEIL d)))))

def State.dom (s : State) (d : Nat) : DomSt := kget {} s.power.doms d
def State.setDom (s : State) (d : Nat) (x : DomSt) : State :=
  { s with power := { s.power with doms := kput d x s.power.doms } }

/-- A lower grant takes effect at once; a higher one when the regulator has confirmed the
voltage (R353). -/
def State.regrant (s : State) (d : Nat) : State :=
  let g := s.grantOf d
  let now := s.fld (PWR_DOM_STAT_GRANTED d)
  if g < now then
    (s.setF (PWR_DOM_STAT_GRANTED d) g).setDom d { s.dom d with raising := false }
  else s.setDom d { s.dom d with raising := now < g }

/-- Domain of a physical Facet, and of a Bead region (R349). -/
def domFacet (p : Nat) : Nat := p
def domRegion (g : Nat) : Nat := 34 + g

/-- Supply voltages of the operating points in units of 10 mV (R351). -/
def facVolt (op : Nat) : Nat := [55, 57, 60, 64, 69, 74, 79, 85].getD op 55
def beadVolt (op : Nat) : Nat := [55, 58, 61, 64, 68, 72, 76, 80].getD op 55

/-- The voltage that a powered domain needs: of its grant, or of the higher point that waits for it (R353). -/
def State.voltOf (s : State) (d : Nat) : Nat :=
  let op := max (s.fld (PWR_DOM_STAT_GRANTED d)) (if (s.dom d).raising then s.grantOf d else 0)
  if s.fld (PWR_DOM_STAT_PSTATE d) = 0 then 0 else if d < 34 then facVolt op else beadVolt op

/-- VDD_FAC and VDD_BEAD are set to the highest voltage that a powered domain needs (R353). -/
def State.railsSet (s : State) : State :=
  let top (ds : List Nat) : Nat := (ds.map s.voltOf).foldl max 0
  { s with power := { s.power with vset := [(0, top (List.range 34)), (1, top ((List.range 16).map (34 + ·)))] } }

/-- The ceiling of a domain that the other chips were last told of: 7 where none is in force. -/
def State.noticed (s : State) (d : Nat) : Nat :=
  match s.power.notices.reverse.find? fun n => n.1 = d with
  | some n => n.2
  | none => 7

/-- The logical Facets and the regions with the domains that serve them, numbered as in the phase table
(R171, R349). -/
def State.logicalDoms (s : State) : List (Nat × Nat) :=
  (List.range 32).map (fun f => (f, domFacet (s.physFacet f))) ++ (List.range 16).map fun g => (domRegion g, domRegion g)

/-- With EQUALISE set, a clamp or cap of this chip that begins, changes or ends is told to the other chips,
whose same Facet or region takes its point (R347). -/
def State.pairTell (s : State) : State :=
  if s.pair.fn ≠ .running || s.fld PLK_CFG_MODE = 0 || !s.flag PLK_CFG_EQUALISE then s
  else
    s.each s.logicalDoms fun s d =>
      let c := min (s.fld (PWR_DOM_STAT_SW_CEIL d.2)) (s.fld (PWR_DOM_STAT_HW_CEIL d.2))
      if c = s.noticed d.1 then s
      else { s with power := { s.power with notices := s.power.notices ++ [(d.1, c)] } }

/-- Grant every domain anew, and show whether some ceiling is below OP7 (R352, R361). -/
def State.regrantAll (s : State) : State :=
  let s := (s.each opDomains State.regrant).railsSet.pairTell
  let sw := opDomains.any fun d => s.fld (PWR_DOM_STAT_SW_CEIL d) < 7
  let hw := opDomains.any fun d => s.fld (PWR_DOM_STAT_HW_CEIL d) < 7
  (s.setF PWR_LIMIT_STAT_CAP_ACTIVE (if sw then 1 else 0)).setF PWR_LIMIT_STAT_CLAMP_ACTIVE (if hw then 1 else 0)

/-- The lowest contribution of the hardware limits (R362). -/
def DomSt.hw (x : DomSt) : Nat := min x.temp (min x.short (min x.long (min x.current x.telem)))

/-- The point that a member has without co-scaling. -/
def State.ownPoint (s : State) (d : Nat) : Nat :=
  min (s.fld (PWR_DOM_STAT_REQ d)) (min (s.fld (PWR_DOM_STAT_SW_CEIL d))
    (min (s.fld (PWR_DOM_STAT_HW_CEIL d)) (s.fld (PWR_DOM_STAT_PAIR_CEIL d))))

/-- The ceiling that co-scaling sets on a domain: the point of every clamped member of the
active collectives it belongs to (R357). -/
def State.coCeil (s : State) (d : Nat) : Nat :=
  if !s.flag PWR_CFG_COSCALE then 7
  else
    let ms := (s.power.coll.filter (·.contains d)).flatten.filter fun m =>
      m ≠ d && s.fld (PWR_DOM_STAT_HW_CEIL m) < 7
    ms.foldl (fun c m => min c (s.ownPoint m)) 7

/-- HW_CEIL, CO_CEIL and the grants follow the limits and the collectives (R352, R357, R362). -/
def State.powerUpdate (s : State) : State :=
  let s := s.each opDomains fun s d => s.setF (PWR_DOM_STAT_HW_CEIL d) (s.dom d).hw
  let s := s.each opDomains fun s d => s.setF (PWR_DOM_STAT_CO_CEIL d) (s.coCeil d)
  s.regrantAll

/-- Region of a logical Bead node: 256 nodes each. -/
def beadRegion (n : Nat) : Nat := n / 256

/-- Parts of a pJ in which the activity model counts exactly (R358). -/
def modelUnit : Nat := 100 * 7225 * 6400

/-- The charge of an active clock at an operating point: 1,802 pJ of a Facet and 4.88 pJ of a
Bead node at OP7, scaled by the square of the voltage (R358). -/
def facCharge (op : Nat) : Nat := 1802 * 100 * 6400 * (facVolt op * facVolt op)
def beadCharge (op : Nat) : Nat := 488 * 7225 * (beadVolt op * beadVolt op)

/-- Active clocks of a task's engine enter the activity model (R358). -/
def State.noteActive (s : State) (task charge : Nat) : State :=
  { s with power := { s.power with acts := kput task (kget 0 s.power.acts task + charge) s.power.acts } }

/-- Aligned clocks start at the next edge of the 1 MHz strobe, at which TB0 ns mod 1,000 is 0 (R372). -/
def State.clockStart (s : State) (k : Nat) : State :=
  { s with power := { s.power with clkAt := kput k ((s.now + 999) / 1000 * 1000 % 2 ^ 48) s.power.clkAt } }

/-- The domain has power. -/
def State.domOn (s : State) (d : Nat) : Bool :=
  if d < 50 then s.fld (PWR_DOM_STAT_PSTATE d) == 1 else !(kget false s.power.other d)

end Sys2Proof.Machine
end

