-- ==== Sys2Proof/Machine/FacetRun.lean ====
section
/-! DEFINITION. A Facet's queue, its running command, segments, pre-emption, completion: the
Facet commands of the table (R82–R89, R108, R109). -/

namespace Sys2Proof.Machine

abbrev facIDLE : Nat := 0
abbrev facRUNNING : Nat := 1
abbrev facPREEMPTED : Nat := 2
abbrev facURGENT : Nat := 3
abbrev facSELFTEST : Nat := 4
abbrev facOFF : Nat := 5

/-- State code of Facet `f`. -/
def State.facState (s : State) (f : Nat) : Nat := s.fld (FAC_STATUS_STATE f)

/-- The engine takes a state; the time it spends PREEMPTED, on an urgent command or in a
self-test part is kept for R180. -/
def State.setFacState (s : State) (f v : Nat) : State :=
  let x := s.facet f
  let out := v = facPREEMPTED || v = facURGENT || v = facSELFTEST
  let x' := if out then { x with outAt := some (x.outAt.getD s.now) }
    else match x.outAt with
      | some t => { x with outAt := none, outNs := x.outNs + sinceNs s.now t }
      | none => x
  (s.setFacet f x').setF (FAC_STATUS_STATE f) v

/-- The queue takes a value; QDEPTH follows. -/
def State.setFacQueue (s : State) (f : Nat) (q : List QDesc) : State :=
  (s.setFacet f { s.facet f with queue := q }).setF (FAC_STATUS_QDEPTH f) q.length

/-- The running command takes a value. -/
def State.setCur (s : State) (f : Nat) (c : Option FacetCmd) : State :=
  s.setFacet f { s.facet f with cur := c }

/-- Facet clocks in RUNNING or URGENT are counted, and charged to the command's task (R88,
R358). -/
def State.facClocks (s : State) (f n : Nat) : State :=
  let x := s.facet f
  let s := s.setFacet f { x with activeClk := x.activeClk + BitVec.ofNat 64 n }
  match x.cur with
  | some c => s.noteActive (facDesc c.desc).task
      (n * facCharge (s.fld (PWR_DOM_STAT_GRANTED (domFacet (s.physFacet f)))))
  | none => s

/-- A sync object is incremented by a unit, whose release answers nobody else. A descriptor's DONE_SO or
ERR_SO past the last object passes the checks and increments nothing: R63 gives these fields no range
(DESIGN CHOICE, log entry 96). -/
def State.bumpSo (s : State) (src n k : Nat) : State :=
  if n < 16384 then { s.soAdd src n (BitVec.ofNat 32 k) with reply := s.reply } else s

def FacetCmd.opcode (c : FacetCmd) : Nat := fieldN c.desc 0 2

/-- The check that an opcode calls for. -/
def State.cmdCheck (s : State) (f : Nat) (c : FacetCmd) : St :=
  if c.opcode = 4 then s.attnCheck (attnDesc c.desc) else s.facCheck f (facDesc c.desc)

/-- Output tiles or, for ATTN, units of a command. -/
def FacetCmd.tiles (c : FacetCmd) : Nat :=
  if c.opcode = 4 then (attnDesc c.desc).qt * (attnDesc c.desc).nh
  else (facDesc c.desc).rt * (facDesc c.desc).ct

/-- The reduction of the current tile of MATMUL or CONV: its operands, the changed blocks of a tile
updated by difference, the flags that a delta command takes from the look at its state (R79, R426). -/
def State.curOps (s : State) (f : Nat) (c : FacetCmd) : TileOps × Option (List Nat) × BitVec 16 :=
  let d := facDesc c.desc
  let r := c.tile / d.ct
  let cc := c.tile % d.ct
  if d.fl 6 then
    let p := s.deltaPlan f d c.desc
    let (t, pl, ecc) := s.deltaOps f d p r cc
    (t, pl, (if p.rebuild then 16 else 0) ||| (if p.ecc || ecc then 8 else 0))
  else (s.tileOps f d r cc, none, 0)

/-- Blocks of the current tile that a segment counts: reduction blocks, the key-tile passes of an ATTN
unit, one for POOL and WCOMBINE (R82, R108). -/
def State.tileBlocks (s : State) (f : Nat) (c : FacetCmd) : Nat :=
  if c.opcode = 4 then s.attnPasses f (attnDesc c.desc) c.tile
  else if c.opcode = 1 || c.opcode = 2 then (s.curOps f c).1.a.length
  else 1

/-- The wide sums of the current tile after `n` more blocks. -/
def State.advance (s : State) (f : Nat) (c : FacetCmd) (n : Nat) : List (List WideSum) :=
  let d := facDesc c.desc
  (s.curOps f c).1.sums d c.sums c.block n (c.tile / d.ct) (c.tile % d.ct)

/-- Clocks of `n` blocks of a tile: 32 a block, and 128 where old and new products pass (R82, R89). -/
def blockClocks (pl : Option (List Nat)) (n : Nat) : Nat := match pl with | none => 32 * n | some _ => 128 * n

/-- The loader reads what the current tile needs for the first time. -/
def State.tileLoad (s : State) (f : Nat) (c : FacetCmd) : State :=
  let d := facDesc c.desc
  if c.block = 0 then s.load f (d.tileLines (c.tile / d.ct) (c.tile % d.ct)) else s

/-- A delta tile whose plan has changed since it began is begun again. -/
def FacetCmd.replan (c : FacetCmd) (pl : Option (List Nat)) : FacetCmd :=
  if c.plan = pl then c else { c with plan := pl, block := 0, sums := [] }

/-- The rest of a tile of MATMUL or CONV: its sums leave through the epilogue (R65, R69, R79, R87). -/
def State.doReduce (s : State) (f : Nat) (c : FacetCmd) : FacetCmd × State :=
  let d := facDesc c.desc
  let r := c.tile / d.ct
  let cc := c.tile % d.ct
  let (t, pl, fl) := s.curOps f c
  let c := c.replan pl
  let ws := s.advance f c (t.a.length - c.block)
  let ws := if pl.isSome then s.deltaSpecial f d t r cc ws else ws
  let all := if d.fl 6 then d.deltaClocks pl else d.tileClocks r cc
  let clk := all - blockClocks pl c.block
  let c := { c.meet t.st with flags := c.flags ||| fl ||| (c.meet t.st).flags }
  let c := if !d.fl 6 then c else
    { c with
      deltaFull := c.deltaFull + (if pl.isNone then 1 else 0)
      deltaUpd := c.deltaUpd + (match pl with | some (_ :: _) => 1 | _ => 0)
      kept := kput c.tile ws.flatten c.kept }
  let (c, s) := s.leaveTile f d c r cc (t.st ≠ ST_OK) ws
  (c, s.facClocks f clk)

/-- Complete the current tile or unit and go on to the next (R59, R82). -/
def State.doTile (s : State) (f : Nat) (c : FacetCmd) : FacetCmd × State :=
  if c.opcode = 4 then
    let ((c, clk), s) := s.attnFinish f (attnDesc c.desc) c
    (c, s.facClocks f clk)
  else
    let s := s.tileLoad f c
    let d := facDesc c.desc
    let r := c.tile / d.ct
    let cc := c.tile % d.ct
    let (c, s) :=
      if d.op = 3 then
        let (c, s) := s.poolTile f d c r cc
        (c, s.facClocks f (d.tileClocks r cc))
      else if d.op = 5 then
        let (c, s) := s.combineTile f d c r cc
        (c, s.facClocks f (d.tileClocks r cc))
      else s.doReduce f c
    ({ c with tile := c.tile + 1, block := 0, sums := [], plan := none }, s)

/-- Iterate over the remaining tiles. -/
def State.doTiles (f : Nat) : Nat → FacetCmd × State → FacetCmd × State
  | 0, x => x
  | k + 1, (c, s) => State.doTiles f k (s.doTile f c)

/-- What follows the last tile: the block-scale plane, the delta state, the ATTN statistic, and
the drain of R89. -/
def State.facEnd (s : State) (f : Nat) (c : FacetCmd) : FacetCmd × State :=
  if c.opcode = 4 then
    let d := attnDesc c.desc
    let (c, s) := s.putPlane f d.outSpec c
    ({ c with done := true }, s)
  else
    let d := facDesc c.desc
    let (c, s) := s.putPlane f d.outSpec c
    let (c, s) := if d.fl 6 then s.putDelta f d c else (c, s)
    ({ c with done := true }, s.facClocks f 40)

/-- The ATTN working area of the engine's operand memory holds nothing defined while a command
uses it (R102). -/
def State.attnArea (s : State) (f : Nat) : State :=
  let base := s.physFacet f * 0x200000 + 0x7F000
  { s.setMem .fom (s.mems.fom.lose 8 base 0x101000 s.free) with free := s.free + 1 }

/-- The command's ranges. -/
def FacetCmd.ranges (c : FacetCmd) : List (Nat × Nat) :=
  if c.opcode = 4 then (attnDesc c.desc).ranges else (facDesc c.desc).ranges

/-- The command waits while another master's clasp is open at a memory that it reads or writes (R155). -/
def State.facHolds (s : State) (f : Nat) (c : FacetCmd) : Bool :=
  c.ranges.any fun x => s.claspMeets (mFacet f) x.1 x.2

/-- A command is checked once, before it reads any operand (R64, R91). -/
def State.facBegin (s : State) (f : Nat) (c : FacetCmd) : FacetCmd :=
  if c.checked then c
  else
    let st := s.cmdCheck f c
    if st = ST_OK then { c with checked := true } else { c with status := st, refused := true, done := true }

/-- The command under work on an engine that reduces: RUNNING or URGENT, no save, no reload. -/
def State.facActive (s : State) (f : Nat) : Option FacetCmd :=
  let x := s.facet f
  match x.cur with
  | none => none
  | some c =>
    if c.done || x.saving || x.restoring || !(s.facState f == facRUNNING || s.facState f == facURGENT) then none
    else some c

/-- The engine stops between tiles: nothing needs saving (R83). -/
def State.stopAtTile (s : State) (f : Nat) (c : FacetCmd) : State :=
  let s := s.setFacet f { s.facet f with cur := none, ctx := some c }
  ((s.setF (FAC_STATUS_CTX_VALID f) 1).setF (FAC_CTL_PREEMPT f) 0).setFacState f facPREEMPTED

/-- A request to pre-empt is pending on a running command (R83). -/
def State.preempting (s : State) (f : Nat) : Bool := s.flag (FAC_CTL_PREEMPT f) && s.facState f == facRUNNING

/-- A segment ends inside a tile after `n` more blocks; the save follows where a request is pending
(R82, R83, R108). -/
def State.partTile (s : State) (f : Nat) (c : FacetCmd) (n : Nat) : State :=
  let pre := s.preempting f
  let ((c, clk), s) :=
    if c.opcode = 4 then State.attnSteps f (attnDesc c.desc) n ((c, 0), s)
    else
      let s := s.tileLoad f c
      let pl := (s.curOps f c).2.1
      let c := c.replan pl
      (({ c with block := c.block + n, sums := (s.advance f c n).flatten }, blockClocks pl n), s)
  let s := (s.setCur f (some c)).facClocks f clk
  if pre then s.setFacet f { s.facet f with saving := true } else s

/-- A segment of at most `blocks` and KSEG blocks and at most the tile; a tile whose reduction is
complete leaves through the epilogue (R82, R83, R108). -/
def State.segment (s : State) (f : Nat) (c : FacetCmd) (blocks : Nat) : State :=
  let left := s.tileBlocks f c - c.block
  let n := max 1 (min blocks (min (fieldN c.desc 6 2) left))
  let s := if c.opcode = 4 then s.attnArea f else s
  if left ≤ n then
    let pre := s.preempting f
    let (c, s) := s.doTile f c
    if c.tiles ≤ c.tile then
      let (c, s) := s.facEnd f c
      s.setCur f (some c)
    else if pre then s.stopAtTile f c
    else s.setCur f (some c)
  else s.partTile f c n

/-- Check the command where it has not been checked, and go on with it where no clasp holds it up. -/
def State.facGo (s : State) (f : Nat) (c : FacetCmd) (go : FacetCmd → State) : State :=
  let c := s.facBegin f c
  if c.done then s.setCur f (some c)
  else if s.facHolds f c then (s.setCur f (some c)).waited (mFacet f)
  else go c

/-- Run the command of opcode `op`: to the end of its work, or with a request to pre-empt pending to
its next segment boundary (R64, R83, R91). Nothing happens unless such a command runs on the engine. -/
def State.facWork (s : State) (f op : Nat) : State :=
  match s.facActive f with
  | none => s
  | some c =>
    if c.opcode ≠ op then s
    else s.facGo f c fun c =>
      if s.preempting f then s.segment f c 128
      else
        let s := if op = 4 then s.attnArea f else s
        let (c, s) := State.doTiles f (c.tiles - c.tile) (c, s)
        let (c, s) := s.facEnd f c
        s.setCur f (some c)

/-! ### Completion (R77, R86, R107) -/

/-- The status that a command ends with (R75, R87, R107, R425, R426). -/
def FacetCmd.final (c : FacetCmd) : St :=
  if c.status ≠ ST_OK then c.status
  else if c.flags &&& 0x01EF ≠ 0 then ST_OK_FLAGGED
  else ST_OK

/-- Where STAT_ADDR may be written. -/
def State.statWritable (s : State) (a : Nat) : Bool := a != 0 && s.statOk a 64

/-- The statistics area (R77, R107); `ran` is false for a command that wrote nothing else. A command
ended by ABORT or by its power domain has the flags and the signature of what it wrote, and zero for the
tiles and rows that it did not complete (DESIGN CHOICE, log entry 12). -/
def FacetCmd.stats (c : FacetCmd) (st : St) (ran : Bool) : List Byte :=
  let d := facDesc c.desc
  let fl := if ran then c.flags.toNat else 0
  let cyc := fieldN c.desc 0x74 4
  let sig := ran && bitsN d.flags 4 1 = 1
  let bytes := c.out.map (·.2)
  let hd := leBytes 8 (if sig then (crc64 bytes).toNat else 0) ++ leBytes 8 (if sig then bytes.length else 0)
    ++ leBytes 4 cyc ++ leBytes 2 d.task ++ leBytes 2 st.toNat ++ leBytes 2 fl ++ List.replicate 38 0
  if !ran then hd
  else
    let tiles (n : Nat) (m : KMap Word) : List Byte := (List.range n).flatMap fun t => leBytes 4 (kget 0 m t).toNat
    let pad (b : List Byte) : List Byte := b ++ List.replicate (up64 b.length - b.length) 0
    if c.opcode = 4 then
      let a := attnDesc c.desc
      let b := hd ++ if a.mseEn then tiles (a.qt * ceilDiv a.cols 64) (a.mses c.errs) else []
      pad b ++ (List.range (a.nq * a.nh)).map fun i => kget 0 c.rowFlags i
    else
      let b := hd ++ if d.fl 3 then tiles (d.rt * d.ct) c.mse else []
      if d.fl 2 then
        pad b ++ (List.range d.m).flatMap fun i => leBytes 2 (match kget none c.best i with | some x => x.idx | none => 0)
      else b

/-- The bits of FAC_FLAGS that a command's flags set (R88). -/
def facFlagBits (fl : BitVec 16) : Word :=
  BitVec.ofNat 32 (fl.toNat % 8 + bitsN fl.toNat 4 1 * 16 + bitsN fl.toNat 3 1 * 32
    + bitsN fl.toNat 8 1 * 128)

/-- A cut task of a cycle found no DSC entry (R201). -/
def State.noteCutVoid (s : State) (task : Nat) (cyc : Word) : State :=
  { s with model := { s.model with cutVoids := ((task, cyc) :: s.model.cutVoids).take 4096 } }

/-- The SCP learns the status of an ended command (R86). -/
def State.noteEnd (s : State) (task cyc : Nat) (st : St) : State :=
  { s with model := { s.model with ended := s.model.ended ++ [(task, cyc, st)] } }

/-- A command ends: status, statistics, flags, counts, log, and the two sync objects with the
failure first (R86). -/
def State.facFinish (s : State) (f : Nat) (c : FacetCmd) (st0 : St) (ran : Bool) : State :=
  let d := facDesc c.desc
  let (st, s) :=
    if s.statWritable d.stat then
      let (w, s) := s.facWrite f ST_OK d.stat (c.stats st0 ran)
      (if st0 = ST_OK || st0 = ST_OK_FLAGGED then (if w ≠ ST_OK then w else st0) else st0, s)
    else (st0, s)
  let s := if c.flags &&& 8 ≠ 0 then s.log ST_ECC_UNCORRECTED (mFacet f) EV_ECC 0 else s
  let s := if c.flags &&& 0x100 ≠ 0 then s.log ST_OK_FLAGGED (mFacet f) EV_REQUEST_REFUSED 0xFFFF else s
  let s := s.wr (FAC_FLAGS f) (s.rd (FAC_FLAGS f) ||| facFlagBits c.flags)
  let s := if ran && d.op ≠ 4 && d.fl 6 then
      s.wrN (FAC_DELTA_CNT f) (min c.deltaUpd 0xFFFF * 65536 + min c.deltaFull 0xFFFF) else s
  let s := if ran && d.op = 4 then
      s.wrN (FAC_ATTN_CNT f) (min c.deepRows 0xFFFF * 65536 + min c.rescales 0xFFFF) else s
  let s := (s.wrN (FAC_LAST f) (d.task * 65536 + st.toNat)).noteEnd d.task (fieldN c.desc 0x74 4) st
  let s := if st = ST_OK || st = ST_OK_FLAGGED then s else s.bumpSo (mFacet f) d.errSo 1
  s.bumpSo (mFacet f) d.doneSo 1

/-- Where the engine goes when its command has ended (R83, R84, R86). -/
def State.facAfter (s : State) (f : Nat) : State :=
  let s := s.setCur f none
  if s.facState f = facURGENT then s.setFacState f facPREEMPTED
  else if s.flag (FAC_CTL_PREEMPT f) then
    (s.setFacState f facPREEMPTED).setF (FAC_CTL_PREEMPT f) 0
  else s.setFacState f facIDLE

/-- A command ends early with a status: the tiles that it completed keep their outputs, the block scales
among them (R84, R87). -/
def State.facEndEarly (s : State) (f : Nat) (c : FacetCmd) (st : St) : State :=
  let o := if c.opcode = 4 then (attnDesc c.desc).outSpec else (facDesc c.desc).outSpec
  let (c, s) := if c.checked && !c.done then s.putPlane f o c else (c, s)
  s.facFinish f c st c.checked

/-- The status that a command ends with when its domain goes off: the first that it met (R87). -/
def FacetCmd.offStatus (c : FacetCmd) : St := if c.status ≠ ST_OK then c.status else ST_BAD_STATE

/-- The command in progress ends with ST_BAD_STATE because its power domain is switched off (R87). A
request to pre-empt that is pending ends with the command that it was made for (DESIGN CHOICE, log
entry 97). -/
def State.facPowerOff (s : State) (f : Nat) : State :=
  let x := s.facet f
  let s := match x.cur with
    | some c => s.facEndEarly f c c.offStatus
    | none => s
  let s := match x.ctx, x.restoring with
    | some c, false => s.facEndEarly f c c.offStatus
    | _, _ => s
  let s := s.setFacet f { s.facet f with cur := none, ctx := none, saving := false, restoring := false }
  ((s.setF (FAC_STATUS_CTX_VALID f) 0).setF (FAC_CTL_PREEMPT f) 0).setFacState f facOFF

/-! ### Fetching a descriptor (R86) -/

/-- Fetch a 128-byte descriptor: the status of the fetch and its bytes. The copy that the SCP
holds of a template is always readable. -/
def State.fetchDesc (s : State) (f : Nat) (q : QDesc) : (St × List Byte) × State :=
  match q with
  | .held b => ((ST_OK, b), s)
  | .at a =>
    let (r, s) := s.readLong (mFacet f) a 128
    ((if r.st ≠ ST_OK then r.st else if r.bad then ST_ECC_UNCORRECTED else ST_OK, r.data), s)

/-- The device address of a queued descriptor, 0 for the SCP's copy. -/
def QDesc.addr : QDesc → BitVec 64
  | .at a => a
  | .held _ => 0

/-- The SCP learns that a descriptor could not be read: from its copy of the template it increments
ERR_SO and then DONE_SO of the task that it runs on the engine, and it has the status for the task's
result descriptor (R17, R86). -/
def State.scpUnreadable (s : State) (f : Nat) (st : St) : State :=
  let s := s.report (.descUnreadable f st)
  let run := s.model.insts.findSome? fun i => (i.running.find? fun r =>
    r.cand = f && (s.model.pkg.any fun p => p.tasks.any fun t => t.id = r.task && t.kind ≤ 1)).map fun r => (i, r)
  match s.model.pkg, run with
  | some p, some (i, r) =>
    match p.tasks.find? fun t => t.id = r.task with
    | none => s
    | some t =>
      let n := s.model.ended.countP fun e => e.1 = t.id && e.2.1 = i.cyc.toNat
      let d := facDesc (tmplOf p.graph t (min n (t.ndesc - 1)))
      ((s.noteEnd t.id i.cyc.toNat st).bumpSo mSCP d.errSo 1).bumpSo mSCP d.doneSo 1
  | _, _ => s

/-- A descriptor that cannot be read (R86). -/
def State.descError (s : State) (f : Nat) (a : BitVec 64) (st : St) : State :=
  let s := (s.setF (FAC_FLAGS_DESC_ERR f) 1).wrN (FAC_LAST f) (0xFFFF * 65536 + st.toNat)
  let s := if st = ST_ECC_UNCORRECTED then s.log st (mFacet f) EV_ECC 0 a
    else s.log st (mFacet f) EV_REQUEST_REFUSED (s.target (mFacet f) a).master a
  s.scpUnreadable f st

/-- A fetched command: an undefined opcode ends it at once with ST_BAD_OPCODE (R64 check 1). -/
def freshCmd (b : List Byte) (urgent : Bool) : FacetCmd :=
  let op := fieldN b 0 2
  let c : FacetCmd := { desc := b, urgent := urgent }
  if 1 ≤ op && op ≤ 5 then c else { c with status := ST_BAD_OPCODE, refused := true, done := true }

/-! ### The commands -/

/-- SUBMIT_DESCRIPTOR (R86, R88). -/
def State.submit (s : State) (src f : Nat) (hi : Word) : State :=
  if src ≠ mSCP then s.refuseWrite ST_NOT_PERMITTED src (FAC_DESC_HI f)
  else if 4 ≤ (s.facet f).queue.length then
    (s.setF (FAC_FLAGS_QOVF f) 1).refuseWrite ST_BAD_STATE src (FAC_DESC_HI f)
  else
    let a := s.fld (FAC_DESC_LO_ADDR_LO f) * 64 + hi.toNat * 2 ^ 32
    (s.setFacQueue f ((s.facet f).queue ++ [.at (BitVec.ofNat 64 a)])).answer ST_OK

def execSubmitDescriptor (src : Nat) (f : Fin 32) (hi : Word) (s : State) : Out :=
  .next (s.submit src f.val hi)

/-- DESCRIPTOR_FETCH (R86): an idle engine takes the head of its queue. -/
def execDescriptorFetch (f : Fin 32) (s : State) : Out :=
  let f := f.val
  match (s.facet f).queue with
  | [] => .next s
  | a :: q =>
    if s.facState f ≠ facIDLE || (s.facet f).cur.isSome then .next s
    else
      if s.claspMeets (mFacet f) a.addr.toNat 128 then .next (s.waited (mFacet f))
      else
      let s := s.setFacQueue f q
      let ((st, b), s) := s.fetchDesc f a
      if st ≠ ST_OK then .next (s.descError f a.addr st)
      else .next ((s.setCur f (some (freshCmd b false))).setFacState f facRUNNING)

/-- MATMUL (R65). -/
def execMatmul (f : Fin 32) (s : State) : Out := .next (s.facWork f.val 1)

/-- CONV (R69). -/
def execConv (f : Fin 32) (s : State) : Out := .next (s.facWork f.val 2)

/-- POOL (R71). -/
def execPool (f : Fin 32) (s : State) : Out := .next (s.facWork f.val 3)

/-- ATTN (R90). -/
def execAttn (f : Fin 32) (s : State) : Out := .next (s.facWork f.val 4)

/-- WCOMBINE (R425). -/
def execWcombine (f : Fin 32) (s : State) : Out := .next (s.facWork f.val 5)

/-- The statistics area lies in a memory at which another master's clasp is open (R155). -/
def State.statHolds (s : State) (f : Nat) (c : FacetCmd) : Bool :=
  let d := facDesc c.desc
  d.stat != 0 && s.claspMeets (mFacet f) d.stat (c.stats c.final (!c.refused)).length

/-- FACET_COMMAND_COMPLETE (R86): a command whose work is done ends. -/
def execFacetCommandComplete (f : Fin 32) (s : State) : Out :=
  let f := f.val
  match (s.facet f).cur with
  | none => .next s
  | some c =>
    if !c.done then .next s
    else if s.statHolds f c then .next (s.waited (mFacet f))
    else .next ((s.facFinish f c c.final (!c.refused)).facAfter f)

/-- PREEMPT (R83, R84): pending until the next segment boundary; ignored outside RUNNING. -/
def State.preemptReq (s : State) (src f : Nat) : State :=
  if src ≠ mSCP then s.refuseWrite ST_NOT_PERMITTED src (FAC_CTL f)
  else if s.facState f = facRUNNING then (s.setF (FAC_CTL_PREEMPT f) 1).answer ST_OK
  else s.answer ST_OK

def execPreempt (src : Nat) (f : Fin 32) (s : State) : Out := .next (s.preemptReq src f.val)

/-- K_SEGMENT_END (R82, R83, R108). -/
def execKSegmentEnd (f : Fin 32) (blocks : Nat) (s : State) : Out :=
  match s.facActive f.val with
  | none => .next s
  | some c => .next (s.facGo f.val c fun c => s.segment f.val c blocks)

/-- The saved wide sums in the save area, cell (i, j) at 32 × (64 i + j) (R60, R83). -/
def State.saveSums (s : State) (f cols : Nat) (ws : List WideSum) : State :=
  let base := s.physFacet f * 0x200000 + 0x1E0000
  let cell (k : Nat) : List Byte :=
    if k % 64 < cols then (ws.getD (k / 64 * cols + k % 64) {}).bytes else ({} : WideSum).bytes
  let b := (List.range 4096).flatMap cell
  s.setMem .fom ((s.mems.fom.clean 8 base b.length).putBytes base b)

/-- Reload the sums of the save area. -/
def State.loadSums (s : State) (f cols rows : Nat) : List WideSum :=
  let base := s.physFacet f * 0x200000 + 0x1E0000
  (List.range rows).flatMap fun i => (List.range cols).map fun j =>
    WideSum.ofBytes (s.mems.fom.bytes (base + 32 * (64 * i + j)) 32)

/-- Columns of the current tile in the array. -/
def FacetCmd.tileCols (c : FacetCmd) : Nat :=
  if c.opcode = 4 then 64
  else ((facDesc c.desc).cols (c.tile % (facDesc c.desc).ct)).length

/-- Rows of the current tile in the array. -/
def FacetCmd.tileRows (c : FacetCmd) : Nat :=
  if c.opcode = 4 then 64
  else ((facDesc c.desc).rows (c.tile / (facDesc c.desc).ct)).length

/-- PREEMPT_SAVE_COMPLETE (R83). -/
def execPreemptSaveComplete (f : Fin 32) (s : State) : Out :=
  let f := f.val
  let x := s.facet f
  match x.cur with
  | none => .next s
  | some c =>
    if !x.saving then .next s
    else
      let s := (s.saveSums f c.tileCols c.sums).facClocks f 64
      let s := s.setFacet f { s.facet f with cur := none, ctx := some c, saving := false }
      .next (((s.setF (FAC_STATUS_CTX_VALID f) 1).setF (FAC_CTL_PREEMPT f) 0).setFacState f facPREEMPTED)

/-- A descriptor taken through FAC_URGENT in PREEMPTED (R84, R108). One that uses DELTA and fails a check
of R64 too ends with the status of that check (DESIGN CHOICE, log entry 98). -/
def State.urgentTake (s : State) (f : Nat) (q : QDesc) : State :=
  let ((st, b), s) := s.fetchDesc f q
  if st ≠ ST_OK then s.descError f q.addr st
  else
    let c := freshCmd b true
    if c.opcode = 4 then s.facFinish f c ST_BAD_STATE false
    else
      let st := if c.done then c.status else s.cmdCheck f c
      let st := if st = ST_OK && (facDesc b).fl 6 then ST_BAD_FIELD else st
      let c := if st = ST_OK then { c with checked := true } else { c with status := st, refused := true, done := true }
      (s.setCur f (some c)).setFacState f facURGENT

/-- FAC_URGENT (R84, R88, R108). R88 names no status for a write outside PREEMPTED: it is ST_BAD_STATE
(DESIGN CHOICE, log entry 99). -/
def State.urgent (s : State) (src f : Nat) (hi : Word) : State :=
  if src ≠ mSCP then s.refuseWrite ST_NOT_PERMITTED src (FAC_URGENT_HI f)
  else if s.facState f ≠ facPREEMPTED || (s.facet f).cur.isSome then
    s.refuseWrite ST_BAD_STATE src (FAC_URGENT_HI f)
  else
    let a := BitVec.ofNat 64 (s.fld (FAC_URGENT_LO_ADDR_LO f) * 64 + hi.toNat * 2 ^ 32)
    (s.urgentTake f (.at a)).answer ST_OK

def execFacUrgent (src : Nat) (f : Fin 32) (hi : Word) (s : State) : Out :=
  .next (s.urgent src f.val hi)

/-- FACET_RESUME (R84): the reload starts, or with CTX_VALID clear the engine is idle. -/
def State.facResume (s : State) (src f : Nat) : State :=
  if src ≠ mSCP then s.refuseWrite ST_NOT_PERMITTED src (FAC_CTL f)
  else if s.facState f ≠ facPREEMPTED then s.answer ST_OK
  else
    match (s.facet f).ctx with
    | none => (s.setFacState f facIDLE).answer ST_OK
    | some c =>
      let s := s.setFacet f { s.facet f with cur := some c, restoring := true }
      (s.setFacState f facRUNNING).answer ST_OK

def execFacetResume (src : Nat) (f : Fin 32) (s : State) : Out := .next (s.facResume src f.val)

/-- The array takes the sums of the save area. -/
def FacetCmd.reload (c : FacetCmd) (ws : List WideSum) : FacetCmd :=
  { c with sums := ws, attn := c.attn.map fun u => u.reload (attnDesc c.desc) c.block ws }

/-- FACET_CONTEXT_RESTORED (R84): the sums and the position are those of the save area. -/
def execFacetContextRestored (f : Fin 32) (s : State) : Out :=
  let f := f.val
  let x := s.facet f
  match x.cur, x.restoring with
  | some c, true =>
    let c := if c.block = 0 then c else c.reload (s.loadSums f c.tileCols c.tileRows)
    let s := s.setFacet f { x with cur := some c, ctx := none, restoring := false }
    .next ((s.facClocks f 64).setF (FAC_STATUS_CTX_VALID f) 0)
  | _, _ => .next s

/-- FACET_ABORT (R84): the saved command completes with ST_BAD_STATE; the tiles it completed
keep their outputs. -/
def State.facAbort (s : State) (src f : Nat) : State :=
  if src ≠ mSCP then s.refuseWrite ST_NOT_PERMITTED src (FAC_CTL f)
  else if s.facState f ≠ facPREEMPTED then s.answer ST_OK
  else
    match (s.facet f).ctx with
    | none => (s.setFacState f facIDLE).answer ST_OK
    | some c =>
      let s := s.facEndEarly f c ST_BAD_STATE
      let s := s.setFacet f { s.facet f with ctx := none }
      ((s.setF (FAC_STATUS_CTX_VALID f) 0).setFacState f facIDLE).answer ST_OK

def execFacetAbort (src : Nat) (f : Fin 32) (s : State) : Out := .next (s.facAbort src f.val)

/-- A write to FAC_CTL: ABORT prevails over RESUME; an ignored bit leaves no trace (R84). -/
def State.facCtlWrite (s : State) (src f : Nat) (v : Word) : State :=
  if src ≠ mSCP then s.refuseWrite ST_NOT_PERMITTED src (FAC_CTL f)
  else
    let s := if v.getLsbD 0 then s.preemptReq src f else s
    if v.getLsbD 2 then s.facAbort src f
    else if v.getLsbD 1 then s.facResume src f
    else s.answer ST_OK

end Sys2Proof.Machine
end

