-- ==== Sys2Proof/Machine/Outputs.lean ====
section
/-! DEFINITION. Declared outputs and their result descriptors, invalid-result counts, and the
age monitor's instances (R258, R259, R263, R264, R396, R397). -/

namespace Sys2Proof.Machine

/-! ### Outputs (R396, R397) -/

/-- The declared outputs of the resident package. -/
def State.decls (s : State) : List RingDecl :=
  match s.model.pkg with
  | some p => p.rings
  | none => []

/-- The safety annex of the resident package. -/
def State.annex (s : State) : Option Annex := s.model.pkg.bind Package.annex

/-- The network whose execution A ends in a task (R252). -/
def State.netOfTask (s : State) (task : Nat) : Option Net :=
  s.annex.bind fun a => a.nets.find? fun n => n.sigTask = task

/-- The record of output `k` in a cycle, if there is one. -/
def State.out? (s : State) (k : Nat) (cyc : Word) : Option OutSt :=
  s.model.outs.find? fun o => o.ring = k && o.cyc = cyc

/-- The record of output `k` in a cycle. -/
def State.outSt (s : State) (k : Nat) (cyc : Word) : OutSt := (s.out? k cyc).getD { ring := k, cyc := cyc }

/-- Put a record, dropping those of the output that lie 2^10 cycles and more behind it. -/
def State.putOut (s : State) (o : OutSt) : State :=
  let keep := s.model.outs.filter fun x =>
    !(x.ring = o.ring && (x.cyc = o.cyc || 1024 ≤ diffC 32 o.cyc.toNat x.cyc.toNat))
  { s with model := { s.model with outs := keep ++ [o] } }

/-- Address of the descriptor of output `k` in a cycle. -/
def State.outAddr (s : State) (k : Nat) (cyc : Word) : Option Nat := (s.decls[k]?).map fun d => descAddr d cyc

/-- Flags set before the SCP has written the cycle's descriptor enter it then (R264). -/
def State.markOut (s : State) (src k : Nat) (cyc : Word) (fl : Nat) (st : Option St) : State :=
  match s.outAddr k cyc with
  | none => s
  | some a =>
    let o := s.outSt k cyc
    if o.opened then
      let s := match st with
        | some st => s.descFail src a cyc st
        | none => s
      s.descFlag src a cyc fl
    else s.putOut { o with early := o.early ||| fl, earlySt := if o.earlySt = 0 then st.getD 0 else o.earlySt }

/-- Samples per batch (R203). -/
def State.batchLen (s : State) (c : Nat) : Nat := s.fld (IFE_CUT_BATCH c) + 1

/-- The batch of a sample index (R203). -/
def State.batchOf (s : State) (c : Nat) (idx : Word) : Nat := idx.toNat / s.batchLen c

/-- An image of the batch that holds a sample is VOID: a result over the batch is derived from it
(R196; log entry 106). -/
def State.sampleVoid (s : State) (c idx : Nat) : Bool :=
  (s.cam c).voids.any fun k => s.batchOf c k = idx / s.batchLen c

/-- The SCP writes the descriptor of output `k` when its window instance opens (R396, R397). -/
def State.openOut (s : State) (k : Nat) (cyc : Word) : State :=
  match s.decls[k]? with
  | none => s
  | some d =>
    let o := s.outSt k cyc
    let sample := if d.stream ≤ 3 && (s.cam d.stream).next ≠ 0 then (s.rd (IFE_LAST_IDX d.stream)).toNat
      else 0xFFFFFFFF
    let st := if s.safety.outInvalid then ST_SAFE_STATE.toNat else 0
    let st := if st = 0 then o.earlySt.toNat else st
    (s.putOut { o with opened := true }).putDesc mSCP (descAddr d cyc)
      ⟨cyc.toNat, d.task, st, o.early, sample⟩

/-- VALID is set when everything that R397 asks for holds. -/
def State.validateOut (s : State) (k : Nat) (cyc : Word) : State :=
  match s.decls[k]? with
  | none => s
  | some r =>
    let a := descAddr r cyc
    let o := s.outSt k cyc
    let d := s.desc a
    let net := (s.netOfTask r.task).isSome
    let pair := s.fld PLK_CFG_MODE = 1 && (s.model.pkg.map Package.pair).getD false
    if o.done && (!net || (o.eq && (!pair || o.cross))) && d.cyc = cyc.toNat && d.status ≤ 1
        && d.flags &&& 0xE = 0 && s.mayValid cyc then s.descFlag mSCP a cyc dVALID
    else s

/-- The outputs that output `k` depends on (R397). -/
def State.upOuts (s : State) (k : Nat) : List Nat :=
  match s.model.pkg, s.decls[k]? with
  | some p, some r =>
    let ups := (upTasks p p.tasks.length [r.task]).filter (· ≠ r.task)
    (List.range p.rings.length).filter fun j =>
      match p.rings[j]? with
      | some q => j ≠ k && ups.contains q.task
      | none => false
  | _, _ => []

/-- The outputs whose final task is `task`. -/
def State.outsOf (s : State) (task : Nat) : List Nat :=
  (List.range s.decls.length).filter fun k =>
    match s.decls[k]? with
    | some d => d.task = task
    | none => false

/-! ### Invalid results (R259) -/

def State.netSt (s : State) (n : Nat) : NetSt := kget {} s.safety.nets n
def State.setNet (s : State) (n : Nat) (x : NetSt) : State :=
  { s with safety := { s.safety with nets := kput n x s.safety.nets } }

/-- The age-monitor instance of a network for a cycle is open. -/
def State.agmOpenFor (s : State) (n : Net) (cyc : Word) : Bool :=
  s.safety.agmInsts.any fun i => i.live && i.entry = n.agm && i.cyc = cyc

/-- A cycle of a network is judged invalid at the first report; later ones change no count
(R259). Madder judges while it runs (log entry 50). -/
def State.judgeInvalid (s : State) (n : Net) (cyc : Word) : State :=
  let x := s.netSt n.net
  if s.procState 1 ≠ procRUN || x.judged.contains cyc || !s.agmOpenFor n cyc then s
  else
    let bad := (cyc :: x.bad).filter fun b => diffC 32 cyc.toNat b.toNat < s.safety.params.invWinCyc
    let x' : NetSt := ⟨x.consec + 1, bad, (cyc :: x.judged).take 65536⟩
    let s := s.setNet n.net x'
    if s.safety.params.invConsec ≤ x'.consec || s.safety.params.invWinN ≤ x'.bad.length then
      s.safeEnter cINVALID_LIMIT
    else s

/-- A cycle of a network is judged valid (R259). -/
def State.judgeValid (s : State) (n : Net) (cyc : Word) : State :=
  let x := s.netSt n.net
  if s.procState 1 ≠ procRUN || x.judged.contains cyc then s
  else s.setNet n.net { x with consec := 0, judged := (cyc :: x.judged).take 65536 }

/-- The results of a network in a cycle. -/
def State.netOuts (s : State) (n : Net) : List Nat := s.outsOf n.sigTask

/-- The result of output `k` is reported VOID or STALE: of a network, the report reaches the SFP, and the
first one judges the cycle invalid (R259, R277). -/
def State.reportOut (s : State) (src k : Nat) (cyc : Word) (st : St) : State :=
  match (s.decls[k]?).bind fun d => s.netOfTask d.task with
  | some n => (s.sfpEvent src 1 st).judgeInvalid n cyc
  | none => s

/-- The result of output `k` carries STALE, with a status where the spec gives one, and is reported (R259). -/
def State.staleOut (s : State) (k : Nat) (cyc : Word) (st : Option St) : State :=
  (s.markOut mSCP k cyc dSTALE st).reportOut mSCP k cyc (st.getD ST_RESULT_STALE)

/-! ### Completion (R397) -/

/-- Output `k` is complete with a status: it takes the flags of the outputs it depends on and of its sample,
ST_SAFE_STATE in the safe state (R269), and VALID where R397 allows it. A VOID or STALE result of a network is
reported (R259, R277). -/
def State.completeOut (s : State) (k : Nat) (cyc : Word) (st : St) (void : Bool) : State :=
  match s.decls[k]? with
  | none => s
  | some r =>
    let a := descAddr r cyc
    let s := if st = ST_OK then s else if st = ST_OK_FLAGGED then s.descFlagged mSCP a cyc
      else s.descFail mSCP a cyc st
    let s := if s.safety.outInvalid && (s.desc a).status ≠ ST_SAFE_STATE.toNat
      then s.descFail mSCP a cyc ST_SAFE_STATE else s
    let up := (s.upOuts k).foldl (fun f j =>
      match s.outAddr j cyc with
      | some b => if (s.desc b).cyc = cyc.toNat then f ||| ((s.desc b).flags &&& 0x1E) else f
      | none => f) 0
    let d := s.desc a
    let vd := void || (r.stream ≤ 3 && d.sample ≠ 0xFFFFFFFF && s.sampleVoid r.stream d.sample)
    let fl := up ||| (if vd then dVOID else 0)
    let s := if fl = 0 then s else s.descFlag mSCP a cyc fl
    let s := if fl &&& (dVOID ||| dSTALE) = 0 then s
      else s.reportOut mSCP k cyc (if fl &&& dVOID = 0 then ST_RESULT_STALE else ST_OK)
    (s.putOut { s.outSt k cyc with done := true }).validateOut k cyc

/-- The result of output `k` in a cycle is invalid: it carries MISMATCH, STALE or VOID, or there
is none (R259, R265). -/
def State.outInvalid (s : State) (k : Nat) (cyc : Word) : Bool :=
  match s.outAddr k cyc with
  | none => true
  | some a =>
    let d := s.desc a
    !(s.outSt k cyc).done || d.cyc ≠ cyc.toNat || d.flags &&& 0xE ≠ 0

/-- An age-monitor entry that covers output `k`: its network's, or one that watches a sync
object that its final task increments (R174, R263). -/
def State.covered (s : State) (k : Nat) : Bool :=
  match s.model.pkg, s.decls[k]? with
  | some p, some r =>
    match p.annex with
    | none => false
    | some a =>
      (s.netOfTask r.task).isSome || (match p.tasks.find? fun t => t.id = r.task with
        | some t =>
          let dones := (List.range t.ndesc).map fun i => (tmplSos t.kind (tmplOf p.graph t i)).headD 0xFFFF
          a.agm.any fun e => dones.contains e.so
        | none => false)
  | _, _ => false

/-! ### The age monitor (R263, R264) -/

/-- TB7 in whole µs. -/
def State.tb7Us (s : State) : Nat := s.tbNs 7 / 1000

/-- Open an instance of an entry at TB7 time `t0`; TARGET moves on by INC for the next one. -/
def State.agmOpen (s : State) (k : Nat) (e : AgmEnt) (t0 : Nat) (cyc : Word) : State :=
  let t := kget 0 s.safety.agmTarget k
  { s with safety := { s.safety with
      agmInsts := s.safety.agmInsts ++ [{
        entry := k, ent := e, target := t, t0 := t0, cyc := cyc
        met := if soMet (s.so e.so) t then some t0 else none }]
      agmSeen := kput k (some cyc) s.safety.agmSeen
      agmTarget := kput k (t + BitVec.ofNat 32 e.inc) s.safety.agmTarget } }

/-- Open the instances of the entries with an origin and a source (R263). -/
def State.agmOrigin (s : State) (origin src t0 : Nat) (cyc : Word) (once : Bool) : State :=
  if !s.safety.agmArmed then s
  else
    match s.annex with
    | none => s
    | some a =>
      s.each (List.range a.agm.length) fun s i =>
        match a.agm[i]? with
        | none => s
        | some e =>
          if e.origin ≠ origin || (origin ≠ 0 && e.src ≠ src)
              || (once && kget none s.safety.agmSeen i == some cyc) then s
          else s.agmOpen i e t0 cyc

/-- Arm the monitor: each entry's target is the count of its object plus INC (R264). -/
def State.agmArm (s : State) : State :=
  match s.annex with
  | none => s
  | some a =>
    let t := (List.range a.agm.length).map fun i =>
      match a.agm[i]? with
      | some e => (i, s.so e.so + BitVec.ofNat 32 e.inc)
      | none => (i, 0)
    { s with safety := { s.safety with agmArmed := true, agmTarget := t, agmSeen := [] } }

/-- Disarm the monitor: instances already open are still judged (R264). -/
def State.agmDisarm (s : State) : State := { s with safety := { s.safety with agmArmed := false } }

end Sys2Proof.Machine
end

