-- ==== Sys2Proof/Machine/Schedule.lean ====
section
/-! DEFINITION. The SCP's scheduling: windows, tasks, engines, shares (R171–R186, R265, R314,
R431). -/

namespace Sys2Proof.Machine

/-! ### Package data -/

/-- The SCP runs (R314). -/
def State.scpUp (s : State) : Bool := s.procState 0 == procRUN

/-- MODEL takes a state. -/
def State.setModelFn (s : State) (x : FnState) (st : St) : State :=
  ({ s with model := { s.model with fn := x } }).fnEvent fMODEL s.model.fn.code x.code st

/-- The window opens in a cycle (R171). -/
def Window.sel (w : Window) (cyc : Word) : Bool := cyc.toNat % w.rateDiv == w.rateOfs

def Package.window (p : Package) (w : Nat) : Option Window := p.windows[w]?

def Package.task (p : Package) (t : Nat) : Option Task := p.tasks.find? fun x => x.id = t

/-- Position in GRAPH order. -/
def Package.order (p : Package) (t : Nat) : Nat := (p.tasks.map Task.id).idxOf t

/-- The window is time-triggered. Triage executions, numbered from 64, count as such (R260). -/
def Package.isTT (p : Package) (w : Nat) : Bool :=
  match p.window w with
  | some x => !x.share
  | none => 64 ≤ w

/-- The networks of the package. -/
def Package.nets (p : Package) : List Net := (p.annex.map Annex.nets).getD []

/-- Power domain of an engine. -/
def State.keyDom (s : State) (k : Nat) : Nat :=
  if k < 100 then domFacet (s.physFacet k) else domRegion (beadRegion (k - 100))

/-! ### Instances -/

def State.inst? (s : State) (w : Nat) (cyc : Word) : Option Inst :=
  s.model.insts.find? fun i => i.win = w && i.cyc = cyc

def State.setInsts (s : State) (l : List Inst) : State := { s with model := { s.model with insts := l } }

def State.putInst (s : State) (i : Inst) : State :=
  s.setInsts (s.model.insts.map fun j => if j.win = i.win && j.cyc = i.cyc then i else j)

/-- A task belongs to a triage execution. -/
def Package.inC (p : Package) (t : Nat) : Bool := p.nets.any fun n => (p.execC n).any fun u => u.id = t

/-- The tasks of a window, in GRAPH order; those of a triage execution run only in triage, under
number 64 plus the network's (R260). -/
def Package.tasksOf (p : Package) (w : Nat) : List Task :=
  if w < 64 then
    p.tasks.filter fun t => t.window = w && !p.inC t.id
  else
    match p.nets.find? fun n => n.net = w - 64 with
    | some n => p.execC n
    | none => []

/-- A task of the instance has ended. -/
def Inst.isDone (i : Inst) (t : Nat) : Bool := i.done.any fun d => d.1 = t

/-- Every task of the instance has ended. -/
def Inst.complete (p : Package) (i : Inst) : Bool := (p.tasksOf i.win).all fun t => i.isDone t.id

/-- The latest cycle at or before `cyc` in which a window opens. -/
def Window.latest (w : Window) : Nat → Word → Word
  | 0, c => c
  | k + 1, c => if w.sel c then c else w.latest k (c - 1)

/-- A task that another depends on has completed: in the same cycle, or in the latest earlier
one in which its window opens (R174). -/
def State.depDone (s : State) (p : Package) (cyc : Word) (d : Nat) : Bool :=
  match p.task d with
  | none => false
  | some t =>
    match (if p.inC d then none else p.window t.window) with
    | none => s.model.insts.any fun j => 64 ≤ j.win && j.cyc = cyc && j.isDone d
    | some w =>
      let c := w.latest 64 cyc
      if diffC 32 c.toNat s.model.firstCycle.toNat < 0 then true
      else
        match s.inst? t.window c with
        | some i => i.isDone d
        | none =>
          match kget none s.model.opened t.window with
          | some o => reached 32 o.toNat c.toNat
          | none => false

/-- Earlier time-triggered work on the engines of a task: by cycle, window and GRAPH order
(R173, R174). Windows of the cycle that have not opened yet count. -/
def State.earlierWork (s : State) (p : Package) (w : Nat) (cyc : Word) (t : Task) : Bool :=
  let ks := p.keys t t.cand
  let hit (u : Task) : Bool := (p.keys u u.cand).any ks.contains
  (s.model.insts.any fun i => p.isTT i.win && (p.tasksOf i.win).any fun u =>
    !i.isDone u.id && hit u &&
      (diffC 32 i.cyc.toNat cyc.toNat < 0 ||
        (i.cyc = cyc && (i.win < w || (i.win = w && p.order u.id < p.order t.id)))))
  || (cyc = s.model.cycle && (List.range w).any fun v =>
      p.isTT v && (match p.window v with | some x => x.sel cyc | none => false)
        && kget none s.model.opened v ≠ some cyc && (p.tasksOf v).any hit)

/-- Time-triggered work pending or running on an engine (R178, R179). -/
def State.ttOn (s : State) (k : Nat) : Bool :=
  match s.model.pkg with
  | none => false
  | some p => s.model.insts.any fun i => p.isTT i.win && (p.tasksOf i.win).any fun u =>
      !i.isDone u.id && (p.keys u u.cand).contains k

/-- The running share task on an engine: its instance and record. -/
def State.shareOn (s : State) (k : Nat) : Option (Inst × RunTask) :=
  match s.model.pkg with
  | none => none
  | some p => (s.model.insts.filter fun i => !p.isTT i.win).findSome? fun i =>
      (i.running.find? fun r =>
        match p.task r.task with
        | some t => (p.keys t r.cand).contains k
        | none => false).map fun r => (i, r)

/-! ### Power (R175, R186) -/

/-- REQ of a domain (R175, R352). -/
def State.reqOf (s : State) (d : Nat) : Nat :=
  match s.model.pkg with
  | none => s.fld PWR_CFG_IDLE_OP
  | some p =>
    let fs := (List.range 32).filter fun f => s.physFacet f = d
    let pts := (s.model.insts.filter fun i => !i.late).flatMap fun i =>
      match p.window i.win with
      | none => []
      | some w =>
        let row (j : Nat) : Nat := p.phases.getD (64 * w.phase + j) 0
        if d < 34 then (fs.filter w.facets.getLsbD).map row
        else if w.regions.getLsbD (d - 34) then [row d] else []
    if pts.isEmpty then s.fld PWR_CFG_IDLE_OP else pts.foldl max 0

/-- Every request follows the open instances. -/
def State.reqUpdate (s : State) : State :=
  (s.each opDomains fun s d => s.setF (PWR_DOM_STAT_REQ d) (s.reqOf d)).powerUpdate

/-- A task boundary on a domain: a lowered or raised SW_CEIL takes effect (R186, R356), and the
kind of its current work is noted. -/
def State.boundaryDom (s : State) (d : Nat) : State :=
  let tt := match s.model.pkg with
    | none => 0
    | some p =>
      let on (b : Bool) : Bool := s.model.insts.any fun i => p.isTT i.win = b && i.running.any fun r =>
        match p.task r.task with
        | some t => (p.keys t r.cand).any fun k => s.keyDom k = d
        | none => false
      if on true then 2 else if on false then 1 else 0
  let s := s.setDom d { s.dom d with work := tt }
  s.setF (PWR_DOM_STAT_SW_CEIL d) (s.dom d).swNext

/-- A task writes wide sums: a member of a collective (R184). -/
def Package.sendsWide (p : Package) (t : Nat) : Bool :=
  match p.task t with
  | some u => u.kind = 0 && (List.range u.ndesc).any fun i => (facDesc (tmplOf p.graph u i)).outFmt = 4
  | none => false

/-- A task of a cycle has been dispatched, and has completed: its instance says so, or is gone. -/
def State.taskStage (s : State) (p : Package) (cyc : Word) (t : Nat) : Bool × Bool :=
  match p.task t with
  | none => (false, false)
  | some u =>
    match s.inst? u.window cyc with
    | some i => (i.isDone t || i.running.any fun r => r.task = t, i.isDone t)
    | none =>
      let gone := match kget none s.model.opened u.window with
        | some o => reached 32 o.toNat cyc.toNat
        | none => false
      (gone, gone)

/-- The task combines the wide sums of a collective: the root, a WCOMBINE on a Facet, or a program on
Beads that takes tasks which write wide sums (R184; log entry 104). -/
def Package.isRoot (p : Package) (t : Task) : Bool :=
  (t.kind = 0 && (List.range t.ndesc).any fun i => fieldN (tmplOf p.graph t i) 0 2 = 5)
    || (t.kind = 2 && t.deps.any p.sendsWide)

/-- The domains of the members of every active collective: from the dispatch of the first member
to the root's completion (R186), whether or not the root's window has opened. -/
def State.collUpdate (s : State) : State :=
  match s.model.pkg with
  | none => { s with power := { s.power with coll := [] } }
  | some p =>
    let cycs := (s.model.insts.map Inst.cyc).eraseDups
    let act := cycs.flatMap fun cyc => (p.tasks.filter p.isRoot).filterMap fun t =>
      let ms := t.id :: t.deps
      if (ms.any fun m => (s.taskStage p cyc m).1) && !(s.taskStage p cyc t.id).2 then
        some ((ms.flatMap fun m => match p.task m with
          | some u => (p.keys u u.cand).map s.keyDom
          | none => []).eraseDups)
      else none
    { s with power := { s.power with coll := act } }

/-- Engines have come to a task boundary: ceilings, collectives and grants follow. -/
def State.engineBoundary (s : State) (ks : List Nat) : State :=
  (s.each ((ks.map s.keyDom).eraseDups) State.boundaryDom).collUpdate.powerUpdate

/-! ### Dispatching templates (R431) -/

/-- Bytes of a template with a field of 4 bytes filled in. -/
def fill4 (b : List Byte) (o v : Nat) : List Byte := b.take o ++ leBytes 4 v ++ b.drop (o + 4)

/-- How far the sync objects of a run have advanced, in all. -/
def State.advanced (s : State) (r : RunTask) : Nat :=
  (r.dones.map fun d => (diffC 32 (s.so d.1).toNat d.2.1.toNat).toNat).sum

/-- Every increment that the task's templates make has been made. -/
def State.runDone (s : State) (r : RunTask) : Bool :=
  r.dones.all fun d => (d.2.2 : Int) ≤ diffC 32 (s.so d.1).toNat d.2.1.toNat

/-- The engine can take the next template. -/
def State.canSend (s : State) (p : Package) (t : Task) (tt : Bool) (r : RunTask) : Bool :=
  if t.kind ≤ 1 then
    let f := r.cand
    if r.urgent then s.facState f == facPREEMPTED && (s.facet f).cur.isNone
    else if tt then (s.facet f).queue.length < 4 && s.facState f ≠ facPREEMPTED
    else (s.facet f).queue.isEmpty && (s.facet f).cur.isNone && s.facState f == facIDLE
  else if t.kind = 2 || t.kind = 4 then
    (r.sent == 0 || ((List.range r.sent).map (p.nodesAt t)).sum ≤ s.advanced r)
      && (List.range (p.nodesAt t r.sent)).all fun i =>
      let st := s.beadState (r.cand + i)
      st == bdIDLE || st == bdFAULT || (tt && st == bdPARKED) || (0 < r.sent && st == bdRUNNING)
  else if t.kind = 3 then (s.bead r.cand).movers.length < 2
  else true

/-- The SCP writes a node's registers from a Bead program template and starts it (R177, R431). -/
def State.startNode (s : State) (n : Nat) (d : List Byte) : State :=
  let s := if s.beadState n = bdIDLE then s else s.beadStopOp mSCP n
  let win := fieldN d 0x10 2
  let ep := if win < 4096 then s.fld (ARB_WIN_CTL_EPOCH win) else 0
  let s := (s.wrN (BEAD_ENTRY n) (fieldN d 0 4)).wrN (BEAD_ARG n) (fieldN d 4 4)
  let s := (s.wrN (BEAD_RWIN_LO n) (fieldN d 8 4 / 2 ^ 31 * 2 ^ 31)).wrN (BEAD_RWIN_HI n) (fieldN d 12 4)
  let s := (s.wrN (BEAD_WIN n) (win + ep * 65536)).wrN (BEAD_ERR_SO n) (fieldN d 0x14 2 % 16384)
  let s := s.wrN (BEAD_SAVE n) (fieldN d 0x18 4)
  let b := s.bead n
  let s := s.setBead n { b with fcsr := (b.fcsr &&& 0x1F) ||| (BitVec.ofNat 8 (fieldN d 0x1C 1) <<< 5) }
  s.beadStartOp mSCP n

/-- The SCP hands a node-mover template to a node (R131, R431). -/
def State.startMover (s : State) (n : Nat) (d : List Byte) : State :=
  let win := fieldN d 0x14 2
  let ep := if win < 4096 then s.fld (ARB_WIN_CTL_EPOCH win) else 0
  let s := (s.wrN (BEAD_MOV_SRC_LO n) (fieldN d 0 4)).wrN (BEAD_MOV_SRC_HI n) (fieldN d 4 4)
  let s := (s.wrN (BEAD_MOV_DST_LO n) (fieldN d 8 4)).wrN (BEAD_MOV_DST_HI n) (fieldN d 12 4)
  let s := s.wrN (BEAD_MOV_LEN n) (fieldN d 16 4)
  let m : Mover :=
    { src := BitVec.ofNat 64 (fieldN d 0 8), dst := BitVec.ofNat 64 (fieldN d 8 8), len := fieldN d 16 4
      doneSo := fieldN d 0x16 2 % 16384, errSo := fieldN d 0x18 2 % 16384
      win := BitVec.ofNat 16 win, epoch := BitVec.ofNat 16 ep }
  s.setMovers n ((s.bead n).movers ++ [m])

/-- The sample of the current batch of a stream (R201). -/
def State.curSample (s : State) (c : Nat) : Nat := (s.rd (IFE_LAST_IDX c)).toNat

/-- Hand template `r.sent` of a task to its engine. -/
def State.send (s : State) (p : Package) (t : Task) (cyc : Word) (r : RunTask) : State :=
  let d := tmplOf p.graph t r.sent
  if t.kind ≤ 1 then
    let d := fill4 d 0x74 cyc.toNat
    if r.urgent then s.urgentTake r.cand (.held d)
    else s.setFacQueue r.cand ((s.facet r.cand).queue ++ [.held d])
  else if t.kind = 2 || t.kind = 4 then
    s.each ((List.range (p.nodesAt t r.sent)).map (r.cand + ·)) fun s n => s.startNode n d
  else if t.kind = 3 then s.startMover r.cand d
  else if t.kind = 5 then
    { s with safety := { s.safety with jobs := s.safety.jobs ++ [{ net := fieldN d 0 2, cyc := cyc }] } }
  else
    let c := byteN d 2
    let d := if fieldN d 4 4 = 0xFFFFFFFF then fill4 d 4 (s.curSample c) else d
    s.setCam c { s.cam c with cuts := (s.cam c).cuts ++ [fill4 d 0x1C cyc.toNat] }

/-- Hand over templates in order as long as the engine takes them. -/
def State.sendAll (p : Package) (t : Task) (cyc : Word) (tt : Bool) : Nat → State × RunTask → State × RunTask
  | 0, x => x
  | k + 1, (s, r) =>
    if r.sent < t.ndesc && s.canSend p t tt r then
      State.sendAll p t cyc tt k (s.send p t cyc r, { r with sent := r.sent + 1 })
    else (s, r)

/-- Time an engine has been out of service for its share task. -/
def State.outNs (s : State) (k : Nat) : Nat :=
  let x := if k < 100 then ((s.facet k).outNs, (s.facet k).outAt)
    else ((s.bead (k - 100)).outNs, (s.bead (k - 100)).outAt)
  x.1 + (match x.2 with | some t => sinceNs s.now t | none => 0)

/-- The record of a task that is dispatched now. -/
def State.newRun (s : State) (p : Package) (t : Task) (cand : Nat) (urgent : Bool) : RunTask :=
  let ds := (List.range t.ndesc).map fun i => tmplSos t.kind (tmplOf p.graph t i)
  let ns := ds.map fun d => d.headD 0
  let due (n : Nat) : Nat := ((List.range t.ndesc).map fun i => if ns.getD i 0 = n then p.nodesAt t i else 0).sum
  let ks := if t.kind = 5 then [] else ns.eraseDups
  { task := t.id, cand := cand, sent := 0
    dones := ks.map fun n => (n, s.so n, due n)
    errs := if t.kind = 5 then [] else ((ds.map fun d => d.getD 1 0).eraseDups).map fun n => (n, s.so n)
    since := s.now, excl := (p.keys t cand).map s.outNs, urgent := urgent }

/-! ### The end of a task (R86, R180, R397, R431) -/

/-- Engine time of a run up to now, over its engines (R180). -/
def State.runNs (s : State) (p : Package) (t : Task) (r : RunTask) : Nat :=
  (List.zipWith (fun k e => sinceNs s.now r.since - (s.outNs k - e)) (p.keys t r.cand) r.excl).sum

/-- Accounting of a share group. -/
def State.group (s : State) (g : Nat) : GroupAcc := kget {} s.model.accG g
def State.setGroup (s : State) (g : Nat) (x : GroupAcc) : State :=
  { s with model := { s.model with accG := kput g x s.model.accG } }
def State.winAcc (s : State) (w : Nat) : WinAcc := kget {} s.model.accW w
def State.setWinAcc (s : State) (w : Nat) (x : WinAcc) : State :=
  { s with model := { s.model with accW := kput w x s.model.accW } }

/-- Charge a share run to its group (R176, R180). -/
def State.charge (s : State) (p : Package) (t : Task) (r : RunTask) : State :=
  let g := s.group t.group
  s.setGroup t.group { g with engineNs := g.engineNs + s.runNs p t r }

/-- The status that a task's commands give it (R86, R395): the first failure, else whether one
was flagged. A failed program or transfer has no status of its own. -/
def State.runStatus (s : State) (t : Task) (cyc : Word) (r : RunTask) : St × State :=
  let mine := s.model.ended.filter fun e => e.1 = t.id && e.2.1 = cyc.toNat
  let s' := { s with model := { s.model with ended := s.model.ended.filter fun e => !(e.1 = t.id && e.2.1 = cyc.toNat) } }
  match mine.find? fun e => e.2.2 ≠ ST_OK && e.2.2 ≠ ST_OK_FLAGGED with
  | some e => (e.2.2, s')
  | none =>
    if mine.any fun e => e.2.2 = ST_OK_FLAGGED then (ST_OK_FLAGGED, s')
    else if mine.isEmpty && (r.errs.any fun e => s.so e.1 ≠ e.2) then
      if t.kind = 3 then (BitVec.ofNat 16 (s.fld (BEAD_MOV_STAT_ST r.cand)), s')
      else
        let (v, s') := s'.freshSt
        (if v.toNat < 0x1000 then v + 0x1000 else v, s')
    else (ST_OK, s')

/-- The cycle whose instance of a task's window a task of cycle `cyc` depends on (R174). -/
def Package.depCycle (p : Package) (cyc : Word) (d : Nat) : Word :=
  match p.task d with
  | some t => match (if p.inC d then none else p.window t.window) with
    | some w => w.latest 64 cyc
    | none => cyc
  | none => cyc

/-- A cut task that found no DSC entry lies upstream of a task of a cycle, through `n` dependencies
(R201). -/
def State.cutVoid (s : State) (p : Package) : Nat → Word → Nat → Bool
  | 0, _, _ => false
  | n + 1, cyc, t =>
    s.model.cutVoids.contains (t, cyc)
      || (((p.task t).map Task.deps).getD []).any fun d => s.cutVoid p n (p.depCycle cyc d) d

/-- MODEL has no instance left to run: it enters STOPPED (R187, R346). -/
def State.stopCheck (s : State) : State :=
  match s.model.pkg with
  | none => s
  | some p =>
    let left := s.model.tableOn && (List.range p.windows.length).any fun w =>
      (match p.window w with | some x => x.sel s.model.cycle | none => false)
        && kget none s.model.opened w ≠ some s.model.cycle
    if !s.model.stopping || left || !(s.model.insts.all (Inst.complete p)) then s
    else
      let via := s.model.stopVia
      let s := { s with model := { s.model with
        stopping := false, tableOn := false, stopVia := none, insts := [] } }
      let s := (s.agmDisarm.reqUpdate).setModelFn .stopped ST_OK
      match via with
      | some v => s.completeVia v ST_OK
      | none => s

/-- The instance has completed: LAST_CYCLE, and it goes once it has closed too (R173, R181). -/
def State.instCheck (s : State) (p : Package) (w : Nat) (cyc : Word) : State :=
  match s.inst? w cyc with
  | none => s
  | some i =>
    if !i.complete p then s
    else
      let s := if w < 64 then s.setWinAcc w { s.winAcc w with lastCycle := cyc } else s
      let s := if i.late then s.setInsts (s.model.insts.filter fun j => !(j.win = w && j.cyc = cyc)) else s
      s.stopCheck

/-- An engine without time-triggered work takes up displaced share work: RESUME of a Facet (R176), STOP
and the restore routine on a node (R177). -/
def State.handBack (s : State) (k : Nat) : State :=
  if s.ttOn k then s
  else if k < 100 then if s.facState k = facPREEMPTED then s.facResume mSCP k else s
  else
    let n := k - 100
    if (s.bead n).saved.isNone then s
    else if s.beadState n = bdPARKED then (s.beadStopOp mSCP n).beadRestore n
    else if s.beadState n = bdIDLE then s.beadRestore n
    else s

/-- The time of TB7 lies past a limit in ns after the boundary of an instance (R14, R174). -/
def State.pastNs (s : State) (i : Inst) (limit : Nat) : Bool := limit ≤ sinceNs (s.tbNs 7) i.boundary

/-- The instance is past its DEADLINE (R14, R174). -/
def State.pastDeadline (s : State) (p : Package) (i : Inst) : Bool :=
  match p.window i.win with
  | some w => s.pastNs i w.deadline
  | none => false

/-- A task of an instance has ended with a status. Its outputs carry STALE where it ends past the DEADLINE
and no age monitor judges them (R14). -/
def State.taskEnd (s : State) (p : Package) (w : Nat) (cyc : Word) (t : Task) (cand : Nat) (st : St) : State :=
  match s.inst? w cyc with
  | none => s
  | some i =>
    let s := s.putInst { i with running := i.running.filter (fun r => r.task ≠ t.id), done := i.done ++ [(t.id, st)] }
    let late := s.pastDeadline p i
    let s := s.each (s.outsOf t.id) fun s k =>
      let s := if late && !s.covered k then s.markOut mSCP k cyc dSTALE none else s
      s.completeOut k cyc st (s.cutVoid p (p.tasks.length + 1) cyc t.id)
    let s := if t.kind = 2 || t.kind = 4 then
        s.each ((List.range (p.nodes t)).map (cand + ·)) fun s n =>
          if s.beadState n = bdRUNNING then s.beadStopOp mSCP n else s
      else s
    let s := s.engineBoundary (p.keys t cand)
    let s := if p.isTT w then s.each (p.keys t cand) State.handBack else s
    s.instCheck p w cyc

/-- A share task goes back to the head of its group; what its commands ended with is forgotten, since it
is run again from its start (R176). -/
def State.requeue (s : State) (p : Package) (i : Inst) (r : RunTask) : State :=
  match p.task r.task with
  | none => s
  | some t =>
    let s := s.charge p t r
    let g := s.group t.group
    let s := s.setGroup t.group { g with aborts := g.aborts + 1 }
    let s := s.putInst { i with running := i.running.filter fun x => x.task ≠ r.task }
    { s with model := { s.model with
        requeued := (i.win, i.cyc, r.task) :: s.model.requeued
        ended := s.model.ended.filter fun e => !(e.1 = r.task && e.2.1 = i.cyc.toNat) } }

/-! ### Time-triggered dispatch (R173, R174, R176, R177, R265) -/

/-- A descriptor of KIND 0 or 1 uses DELTA or is an ATTN (R176). -/
def Package.usesDelta (p : Package) (t : Task) : Bool :=
  t.kind = 1 || (t.kind = 0 && (List.range t.ndesc).any fun i =>
    let d := tmplOf p.graph t i
    bitsN (fieldN d 2 2) 6 1 = 1 || fieldN d 0 2 = 4)

/-- The share work on a Facet is dealt with before its first time-triggered task: urgent
descriptors where none uses DELTA or ATTN, else ABORT and requeue (R176). -/
def State.claimFacet (s : State) (p : Package) (w f : Nat) : Bool × State :=
  if s.facState f ≠ facPREEMPTED then (false, s)
  else if ((p.tasksOf w).filter fun t => t.kind ≤ 1 && t.cand = f).any p.usesDelta then
    let sh := s.shareOn f
    let s := s.facAbort mSCP f
    (false, match sh with
      | some (i, r) => s.requeue p i r
      | none => s)
  else (true, s)

/-- The engines of a task hold no share work that still has to give way (R176, R177). A Facet between two
descriptors of a share task holds none. -/
def State.enginesFree (s : State) (p : Package) (t : Task) : Bool :=
  if t.kind ≤ 1 then
    (s.shareOn t.cand).isNone || s.facState t.cand == facPREEMPTED
      || (s.facState t.cand == facIDLE && (s.facet t.cand).cur.isNone && (s.facet t.cand).queue.isEmpty)
  else if t.kind = 2 || t.kind = 4 then
    (p.keys t t.cand).all fun k =>
      s.beadState (k - 100) == bdIDLE || s.beadState (k - 100) == bdPARKED || s.beadState (k - 100) == bdFAULT
  else true

/-- The status that keeps a setpoint hand-over from starting: the policy HOLD, the safe state, or an invalid
input of one of its templates (R265, R269, R301). -/
def State.handoverBar (s : State) (p : Package) (t : Task) (cyc : Word) : St :=
  if t.kind ≠ 4 then ST_OK
  else if s.handoverHeld ≠ ST_OK then s.handoverHeld
  else if (List.range t.ndesc).any fun i => s.outInvalid (fieldN (tmplOf p.graph t i) 0x1E 2) cyc then
    ST_RESULT_STALE
  else ST_OK

/-- The outputs that a task's failure reaches. -/
def Package.outsBelow (p : Package) (t : Nat) : List Nat :=
  (List.range p.rings.length).filter fun k =>
    match p.rings[k]? with
    | some r => (upTasks p p.tasks.length [r.task]).contains t
    | none => false

/-- The wait of a root has passed its timeout of DEADLINE plus one MAJOR (R185). -/
def State.pastWait (s : State) (p : Package) (i : Inst) : Bool :=
  match p.window i.win with
  | some w => s.pastNs i (w.deadline + p.majorNs)
  | none => false

/-- A root whose wait has timed out writes no result; the round carries STALE with ST_WAIT_TIMEOUT
(R185). -/
def State.waitOver (s : State) (p : Package) (w : Nat) (cyc : Word) (t : Task) : State :=
  let s := s.each (p.outsBelow t.id) fun s k => s.staleOut k cyc (some ST_WAIT_TIMEOUT)
  s.taskEnd p w cyc t t.cand ST_WAIT_TIMEOUT

/-- A setpoint hand-over that may not start completes: its sync objects advance, nothing is committed
(R265, R269, R301). -/
def State.handoverEnd (s : State) (p : Package) (w : Nat) (cyc : Word) (t : Task) (cand : Nat) (bar : St) : State :=
  let s := s.each (List.range t.ndesc) fun s i =>
    s.bumpSo mSCP (fieldN (tmplOf p.graph t i) 0x16 2) (p.nodesAt t i)
  s.taskEnd p w cyc t cand bar

/-- Dispatch a time-triggered task, or hand further templates of it to its engine. -/
def State.dispatchTT (s : State) (p : Package) (w : Nat) (cyc : Word) (t : Task) (i : Inst) : State :=
  match i.running.find? fun r => r.task = t.id with
  | some r =>
    let (s, r') := State.sendAll p t cyc true t.ndesc (s, r)
    match s.inst? w cyc with
    | some i => s.putInst { i with running := i.running.map fun x => if x.task = t.id then r' else x }
    | none => s
  | none =>
    if !t.deps.all (s.depDone p cyc) && p.isRoot t && s.pastWait p i then s.waitOver p w cyc t
    else if !(t.deps.all (s.depDone p cyc)) || s.earlierWork p w cyc t || !s.enginesFree p t then s
    else
      let bar := s.handoverBar p t cyc
      if bar ≠ ST_OK then s.handoverEnd p w cyc t t.cand bar
      else
        let (urgent, s) := if t.kind ≤ 1 then s.claimFacet p w t.cand else (false, s)
        let (s, r) := State.sendAll p t cyc true t.ndesc (s, s.newRun p t t.cand urgent)
        match s.inst? w cyc with
        | some i => (s.putInst { i with
            running := i.running ++ [r], placed := i.placed ++ [(t.id, t.cand)] }).engineBoundary (p.keys t t.cand)
        | none => s

/-! ### Shares (R176, R179, R182) -/

/-- Facet and Bead clocks in MHz by operating point (R351). -/
def facMhz (op : Nat) : Nat :=
  if Config.gradeXT then [400, 500, 600, 800, 1000, 1100, 1250, 1400].getD op 400
  else [400, 500, 600, 800, 1000, 1200, 1400, 1600].getD op 400
def beadMhz (op : Nat) : Nat :=
  if Config.gradeXT then [300, 400, 500, 600, 700, 800, 900, 1050].getD op 300
  else [300, 400, 500, 600, 750, 900, 1050, 1200].getD op 300

/-- ns from now to the START of the next time-triggered instance that takes an engine, looking
64 cycles ahead (R176). -/
def State.nextTT (s : State) (p : Package) (k : Nat) : Option Nat :=
  let now := sinceNs (s.tbNs 7) s.model.cycleStart
  let at_ := (List.range 66).flatMap fun n =>
    let cyc := s.model.cycle + BitVec.ofNat 32 n
    (List.range p.windows.length).filterMap fun w =>
      match p.window w with
      | none => none
      | some x =>
        let has := if k < 100 then x.facets.getLsbD k else x.regions.getLsbD (beadRegion (k - 100))
        if x.share || !has || !x.sel cyc || (n = 0 && kget none s.model.opened w == some cyc) then none
        else some (n * p.majorNs + x.start - now)
  at_.min?

/-- The bound of a Facet command in ns at the Facet clock in force (R89, R176): of template `i` at a
candidate. 409.6 GB/s is 4,096 B in 10 ns. -/
def State.boundAt (s : State) (p : Package) (t : Task) (cand i : Nat) : Nat :=
  let b := tmplOf p.graph t i
  let (clk, bytes) :=
    if fieldN b 0 2 = 4 then ((attnDesc b).timeClocks, s.attnBytes cand (attnDesc b))
    else ((facDesc b).timeClocks, s.facBytes cand (facDesc b))
  let mhz := facMhz (s.fld (PWR_DOM_STAT_GRANTED (s.keyDom cand)))
  max (ceilDiv (clk * 1000) mhz) (ceilDiv (bytes * 10) 4096) + 100

/-- A share command ends early enough before the next time-triggered instance (R176). -/
def State.fitsShare (s : State) (p : Package) (t : Task) (cand i : Nat) : Bool :=
  t.kind > 1 || (match s.nextTT p cand with
    | none => true
    | some n => s.boundAt p t cand i + 3000 ≤ n)

/-- A share window of the task is open and takes the engine (R179). -/
def State.inShare (s : State) (p : Package) (t : Task) (k : Nat) : Bool :=
  s.model.insts.any fun i => i.win = t.window && !i.late && !s.pastDeadline p i && (match p.window i.win with
    | some w => w.share && (if k < 100 then w.facets.getLsbD k else w.regions.getLsbD (beadRegion (k - 100)))
    | none => false)

/-- A candidate's engines are free: idle, on power, with no time-triggered work, and in an open instance
of the task's share window (R179). -/
def State.shareFree (s : State) (p : Package) (t : Task) (cand : Nat) : Bool :=
  let ks := p.keys t cand
  ks.all (fun k => s.inShare p t k && !s.ttOn k && (s.shareOn k).isNone
      && (if k < 100 then s.facState k == facIDLE && (s.facet k).queue.isEmpty
          else s.beadState (k - 100) == bdIDLE && (s.bead (k - 100)).saved.isNone))
    && s.fitsShare p t cand 0

/-- Ready share tasks: of an instance that has not completed, not dispatched, with every
dependency complete. Requeued ones come first (R176, R179). -/
def State.readyShares (s : State) (p : Package) : List (Inst × Task) :=
  let all := (s.model.insts.filter fun i => !p.isTT i.win).flatMap fun i =>
    ((p.tasksOf i.win).filter fun t => !i.isDone t.id && !i.running.any (fun r => r.task = t.id)
      && t.deps.all (s.depDone p i.cyc)).map fun t => (i, t)
  let head := s.model.requeued.filterMap fun q => all.find? fun x => x.1.win = q.1 && x.1.cyc = q.2.1 && x.2.id = q.2.2
  head ++ all.filter fun x => !(s.model.requeued.contains (x.1.win, x.1.cyc, x.2.id))

/-- V of a group (R179). -/
def State.groupV (s : State) (p : Package) (g : Nat) : Nat :=
  let x := s.group g
  x.engineNs * 1024 / ((p.groups.getD g (1, 0)).1) + x.lift

/-- Groups that become ready have V raised to the lowest V among those with ready tasks (R179). -/
def State.liftGroups (s : State) (p : Package) (ready : List Nat) : State :=
  let old := ready.filter fun g => (s.group g).ready
  let low := (old.map (s.groupV p)).min?
  s.each (List.range 64) fun s g =>
    let x := s.group g
    let r := ready.contains g
    let lift := match low with
      | some v => if r && !x.ready && s.groupV p g < v then x.lift + (v - s.groupV p g) else x.lift
      | none => x.lift
    if r = x.ready && lift = x.lift then s else s.setGroup g { x with ready := r, lift := lift }

/-- Bytes that a task writes, as far as its templates say (R63, R90, R431). -/
def Package.outBytes (p : Package) (t : Task) : Nat :=
  ((List.range t.ndesc).map fun i =>
    let b := tmplOf p.graph t i
    if t.kind ≤ 1 then
      if fieldN b 0 2 = 4 then
        let d := attnDesc b
        Machine.outBytes d.out d.nq d.cols d.outSpec.w d.pitch d.outFmt 0
      else
        let d := facDesc b
        Machine.outBytes d.out d.m d.n d.width d.pitch d.outFmt d.rqDim
    else if t.kind = 3 then fieldN b 0x10 4
    else 0).sum

/-- A task of a cycle ran on a candidate. -/
def State.ranOn (s : State) (cyc : Word) (t cand : Nat) : Bool :=
  s.model.insts.any fun i => i.cyc = cyc && i.isDone t && i.placed.contains (t, cand)

/-- Input bytes of a task that a candidate's memory holds: those of its residency list, and the outputs
of the tasks it depends on that ran on the candidate (R182; log entry 105). -/
def State.resident (s : State) (p : Package) (cyc : Word) (t : Task) (cand : Nat) : Nat :=
  ((t.residency.filter fun r =>
    match s.target mSCP (BitVec.ofNat 64 r.1) with
    | .fom f _ => t.kind ≤ 1 && f = cand
    | .blm n _ => 1 < t.kind && cand ≤ n && n < cand + p.nodes t
    | _ => false).map (·.2)).sum
  + (t.deps.map fun d => match p.task d with
      | some u => if (t.kind ≤ 1) == (u.kind ≤ 1) && s.ranOn cyc d cand then p.outBytes u else 0
      | none => 0).sum

/-- The free candidate with the most input bytes, ties to the lowest id (R182). -/
def State.place (s : State) (p : Package) (cyc : Word) (t : Task) : Option Nat :=
  (t.cands.filter (s.shareFree p t)).foldl (fun best c =>
    match best with
    | none => some c
    | some b =>
      let x := s.resident p cyc t c
      let y := s.resident p cyc t b
      if y < x || (x = y && c < b) then some c else some b) none

/-- Where a ready share task stands in its group: requeued ones at the head, then GRAPH order. -/
def State.shareRank (s : State) (p : Package) (x : Inst × Task) : Nat :=
  let q := (x.1.win, x.1.cyc, x.2.id)
  if s.model.requeued.contains q then s.model.requeued.idxOf q
  else s.model.requeued.length + p.order x.2.id

/-- The share task that an engine takes: the lowest V, then the lowest group, then the head of the group
in GRAPH order (R179). -/
def State.pickShare (s : State) (p : Package) (k : Nat) : Option (Inst × Task) :=
  let l := (s.readyShares p).filter fun x => x.2.cands.any fun c =>
    (p.keys x.2 c).contains k && s.shareFree p x.2 c
  l.foldl (fun best x =>
    match best with
    | none => some x
    | some b =>
      let vx := s.groupV p x.2.group
      let vb := s.groupV p b.2.group
      if vx < vb || (vx = vb && (x.2.group < b.2.group
        || (x.2.group = b.2.group && s.shareRank p x < s.shareRank p b))) then some x else some b) none

/-- Dispatch a share task at a candidate; a setpoint hand-over that is barred completes at once (R265). -/
def State.dispatchShare (s : State) (p : Package) (i : Inst) (t : Task) (cand : Nat) : State :=
  let s := { s with model := { s.model with requeued := s.model.requeued.filter (· ≠ (i.win, i.cyc, t.id)) } }
  let bar := s.handoverBar p t i.cyc
  if bar ≠ ST_OK then s.handoverEnd p i.win i.cyc t cand bar
  else
  let (s, r) := State.sendAll p t i.cyc false t.ndesc (s, s.newRun p t cand false)
  match s.inst? i.win i.cyc with
  | some i => (s.putInst { i with
      running := i.running ++ [r], placed := i.placed ++ [(t.id, cand)] }).engineBoundary (p.keys t cand)
  | none => s

/-! ### The SCP after an outage (R314) -/

/-- Result slots of tasks that are never run carry STALE with ST_PROC_RESTART. -/
def State.unrun (s : State) (cyc : Word) (ks : List Nat) : State :=
  s.each ks fun s k =>
    let s := if (s.outSt k cyc).opened then s else s.openOut k cyc
    s.staleOut k cyc (some ST_PROC_RESTART)

/-- The outputs of a window. -/
def State.winOuts (s : State) (p : Package) (w : Nat) : List Nat :=
  (p.tasksOf w).flatMap fun t => s.outsOf t.id

/-- Indigo runs again: displaced share work starts over, unrun slots are marked, and the table
resumes at the next boundary (R314). -/
def State.scpRestart (s : State) : State :=
  match s.model.pkg with
  | none => s
  | some p =>
    let redo (s : State) (k : Nat) : State := match s.shareOn k with
      | some (i, r) => s.requeue p i r
      | none => s
    let s := s.each (List.range 32) fun s f =>
      if s.facState f = facPREEMPTED then redo (s.facAbort mSCP f) f else s
    let s := s.each (s.beads.map Prod.fst) fun s n =>
      if s.beadState n = bdPARKED then
        let s := s.beadStopOp mSCP n
        redo (s.setBead n { s.bead n with saved := none, outAt := none }) (100 + n)
      else s
    if s.model.fn ≠ .running then { s with model := { s.model with heldByScp := false } }
    else
      let s := s.each s.model.insts fun s i =>
        let lost := (p.tasksOf i.win).filter fun t => !i.isDone t.id && p.isTT i.win &&
          !(i.running.any fun r => r.task = t.id && r.sent = t.ndesc)
        let s := s.unrun i.cyc (lost.flatMap fun t => s.outsOf t.id)
        match s.inst? i.win i.cyc with
        | some i => s.putInst { i with
            running := i.running.filter (fun r => !(lost.any fun t => t.id = r.task))
            done := i.done ++ lost.map fun t => (t.id, ST_PROC_RESTART) }
        | none => s
      let n := min 1024 (s.model.cycle - s.model.heldCyc).toNat
      let s := s.each ((List.range (n + 1)).reverse) fun s j =>
        let cyc := s.model.cycle - BitVec.ofNat 32 j
        s.each (List.range p.windows.length) fun s w =>
          match p.window w with
          | none => s
          | some x =>
            let op := match kget none s.model.opened w with
              | some c => reached 32 c.toNat cyc.toNat
              | none => false
            if x.sel cyc && !op then s.unrun cyc (s.winOuts p w) else s
      let s := s.each s.model.insts fun s i => s.instCheck p i.win i.cyc
      { s with model := { s.model with resumeAt := true } }

end Sys2Proof.Machine
end

