-- ==== Sys2Proof/Machine/Camera.lean ====
section
/-! DEFINITION. The input front end: frames, codestreams, replayed samples, cut tasks, batches and
the functions CAM0–CAM3 (R189–R206, R288). -/

namespace Sys2Proof.Machine

/-! ### State -/

/-- State code of stream `c`. -/
def State.camState (s : State) (c : Nat) : Nat := s.fld (IFE_STAT_STATE c)

/-- The stream takes a function state (R205, R297). -/
def State.setCamState (s : State) (c v : Nat) (st : St) : State :=
  (s.setF (IFE_STAT_STATE c) v).fnEvent (fCAM c) (s.camState c) v st

/-- The stream takes samples: RUNNING and not stopping (R205). -/
def State.camLive (s : State) (c : Nat) : Bool := s.camState c == camRUNNING && (s.cam c).stopVia.isNone

def State.frameSo (s : State) (c : Nat) : Nat := bitsN (s.rd (IFE_SO c)).toNat 0 14
def State.freeSo (s : State) (c : Nat) : Nat := bitsN (s.rd (IFE_SO c)).toNat 16 14

/-- FREE_SO is at or past a count under R8. -/
def State.credit (s : State) (c n : Nat) : Bool := reached 32 (s.so (s.freeSo c)).toNat (n % 2 ^ 32)

/-! ### The decoded-sample cache (R200) -/

/-- A queued or running cut task names a sample of the stream (R200, R201). -/
def State.cutNames (s : State) (c : Nat) (idx : Word) : Bool :=
  (s.cam c).cuts.any fun d => fieldN d 4 4 == idx.toNat

/-- Entry `e` is referenced: it is being filled, its batch's credit is outstanding, or a cut task
names its sample (R200). -/
def State.dscHeld (s : State) (c e : Nat) : Bool :=
  match kget none (s.cam c).dsc e with
  | none => false
  | some d => !d.sealed || !s.credit c (s.batchOf c d.idx + 2) || s.cutNames c d.idx

/-- Unreferenced entries: DSC_FREE of IFE_STAT. -/
def State.dscFree (s : State) (c : Nat) : Nat := (List.range 64).countP fun e => !s.dscHeld c e

/-- Age of the sample in an entry; an entry without one is the oldest. -/
def State.dscAge (s : State) (c e : Nat) : Nat :=
  match kget none (s.cam c).dsc e with
  | none => 2 ^ 32
  | some d => ((s.cam c).next - d.idx).toNat

/-- The unreferenced entry of the oldest sample (R200). -/
def State.dscPick (s : State) (c : Nat) : Option Nat :=
  ((List.range 64).filter fun e => !s.dscHeld c e).foldl (fun b e =>
    match b with
    | none => some e
    | some a => if s.dscAge c a < s.dscAge c e then some e else some a) none

def State.putDsc (s : State) (c e : Nat) (d : Option DscEnt) : State :=
  s.setCam c { s.cam c with dsc := kput e d (s.cam c).dsc }

/-- The entry that holds a sealed sample. -/
def State.dscOf (s : State) (c : Nat) (idx : Word) : Option Nat :=
  (List.range 64).find? fun e =>
    match kget none (s.cam c).dsc e with
    | some d => d.sealed && d.idx == idx
    | none => false

/-! ### Images (R196, R197) -/

abbrev Rect := Nat × Nat × Nat × Nat

/-- The S2D layout is chosen. -/
def State.s2d (s : State) (c : Nat) : Bool := s.flag (IFE_CTL_LAYOUT c)

/-- Width and height of an S2D block. -/
def State.blockDims (s : State) (c : Nat) : Nat × Nat := if s.camNc c = 1 then (8, 4) else (4, 2)

/-- Positions of an S2D image: IW and IH. -/
def State.s2dDims (s : State) (c : Nat) : Nat × Nat :=
  (s.camW c / (s.blockDims c).1, s.camH c / (s.blockDims c).2)

/-- Bytes of an image: in S2D those of its codes (R66 with one image per batch position). -/
def State.imgBytes (s : State) (c : Nat) : Nat :=
  if s.s2d c then (s.s2dDims c).1 * (s.s2dDims c).2 * 32 else s.u16Bytes c

/-- Where an image lies: its first byte and, in S2D, its block-scale bytes. -/
structure Img where
  base : Nat
  plane : Nat
  deriving DecidableEq, Repr

/-- Image `b` of the batch at IFE_MAP (R197, R203). -/
def State.batchImg (s : State) (c b : Nat) : Img :=
  let m := (s.rd64 (IFE_MAP_LO c) (IFE_MAP_HI c)).toNat
  ⟨m + b * s.imgBytes c,
    (m + s.batchLen c * s.imgBytes c + 63) / 64 * 64 + b * ((s.s2dDims c).1 * (s.s2dDims c).2)⟩

/-- A single image at an address. -/
def State.oneImg (s : State) (c a : Nat) : Img := ⟨a, (a + s.imgBytes c + 63) / 64 * 64⟩

/-- The image of a sample in its batch. -/
def State.sampleImg (s : State) (c : Nat) (idx : Word) : Img := s.batchImg c (idx.toNat % s.batchLen c)

/-- Write bytes as the stream; the first failure is kept. -/
def camPut (c : Nat) (x : St × State) (a : Nat) (d : List Byte) : St × State :=
  if x.1 ≠ ST_OK then x
  else
    let (r, s) := x.2.postLong (mIFE c) (BitVec.ofNat 64 a) d
    (r.1, s)

/-- A refused request of the stream is logged. -/
def State.camRefused (s : State) (c : Nat) (st : St) (a : Nat) : State :=
  s.log st (mIFE c) EV_REQUEST_REFUSED 0xFFFF (BitVec.ofNat 64 a)

/-- Read `n` bytes as the stream. Zeros where the read is refused; a poisoned word makes the sample
VOID (R399; log entry 107). -/
def State.camRead (s : State) (c a n : Nat) : St × List Byte × State :=
  let (r, s) := s.readLong (mIFE c) (BitVec.ofNat 64 a) n
  if r.bad then (ST_ECC_UNCORRECTED, r.data, s.log ST_ECC_UNCORRECTED (mIFE c) EV_ECC 5 (BitVec.ofNat 64 a))
  else if r.st ≠ ST_OK then (r.st, List.replicate n 0, s.camRefused c r.st a)
  else (ST_OK, r.data, s)

/-- A row of the U16 layout, padded to 64 B. -/
def u16Row (n : Nat) (v : List Nat) : List Byte :=
  let b := v.flatMap fun x => leBytes 2 x
  b ++ List.replicate (n - b.length) 0

/-- Address of the lookup table (R197). -/
def State.lutAddr (s : State) (c : Nat) : Nat := (s.rd64 (IFE_LUT_LO c) (IFE_LUT_HI c)).toNat

/-- The code of a pixel value: its byte of the lookup table (R197). -/
def lutCode (table : List Byte) (v : Nat) : Byte := table.getD (v % 4096) 0

/-- The pixel columns of row `y` that are written: the whole row of a refresh frame, else the
rectangles clipped to the frame (R199). -/
def rowRuns (w y : Nat) (refresh : Bool) (rects : List Rect) : List (Nat × Nat) :=
  if refresh then [(0, w)]
  else rects.filterMap fun (x, y0, rw, rh) =>
    if y0 ≤ y && y < y0 + rh && x < w && 0 < rw then some (x, min rw (w - x)) else none

/-- Write the columns of pixel row `y` into an image (R197); `v` holds the row's components. -/
def State.imgRow (s : State) (c : Nat) (im : Img) (y : Nat) (v : List Nat) (runs : List (Nat × Nat)) :
    St × State :=
  let nc := s.camNc c
  if s.s2d c then
    let (bw, bh) := s.blockDims c
    let (iw, _) := s.s2dDims c
    let (st, lut, s) := if runs.isEmpty then (ST_OK, [], s) else s.camRead c (s.lutAddr c) 4096
    if st = ST_ECC_UNCORRECTED then (st, s)
    else runs.foldl (fun x (x0, rw) =>
      ((List.range ((rw + bw - 1) / bw)).map (x0 / bw + ·)).foldl (fun x p =>
        let pos := y / bh * iw + p
        let codes := ((v.drop (p * bw * nc)).take (bw * nc)).map (lutCode lut)
        let last := nc = 3 && y % bh = 1
        let x := camPut c x (im.base + pos * 32 + y % bh * (bw * nc))
          (if last then codes ++ List.replicate 8 0 else codes)
        if y % bh = 0 then camPut c x (im.plane + pos) [BitVec.ofNat 8 (s.rd (IFE_SCALE c)).toNat] else x) x)
      (ST_OK, s)
  else
    runs.foldl (fun x (x0, rw) =>
      let d := (v.drop (x0 * nc)).take (rw * nc)
      if x0 = 0 && rw = s.camW c then camPut c x (im.base + y * s.camRowBytes c) (u16Row (s.camRowBytes c) d)
      else camPut c x (im.base + y * s.camRowBytes c + x0 * nc * 2) (u16Row 0 d)) (ST_OK, s)

/-- Write the VOID image: zeros, block-scale bytes included (R196). -/
def State.voidImg (s : State) (c : Nat) (im : Img) : St × State :=
  let x := camPut c (ST_OK, s) im.base (List.replicate (s.imgBytes c) 0)
  if s.s2d c then
    camPut c x im.plane (List.replicate ((s.s2dDims c).1 * (s.s2dDims c).2) 0)
  else x

/-- Write row `y` of a sample into its DSC entry. -/
def State.dscRow (s : State) (c e y : Nat) (v : List Nat) : St × State :=
  camPut c (ST_OK, s) (s.dscAddr c e + y * s.camRowBytes c) (u16Row (s.camRowBytes c) v)

/-- The components of row `y` of a sample in the DSC. -/
def State.dscPixels (s : State) (c e y : Nat) : List Nat :=
  let b := s.peekBy (mIFE c) (s.dscAddr c e + y * s.camRowBytes c) (s.camRowBytes c)
  (List.range (s.camW c * s.camNc c)).map fun i => fieldN b (2 * i) 2

/-- Read a DSC entry's sample: whether a poisoned or a refused read spoils it (R399). -/
def State.dscRead (s : State) (c e : Nat) : Bool × State :=
  let (st, _, s) := s.camRead c (s.dscAddr c e) (s.u16Bytes c)
  (st ≠ ST_OK, s)

/-! ### Frame start: slot, entry, region-of-interest list (R192, R199, R200, R203) -/

/-- The region-of-interest list in force: FROM_IDX and the rectangles, none without a list, with one that
cannot be read or is poisoned, or with an invalid field (R198, R199). -/
def State.roiList (s : State) (c : Nat) : Option (Word × List Rect) × State :=
  let so := bitsN (s.rd (IFE_ROI_SO c)).toNat 0 14
  let n := (s.so so).toNat
  if n = 0 || s.soBad so then (none, s)
  else
    let (st, b, s) := s.camRead c ((s.rd64 (IFE_ROI_LO c) (IFE_ROI_HI c)).toNat + 256 * ((n - 1) % 2)) 256
    let k := fieldN b 4 1
    let rs := (List.range k).map fun i =>
      (fieldN b (16 + 16 * i) 2, fieldN b (18 + 16 * i) 2, fieldN b (20 + 16 * i) 2, fieldN b (22 + 16 * i) 2)
    let (bw, bh) := s.blockDims c
    let aligned (r : Rect) : Bool :=
      !s.s2d c || (r.1 % bw == 0 && r.2.1 % bh == 0 && r.2.2.1 % bw == 0 && r.2.2.2 % bh == 0)
    if st ≠ ST_OK || 15 < k || fieldN b 5 11 ≠ 0 || !rs.all aligned
        || (List.range k).any (fun i => fieldN b (24 + 16 * i) 8 ≠ 0) then (none, s)
    else (some (BitVec.ofNat 32 (fieldN b 0 4), rs), s)

/-- What sample `k` writes: nothing given for a refresh frame, else its rectangles (R199). The list is
read at every frame start. -/
def State.roiSelect (s : State) (c : Nat) (k : Word) : Option (List Rect) × State :=
  let div := s.fld (IFE_CUT_REFRESH_DIV c)
  if !s.flag (IFE_CUT_ROI_EN c) then (none, s)
  else
    let forced := (div ≠ 0 && k.toNat % div = 0) || (s.cam c).lastVoid || k = 0
    let (l, s) := s.roiList c
    match l with
    | none => (none, s)
    | some (src, rs) =>
      let age := (k - src).toNat
      (if !forced && 1 ≤ age && age ≤ s.fld (IFE_CUT_ROI_MAXAGE c) + 1 then some rs else none, s)

/-- Bytes of a cause's status (R196, R204). -/
def causeSt (cause : Nat) : St := if cause = 8 then ST_DIM_CLAIM else ST_SAMPLE_CORRUPT

/-- Open the next slot: its index, its DSC entry, whether its batch waits for the credit, and
what it writes. `cause` is a failure already found. -/
def State.openFrame (s : State) (c : Nat) (num : BitVec 16) (cause : Nat) : Frame × State :=
  let x := s.cam c
  let k := x.next
  let entry := if cause = 0 then s.dscPick c else none
  let first := BitVec.ofNat 32 (s.batchOf c k * s.batchLen c)
  let wait := if k = first then !s.credit c (s.batchOf c k + 1) else x.deferredBatch.contains first
  let (rects, s) := s.roiSelect c k
  let f : Frame :=
    { idx := k, num := num, entry := entry, refresh := rects.isNone, rects := rects.getD [], lines := 0
      cause := if cause = 0 && entry.isNone then 11 else cause, deferred := wait, tStart := s.tb64 7 }
  let s := s.setCam c { x with
    next := k + 1, waitFs := false, lastVoid := false
    deferredBatch := if k = first && wait then x.deferredBatch ++ [first] else x.deferredBatch }
  (f, match entry with
    | some e => s.putDsc c e (some ⟨k, false⟩)
    | none => s)

/-! ### Seal, records, hand-over (R196, R201, R203, R204) -/

/-- The 32-byte sample record (R204). -/
def State.recordBytes (s : State) (c : Nat) (x : Sample) : List Byte :=
  leBytes 4 x.idx.toNat ++ leBytes 2 x.status.toNat ++ leBytes 1 x.flags.toNat ++ leBytes 1 x.cause
    ++ leBytes 8 x.tStart.toNat ++ leBytes 8 x.tEnd.toNat ++ leBytes 2 (s.camW c) ++ leBytes 2 (s.camH c)
    ++ leBytes 1 x.entry ++ leBytes 1 (if x.flags.getLsbD 2 then 0 else x.rects.length) ++ [0, 0]

/-- Enter a sample in the samples that wait for their batch, index rising. -/
def sampleInsert (x : Sample) : List Sample → List Sample
  | [] => [x]
  | y :: ys => if diffC 32 x.idx.toNat y.idx.toNat < 0 then x :: y :: ys else y :: sampleInsert x ys

/-- The sealed samples of a batch. -/
def State.batchHeld (s : State) (c j : Nat) : List Sample := (s.cam c).held.filter fun x => s.batchOf c x.idx = j

/-- The sample after VOID sample `k` is a refresh frame (R196, R199): the newest one when it opens, one
that has its slot already where it has not been written. -/
def State.refreshAfter (s : State) (c : Nat) (k : Word) : State :=
  let fix (f : Frame) : Frame :=
    if f.idx = k + 1 && (f.lines = 0 || f.deferred) then { f with refresh := true, rects := [] } else f
  let job (j : Codestream) : Codestream := if j.cam.val = c then { j with frame := fix j.frame } else j
  let x := s.cam c
  { s.setCam c { x with
      lastVoid := x.lastVoid || k + 1 = x.next, frame := x.frame.map fix
      held := x.held.map fun y => if y.idx = k + 1 && y.flags.getLsbD 3 then { y with flags := y.flags ||| 4, rects := [] } else y } with
    jxsCur := s.jxsCur.map job, jxs := s.jxs.map job }

/-- Sample `k` is VOID: what that makes of later samples and of results (R196). -/
def State.noteVoid (s : State) (c : Nat) (k : Word) : State :=
  (s.setCam c { s.cam c with voids := (k :: (s.cam c).voids).take 4096 }).refreshAfter c k

/-- A sample is sealed: LAST_IDX, the age monitor's origin, the count of VOID samples (R196,
R204, R263). -/
def State.sealWith (s : State) (c : Nat) (f : Frame) (cause : Nat) : State :=
  let void := cause ≠ 0
  let s := match f.entry with
    | some e => s.putDsc c e (if void then none else some ⟨f.idx, true⟩)
    | none => s
  let flags := (if void then 2 else 1) + (if f.refresh then 4 else 0) + (if f.deferred then 8 else 0)
  let smp : Sample :=
    { idx := f.idx, status := if void then causeSt cause else ST_OK, flags := BitVec.ofNat 8 flags, cause := cause
      tStart := f.tStart, tEnd := s.tb64 7, entry := if void then 0xFF else f.entry.getD 0xFF
      rects := if void then [] else f.rects }
  let x := s.cam c
  let s := s.setCam c { x with held := sampleInsert smp x.held }
  let s := if void then s.noteVoid c f.idx else s
  let s := s.wr (IFE_LAST_IDX c) f.idx
  let s := if void then s.inc (IFE_VOID_CNT c) else s
  s.agmOrigin 1 c (s.tbNs 7 / 1000) s.model.cycle false

/-- A write of the stream was refused: FAULT, unless a poisoned word refused it (R205, R398). -/
def State.camFault (s : State) (c : Nat) (st : St) : State :=
  if st = ST_OK || st = ST_ECC_UNCORRECTED || s.camState c ≠ camRUNNING then s else s.setCamState c camFAULT st

/-- A sealed sample becomes VOID: its image, its entry, its count and the samples that wait (R196). -/
def State.unmake (s : State) (c : Nat) (smp : Sample) (cause : Nat) : Sample × State :=
  let smp' : Sample := { smp with
    status := ST_SAMPLE_CORRUPT, flags := (smp.flags &&& 0xFC) ||| 2, cause := cause, entry := 0xFF, rects := [] }
  let (st, s) := s.voidImg c (s.sampleImg c smp.idx)
  let s := if st = ST_OK then s else (s.camRefused c st (s.sampleImg c smp.idx).base).camFault c st
  let s := (s.putDsc c smp.entry none).inc (IFE_VOID_CNT c)
  (smp', (s.setCam c { s.cam c with
    held := (s.cam c).held.map fun y => if y.idx = smp.idx then smp' else y }).noteVoid c smp.idx)

/-- Write a sample's record. Where it is refused the stream enters FAULT and the sample is VOID with
CAUSE 10 (R204, R205). -/
def State.putSample (s : State) (c : Nat) (smp : Sample) : State :=
  let a := s.sampleRec c smp.idx.toNat
  let (st, s) := camPut c (ST_OK, s) a (s.recordBytes c smp)
  if st = ST_OK then s
  else
    let s := (s.camRefused c st a).camFault c st
    if smp.cause = 0 then (s.unmake c smp 10).2 else s

/-- Every sample of a batch is sealed: its records, then ADD(FRAME_SO, 1) (R203). -/
def State.handOver (s : State) (c j : Nat) : State :=
  let s := s.each (s.batchHeld c j) fun s smp => s.putSample c smp
  (s.setCam c { s.cam c with held := (s.cam c).held.filter fun x => s.batchOf c x.idx ≠ j }).bumpSo (mIFE c) (s.frameSo c) 1

/-- A batch that is complete, and not deferred, is handed over. -/
def State.batchCheck (s : State) (c : Nat) (idx : Word) : State :=
  let j := s.batchOf c idx
  if (s.batchHeld c j).length < s.batchLen c
      || (s.cam c).deferredBatch.contains (BitVec.ofNat 32 (j * s.batchLen c)) then s
  else s.handOver c j

/-- A frame is sealed as VOID; its image is written in place unless its batch is deferred. Where that
write is refused the CAUSE is 10, or 12 for a poisoned word, and the stream enters FAULT (R196, R205). -/
def State.sealVoid (s : State) (c : Nat) (f : Frame) (cause : Nat) : State :=
  let a := (s.sampleImg c f.idx).base
  let (st, s) := if f.deferred then (ST_OK, s) else s.voidImg c (s.sampleImg c f.idx)
  if st = ST_OK then (s.sealWith c f cause).batchCheck c f.idx
  else
    ((((s.camRefused c st a).sealWith c f (if st = ST_ECC_UNCORRECTED then 12 else 10)).camFault c st)).batchCheck c f.idx

/-- Every frame of the stream in progress is closed as VOID: the CSI-2 frame, then the codestreams
in order. -/
def State.closeAll (s : State) (c cause : Nat) : State :=
  let fs := (s.cam c).frame.toList
    ++ (s.jxsCur.toList ++ s.jxs).filterMap fun j => if j.cam.val = c then some j.frame else none
  let s := { s.setCam c { s.cam c with frame := none, cbuf := [], rtpSeq := none, seqGap := false } with
    jxsCur := s.jxsCur.filter fun j => j.cam.val ≠ c, jxs := s.jxs.filter fun j => j.cam.val ≠ c }
  s.each fs fun s f => s.sealVoid c f (if f.cause = 0 then cause else f.cause)

/-- A stream that has entered FAULT has no frame in progress: its slots are VOID with CAUSE 10 (R205). -/
def State.faultCheck (s : State) (c : Nat) : State := if s.camState c = camFAULT then s.closeAll c 10 else s

/-- A frame is closed as VOID. -/
def State.closeVoid (s : State) (c : Nat) (f : Frame) (cause : Nat) : State := (s.sealVoid c f cause).faultCheck c

/-- A frame is closed as valid. -/
def State.closeValid (s : State) (c : Nat) (f : Frame) : State :=
  ((s.sealWith c f 0).batchCheck c f.idx).faultCheck c

/-- A write of the stream was refused while `f` was written: the sample is VOID with CAUSE 12 for
a poisoned word (R398), else with CAUSE 10, and the stream enters FAULT (R205). -/
def State.camFail (s : State) (c : Nat) (f : Frame) (st : St) (a : Nat) : State :=
  ((s.camRefused c st a).camFault c st).closeVoid c f (if st = ST_ECC_UNCORRECTED then 12 else 10)

/-! ### CSI-2 frames (R192, R193, R201) -/

/-- A packet header: a corrected error is counted (R193 check 1). -/
def State.hdrCount (s : State) (c : Nat) (h : HeaderEcc) : State :=
  if h = .corrected then s.inc (IFE_HDR_CORR c) else s

/-- CSI-2 packets reach the stream. -/
def State.csiLive (s : State) (c : Nat) : Bool := s.camLive c && s.fld (IFE_CTL_SOURCE c) == srcCSI

/-- Packets of the virtual channel set are the stream's (R190). -/
def State.ownVc (s : State) (c : Nat) (vc : Fin 4) : Bool := s.fld (IFE_CTL_VC c) == vc.val

/-- The pixels of a line: RAW8, RAW10 or RAW12 by the depth (PRESUMED, log entry 108), or what the
decompression set gives (R190). -/
def State.linePixel (s : State) (c : Nat) (line : List Byte) (i : Nat) : Nat :=
  let b (k : Nat) : Nat := (line.getD k 0).toNat
  let d := s.fld (IFE_CTL_DECOMP c)
  if d ≠ 0 then Config.decompressed d (s.fld (IFE_CTL_PRED c)) line i % 2 ^ s.camDepth c
  else match s.camDepth c with
    | 8 => b i
    | 10 => b (i / 4 * 5 + i % 4) * 4 + bitsN (b (i / 4 * 5 + 4)) (2 * (i % 4)) 2
    | _ => b (i / 2 * 3 + i % 2) * 16 + bitsN (b (i / 2 * 3 + 2)) (4 * (i % 2)) 4

/-- A packet of another virtual channel or data type is discarded and counted (R190). -/
def State.discardPacket (s : State) (c : Nat) : State := s.inc (IFE_DISCARD c)

/-- CSI2_FRAME_START (R192, R193, R199, R200, R203). A frame whose end has not arrived is closed as
truncated, and the new one fails check 2. -/
def execCsi2FrameStart (c : Fin 4) (hdr : HeaderEcc) (pkt : ShortPacket) (s : State) : Out :=
  let c := c.val
  if !s.csiLive c then .next s
  else if hdr ≠ .bad && !s.ownVc c pkt.vc then .next ((s.hdrCount c hdr).discardPacket c)
  else
    let s := s.hdrCount c hdr
    let (late, s) := match (s.cam c).frame with
      | some f => (true, (s.setCam c { s.cam c with frame := none }).closeVoid c f (if f.cause = 0 then 6 else f.cause))
      | none => (false, s)
    if !s.csiLive c then .next s
    else
      let (f, s) := s.openFrame c pkt.num (if hdr = .bad then 1 else if late then 5 else 0)
      .next (s.setCam c { s.cam c with frame := some f, skip := false })

/-- The frame in progress takes its first cause; its remaining packets are discarded. -/
def State.frameCause (s : State) (c : Nat) (f : Frame) (cause : Nat) : State :=
  s.setCam c { s.cam c with frame := some { f with cause := cause } }

/-- Write row `y` of a sample into its entry and, unless deferred, into its image. -/
def State.putRow (s : State) (c : Nat) (f : Frame) (y : Nat) (v : List Nat) : (St × Nat) × State :=
  let e := f.entry.getD 0
  let (st, s) := s.dscRow c e y v
  if st ≠ ST_OK then ((st, s.dscAddr c e), s)
  else if f.deferred then ((ST_OK, 0), s)
  else
    let im := s.sampleImg c f.idx
    let (st, s) := s.imgRow c im y v (rowRuns (s.camW c) y f.refresh f.rects)
    ((st, im.base), s)

/-- CSI2_LINE (R193, R197, R201). -/
def execCsi2Line (c : Fin 4) (hdr : HeaderEcc) (id : DataId) (crcOk : Bool) (data : List Byte)
    (s : State) : Out :=
  let c := c.val
  if !s.csiLive c then .next s
  else
    let s := s.hdrCount c hdr
    if hdr ≠ .bad && (!s.ownVc c id.vc || s.fld (IFE_CTL_DT c) ≠ id.dt.toNat) then .next (s.discardPacket c)
    else
      match (s.cam c).frame with
      | none => .next s
      | some f =>
        if f.cause ≠ 0 then .next s
        else if hdr = .bad then .next (s.frameCause c f 1)
        else if data.length ≠ s.camW c * s.camDepth c / 8 then .next (s.frameCause c f 3)
        else if !crcOk then .next (s.frameCause c f 2)
        else if s.camH c ≤ f.lines then .next (s.setCam c { s.cam c with frame := some { f with lines := f.lines + 1 } })
        else
          let ((st, a), s) := s.putRow c f f.lines ((List.range (s.camW c)).map (s.linePixel c data))
          if st = ST_OK then .next (s.setCam c { s.cam c with frame := some { f with lines := f.lines + 1 } })
          else .next ((s.setCam c { s.cam c with frame := none, skip := true }).camFail c f st a)

/-- CSI2_FRAME_END (R193, R196, R201, R203, R204). -/
def execCsi2FrameEnd (c : Fin 4) (hdr : HeaderEcc) (pkt : ShortPacket) (s : State) : Out :=
  let c := c.val
  if !s.csiLive c then .next s
  else if hdr ≠ .bad && !s.ownVc c pkt.vc then .next ((s.hdrCount c hdr).discardPacket c)
  else
    let s := s.hdrCount c hdr
    let s := s.setCam c { s.cam c with lastEnd := s.tbNs 7 }
    match (s.cam c).frame with
    | none => .next s
    | some f =>
      let cause := if f.cause ≠ 0 then f.cause else if hdr = .bad then 1 else if pkt.num ≠ f.num then 5
        else if f.lines ≠ s.camH c then 4 else 0
      let s := s.setCam c { s.cam c with frame := none }
      .next (if cause = 0 then s.closeValid c f else s.closeVoid c f cause)

/-- CSI2_PACKET_DISCARD (R190). -/
def execCsi2PacketDiscard (c : Fin 4) (s : State) : Out :=
  .next (if s.csiLive c.val then s.discardPacket c.val else s)

/-- The stream counts frame timeouts: RUNNING on a source that sends frames, once capture has
started, or FAULT (R192, R205). -/
def State.timesOut (s : State) (c : Nat) : Bool :=
  (s.camLive c && s.fld (IFE_CTL_SOURCE c) ≠ srcREPLAY && !(s.cam c).waitFs
    || s.camState c == camFAULT && (s.cam c).stopVia.isNone)
    && passedNs (s.rd (IFE_FRAME_TMO c)).toNat (s.tbNs 7) (s.cam c).lastEnd

/-- FRAME_TIMEOUT (R192, R205): a frame in progress is truncated, else the slot is missing; in
FAULT the slot is VOID with CAUSE 10. -/
def execFrameTimeout (c : Fin 4) (s : State) : Out :=
  let c := c.val
  if !s.timesOut c then .next s
  else
    let s := s.setCam c { s.cam c with lastEnd := s.tbNs 7 }
    if s.camState c = camFAULT then
      let (f, s) := s.openFrame c 0 10
      .next (s.closeVoid c f 10)
    else
      match (s.cam c).frame with
      | some f =>
        .next ((s.setCam c { s.cam c with frame := none, skip := true }).closeVoid c f
          (if f.cause = 0 then 6 else f.cause))
      | none =>
        let part := !(s.cam c).cbuf.isEmpty
        let s := if part then s.setCam c { s.cam c with cbuf := [], rtpSeq := none, seqGap := false, skip := true } else s
        let cause := if part then 6 else 7
        let (f, s) := s.openFrame c 0 cause
        .next (s.closeVoid c f cause)

/-! ### JPEG XS (R191, R194, R201) -/

/-- The claims of a codestream's headers (R194). -/
structure JxsHeader where
  profileOk : Bool
  lcod : Nat
  wf : Nat
  hf : Nat
  nc : Nat
  depth : Nat
  deriving DecidableEq, Repr

/-- The body of the first marker segment of a kind, from a codestream behind its SOC marker. -/
def jxsSegment (marker : Nat) : Nat → List Byte → Option (List Byte)
  | 0, _ => none
  | k + 1, b =>
    let n := beNat ((b.drop 2).take 2)
    if b.length < 4 || n < 2 then none
    else if beNat (b.take 2) = marker then some ((b.drop 4).take (n - 2))
    else jxsSegment marker k (b.drop (2 + n))

/-- The headers of a codestream: SOC, capabilities and picture header lie in its first 512 B. The marker
segments are those of ISO/IEC 21122-1, the profiles those of ISO/IEC 21122-2 (PRESUMED, log entry 109). -/
def jxsHeader (data : List Byte) : Option JxsHeader :=
  let h := data.take 512
  let at_ (p : List Byte) (o n : Nat) : Nat := beNat ((p.drop o).take n)
  match jxsSegment 0xFF50 256 (h.drop 2), jxsSegment 0xFF12 256 (h.drop 2), jxsSegment 0xFF13 256 (data.drop 2) with
  | some _, some p, some t =>
    if beNat (h.take 2) ≠ 0xFF10 || p.length < 24 || t.length ≠ 2 * at_ p 16 1 then none
    else some {
      profileOk := (at_ p 4 2 / 4096 == 1 || at_ p 4 2 / 4096 == 3)
        && (List.range (at_ p 16 1)).all fun i => at_ t (2 * i + 1) 1 == 0x11
      lcod := at_ p 0 4, wf := at_ p 8 2, hf := at_ p 10 2, nc := at_ p 16 1
      depth := ((List.range (at_ p 16 1)).map fun i => at_ t (2 * i) 1).foldl max 0 }
  | _, _, _ => none

/-- Decoded size D of a codestream (R194). -/
def jxsBytes (h : JxsHeader) : Nat := (h.wf * h.hf * h.nc * h.depth + 7) / 8

/-- Steps 1–5 of R194: 0, or the CAUSE of the first failure. -/
def State.jxsCause (s : State) (c : Nat) (data : List Byte) (gap : Bool) : Nat :=
  if gap || (s.rd (IFE_CBUF_SIZE c)).toNat < data.length then 10
  else match jxsHeader data with
    | none => 9
    | some h =>
      let d := jxsBytes h
      if !h.profileOk || !(h.nc = 1 || h.nc = 3) then 9
      else if 2048 < h.wf || 2048 < h.hf || 12 < h.depth then 8
      else if (s.rd (IFE_MAXBYTES c)).toNat < d || s.camDepth c < h.depth then 8
      else if h.lcod ≠ data.length || 64 * h.lcod < d then 8
      else if h.wf ≠ s.camW c || h.hf ≠ s.camH c || h.nc ≠ s.camNc c then 8
      else 0

/-- A complete codestream is checked; an accepted one takes its slot and waits for the decoder, a
failing one is VOID. -/
def State.jxsEnd (s : State) (c : Fin 4) : State :=
  let x := s.cam c.val
  let cause := s.jxsCause c.val x.cbuf x.seqGap
  let s := s.setCam c.val { x with cbuf := [], seqGap := false, lastEnd := s.tbNs 7 }
  let (f, s) := s.openFrame c.val 0 cause
  if f.cause = 0 then { s with jxs := s.jxs ++ [⟨c, f, x.cbuf⟩] } else s.closeVoid c.val f f.cause

/-- An RTP packet for one stream. -/
def State.jxsPacket (s : State) (c : Fin 4) (seq : BitVec 16) (data : List Byte) (marker : Bool) : State :=
  let x := s.cam c.val
  let gap := x.seqGap || (match x.rtpSeq with | some p => seq ≠ p + 1 | none => false)
  let s := s.setCam c.val { x with
    rtpSeq := some seq, waitFs := false, skip := x.skip && !marker
    seqGap := gap && !x.skip, cbuf := if x.skip then [] else x.cbuf ++ data }
  if marker && !x.skip then s.jxsEnd c else s

/-- JXS_RTP_PACKET (R191, R194): the datagram goes to the streams whose UDP port it names; the marker bit
ends a codestream. -/
def execJxsRtpPacket (port : BitVec 16) (seq : BitVec 16) (data : List Byte) (marker : Bool) (s : State) : Out :=
  .next (s.each [0, 1, 2, 3] fun s (c : Fin 4) =>
    if s.camLive c.val && s.fld (IFE_CTL_SOURCE c.val) = srcJXS
        && bitsN (s.rd (IFE_UDP_PORT c.val)).toNat 0 16 = port.toNat && port ≠ 0 then
      s.jxsPacket c seq data marker
    else s)

/-- JXS_DECODE_START (R191): the decoder takes the oldest complete codestream. -/
def execJxsDecodeStart (s : State) : Out :=
  match s.jxsCur, s.jxs with
  | none, j :: js => .next { s with jxsCur := some j, jxs := js }
  | _, _ => .next s

/-- Write every row of a decoded sample. -/
def State.putRows (s : State) (c : Nat) (f : Frame) (px : List Nat) : (St × Nat) × State :=
  let n := s.camW c * s.camNc c
  (List.range (s.camH c)).foldl (fun x y =>
    if x.1.1 ≠ ST_OK then x
    else x.2.putRow c f y ((List.range n).map fun i => px.getD (y * n + i) 0)) ((ST_OK, 0), s)

/-- JXS_DECODE_COMPLETE (R191, R194 step 6, R201) of the stream that the decoder serves: the decoded
components, or a decoding error. What a codestream decodes to is ISO/IEC 21122's, a function of its bytes
(log entry 109). -/
def execJxsDecodeComplete (c : Fin 4) (s : State) : Out :=
  match s.jxsCur with
  | none => .next s
  | some j =>
    if j.cam ≠ c then .next s
    else
    let c := j.cam.val
    let s := { s with jxsCur := none }
    match Config.jxsDecoded j.data with
    | none => .next (s.closeVoid c j.frame 9)
    | some l =>
      let ((st, a), s) := s.putRows c j.frame (l.map BitVec.toNat)
      .next (if st = ST_OK then s.closeValid c j.frame else s.camFail c j.frame st a)

/-! ### REPLAY and DATA_GET (R195, R285, R288) -/

/-- DATA_PUT to CAMn (R195, R205). -/
def execDataPutCam (c : Fin 4) (via : Via) (s : State) : Out :=
  let c := c.val
  .next (s.hostCmd via opDATA_PUT (fCAM c) fun cmd =>
    let p := cmd.payload
    if !s.camLive c || s.fld (IFE_CTL_SOURCE c) ≠ srcREPLAY then s.complete cmd ST_BAD_STATE
    else if !cmd.arg.all (· == 0) || !cmd.plenOk || p.length < 4 then s.complete cmd ST_BAD_FIELD
    else if fieldN p 0 4 ≠ (s.cam c).next.toNat then s.complete cmd ST_BAD_FIELD
    else
      let cause := if p.length ≠ 4 + s.u16Bytes c then 13 else 0
      let (f, s) := s.openFrame c 0 cause
      let s := s.setCam c { s.cam c with lastEnd := s.tbNs 7 }
      let aux := f.idx.toNat
      if f.cause ≠ 0 then (s.closeVoid c f f.cause).complete cmd ST_SAMPLE_CORRUPT aux
      else
        let n := s.camW c * s.camNc c
        let px := (List.range (s.camH c)).flatMap fun y =>
          (List.range n).map fun i => fieldN p (4 + y * s.camRowBytes c + 2 * i) 2
        let ((st, a), s) := s.putRows c f px
        if st = ST_OK then (s.closeValid c f).complete cmd ST_OK aux
        else (s.camFail c f st a).complete cmd ST_SAMPLE_CORRUPT aux)

/-- Words returned poisoned are delivered as zero (R288): the bytes of `n` bytes at a device
address, and the offset of the first poisoned one. -/
def State.readClean (s : State) (a n : Nat) : List Byte × Option Nat :=
  let bad := (List.range n).map fun i => s.peekBad (a + i) 1
  (List.zipWith (fun v b => if b then 0 else v) (s.peek a n) bad, bad.findIdx? id)

/-- Reading the DSC entry of a sample waits for another master's clasp (R155). -/
def State.cutWaits (s : State) (c : Nat) (smp : Word) : Bool :=
  match s.dscOf c smp with
  | some e => s.claspMeets (mIFE c) (s.dscAddr c e) (s.u16Bytes c)
  | none => false

/-- DATA_GET to CAMn (R285, R288, R200). -/
def execDataGetCam (c : Fin 4) (via : Via) (s : State) : Out :=
  let c := c.val
  .next (s.hostCmd via opDATA_GET (fCAM c) fun cmd =>
    let smp := BitVec.ofNat 32 (fieldN cmd.arg 0 4)
    let off := fieldN cmd.arg 4 4
    let len := fieldN cmd.arg 8 4
    if !cmd.argTail 12 || !cmd.payload.isEmpty || len = 0 || 65536 < len || s.u16Bytes c < off + len
        || (cmd.isMbx && 224 < len) then s.complete cmd ST_BAD_FIELD
    else
      match s.dscOf c smp with
      | none => s.complete cmd ST_SAMPLE_CORRUPT
      | some e =>
        if s.cutWaits c smp then s
        else
        let (b, bad) := s.readClean (s.dscAddr c e + off) len
        match bad with
        | none => s.complete cmd ST_OK e b
        | some _ => (s.log ST_ECC_UNCORRECTED mHIP EV_ECC 6 (BitVec.ofNat 64 (s.dscAddr c e))).complete cmd ST_ECC_UNCORRECTED e b)

/-! ### Cut tasks (R201, R202) -/

/-- The draw of a view: flips, shifts, offset (R202). -/
structure Draw where
  fh : Bool
  fv : Bool
  dx : Int
  dy : Int
  off : Int
  deriving DecidableEq, Repr

/-- The ChaCha8 draw of view `v` of a sample; view 0 draws nothing (R202). -/
def State.draw (s : State) (c view : Nat) (smp : Word) (shift ofs aug : Nat) : Draw :=
  if view = 0 then ⟨false, false, 0, 0, 0⟩
  else
    let key := (List.range 8).map fun i => s.rd (IFE_SEED c i)
    let w := chacha8 ([0x61707865, 0x3320646e, 0x79622d32, 0x6b206574] ++ key
      ++ [0, smp, BitVec.ofNat 32 (c + 256 * view), 0])
    let at_ (i : Nat) : Nat := (w.getD i 0).toNat
    ⟨aug % 2 = 1 && at_ 0 % 2 = 1, aug / 2 % 2 = 1 && at_ 0 / 2 % 2 = 1,
      (at_ 1 % (2 * shift + 1) : Int) - shift, (at_ 2 % (2 * shift + 1) : Int) - shift,
      (at_ 3 % (2 * ofs + 1) : Int) - ofs⟩

/-- An integer clamped to 0 … n − 1. -/
def clampTo (n : Nat) (i : Int) : Nat := (max 0 (min i ((n : Int) - 1))).toNat

/-- Row `y` of a view: the components of the source pixels, with the offset (R202). -/
def State.viewRow (s : State) (c e : Nat) (d : Draw) (y : Nat) : List Nat :=
  let w := s.camW c
  let h := s.camH c
  let nc := s.camNc c
  let src := s.dscPixels c e (clampTo h ((if d.fv then (h : Int) - 1 - y else y) - d.dy))
  (List.range w).flatMap fun (x : Nat) =>
    let xs := clampTo w ((if d.fh then (w : Int) - 1 - x else x) - d.dx)
    (List.range nc).map fun k => clampTo (2 ^ s.camDepth c) ((src.getD (xs * nc + k) 0 : Int) + d.off)

/-- Write a sample of the DSC, as a view, into an image. -/
def State.cutRows (s : State) (c e : Nat) (d : Draw) (im : Img) (refresh : Bool) (rects : List Rect) : St × State :=
  (List.range (s.camH c)).foldl (fun x y =>
    if x.1 ≠ ST_OK then x
    else x.2.imgRow c im y (x.2.viewRow c e d y) (rowRuns (x.2.camW c) y refresh rects)) (ST_OK, s)

/-- Perform a cut task: its status (R201, R399). -/
def State.cut (s : State) (c : Nat) (d : List Byte) : St × State :=
  let smp := BitVec.ofNat 32 (fieldN d 4 4)
  let im := s.oneImg c (fieldN d 8 8)
  let corrupt (s : State) : St × State :=
    let (st, s) := s.voidImg c im
    (ST_SAMPLE_CORRUPT, if st = ST_OK then s else s.camRefused c st im.base)
  match s.dscOf c smp with
  | none => corrupt s
  | some e =>
    let (bad, s) := s.dscRead c e
    if bad then corrupt s
    else
      let dr := s.draw c (fieldN d 3 1) smp (fieldN d 16 2) (fieldN d 18 2) (fieldN d 20 1)
      let (st, s) := s.cutRows c e dr im true []
      (st, if st = ST_OK then s else s.camRefused c st im.base)

/-- CUT_TASK (R201): the oldest queued cut task of the stream is performed, once its reads are served. -/
def execCutTask (c : Fin 4) (s : State) : Out :=
  let c := c.val
  match (s.cam c).cuts, (s.cam c).cutDone with
  | d :: _, none =>
    if s.cutWaits c (BitVec.ofNat 32 (fieldN d 4 4)) then .next s
    else
    let (st, s) := s.cut c d
    .next (s.setCam c { s.cam c with cutDone := some st })
  | _, _ => .next s

/-- FN_STOP waits for the last cut task; then the stream is STOPPED (R205). -/
def State.camStopCheck (s : State) (c : Nat) : State :=
  match (s.cam c).stopVia with
  | none => s
  | some via =>
    if !(s.cam c).cuts.isEmpty then s
    else ((s.setCam c { s.cam c with stopVia := none }).setCamState c camSTOPPED ST_OK).completeVia via ST_OK

/-- CUT_TASK_COMPLETE (R201, R200, R205): ERR_SO where it failed, then DONE_SO. -/
def execCutTaskComplete (c : Fin 4) (s : State) : Out :=
  let c := c.val
  match (s.cam c).cuts, (s.cam c).cutDone with
  | d :: ds, some st =>
    let s := (s.setCam c { s.cam c with cuts := ds, cutDone := none }).noteEnd (fieldN d 0 2) (fieldN d 0x1C 4) st
    let s := if st = ST_SAMPLE_CORRUPT then s.noteCutVoid (fieldN d 0 2) (BitVec.ofNat 32 (fieldN d 0x1C 4)) else s
    let s := if st = ST_OK then s else s.bumpSo (mIFE c) (fieldN d 0x18 2) 1
    .next ((s.bumpSo (mIFE c) (fieldN d 0x16 2) 1).camStopCheck c)
  | _, _ => .next s

/-! ### Deferred batches (R203) -/

/-- A sample of a deferred batch is written into its image; a poisoned one is VOID (R399). -/
def State.cutSample (s : State) (c : Nat) (smp : Sample) : State :=
  let smp := ((s.cam c).held.find? fun y => y.idx = smp.idx).getD smp
  let im := s.sampleImg c smp.idx
  if smp.cause ≠ 0 then
    let (st, s) := s.voidImg c im
    if st = ST_OK then s else (s.camRefused c st im.base).camFault c st
  else
    let (bad, s) := s.dscRead c smp.entry
    if bad then (s.unmake c smp 12).2
    else
      let (st, s) := s.cutRows c smp.entry ⟨false, false, 0, 0, 0⟩ im (smp.flags.getLsbD 2) smp.rects
      if st = ST_OK then s
      else ((((s.camRefused c st im.base).camFault c st).unmake c smp (if st = ST_ECC_UNCORRECTED then 12 else 10))).2

/-- DEFERRED_BATCH_CUT (R203): the oldest deferred batch, sealed and with its credit, is cut from
the DSC and handed over. -/
def execDeferredBatchCut (c : Fin 4) (s : State) : Out :=
  let c := c.val
  match (s.cam c).deferredBatch with
  | [] => .next s
  | first :: rest =>
    let j := s.batchOf c first
    if (s.camState c ≠ camRUNNING && s.camState c ≠ camFAULT) || (s.cam c).stopVia.isSome
        || (s.batchHeld c j).length < s.batchLen c || !s.credit c (j + 1)
        || (s.batchHeld c j).any (fun x => s.cutWaits c x.idx) then .next s
    else
      let s := s.each (s.batchHeld c j) fun s x => s.cutSample c x
      .next (((s.setCam c { s.cam c with deferredBatch := rest }).handOver c j).faultCheck c)

/-! ### Function commands (R205, R206, R286) -/

/-- First offset of the block of stream `c`. -/
abbrev ifeBase (c : Nat) : Nat := 0xC0000 + 0x1000 * c

/-- A write to a register of stream `c`: from the HIP, in STOPPED or CONFIG (R206). -/
def State.camWrite (s : State) (src c off : Nat) (v : Word) : State :=
  if src = mHIP && (s.camState c = camSTOPPED || s.camState c = camCONFIG) then (s.plainWrite off v).answer ST_OK
  else s.refuseWrite ST_NOT_PERMITTED src off

/-- A configuration register of stream `c` and its fields in range (R206, R286). -/
def camItemOk (c o : Nat) (v : Word) : Bool :=
  let off := ifeBase c + o
  let n := v.toNat
  if off = IFE_CTL c then
    bitsN n 20 12 == 0 && bitsN n 11 1 == 0 && bitsN n 18 2 ≠ 3 && bitsN n 4 2 ≠ 3 && bitsN n 0 2 ≠ 3
  else if off = IFE_CUT c then n < 2 ^ 13
  else if off = IFE_CBUF_SIZE c then n ≤ 2 ^ 24
  else if off = IFE_SO c then bitsN n 30 2 == 0 && bitsN n 14 2 == 0
  else if off = IFE_ROI_SO c then n < 2 ^ 14
  else if off = IFE_SCALE c then n < 2 ^ 8
  else if off = IFE_UDP_PORT c then n < 2 ^ 16
  else (0x0C ≤ o && o ≤ 0x44 || 0x50 ≤ o && o < 0x70) && o % 4 == 0

/-- DECOMP is valid for DT: none on every type, 10-bit schemes on RAW10, 12-bit schemes on RAW12,
and either on the user-defined byte types (PRESUMED, log entry 11). -/
def decompOk (decomp dt : Nat) : Bool :=
  decomp = 0 || (0x30 ≤ dt && dt < 0x38) || (if decomp ≤ 3 then dt == 0x2B else dt == 0x2C)

/-- The stream's own checks (R205). -/
def State.camChecks (s : State) (c : Nat) : Bool :=
  let w := s.camW c
  let h := s.camH c
  let (bw, bh) := s.blockDims c
  let map := (s.rd64 (IFE_MAP_LO c) (IFE_MAP_HI c)).toNat
  let len := if s.s2d c then (s.batchImg c (s.batchLen c)).plane - map else s.batchLen c * s.u16Bytes c
  let dsc := s.dscBase c
  let roi := (s.rd64 (IFE_ROI_LO c) (IFE_ROI_HI c)).toNat
  let isMap (a n : Nat) : Bool :=
    match s.target (mIFE c) (BitVec.ofNat 64 a), s.target (mIFE c) (BitVec.ofNat 64 (a + n - 1)) with
    | .map .normal x, .map .normal y => x + n - 1 == y
    | _, _ => false
  let isDdr (a n : Nat) : Bool :=
    match s.target (mIFE c) (BitVec.ofNat 64 a), s.target (mIFE c) (BitVec.ofNat 64 (a + n - 1)) with
    | .ddr x, .ddr y => x + n - 1 == y
    | _, _ => false
  w ≠ 0 && h ≠ 0 && (!s.s2d c || (w % bw == 0 && h % bh == 0))
    && map % 64 == 0 && isMap map len && dsc % 65536 == 0 && isDdr dsc (64 * s.dscBytes c + 2048)
    && roi % 64 == 0 && (isMap roi 512 || isDdr roi 512)
    && (s.fld (IFE_CTL_SOURCE c) ≠ srcJXS
      || (4096 ≤ (s.rd (IFE_CBUF_SIZE c)).toNat && (s.rd (IFE_CBUF_SIZE c)).toNat ≤ 2 ^ 24
        && bitsN (s.rd (IFE_UDP_PORT c)).toNat 0 16 ≠ 0))
    && decompOk (s.fld (IFE_CTL_DECOMP c)) (s.fld (IFE_CTL_DT c))

/-- FN_CONFIG of a stream (R205, R286). -/
def execFnConfigCam (c : Fin 4) (via : Via) (s : State) : Out :=
  let st := s.camState c.val
  .next (s.fnConfig via (fCAM c.val) (st = camSTOPPED || st = camCONFIG) (camItemOk c.val)
    (fun s o v => s.plainWrite (ifeBase c.val + o) v) (fun s => s.camChecks c.val)
    fun s => s.setCamState c.val camCONFIG ST_OK)

/-- A sync object of the stream is set by FN_START. -/
def State.camSet (s : State) (n : Nat) (v : Word) : State := { s.soSet mHIP n v with reply := s.reply }

/-- FN_START of a stream (R205). -/
def execFnStartCam (c : Fin 4) (via : Via) (s : State) : Out :=
  let c := c.val
  .next (s.fnPlain via opFN_START (fCAM c) (s.camState c = camCONFIG) fun cmd =>
    let s := (s.camSet (s.frameSo c) 0).camSet (s.freeSo c) 1
    let s := s.setCam c { cuts := (s.cam c).cuts, cutDone := (s.cam c).cutDone, waitFs := true, lastEnd := s.tbNs 7 }
    (s.setCamState c camRUNNING ST_OK).complete cmd ST_OK)

/-- FN_STOP of a stream (R205): a frame in progress is truncated; queued cut tasks still run. -/
def execFnStopCam (c : Fin 4) (via : Via) (s : State) : Out :=
  let c := c.val
  let st := s.camState c
  .next (s.fnPlain via opFN_STOP (fCAM c) (st = camRUNNING || st = camFAULT) fun cmd =>
    let part := !(s.cam c).cbuf.isEmpty
    let s := s.closeAll c 6
    let s := if part then
        let (f, s) := s.openFrame c 0 6
        s.closeVoid c f 6
      else s
    (s.setCam c { s.cam c with stopVia := some cmd.via }).camStopCheck c)

end Sys2Proof.Machine
end

