-- ==== Sys2Proof/Machine/Bar2.lean ====
section
/-! DEFINITION. The BAR2 window and sealed ranges (R23–R26, R279, R367, R371, R387, R399). -/

namespace Sys2Proof.Machine

/-- What base address register `k` of configuration space reads as, its type bits apart: the endpoint
implements BAR0 and BAR2; BAR1, BAR3–BAR5 and the expansion ROM (6) read as zero (R23). -/
def pciBar (c : PciCfg) (k : Nat) : BitVec 64 :=
  match k with
  | 0 => c.bar0
  | 2 => c.bar2
  | _ => 0

/-- A byte range of the address space touches a tensor of the resident encrypted package while
SEC_POLICY.SEAL is set (R387). -/
def State.isSealed (s : State) (addr : BitVec 64) (n : Nat) : Bool :=
  match s.model.pkg, s.locate (s.target mHIP addr) with
  | some p, some (sp, a) =>
    s.flag SEC_POLICY_SEAL && p.encrypted && p.tensors.any fun t =>
      match s.locate (s.target mHIP t.1) with
      | some (sp', b) => sp = sp' && a < b + t.2.length && b < a + n
      | none => false
  | _, _ => false

/-- The device address of a BAR2 offset under the base in force (R24). -/
def State.bar2Addr (s : State) (off : Nat) : BitVec 64 :=
  BitVec.ofNat 64 (s.fab.bar2Lo.toNat + s.fab.bar2Hi.toNat * 2 ^ 32 + off)

/-- The translated address lies in map memory or LPDDR5X, of this chip or of another in use
(R25). -/
def State.bar2Inside (s : State) (a : BitVec 64) : Bool :=
  let l := a.toNat % 2 ^ 48
  match s.target mPCIe a with
  | .map _ _ => true
  | .ddr _ => true
  | .remote _ =>
    (0x10000000 ≤ l && l < 0x18000000) || (0x20000000 ≤ l && l < 0x28000000)
      || (0x30000000 ≤ l && l < 0x38000000) || (0x1000000000 ≤ l && l < 0x1800000000)
  | _ => false

/-- A BAR2 read of `n` bytes (R25, R136, R387, R399). A line that meets another master's clasp is
answered later. -/
def State.bar2Read (s : State) (addr : BitVec 64) (n : Nat) : State :=
  let ls := lines addr n
  let ur := s.reset_.devInReset || !ls.all (fun l => s.bar2Inside (BitVec.ofNat 64 l.1))
    || ls.any fun l => s.isSealed (BitVec.ofNat 64 l.1) l.2
  if ur then { s with reply := { st := ST_BAD_FIELD, ur := true } }
  else
    let bad := s.peekBad addr.toNat n
    let clean := (s.readClean addr.toNat n).1
    let (parts, s) := ls.foldl (fun (acc, s) l =>
      let (r, s) := s.request mPCIe (BitVec.ofNat 64 l.1) (.read l.2)
      (acc ++ [r], s)) (([] : List Reply), { s with reply := {} })
    let data := parts.flatMap (·.data)
    let ep := parts.any (·.ep)
    let s := { s with reply := {
      st := parts.foldl (fun x r => if x = ST_OK then r.st else x) ST_OK
      data := if ep && bad then clean else data
      ep := ep } }
    if ep then { s with host := { s.host with aer := s.host.aer + 1 } }.log ST_OK mPCIe EV_ECC 7 addr else s

/-- A BAR2 write (R25, R279): lines in ascending order. -/
def State.bar2Write (s : State) (addr : BitVec 64) (d : List Byte) : State :=
  let ls := lines addr d.length
  if s.reset_.devInReset then { s with reply := { st := ST_BAD_FIELD, ur := true } }
  else if !ls.all (fun l => s.bar2Inside (BitVec.ofNat 64 l.1)) then
    (s.log ST_BAD_FIELD mPCIe EV_REQUEST_REFUSED 0xFFFF addr).answer ST_BAD_FIELD
  else
    s.each ls fun s l =>
      let piece := (d.drop (l.1 - addr.toNat)).take l.2
      let (r, s) := s.request mPCIe (BitVec.ofNat 64 l.1) (s.writeOp mPCIe (BitVec.ofNat 64 l.1) piece 0xFFFF 0)
      let s := { s with reply := r }
      if r.st = ST_OK then s
      else s.log r.st mPCIe EV_REQUEST_REFUSED 0xFFFF (BitVec.ofNat 64 l.1)

/-- A request of 1 to `most` bytes within the window (R23). -/
def bar2Ok (most off n : Nat) : Bool := 1 ≤ n && n ≤ most && off + n ≤ 2 ^ 32

/-- The largest read request and the largest payload of a write (R278). -/
abbrev maxRead : Nat := 4096
abbrev maxWrite : Nat := 512

/-- A BAR2 request, translated by the base in force (R24): it wakes the device from STANDBY and is held
until the exit completes (R371), or behind the host's earlier requests (R279). -/
def State.bar2 (s : State) (off n : Nat) (d : Option (List Byte)) : State :=
  let addr := s.bar2Addr off
  if s.inStandby then s.wake.holdHost (.bar2 addr n d)
  else if s.hostStalls mPCIe then s.holdHost (.bar2 addr n d)
  else
    match d with
    | none => s.bar2Read addr n
    | some b => s.bar2Write addr b

/-- HOST_BAR2_READ (R25, R279). -/
def execHostBar2Read (off len : Nat) (s : State) : Out :=
  if bar2Ok maxRead off len then .next (s.bar2 off len none) else .fault .badOperand

/-- HOST_BAR2_WRITE (R25, R279). -/
def execHostBar2Write (off : Nat) (data : List Byte) (s : State) : Out :=
  if bar2Ok maxWrite off data.length then .next (s.bar2 off data.length (some data)) else .fault .badOperand

/-- A write to PCI_BAR2_BASE_LO, or to PCI_BAR2_BASE_HI, which brings the base into force
(R24, R26). -/
def State.pciWrite (s : State) (src off : Nat) (v : Word) : State :=
  if off = PCI_LINK_STAT then s.answer ST_OK
  else if src ≠ mPCIe && src ≠ mHIP then s.refuseWrite ST_NOT_PERMITTED src off
  else
    let s := ((s.hostAccess src).plainWrite off v).answer ST_OK
    if off = PCI_BAR2_BASE_HI then
      { s with fab := { s.fab with bar2Hi := s.rd PCI_BAR2_BASE_HI, bar2Lo := s.rd PCI_BAR2_BASE_LO } }
    else s

/-- PCI_BAR2_BASE_HI_WRITE (R24). -/
def execPciBar2BaseHiWrite (src : Nat) (v : Word) (s : State) : Out :=
  .next (s.hostWrite src PCI_BAR2_BASE_HI v fun s => s.pciWrite src PCI_BAR2_BASE_HI v)

end Sys2Proof.Machine
end

