-- ==== Sys2Proof/Machine/Records.lean ====
section
/-! DEFINITION. Record rings with a WR count in their header (R242, R243, R336). -/

namespace Sys2Proof.Machine

/-- A ring is full: WR − RD equals its size under R8 (R243). -/
def recFull (wr rd size : Nat) : Bool := diffC 32 wr rd == (size : Int)

/-- Write one record and then WR: whether the record was written (R242, R243). `base` is the
ring's header, records start 64 B after it. -/
def State.putRecord (s : State) (src base size : Nat) (seq wr rd : Word) (body : List Byte) : Bool × State :=
  if recFull wr.toNat rd.toNat size then (false, s)
  else
    let a := base + 64 + body.length * (seq.toNat % size)
    let (r, s) := s.postLong src (BitVec.ofNat 64 a) body
    if r.1 ≠ ST_OK then (false, s)
    else
      let (st, s) := s.postWrite src (BitVec.ofNat 64 base) (leBytes 4 (wr + 1).toNat)
      (true, if st = ST_OK then s else s.log st src EV_REQUEST_REFUSED 0xFFFF (BitVec.ofNat 64 base))

end Sys2Proof.Machine
end

