-- ==== Sys2Proof/Machine/Can.lean ====
section
/-! DEFINITION. CAN FD channels and functions CAN0–CAN7 (R334–R339). -/

namespace Sys2Proof.Machine

/-! ### Registers -/

/-- Channel `n` takes a function state. -/
def State.setCanFn (s : State) (n : Nat) (x : FnState) : State :=
  let c := s.can n
  (s.setCan n { c with fn := x }).fnEvent (fCAN n) c.fn.code x.code ST_OK

/-- The channel takes part in the bus. -/
def State.canOn (s : State) (n : Nat) : Bool :=
  (s.can n).fn = .running && (s.can n).synced && s.fld (canERRST n) ≠ canBusOff

/-! ### Frames -/

/-- Bytes that a DLC stands for (ISO 11898-1). -/
def dlcBytes (fd : Bool) (dlc : Nat) : Nat :=
  if dlc ≤ 8 then dlc else if fd then [12, 16, 20, 24, 32, 48, 64].getD (dlc - 9) 64 else 8

/-- The frame in transmit buffer `b`, in the format that its header names (DESIGN CHOICE, log entry 74). -/
def State.txFrame (s : State) (n b : Nat) : CanFrame :=
  let h := s.rd (CAN_TXB_HDR n b)
  let dlc := bitsN (s.rd (CAN_TXB_DLC n b)).toNat 0 4
  let data := ((List.range 16).map fun i => leBytes 4 (s.rd (CAN_TXB_DATA n b i)).toNat).flatten
  { ide := h.getLsbD 29, fdf := h.getLsbD 31, brs := h.getLsbD 30, esi := s.fld (canERRST n) == canPassive
    rtr := false, dlc := BitVec.ofNat 4 dlc, id := h.setWidth 29
    data := data.take (dlcBytes (h.getLsbD 31) dlc) }

/-- The identifier by which the ID rule orders buffers (R335). -/
def prioId (f : CanFrame) : Nat := if f.ide then f.id.toNat else f.id.toNat % 2048 * 2 ^ 18 + (2 ^ 18 - 1)

/-- The pending buffer that is sent next (R335). -/
def State.canChoose (s : State) (n : Nat) : Option Nat :=
  let pend := (List.range 3).filter fun b => s.flag (canPend n b)
  if s.flag (canTXPRIO n) then pend.head?
  else pend.foldl (fun best b =>
    match best with
    | none => some b
    | some a => if prioId (s.txFrame n b) < prioId (s.txFrame n a) then some b else some a) none

/-- FLAGS of a record (R336). -/
def canFlags (f : CanFrame) (tx gap ref : Bool) (buf : Nat) : Nat :=
  let b (x : Bool) (k : Nat) : Nat := if x then 2 ^ k else 0
  b tx 0 + b f.fdf 1 + b f.brs 2 + b f.esi 3 + b f.ide 4 + b f.rtr 5 + b gap 6 + b ref 7 + buf * 256

/-- The 96-byte record (R336). -/
def canRecord (seq : Word) (flags dlc filt id t0 t5 : Nat) (data : List Byte) : List Byte :=
  leBytes 4 seq.toNat ++ leBytes 2 flags ++ leBytes 1 dlc ++ leBytes 1 filt ++ leBytes 4 id
    ++ leBytes 4 0 ++ leBytes 8 t0 ++ leBytes 8 t5 ++ (data ++ List.replicate 64 0).take 64

/-- Enter a record in the channel's ring under the rules of R242 and R243. -/
def State.canPut (s : State) (n : Nat) (f : CanFrame) (tx ref : Bool) (buf filt : Nat) : State :=
  let c := s.can n
  let base := (s.rd64 (CAN_RING_LO n) (CAN_RING_HI n)).toNat
  let size := 2 ^ bitsN (s.rd (CAN_RING_CFG n)).toNat 0 4
  let body := canRecord c.seq (canFlags f tx c.gap ref buf) f.dlc.toNat filt f.id.toNat c.sof0.toNat
    (if n < 2 then c.sof5.toNat else 0) f.data
  let (ok, s) := s.putRecord mHIP base size c.seq c.wr (s.rd (CAN_RING_RD n)) body
  s.setCan n { s.can n with seq := c.seq + 1, wr := if ok then c.wr + 1 else c.wr, gap := !ok }

/-- The stamps of a start of frame now (R336). -/
def State.canSof (s : State) (n : Nat) : State :=
  s.setCan n { s.can n with sof0 := s.tb64 0, sof5 := if n < 2 then s.tb64 5 else 0, inFrame := true }

/-- The error state that the counters give (ISO 11898-1). -/
def State.canErrState (s : State) (n : Nat) : State :=
  if s.fld (canERRST n) = canBusOff then s
  else s.setF (canERRST n) (if 128 ≤ s.fld (canTEC n) || 128 ≤ s.fld (canREC n) then canPassive else canActive)

/-- The identifier/mask pair that accepts a frame first (R336). -/
def State.canFilter (s : State) (n : Nat) (id : BitVec 29) : Option Nat :=
  (List.range 32).find? fun f =>
    let m := (s.rd (CAN_FILT_MASK n f)).setWidth 29
    id &&& m == (s.rd (CAN_FILT_ID n f)).setWidth 29 &&& m

/-! ### Time-triggered operation (R338) -/

/-- The frame is a reference message of the channel's time group (R338). -/
def State.isRef (s : State) (n : Nat) (f : CanFrame) : Bool :=
  n < 2 && (s.fld (ttcMODE n) == 1 || s.fld (ttcMODE n) == 2) && !f.ide
    && f.id.toNat % 2048 / 8 == s.fld (ttcREF_ID n) / 8

/-- Bit time of the arbitration phase in ns at 80 MHz (R334): (prescaler) × (1 + TSEG1 + TSEG2)
quanta. -/
def State.canBitNs (s : State) (n : Nat) : Nat :=
  let w := (s.rd (CAN_NBT n)).toNat
  (bitsN w 24 8 + 1) * (1 + (bitsN w 16 8 + 1) + (bitsN w 8 8 + 1)) * 25 / 2

/-- A reference message has been received (R338). -/
def State.refReceived (s : State) (n : Nat) (f : CanFrame) : State :=
  let c := s.can n
  let cnt := (f.data.headD 0).toNat % 64
  let s := s.setCan n { c with
    refAt := c.sof5.toNat / 65536, lastRef := c.sof5, cycCnt := (cnt + 1) % 64
    masterQuiet := s.fld (ttcMODE n) == 2 || c.masterQuiet }
  s.setF (ttcLOST n) 0

/-- The reference message to send now (R338). -/
def State.refFrame (s : State) (n : Nat) : CanFrame :=
  let c := s.can n
  let gt := s.flag (ttcGT_EN n)
  let d := [BitVec.ofNat 8 (c.cycCnt % 64)]
  { ide := false, fdf := false, brs := false, esi := false, rtr := false
    dlc := if gt then 8 else 1, id := BitVec.ofNat 29 (s.fld (ttcREF_ID n))
    data := if gt then d ++ [0] ++ leBytes 6 (c.lastRef.toNat / 65536) else d }

/-! ### Register writes -/

/-- First offset of the block of channel `n`. -/
abbrev canBase (n : Nat) : Nat := 0x60000 + 0x1000 * n

/-- The transmit buffer that a register belongs to (R335). -/
def txbOf (n off : Nat) : Option Nat :=
  let o := off - canBase n
  if 0x200 ≤ o && o < 0x380 then some ((o - 0x200) / 0x80) else none

/-- TXB2 is reserved for the SFP (R335). -/
def State.txb2Closed (s : State) (src n : Nat) : Bool := s.safety.params.msgCh == n && src != mSFP

/-- Acceptance filter 31 of the message channel is Madder's while ACK_MSG is 1 (R272). -/
def State.filtKept (s : State) (n off : Nat) : Bool :=
  s.safety.params.ackMsg && s.safety.params.msgCh == n && (off == CAN_FILT_ID n 31 || off == CAN_FILT_MASK n 31)

/-- A frame that Madder receives as an acknowledgement message: a CAN FD frame with identifier ACK_ID that
filter 31 of the message channel accepts (R272). -/
def State.ackFrame (s : State) (n : Nat) (f : CanFrame) : Bool :=
  let x := s.safety.params
  let m := (s.rd (CAN_FILT_MASK n 31)).setWidth 29
  x.ackMsg && x.msgCh == n && f.fdf && !f.ide && f.id.toNat % 2048 == x.ackId
    && f.id &&& m == (s.rd (CAN_FILT_ID n 31)).setWidth 29 &&& m

/-- A write to CAN_TXREQ (R335). -/
def State.canTxReq (s : State) (src n : Nat) (v : Word) : State :=
  if v.getLsbD 2 && s.txb2Closed src n then s.refuseWrite ST_NOT_PERMITTED src (CAN_TXREQ n)
  else ((s.wr (CAN_TXREQ n) (s.rd (CAN_TXREQ n) ||| (v &&& 7)))).answer ST_OK

/-- A write to CAN_TXABORT: a request of a buffer that is not transmitting is cleared at once
(R335). -/
def State.canTxAbort (s : State) (src n : Nat) (v : Word) : State :=
  if v.getLsbD 2 && s.txb2Closed src n then s.refuseWrite ST_NOT_PERMITTED src (CAN_TXABORT n)
  else
    (s.each (List.range 3) fun s b =>
      if !v.getLsbD b || !s.flag (canPend n b) then s
      else if (s.can n).current = some b then s.setF (canAbort n b) 1
      else s.setF (canPend n b) 0).answer ST_OK

/-- RECOVER (R337). -/
def State.canRecover (s : State) (src n : Nat) : State :=
  if src ≠ mHIP then s.refuseWrite ST_NOT_PERMITTED src (CAN_CTL n)
  else if s.fld (canERRST n) = canBusOff && !s.flag (canAUTO_REC n) then
    ((s.setF (canRECOVER n) 1).setCan n { s.can n with recover := true }).answer ST_OK
  else s.answer ST_OK

/-- Bits of CAN_TTC that software writes: all but TTC_LOST. -/
abbrev ttcMask : Word := 0xFFFF7FFB

/-- A configuration register takes a value: RECOVER and TTC_LOST are no configuration. -/
def State.canApply (s : State) (n o : Nat) (v : Word) : State :=
  let off := canBase n + o
  if off = CAN_CTL n then s.wr off ((s.rd off &&& 0x20) ||| (v &&& 0x1E))
  else if off = CAN_TTC n then
    if n < 2 then s.wr off ((s.rd off &&& 4) ||| (v &&& ttcMask)) else s
  else s.plainWrite off v

/-- A write to a register of a CAN block (R272, R335, R337, R339). -/
def State.canWrite (s : State) (src n off : Nat) (v : Word) : State :=
  if off = CAN_TXREQ n then s.canTxReq src n v
  else if off = CAN_TXABORT n then s.canTxAbort src n v
  else if off = CAN_CTL n && v.getLsbD 5 && src = mHIP && (s.can n).fn = .running then s.canRecover src n
  else if off = CAN_RING_RD n then (s.wr off v).answer ST_OK
  else if s.filtKept n off then
    (if src = mSFP then (s.plainWrite off v).answer ST_OK else s.refuseWrite ST_NOT_PERMITTED src off)
  else
    match txbOf n off with
    | some b =>
      if b = 2 && s.txb2Closed src n then s.refuseWrite ST_NOT_PERMITTED src off
      else if s.flag (canPend n b) then s.refuseWrite ST_BAD_STATE src off
      else (s.plainWrite off v).answer ST_OK
    | none =>
      if src = mHIP && ((s.can n).fn = .stopped || (s.can n).fn = .config) then
        (s.canApply n (off - canBase n) v).answer ST_OK
      else s.refuseWrite ST_NOT_PERMITTED src off

/-- The configuration registers of a CAN block and their fields (R286, R339). -/
def canItemOk (n o : Nat) (v : Word) : Bool :=
  let off := canBase n + o
  (off == CAN_CTL n && v.toNat / 32 == 0 && v.toNat % 2 == 0)
    || off == CAN_NBT n || off == CAN_DBT n
    || (0x40 ≤ o && o < 0x140 && o % 4 == 0)
    || (off == CAN_RING_LO n && v.toNat % 64 == 0) || off == CAN_RING_HI n
    || (off == CAN_RING_CFG n && 6 ≤ v.toNat && v.toNat ≤ 10)
    || (off == CAN_TTC n && n < 2 && bitsN v.toNat 0 2 ≤ 2 && !v.getLsbD 2)

/-! ### The commands -/

/-- CAN_TXREQ (R335). -/
def execCanTxreq (src : Nat) (n : Fin 8) (v : Word) (s : State) : Out := .next (s.canTxReq src n.val v)

/-- CAN_TXABORT (R335). -/
def execCanTxabort (src : Nat) (n : Fin 8) (v : Word) (s : State) : Out := .next (s.canTxAbort src n.val v)

/-- CAN_FRAME_START (R335, R336): a start of frame on the bus. It is stamped, and the channel
sends the buffer that the rule chooses. -/
def execCanFrameStart (n : Fin 8) (s : State) : Out :=
  let n := n.val
  if !s.canOn n || (s.can n).inFrame then .next s
  else
    let s := s.canSof n
    .next (s.setCan n { s.can n with current := s.canChoose n })

/-- A transmission has ended: the buffer stays pending unless it was sent, aborted or under ONESHOT (R335). A
safety message that waited for the reserved buffer enters it. -/
def State.canTxEnd (s : State) (n b : Nat) (clear : Bool) : State :=
  let s := if clear || s.flag (canONESHOT n) || s.flag (canAbort n b) then s.setF (canPend n b) 0 else s
  let s := (s.setF (canAbort n b) 0).setCan n { s.can n with current := none }
  if b = 2 && s.safety.params.msgCh = n then s.safetyTx n else s

/-- CAN_FRAME_TRANSMITTED (R335–R337). -/
def execCanFrameTransmitted (n : Fin 8) (res : CanTxResult) (s : State) : Out :=
  let n := n.val
  match (s.can n).current with
  | none => .next s
  | some b =>
    match res with
    | .sent =>
      let f := s.txFrame n b
      let s := s.canPut n f true false b 0xFF
      let s := s.setCan n { s.can n with sent := (s.can n).sent ++ [f], inFrame := false }
      let s := (s.setF (canTEC n) (s.fld (canTEC n) - 1)).canErrState n
      .next (s.canTxEnd n b true)
    | .lostArbitration => .next (s.canTxEnd n b false)
    | .failed =>
      let s := (s.incF (canTEC n) 8).canErrState n
      let s := s.setCan n { s.can n with inFrame := false }
      .next (s.canTxEnd n b false)

/-- REC after a frame received well (ISO 11898-1): one less, and from above 127 a value from
119 to 127, which is open. -/
def State.recGood (s : State) (n : Nat) : State :=
  let r := s.fld (canREC n)
  if r ≤ 127 then s.setF (canREC n) (r - 1)
  else
    let (v, s) := s.fresh
    s.setF (canREC n) (119 + v.toNat % 9)

/-- CAN_FRAME_RECEIVED (R336, R338): the frame whose start was stamped has been received. -/
def execCanFrameReceived (n : Fin 8) (fr : CanFrame) (s : State) : Out :=
  let n := n.val
  if !s.canOn n || !(s.can n).inFrame || (s.can n).current.isSome then .next s
  else
    let ref := s.isRef n fr
    let s := (s.recGood n).canErrState n
    let s := s.setCan n { s.can n with inFrame := false }
    let s := if ref then s.refReceived n fr else s
    let s := if s.ackFrame n fr then { s with safety := { s.safety with ackIn := s.safety.ackIn ++ [fr.data] } } else s
    match s.canFilter n fr.id with
    | some f => .next (s.canPut n fr false ref 0 f)
    | none => if ref then .next (s.canPut n fr false true 0 0xFF) else .next s

/-- CAN_BUS_OFF (R337). -/
def execCanBusOff (n : Fin 8) (s : State) : Out :=
  let n := n.val
  if (s.can n).fn ≠ .running || s.fld (canERRST n) = canBusOff then .next s
  else
    let s := ((s.setF (canERRST n) canBusOff).setF (canTEC n) 256).inc (CAN_BUSOFF_CNT n)
    let s := s.each (List.range 3) fun s b =>
      if s.flag (canAbort n b) then (s.setF (canPend n b) 0).setF (canAbort n b) 0 else s
    .next (s.setCan n { s.can n with current := none, inFrame := false, recover := false })

/-- CAN_BUS_OFF_RECOVERY (R337): 128 occurrences of 11 recessive bits have been counted. -/
def execCanBusOffRecovery (n : Fin 8) (s : State) : Out :=
  let n := n.val
  if s.fld (canERRST n) ≠ canBusOff || !(s.flag (canAUTO_REC n) || (s.can n).recover) then .next s
  else
    let s := ((s.setF (canERRST n) canActive).setF (canTEC n) 0).setF (canREC n) 0
    .next ((s.setF (canRECOVER n) 0).setCan n { s.can n with recover := false })

/-- RECOVER (R337). -/
def execRecover (src : Nat) (n : Fin 8) (s : State) : Out := .next (s.canRecover src n.val)

/-- A reference message is due (R338). -/
def State.refDue (s : State) (n : Nat) : Bool :=
  let c := s.can n
  let wait := s.fld (ttcCYC_PER n) * 1000
    + (if c.masterQuiet then 16 * s.canBitNs n * (s.fld (ttcREF_ID n) % 8) else 0)
  s.canOn n && s.fld (ttcMODE n) == 2 && !c.inFrame && passedNs wait (s.tbNs 5) c.refAt

/-- REFERENCE_MESSAGE (R336, R338): the reference message is sent. -/
def execReferenceMessage (n : Fin 2) (s : State) : Out :=
  let n := n.val
  if !s.refDue n then .next s
  else
    let f := s.refFrame n
    let s := s.canSof n
    let (v, s) := s.fresh
    let s := s.canPut n f true true (v.toNat % 4) 0xFF
    let c := s.can n
    .next (s.setCan n { c with
      sent := c.sent ++ [f], inFrame := false, masterQuiet := false, refAt := c.sof5.toNat / 65536
      lastRef := c.sof5, cycCnt := (c.cycCnt + 1) % 64 })

/-- TTC_LOST (R338). -/
def execTtcLost (n : Fin 2) (s : State) : Out :=
  let n := n.val
  let c := s.can n
  if c.fn = .running && s.fld (ttcMODE n) = 1 && passedNs (3 * s.fld (ttcCYC_PER n) * 1000) (s.tbNs 5) c.refAt then
    .next (s.setF (ttcLOST n) 1)
  else .next s

/-- FN_CONFIG of a CAN channel (R286, R339); filter 31 of the message channel is Madder's (R272). -/
def execFnConfigCan (n : Fin 8) (via : Via) (s : State) : Out :=
  let fn := (s.can n.val).fn
  .next (s.hostCmd via opFN_CONFIG (fCAN n.val) fun c =>
    s.fnConfigRun c (fn = .stopped || fn = .config) (canItemOk n.val) (fun o => s.filtKept n.val (canBase n.val + o))
      (fun s o v => s.canApply n.val o v) (fun _ => true) fun s => s.setCanFn n.val .config)

/-- A channel joins the bus (R339). -/
def State.canBegin (s : State) (n : Nat) : State :=
  (s.setCan n { s.can n with synced := true, refAt := s.tbNs 5, masterQuiet := false }).setCanFn n .running

/-- FN_START of a CAN channel (R339). -/
def execFnStartCan (n : Fin 8) (via : Via) (s : State) : Out :=
  .next (s.fnPlain via opFN_START (fCAN n.val) ((s.can n.val).fn = .config) fun c =>
    (s.canBegin n.val).complete c ST_OK)

/-- FN_STOP of a CAN channel (R339): refused while it carries the safety message. -/
def execFnStopCan (n : Fin 8) (via : Via) (s : State) : Out :=
  let fn := (s.can n.val).fn
  .next (s.fnPlain via opFN_STOP (fCAN n.val) (fn = .running || fn = .fault) fun c =>
    if s.safety.params.msgCh = n.val then s.complete c ST_NOT_PERMITTED
    else
      let s := s.setCan n.val { s.can n.val with synced := false, inFrame := false, current := none }
      (s.setCanFn n.val .stopped).complete c ST_OK)

end Sys2Proof.Machine
end

