-- ==== Sys2Proof/Machine/Eth.lean ====
section
/-! DEFINITION. The Ethernet switch and function ETH (R327–R333, R339). -/

namespace Sys2Proof.Machine

/-! ### State -/

/-- ETH takes a state. -/
def State.setEthFn (s : State) (x : FnState) : State :=
  ({ s with eth := { s.eth with fn := x } }).fnEvent fETH s.eth.fn.code x.code ST_OK

/-! ### PTP (R331, R332) -/

/-- Mode of the clock of a time base: 0 off, 1 E2E TC, 2 P2P TC, 3 802.1AS (R332). -/
def State.ptpMode (s : State) (base : Nat) : Nat := bitsN (s.rd ETH_PTP_CFG).toNat (2 * (base - 1)) 2

/-- The correction of a transparent clock: residence time, and the ingress link delay on Sync
in peer-to-peer mode (R332). -/
def State.ptpCorrect (s : State) (q : QFrame) : EthFrame :=
  match ptpEvent q.fr, q.stamp with
  | some i, some inn =>
    match s.domBase i.domain with
    | some b =>
      let res := s.tb64 b - inn
      let link : BitVec 64 := if s.ptpMode b = 2 && i.type = .sync && q.ingress < 6
        then (s.rd (ETH_PDELAY q.ingress)).setWidth 64 else 0
      if s.ptpMode b = 1 || s.ptpMode b = 2 then
        { q.fr with ptp := some { i with correction := i.correction + res + link } }
      else q.fr
    | none => q.fr
  | _, _ => q.fr

/-! ### Gates (R329, R330) -/

/-- The time base of a port's gate control list. -/
def gateBaseOf (p : Nat) : Nat := [1, 2, 3, 4, 7].getD (Config.gateBase p) 7

/-- The entries of a port's admin list: those before the first whose INTERVAL is below 8. -/
def State.gclAdmin (s : State) (p : Nat) : List (Nat × Nat × Nat) :=
  ((List.range 256).map fun e =>
    let w := (s.rd (ETH_GCL_LO p e)).toNat
    (w % 256, w / 256 % 256, (s.rd (ETH_GCL_HI p e)).toNat)).takeWhile fun e => 8 ≤ e.2.2

/-- Cycle time: the sum of the intervals. -/
def gclCycle (l : List (Nat × Nat × Nat)) : Nat := (l.map fun e => e.2.2).sum

/-- The config change time: AdminBaseTime, or the first AdminBaseTime + N × cycle time still
ahead (R330). -/
def configTime (base cycle now : Nat) : Nat :=
  if reached 48 base now then base
  else (base + (((diffC 48 now base).toNat + cycle - 1) / cycle) * cycle) % 2 ^ 48

/-- The entry at index `i` takes effect at time `t`. -/
def State.gateEnter (s : State) (p i t : Nat) : State :=
  let x := s.port p
  match x.oper[i]? with
  | none => s
  | some e =>
    s.setPort p { x with
      gclIdx := i, gates := BitVec.ofNat 8 e.1, gateClose := (t + e.2.2) % 2 ^ 48
      hold := if e.2.1 = 1 then true else if e.2.1 = 2 then false else x.hold }

/-- ns until the gate of a class closes, `none` when it stays open: the rest of the entry in
force and the following entries whose bit is set (R330). -/
def gateSpan (l : List (Nat × Nat × Nat)) (tc : Nat) : Option Nat :=
  if l.all fun e => bitsN e.1 tc 1 == 1 then none
  else some ((l.takeWhile fun e => bitsN e.1 tc 1 == 1).map fun e => e.2.2).sum

/-- ns until the gate of class `tc` at port `p` closes. -/
def State.gateLeft (s : State) (p tc : Nat) : Option Nat :=
  let x := s.port p
  if x.oper.isEmpty then none
  else
    let rest := (diffC 48 x.gateClose (s.tbNs (gateBaseOf p))).toNat
    (gateSpan (x.oper.drop (x.gclIdx + 1) ++ x.oper.take (x.gclIdx + 1)) tc).map (· + rest)

/-- What can start at the head of a class: nothing, the whole frame (or the rest of it), or a
fragment (R330). -/
inductive Start where
  | none | whole | fragment
  deriving DecidableEq, Repr

/-- A time fits before the gate closes. -/
def fits (t : Nat) : Option Nat → Bool
  | none => true
  | some g => t ≤ g

/-- What class `tc` of port `p` can start now. -/
def State.canStart (s : State) (p tc : Nat) : Start :=
  let x := s.port p
  match x.queue.find? (fun q => q.tc = tc) with
  | none => .none
  | some q =>
    if !x.up || !x.gates.getLsbD tc || (x.hold && q.fr.preemptable && p < 6) then .none
    else if fits q.left (s.gateLeft p tc) then .whole
    else if q.fr.preemptable && p < 6 && q.fr.fragNs < q.left && fits q.fr.fragNs (s.gateLeft p tc) then .fragment
    else .none

/-- The frame has left through port `p`: port 6 hands it to the JXS, to the SFP or to the HIP (R272,
R327). -/
def State.ethOut (s : State) (p : Nat) (fr : EthFrame) : State :=
  let s := { s with eth := { s.eth with sent := s.eth.sent ++ [(p, fr)] } }
  if p ≠ 6 || fr.udpPort.any s.jxsPort then s
  else if s.ackDatagram fr then { s with safety := { s.safety with ackIn := s.safety.ackIn ++ [fr.body] } }
  else { s with eth := { s.eth with toHip := s.eth.toHip ++ [fr] } }

/-- The head of class `tc` starts: its egress stamps, its correction, and either the whole of
it leaves or a fragment does (R330–R332). -/
def State.ethStart (s : State) (p tc : Nat) (frag : Bool) : State :=
  let x := s.port p
  match x.queue.find? (fun q => q.tc = tc) with
  | none => s
  | some q =>
    let s : State := match q.held, ptpEvent q.fr with
      | false, some i =>
        let t := s.ptpStamp i
        { s with eth := { s.eth with stamps := s.eth.stamps ++ [{ port := p, egress := true, tb0 := t.1, dom := t.2 }] } }
      | _, _ => s
    let fr := if q.held then q.fr else s.ptpCorrect q
    let uncorr := !q.held && q.fr.ptp.any fun i => i.transport == .udp6
    let s := if uncorr then s.inc ETH_PTP_UNCORR else s
    if frag then
      let q' := { q with fr := fr, held := true, left := q.left - fr.fragNs }
      s.setPort p { x with queue := x.queue.replace q q' }
    else (s.setPort p { x with queue := x.queue.erase q }).ethOut p fr

/-! ### Configuration (R339) -/

/-- First offset of the ETH block. -/
abbrev ethBase : Nat := 0x80000

/-- The configuration registers of ETH and their fields (R286, R330). -/
def ethItemOk (o : Nat) (v : Word) : Bool :=
  let off := ethBase + o
  off == ETH_DOM_MAP || off == ETH_PTP_CFG
    || ((List.range 6).any fun p => off == ETH_PDELAY p)
    || (0x90000 ≤ off && off < 0x97000 && off % 0x1000 < 0x800 && off % 4 == 0 &&
      (if off % 8 = 0 then v.toNat / 65536 == 0 && v.toNat / 256 % 256 ≤ 2
       else v.toNat == 0 || 8 ≤ v.toNat))

/-- A write to a register of the ETH block (R332, R339). -/
def State.ethWrite (s : State) (src off : Nat) (v : Word) : State :=
  let pd := (List.range 6).any fun p => off == ETH_PDELAY p
  if src = mHIP && (pd || s.eth.fn = .stopped || s.eth.fn = .config) then (s.plainWrite off v).answer ST_OK
  else s.refuseWrite ST_NOT_PERMITTED src off

/-! ### The commands -/

/-- ETH_FRAME_RECEIVED (R328, R331). `verdict` is the drop reason that the features of R329
give the frame (DESIGN CHOICE, log entry 73). -/
def execEthFrameReceived (p : Fin 7) (fr : EthFrame) (verdict : Option (Fin 8)) (s : State) : Out :=
  let p := p.val
  if !(s.port p).up then .next s
  else if !fr.fcsOk then .next (s.ethDrop p 0)
  else if fr.vlan = 0 || 4094 < fr.vlan then .next (s.ethDrop p 2)
  else
    match verdict with
    | some r => .next (s.ethDrop p r.val)
    | none => .next (s.ethForward p fr)

/-- ETH_FRAME_TRANSMIT (R328, R330): strict priority among the classes that can start. -/
def execEthFrameTransmit (p : Fin 7) (tc : Fin 8) (s : State) : Out :=
  let p := p.val
  let higher := (List.range 8).any fun c => tc.val < c && s.canStart p c ≠ .none
  if higher then .next s
  else
    match s.canStart p tc.val with
    | .none => .next s
    | .whole => .next (s.ethStart p tc.val false)
    | .fragment => .next (s.ethStart p tc.val true)

/-- GATE_CONTROL_ENTRY (R330): the entry's interval has expired. -/
def execGateControlEntry (p : Fin 7) (s : State) : Out :=
  let p := p.val
  let x := s.port p
  if x.oper.isEmpty || !passedNs 0 (s.tbNs (gateBaseOf p)) x.gateClose then .next s
  else .next (s.gateEnter p ((x.gclIdx + 1) % x.oper.length) x.gateClose)

/-- GCL_CONFIG_CHANGE (R330): the admin list becomes operational. -/
def execGclConfigChange (p : Fin 7) (s : State) : Out :=
  let p := p.val
  let x := s.port p
  if !x.waiting || !passedNs 0 (s.tbNs (gateBaseOf p)) x.configAt then .next s
  else .next ((s.setPort p { x with oper := s.gclAdmin p, waiting := false }).gateEnter p 0 x.configAt)

/-- FN_CONFIG_ETH (R286, R339). -/
def execFnConfigEth (via : Via) (s : State) : Out :=
  .next (s.fnConfig via fETH (s.eth.fn = .stopped || s.eth.fn = .config) ethItemOk
    (fun s o v => s.plainWrite (ethBase + o) v) (fun _ => true) fun s => s.setEthFn .config)

/-- A port is enabled; its gate list starts at the config change time (R330, R339). -/
def State.portUp (s : State) (p : Nat) : State :=
  let l := s.gclAdmin p
  let x := s.port p
  s.setPort p { x with
    up := true, oper := [], gates := 0xFF, hold := false, waiting := !l.isEmpty
    configAt := configTime (Config.adminBaseTime p) (gclCycle l) (s.tbNs (gateBaseOf p)) }

/-- ETH enters RUNNING: every port is enabled (R339). -/
def State.ethBegin (s : State) : State := (s.each (List.range 7) State.portUp).setEthFn .running

/-- FN_START_ETH (R339). -/
def execFnStartEth (via : Via) (s : State) : Out :=
  .next (s.fnPlain via opFN_START fETH (s.eth.fn = .config) fun c => s.ethBegin.complete c ST_OK)

/-- FN_STOP_ETH (R339): refused while the safety message uses the switch. -/
def execFnStopEth (via : Via) (s : State) : Out :=
  .next (s.fnPlain via opFN_STOP fETH (s.eth.fn = .running || s.eth.fn = .fault) fun c =>
    if s.safety.params.msgCh = 8 then s.complete c ST_NOT_PERMITTED
    else
      ((s.each (List.range 7) fun s p =>
        s.setPort p { s.port p with up := false, oper := [], gates := 0xFF, waiting := false }).setEthFn
          .stopped).complete c ST_OK)

/-- MAC_ADDRESS_AGEING (R328). -/
def execMacAddressAgeing (mac : BitVec 48) (s : State) : Out :=
  .next { s with eth := { s.eth with mac := s.eth.mac.filter fun e => e.1 ≠ mac } }

end Sys2Proof.Machine
end

