-- ==== Sys2Proof/Machine/ServoMath.lean ====
section
/-! DEFINITION. Arithmetic of the servo loop: rounding, sine and cosine, the gain table, the data
path of R218 (R210, R217–R219). -/

namespace Sys2Proof.Machine

/-- RHU of n / d: the nearest integer, halves toward +∞ (R210). -/
def rhu (n : Int) (d : Nat) : Int := (2 * n + d) / (2 * d : Nat)

/-- RHU of the square root of n / d. -/
def rhuSqrt (n d : Nat) : Nat := (isqrt (4 * n / d) 64 0 + 1) / 2

/-- The floor of √3 × v. -/
def floorSqrt3 (v : Int) : Int :=
  let q := isqrt (3 * v.natAbs * v.natAbs) 64 0
  if 0 ≤ v then q else -((q : Int) + 1)

/-- RHU of n / (√3 × d). -/
def rhuDivSqrt3 (n : Int) (d : Nat) : Int :=
  let q : Int := (rhuSqrt (n.natAbs * n.natAbs) (3 * d * d) : Nat)
  if 0 ≤ n then q else -q

/-- π × 2^96. -/
def pi96 : Nat := 248902613312231085230521944622

/-- The sine's power series in units of 2^−96 at `x`: `n` terms after `term`, which has degree
2k − 1. -/
def sinSeries (x : Int) : Nat → Nat → Int → Int → Int
  | 0, _, _, acc => acc
  | n + 1, k, term, acc =>
    let term := -(term * x / 2 ^ 96 * x / 2 ^ 96) / ((2 * k) * (2 * k + 1) : Nat)
    sinSeries x n (k + 1) term (acc + term)

/-- Sine of t × 2^−16 turns for t up to a quarter turn, nearest in Q2.22. -/
def sinQuarter (t : Nat) : Int :=
  let x : Int := t * pi96 / 32768
  rhu (sinSeries x 20 1 x x) (2 ^ 74)

/-- Sine of t × 2^−16 turns, nearest in Q2.22 (R218 stage 4). -/
def sinQ (t : Nat) : Int :=
  let t : Nat := t % 65536
  let q := t / 16384
  let r := t % 16384
  match q with
  | 0 => sinQuarter r
  | 1 => sinQuarter (16384 - r)
  | 2 => -sinQuarter r
  | _ => -sinQuarter (16384 - r)

/-- Cosine of t × 2^−16 turns, nearest in Q2.22. -/
def cosQ (t : Nat) : Int := sinQ (t + 16384)

/-- A sinc filter's sum of order `k` and ratio `r` in Q1.23 (R210, R212). -/
def sincQ (sum r k : Nat) : Int := satS 24 (rhu ((2 * (sum : Int) - (r ^ k : Nat)) * 2 ^ 23) (r ^ k))

/-- A calibrated value (R210). -/
def calQ (x ofs : Int) (gain : Nat) : Int := satS 24 (rhu ((x - ofs) * gain) (2 ^ 14))

/-- The gain at an error (R219): Q4.16. -/
def gainQ (gt : Nat → Nat) (e : Int) : Nat :=
  let m : Nat := e.natAbs
  if 2 ^ 23 ≤ m then gt 32 * 16
  else
    let i := m / 2 ^ 18
    let f : Nat := m % 2 ^ 18
    let k := rhu (((gt i : Int) * 2 ^ 18 + (f : Int) * ((gt (i + 1) : Int) - gt i)) * 16) (2 ^ 18)
    (max 0 (min k (2 ^ 20 - 1))).toNat

/-- Controller output of an axis direction (R218 stage 8): Q2.23. -/
def ctlOut (k : Nat) (e int ff : Int) : Int := satS 25 (rhu (k * e + int * 2 ^ 9 + ff * 2 ^ 16) (2 ^ 16))

/-- Clamp to ±m. -/
def clampPm (m v : Int) : Int := max (-m) (min v m)

/-- The integrator after stage 10 (R218): held when the output is clamped and the error drives it
further. -/
def integNext (int ki e lim u v : Int) : Int :=
  if v ≠ u && ((0 < e && 0 < u) || (e < 0 && u < 0)) then int
  else clampPm lim (satS 32 (rhu (int * 2 ^ 9 + ki * e) (2 ^ 9)))

/-- Stage 9 of R218: the limited voltages. -/
def limitV (vlim vdc ud uq : Int) : Int × Int :=
  let vmax := rhuDivSqrt3 (vlim * vdc) (2 ^ 15)
  let vd := clampPm vmax ud
  let q : Int := (isqrt (vmax * vmax - vd * vd).toNat 32 0 : Nat)
  (vd, clampPm q uq)

/-- Stages 11–13 of R218: the compare values of the three phases in 10 ps units. -/
def cmpOut (vd vq sn cs vdc : Int) (p : Nat) : Nat × Nat × Nat :=
  let va := satS 25 (rhu (vd * cs - vq * sn) (2 ^ 22))
  let vb := satS 25 (rhu (vd * sn + vq * cs) (2 ^ 22))
  let a := va
  let b := satS 25 ((1 - va + floorSqrt3 vb) / 2)
  let c := satS 25 ((1 - va + floorSqrt3 (-vb)) / 2)
  let off := satS 25 (rhu (-(max a (max b c) + min a (min b c))) 2)
  let cmp (v : Int) : Nat :=
    let duty := max 0 (min (rhu (2 ^ 22 * vdc + (v + off) * 2 ^ 23) vdc.toNat) (2 ^ 23))
    (rhu (duty * p) (2 ^ 24)).toNat
  (cmp a, cmp b, cmp c)

end Sys2Proof.Machine
end

