-- ==== Sys2Proof/Machine/Servo.lean ====
section
/-! DEFINITION. The servo loop engines: function AXISa, feedback, position, the current loop,
setpoints, following error and stops (R207–R230). -/

namespace Sys2Proof.Machine

/-! ### Configuration (R208, R224) -/

/-- First offset of the block of axis `a`. -/
abbrev sleBase (a : Nat) : Nat := 0xA0000 + 0x1000 * a

/-- Offsets of an axis's configuration registers. -/
def sleCfg : List Nat :=
  [0x10, 0x14, 0x18, 0x1C, 0x20, 0x24, 0x28, 0x2C, 0x30, 0x34, 0x38, 0x40]
    ++ (List.range 4).map (0x44 + 4 * ·) ++ (List.range 4).map (0x54 + 4 * ·)
    ++ [0x64, 0x68, 0x6C, 0x80, 0x84, 0x88, 0x8C, 0x90, 0x94, 0xA0, 0xA4, 0xA8]
    ++ [0xB0, 0xB4, 0xB8, 0xBC, 0xC0, 0xC4, 0xC8, 0xCC, 0xD0]
    ++ (List.range 33).map (0x200 + 4 * ·) ++ (List.range 33).map (0x300 + 4 * ·)

/-- A value lies within the ranges of the configuration register at offset `o` of its block. -/
def sleRange (o n : Nat) : Bool :=
  let f (lo len : Nat) : Nat := bitsN n lo len
  if o = 0x10 then n % 2 = 0 && 1000000 ≤ n && n ≤ 50000000
  else if o = 0x14 then f 9 23 == 0 && f 5 3 == 0 && 1 ≤ f 0 5 && f 0 5 ≤ 16
  else if 0x20 ≤ o && o < 0x38 then n < 2 ^ 20
  else if o = 0x40 then
    f 21 11 == 0 && f 0 2 ≠ 0 && 8 ≤ f 2 9 && f 2 9 ≤ 256 && 16 ≤ f 12 7 && f 12 7 ≤ 80
  else if 0x44 ≤ o && o < 0x54 then n < 2 ^ 24
  else if o = 0x64 then f 24 8 == 0 && 4 ≤ f 16 6 && f 16 6 ≤ 32
  else if o = 0x68 then 1 ≤ signedN 16 (f 0 16) && signedN 16 (f 0 16) ≤ signedN 16 (f 16 16)
  else if o = 0x80 then
    f 28 4 == 0 && f 13 1 == 0 && 20 ≤ f 14 8 && f 14 8 ≤ 200 && f 10 2 ≤ 2 && f 7 3 ≤ 4
      && 8 ≤ f 1 6 && f 1 6 ≤ 40
  else if o = 0x84 then f 8 8 == 0
  else if o = 0x8C then n ≠ 0
  else if o = 0xA4 || o = 0xC0 || o = 0xC4 || o = 0xD0 then n < 2 ^ 24
  else if o = 0xA8 then n < 2 ^ 15
  else if o = 0xB8 then f 18 14 == 0 && f 16 2 ≤ 2 && 1 ≤ f 0 16
  else if o = 0x18 || o = 0x1C || o = 0x88 || o = 0x90 || o = 0xA0 || o = 0xB0 || o = 0xC8 || o = 0xCC then true
  else n < 2 ^ 16

/-- An FN_CONFIG item names a configuration register with its fields in range (R286). -/
def axItemOk (o : Nat) (v : Word) : Bool := sleCfg.contains o && sleRange o v.toNat

/-- P in 10 ps units and the length of a loop period in 10 ps units (R220). -/
def State.axP (s : State) (a : Nat) : Nat := (s.rd (SLE_PWM_PER a)).toNat
def State.loopHalf (s : State) (a : Nat) : Nat := bitsN (s.rd (SLE_PWM_CFG a)).toNat 0 5
def State.loopTicks (s : State) (a : Nat) : Nat := s.loopHalf a * (s.axP a / 2)

/-- The axis takes its position from the SSI encoder. -/
def State.ssiMode (s : State) (a : Nat) : Bool := s.fld (SLE_ENC_CFG_MODE a) == 0

/-- T_SSI in 10 ps units, zero in ABZ mode (R213). -/
def State.ssiTicks (s : State) (a : Nat) : Nat :=
  if s.ssiMode a then
    (1 + s.fld (SLE_ENC_CFG_NBITS a) + s.fld (SLE_ENC_CFG_EBITS a) + (if s.fld (SLE_ENC_CFG_PAR a) = 0 then 0 else 1))
      * (s.fld (SLE_ENC_CFG_SSI_DIV a) * 500) + bitsN (s.rd (SLE_SSI_TIM a)).toNat 0 8 * 250
  else 0

/-- The checks of R224 on the configuration in the registers. -/
def State.axChecks (s : State) (a : Nat) : Bool :=
  let t := s.loopTicks a
  sleCfg.all (fun o => sleRange o (s.rd (sleBase a + o)).toNat)
    && 1562500 ≤ t && s.ssiTicks a + 150000 ≤ t
    && (!s.ssiMode a || s.ssiTicks a + bitsN (s.rd (SLE_SSI_TIM a)).toNat 16 16 * 250 ≤ t)
    && (!s.flag (SLE_SD_CFG_ALIGN a)
      || (!s.flag (SLE_SD_CFG_CLK_SRC a) && t % (s.fld (SLE_SD_CFG_OSR a) * s.fld (SLE_SD_CFG_SD_DIV a) * 250) == 0))

/-- FN_CONFIG of an axis (R208, R224). -/
def execFnConfigAxis (a : Fin 16) (via : Via) (s : State) : Out :=
  let st := s.axState a.val
  .next (s.fnConfig via (fAXIS a.val) (st = axSTOPPED || st = axCONFIG) axItemOk
    (fun s o v => s.wr (sleBase a.val + o) v) (fun s => s.axChecks a.val) fun s => s.axEnter a.val axCONFIG ST_OK)

/-! ### FN_START and FN_STOP (R208) -/

/-- START_T in the form of R319. -/
def State.startT (s : State) (a : Nat) : BitVec 64 := s.rd64 (SLE_START_T_LO a) (SLE_START_T_HI a)

/-- What keeps FN_START from its effect: a path, the state, the configuration, START_T (R208,
R224). -/
def State.axStartSt (s : State) (a : Nat) : St :=
  if s.stoOn then ST_SAFE_STATE
  else if s.axState a ≠ axSTOPPED && s.axState a ≠ axCONFIG then ST_BAD_STATE
  else if s.axState a = axSTOPPED && !s.axChecks a then ST_BAD_FIELD
  else if diffC 64 (s.startT a).toNat (s.tb64 7).toNat < 10000 * 65536 then ST_BAD_FIELD
  else ST_OK

/-- The axis enters RUNNING with integrators and filters cleared; FN_START completes at the first
loop boundary (R208). -/
def State.axBegin (s : State) (a : Nat) (via : Via) : State :=
  let x := s.axis a
  let s := s.setAxis a { abzA := x.abzA, abzB := x.abzB, startVia := some via, firstLoop := true }
  let s := (s.wr (SLE_LOOP_CNT a) 0).setF (SLE_STATUS_SP_LATE a) 0
  (s.setF (SLE_STATUS_ENC_EXTRAP a) 0).axEnter a axRUNNING ST_OK

/-- FN_START of an axis: a host command, or a write of SLE_CTL.RUN by the HIP (R208, R231). -/
def execFnStartAxis (a : Fin 16) (via : Via) (s : State) : Out :=
  let a := a.val
  match via with
  | .reg src =>
    if src ≠ mHIP then .next (s.refuseWrite ST_NOT_PERMITTED src (SLE_CTL a))
    else if s.axStartSt a ≠ ST_OK then .next (s.answer (s.axStartSt a))
    else .next ((s.axBegin a via).answer ST_OK)
  | _ => .next (s.hostCmd via opFN_START (fAXIS a) fun c =>
    let st := s.axStartSt a
    if st = ST_SAFE_STATE || st = ST_BAD_STATE then s.complete c st
    else if !c.noArgs then s.complete c ST_BAD_FIELD
    else if st ≠ ST_OK then s.complete c st
    else s.axBegin a via)

/-- FN_STOP of an axis in RUNNING: a controlled stop; in FAULT: STOPPED at once (R208). -/
def State.axStopCmd (s : State) (a : Nat) (via : Via) : State :=
  if s.axState a = axRUNNING then s.axStop a false (some via)
  else (s.axEnter a axSTOPPED ST_OK).completeVia via ST_OK

/-- FN_STOP of an axis: a host command, or a write of SLE_CTL.STOP by the HIP (R208). -/
def execFnStopAxis (a : Fin 16) (via : Via) (s : State) : Out :=
  let a := a.val
  let ok := s.axState a = axRUNNING || s.axState a = axFAULT
  match via with
  | .reg src =>
    if src ≠ mHIP then .next (s.refuseWrite ST_NOT_PERMITTED src (SLE_CTL a))
    else if !ok then .next (s.answer ST_BAD_STATE)
    else .next ((s.axStopCmd a via).answer ST_OK)
  | _ => .next (s.fnPlain via opFN_STOP (fAXIS a) ok fun _ => s.axStopCmd a via)

/-! ### Feedback (R209–R212) -/

/-- SD_CLK_FAULT (R209): a modulator clock outside 4.5–27.5 MHz, zero for no edge in 1 µs. -/
def execSdClkFault (a : Fin 16) (khz : Nat) (s : State) : Out :=
  if s.flag (SLE_SD_CFG_CLK_SRC a.val) && (khz < 4500 || 27500 < khz) then
    .next (s.axFaults a.val [fltSD_CLK] true).ss1Check
  else .next s

/-- A sigma-delta channel's latched value: normalised, then calibrated (R210). -/
def State.sdValue (s : State) (a c sum : Nat) : Int :=
  calQ (sincQ sum (s.fld (SLE_SD_CFG_OSR a)) (s.fld (SLE_SD_CFG_ORDER a)))
    (signedN 24 (s.rd (SLE_SD_OFS a c)).toNat) (bitsN (s.rd (SLE_SD_GAIN a c)).toNat 0 16)

/-- OC_TRIP (R212): one output of a channel's over-current filter. -/
def execOcTrip (a : Fin 16) (ch : Fin 3) (sum : Nat) (s : State) : Out :=
  let a := a.val
  if s.axState a ≠ axRUNNING then .next s
  else
    let cfg := (s.rd (SLE_OC_CFG a)).toNat
    let x := sincQ sum (bitsN cfg 16 6) 2
    let x' := s.axis a
    let n := if bitsN cfg 0 16 * 256 < x.natAbs then kget 0 x'.oc ch.val + 1 else 0
    let s := s.setAxis a { x' with oc := kput ch.val n x'.oc }
    .next (if bitsN cfg 22 2 + 1 ≤ n then (s.axFaults a [fltOC] true).ss1Check else s)

/-! ### Loop boundary (R211, R213, R215, R220, R222, R223, R226) -/

/-- The signed difference of two instants in 10 ps units over the 48 bits of ns (R8). -/
def tickDiff (a b : Nat) : Int :=
  let w := 2 ^ 48 * 100
  let d := (a + w - b % w) % w
  if d < w / 2 then d else (d : Int) - w

/-- Time base instants in 10 ps units compare over the 48 bits of ns (R8). -/
def tickReached (now t : Nat) : Bool :=
  let w := 2 ^ 48 * 100
  (now + w - t % w) % w < w / 2

/-- START_T in 10 ps units. -/
def State.startTick (s : State) (a : Nat) : Nat := (s.startT a).toNat * 100 / 65536

/-- Number of the next loop boundary since START_T (R220); SLE_LOOP_CNT shows it modulo 2^32. -/
def State.nextLoop (s : State) (a : Nat) : Nat :=
  if (s.axis a).firstLoop then 0 else (s.axis a).loops + 1

/-- Instant of loop boundary `n`, 10 ps units. -/
def State.loopTick (s : State) (a n : Nat) : Nat := s.startTick a + n * s.loopTicks a

/-- POS at the boundary enters SLE_POS; the high half is latched by a read of LO. -/
def State.latchPos (s : State) (a : Nat) : State :=
  let x := s.axis a
  (s.setAxis a { x with posB := x.pos }).wrN (SLE_POS_LO a) x.pos.toNat

/-- A position read of the period ends (R214–R216): the position, whether it was good, and the change. A failed
read advances the position of the period before by the last good change (log entry 116). -/
def State.posRead (s : State) (a : Nat) (good : Bool) (pos : BitVec 48) (change : Int) : State :=
  let x := s.axis a
  if good then
    let s := s.setAxis a { x with
      pos := pos, prevPos := pos, vel := signedN 48 (pos - x.prevPos).toNat, lastChange := change, missed := 0
      posReady := true, haveRaw := true, abzBad := false }
    s.setF (SLE_STATUS_ENC_EXTRAP a) 0
  else
    let pos := x.prevPos + BitVec.ofInt 48 x.lastChange
    let s := s.setAxis a { x with
      pos := pos, prevPos := pos, vel := signedN 48 (pos - x.prevPos).toNat, missed := x.missed + 1
      posReady := true, abzBad := false }
    let s := (s.inc (SLE_ENC_ERR a)).setF (SLE_STATUS_ENC_EXTRAP a) 1
    if s.fld (SLE_ENC_CFG_ENC_MISS a) + 1 ≤ x.missed + 1 then s.axFaults a [fltENC] true else s

/-- The pending setpoint becomes active, or the active one grows older (R226, R227). During a controlled
stop it is taken but not used (R229). -/
def State.takeSetpoint (s : State) (a : Nat) : State :=
  let x := s.axis a
  match x.pending with
  | some p =>
    let p := match x.stop, x.active with
      | some _, some q => { p with vdff := q.vdff, vqff := q.vqff }
      | some _, none => { p with vdff := 0, vqff := 0 }
      | none, _ => p
    let s := s.setAxis a { x with pending := none, active := some p, spAge := 0, frozen := false }
    (s.wrN (SLE_SP_SEQ a) p.seq.toNat).setF (SLE_STATUS_SP_LATE a) 0
  | none => if x.firstLoop then s else s.setAxis a { x with spAge := x.spAge + 1 }

/-- The command of the last period becomes active and the outputs follow it (R222, R223). -/
def State.takeCmp (s : State) (a : Nat) : State :=
  let x := s.axis a
  match x.shadow with
  | some c => (s.setAxis a { x with cmp := some c, cmpOld := x.cmp, shadow := none }).setF (SLE_STATUS_OUT_EN a) 1
  | none => s.setAxis a { x with cmpOld := x.cmp }

/-- A period of a controlled stop begins: the ramp (R229). -/
def State.stopRamp (s : State) (a : Nat) : State :=
  let x := s.axis a
  match x.stop with
  | none => s
  | some t =>
    let dec : Int := (s.rd (SLE_STOP_DEC a)).toNat
    let vt := if 0 ≤ t.vt then max 0 (t.vt - dec) else min 0 (t.vt + dec)
    s.setAxis a { x with stop := some { t with vt := vt, periods := t.periods + 1 } }

/-- Servo clocks for which the SSI data line must have been high before a frame starts (R213). -/
def State.recovery (s : State) (a : Nat) : Nat := bitsN (s.rd (SLE_SSI_TIM a)).toNat 16 16

/-- LOOP_BOUNDARY (R211, R213, R215, R222, R223, R226). `highClks` says for how many servo clocks the SSI data
line has been high: a line that is low fails the read (R214), and no frame starts before RECOVERY, which fails
it too (log entry 115). With ALIGN the outputs complete at the boundary, and their age is 0 (R211). -/
def execLoopBoundary (a : Fin 16) (sd : SdSums) (highClks : Nat) (s : State) : Out :=
  let a := a.val
  let n := s.nextLoop a
  if s.axState a ≠ axRUNNING || !tickReached s.tb7Tick (s.loopTick a n) then .next s
  else
    let first := (s.axis a).firstLoop
    let s := ((s.wrN (SLE_LOOP_CNT a) n).takeCmp a).takeSetpoint a
    let s := (s.wrN (SLE_SD_AGE a) (if s.flag (SLE_SD_CFG_ALIGN a) then 0 else sd.ageNs)).latchPos a
    let x := s.axis a
    let s := s.setAxis a { x with
      ia := s.sdValue a 0 sd.ia, ib := s.sdValue a 1 sd.ib, ic := s.sdValue a 2 sd.ic, vdc := s.sdValue a 3 sd.vdc
      loops := n, computed := false, posReady := false, firstLoop := false, startVia := none
      ssiFail := highClks = 0 || highClks < s.recovery a }
    let s := s.stopRamp a
    let s := if s.ssiMode a then s
      else
        let x := s.axis a
        s.posRead a (!x.abzBad) x.pos (signedN 48 (x.pos - x.prevPos).toNat)
    let s := match first, x.startVia with
      | true, some v => s.completeVia v ST_OK
      | _, _ => s
    .next s.ss1Check

/-! ### Position (R214, R215) -/

/-- Binary from Gray code of `k` bits. -/
def grayDecode (w k : Nat) : Nat :=
  (List.range k).foldl (fun acc i => acc ^^^ (w / 2 ^ i)) 0 % 2 ^ k

/-- Ones among the low `k` bits. -/
def onesN (w k : Nat) : Nat := ((List.range k).map fun i => w / 2 ^ i % 2).sum

/-- SSI_READ_COMPLETE (R213, R214, R216): the frame of the period has been sampled. -/
def execSsiReadComplete (a : Fin 16) (raw : BitVec 40) (err : BitVec 4) (par : Bool) (s : State) : Out :=
  let a := a.val
  let x := s.axis a
  let due := s.loopTick a x.loops + s.ssiTicks a
  if s.axState a ≠ axRUNNING || !s.ssiMode a || x.firstLoop || x.posReady || !tickReached s.tb7Tick due then .next s
  else
    let nb := s.fld (SLE_ENC_CFG_NBITS a)
    let eb := s.fld (SLE_ENC_CFG_EBITS a)
    let bits := raw.toNat % 2 ^ nb
    let v := if s.flag (SLE_ENC_CFG_GRAY a) then grayDecode bits nb else bits
    let ones := onesN bits nb + onesN err.toNat eb + (if par then 1 else 0)
    let parOk := match s.fld (SLE_ENC_CFG_PAR a) with
      | 1 => ones % 2 == 0
      | 2 => ones % 2 == 1
      | _ => true
    let frameOk := !x.ssiFail && parOk && err.toNat % 2 ^ eb == 0
    let change := signedN nb (v + 2 ^ nb - x.pos.toNat % 2 ^ nb)
    let s :=
      if !x.haveRaw then
        if frameOk then
          (s.setAxis a { x with prevPos := BitVec.ofNat 48 v }).posRead a true (BitVec.ofNat 48 v) 0
        else s.posRead a false x.pos 0
      else s.posRead a (frameOk && change.natAbs ≤ (s.rd (SLE_ENC_MAXD a)).toNat)
        (x.pos + BitVec.ofInt 48 change) change
    .next s.ss1Check

/-- Position of a level pair in the quadrature cycle, A leading B upward (PRESUMED, log entry
11). -/
def quadPos (la lb : Bool) : Nat :=
  match la, lb with
  | false, false => 0
  | true, false => 1
  | true, true => 2
  | false, true => 3

/-- ABZ_TRANSITION (R215): new accepted levels of A and B. -/
def execAbzTransition (a : Fin 16) (la lb : Bool) (s : State) : Out :=
  let a := a.val
  let x := s.axis a
  let d := (quadPos la lb + 4 - quadPos x.abzA x.abzB) % 4
  let x' := { x with abzA := la, abzB := lb }
  if s.axState a ≠ axRUNNING || s.ssiMode a then .next (s.setAxis a x')
  else
    .next (s.setAxis a (match d with
      | 1 => { x' with pos := x.pos + 1 }
      | 2 => { x' with abzBad := true }
      | 3 => { x' with pos := x.pos - 1 }
      | _ => x'))

/-- ABZ_Z_EDGE (R215): a rising edge of Z copies POS. -/
def execAbzZEdge (a : Fin 16) (s : State) : Out :=
  let a := a.val
  if s.ssiMode a then .next s
  else
    let p := (s.axis a).pos.toNat
    .next ((s.wrN (SLE_ZCAP_LO a) p).wrN (SLE_ZCAP_HI a) (p / 2 ^ 32))

/-! ### Current loop, following error, controlled stop (R217–R219, R228, R229) -/

/-- The electrical angle of the period's position (R217, R223). -/
def State.elecAngle (s : State) (a : Nat) : Nat :=
  let m := (signedN 48 (s.axis a).prevPos.toNat % ((s.rd (SLE_CPR a)).toNat : Int)).toNat
  (m * (s.rd (SLE_ANG_MUL a)).toNat / 65536 + bitsN (s.rd (SLE_ANG_OFS a)).toNat 0 16) % 65536

/-- The reference position (R227, R228). -/
def AxisSt.reference (x : AxisSt) : Int :=
  if x.frozen then x.holdPos
  else match x.active with
    | some p => p.pos + p.vel * x.spAge / 65536
    | none => 0

/-- The following error of the period's position enters SLE_FE, and the periods beyond the limit are counted: from
the first active setpoint on, and not during a controlled stop (R223, R228). Before that setpoint the reference
is 0 (log entry 117). -/
def State.followErr (s : State) (a : Nat) : State :=
  let x := s.axis a
  let fe := satS 48 (x.reference - signedN 48 x.prevPos.toNat)
  let lim := (s.rd (SLE_FE_LIM_LO a)).toNat + bitsN (s.rd (SLE_FE_LIM_HI a)).toNat 0 16 * 2 ^ 32
  let s := s.wr (SLE_FE a) (BitVec.ofInt 32 (satS 32 fe))
  s.setAxis a { x with
    feCnt := if x.active.isSome && x.stop.isNone && lim < fe.natAbs then x.feCnt + 1 else 0 }

/-- The stop controller's Iq* and its next state (R229). -/
def State.stopCtl (s : State) (a : Nat) (t : StopSt) : Int × StopSt :=
  let d := t.vt - (s.axis a).vel * 65536
  let kp : Int := bitsN (s.rd (SLE_STOP_KP a)).toNat 0 24
  let ki : Int := bitsN (s.rd (SLE_STOP_KI a)).toNat 0 24
  let still := bitsN (s.rd (SLE_STILL a)).toNat 0 16
  (satS 24 (rhu (kp * d * 256 + t.integ) (2 ^ 17)),
    { t with integ := t.integ + ki * d, still := if (s.axis a).vel.natAbs ≤ still then t.still + 1 else 0 })

/-- Id*, Iq*, VDFF and VQFF of the period. -/
def State.loopRef (s : State) (a : Nat) : (Int × Int × Int × Int) × State :=
  let x := s.axis a
  let p := x.active.getD {}
  match x.stop with
  | none => ((p.id, p.iq, p.vdff, p.vqff), s)
  | some t =>
    let (iq, t) := s.stopCtl a t
    ((0, iq, p.vdff, p.vqff), s.setAxis a { x with stop := some t })

/-- Standstill ends a controlled stop (R229). -/
def State.stillCheck (s : State) (a : Nat) : State :=
  match (s.axis a).stop with
  | some t => if bitsN (s.rd (SLE_STILL a)).toNat 16 16 ≤ t.still then s.axEnd a t.toFault ST_OK else s
  | none => s

/-- Stages 3–13 of R218. -/
def State.dataPath (s : State) (a : Nat) (ia ib ic vdc : Int) : State :=
  let ((idr, iqr, vdff, vqff), s) := s.loopRef a
  let x := s.axis a
  let al := satS 24 (rhu (2 * ia - ib - ic) 3)
  let be := satS 24 (rhuDivSqrt3 (ib - ic) 1)
  let th := s.elecAngle a
  let sn := sinQ th
  let cs := cosQ th
  let id := satS 24 (rhu (al * cs + be * sn) (2 ^ 22))
  let iq := satS 24 (rhu (-al * sn + be * cs) (2 ^ 22))
  let ed := satS 25 (idr - id)
  let eq := satS 25 (iqr - iq)
  let kd := gainQ (fun i => bitsN (s.rd (SLE_GT_D a i)).toNat 0 16) ed
  let kq := gainQ (fun i => bitsN (s.rd (SLE_GT_Q a i)).toNat 0 16) eq
  let ud := ctlOut kd ed x.idInt vdff
  let uq := ctlOut kq eq x.iqInt vqff
  let (vd, vq) := limitV (bitsN (s.rd (SLE_VLIM a)).toNat 0 16) vdc ud uq
  let lim : Int := bitsN (s.rd (SLE_ILIM a)).toNat 0 24 * 128
  let ki := (s.rd (SLE_KI a)).toNat
  let s := s.setAxis a { x with
    idInt := integNext x.idInt (bitsN ki 0 16) ed lim ud vd, iqInt := integNext x.iqInt (bitsN ki 16 16) eq lim uq vq
    shadow := some (cmpOut vd vq sn cs vdc (s.axP a)) }
  s.wrN (SLE_IDQ a) (wrapN 16 (satS 16 (rhu id 256)) + wrapN 16 (satS 16 (rhu iq 256)) * 65536)

/-- CURRENT_LOOP_COMPUTE (R218, R223, R228, R229): the computation of the period, once its position
is available. -/
def execCurrentLoopCompute (a : Fin 16) (s : State) : Out :=
  let a := a.val
  let x := s.axis a
  if s.axState a ≠ axRUNNING || x.firstLoop || !x.posReady || x.computed then .next s
  else
    let s := s.setAxis a { x with computed := true }
    let three := bitsN (s.rd (SLE_PWM_CFG a)).toNat 8 1 = 1
    let ic := if three then x.ic else satS 24 (-x.ia - x.ib)
    let vl := (s.rd (SLE_VDC_LIM a)).toNat
    let isum := three && (bitsN (s.rd (SLE_ISUM_LIM a)).toNat 0 16 * 256 : Nat) < (x.ia + x.ib + ic).natAbs
    let vbad := x.vdc < signedN 16 (bitsN vl 0 16) * 256 || signedN 16 (bitsN vl 16 16) * 256 < x.vdc
    if isum || vbad then
      .next (s.axFaults a ((if isum then [fltISUM] else []) ++ (if vbad then [fltVDC] else [])) true).ss1Check
    else .next (((s.dataPath a x.ia x.ib ic x.vdc).followErr a).stillCheck a).ss1Check

/-! ### Setpoints (R225–R227) -/

/-- The source may write the axis's setpoints: the SCP or the owning node (R225). -/
def State.spWriter (s : State) (src a : Nat) : Bool :=
  src == mSCP || (src < 4096 && src == bitsN (s.rd (SLE_SP_OWNER a)).toNat 0 13)

/-- The staging set. -/
def State.staged (s : State) (a : Nat) (seq : BitVec 16) : Setpoint :=
  let f (off w : Nat) : Int := signedN w (s.rd off).toNat
  { id := f (SLE_SP_ID a) 24, iq := f (SLE_SP_IQ a) 24, vdff := f (SLE_SP_VDFF a) 25, vqff := f (SLE_SP_VQFF a) 25
    pos := signedN 48 ((s.rd (SLE_SP_POS_LO a)).toNat + (s.rd (SLE_SP_POS_HI a)).toNat * 2 ^ 32)
    vel := f (SLE_SP_VEL a) 32, seq := seq }

/-- A write to SLE_SP_COMMIT (R225, R226). -/
def State.spCommit (s : State) (src a : Nat) (v : Word) : State :=
  if !s.spWriter src a then s.refuseWrite ST_NOT_PERMITTED src (SLE_SP_COMMIT a)
  else if s.axState a ≠ axRUNNING then s.refuseWrite ST_BAD_STATE src (SLE_SP_COMMIT a)
  else if src < 4096 && s.handoverHeld ≠ ST_OK then s.refuseWrite s.handoverHeld src (SLE_SP_COMMIT a)
  else
    let x := s.axis a
    let s := if x.pending.isSome then s.inc (SLE_SP_OVR a) else s
    (s.setAxis a { x with pending := some (s.staged a (v.setWidth 16)) }).answer ST_OK

/-- SETPOINT_COMMIT (R226). -/
def execSetpointCommit (src : Nat) (a : Fin 16) (v : Word) (s : State) : Out := .next (s.spCommit src a.val v)

/-- SETPOINT_TIMEOUT (R227): the position reference is frozen. -/
def execSetpointTimeout (a : Fin 16) (s : State) : Out :=
  let a := a.val
  let x := s.axis a
  let tmo := bitsN (s.rd (SLE_SP_TMO a)).toNat 0 16
  if s.axState a ≠ axRUNNING || tmo = 0 || x.spAge < tmo || s.flag (SLE_STATUS_SP_LATE a) then .next s
  else
    let s := s.setAxis a { x with frozen := true, holdPos := x.reference }
    .next ((s.setF (SLE_STATUS_SP_LATE a) 1).sfpEvent mSLE 4 ST_OK)

/-- FOLLOWING_ERROR_LIMIT (R228, R230). -/
def execFollowingErrorLimit (a : Fin 16) (s : State) : Out :=
  let a := a.val
  let cfg := (s.rd (SLE_FE_CFG a)).toNat
  if s.axState a ≠ axRUNNING || (s.axis a).stop.isSome || (s.axis a).feCnt < bitsN cfg 0 16 || (s.axis a).feCnt = 0 then .next s
  else
    match bitsN cfg 16 2 with
    | 0 => if s.flag (SLE_FAULT_FE_WARN a) then .next s
        else .next ((s.setF (SLE_FAULT_FE_WARN a) 1).sfpEvent mSLE 4 ST_OK)
    | 1 => .next (s.axFaults a [fltFE] false).ss1Check
    | _ => .next (s.axFaults a [fltFE] true).ss1Check

/-! ### Stops (R229, R230) -/

/-- A write of SLE_CTL.SS1: the SFP, the health block or the HIP (R229). -/
def State.ss1Write (s : State) (src a : Nat) : State :=
  if src ≠ mSFP && src ≠ mSLE && src ≠ mHIP then s.refuseWrite ST_NOT_PERMITTED src (SLE_CTL a)
  else if s.axState a ≠ axRUNNING || (s.axis a).stop.isSome then s.answer ST_OK
  else if src = mSLE then (s.axFaults a [fltHEALTH] false).answer ST_OK
  else (s.axStop a false none).answer ST_OK

/-- SS1 (R229). -/
def execSs1 (src : Nat) (a : Fin 16) (s : State) : Out := .next (s.ss1Write src a.val)

/-- A write of SLE_CTL.STO: the SFP (R230). -/
def State.stoWrite (s : State) (src a : Nat) : State :=
  if src ≠ mSFP then s.refuseWrite ST_NOT_PERMITTED src (SLE_CTL a)
  else (s.axFaults a [fltSTO_FN] true).ss1Check.answer ST_OK

/-- STO (R230). -/
def execSto (src : Nat) (a : Fin 16) (s : State) : Out := .next (s.stoWrite src a.val)

/-- STOP_TIME_EXPIRED (R229, R230). -/
def execStopTimeExpired (a : Fin 16) (s : State) : Out :=
  let a := a.val
  match (s.axis a).stop with
  | none => .next s
  | some t =>
    if t.periods < bitsN (s.rd (SLE_STOP_TMAX a)).toNat 0 24 then .next s
    else .next (s.axFaults a [fltSTOP_TIME] true).ss1Check

/-! ### Register writes (R208, R225, R231) -/

/-- A write to SLE_CTL: each bit from the sources named for it. A RUN or STOP that is not accepted answers with
the status of R208. -/
def State.sleCtlWrite (s : State) (src a : Nat) (v : Word) : State :=
  let bad := (v.getLsbD 4 && src ≠ mSFP) || (v.getLsbD 3 && src ≠ mSFP && src ≠ mSLE && src ≠ mHIP)
    || ((v.getLsbD 2 || v.getLsbD 1) && src ≠ mHIP)
  let s := if v.getLsbD 4 && src = mSFP then s.stoWrite src a else s
  let s := if v.getLsbD 3 && (src = mSFP || src = mSLE || src = mHIP) then s.ss1Write src a else s
  let stop := v.getLsbD 2 && src = mHIP
  let stopSt := if !stop || s.axState a = axRUNNING || s.axState a = axFAULT then ST_OK else ST_BAD_STATE
  let s := if stop && stopSt = ST_OK then s.axStopCmd a (.reg src) else s
  let start := v.getLsbD 1 && src = mHIP
  let startSt := if start then s.axStartSt a else ST_OK
  let s := if start && startSt = ST_OK then s.axBegin a (.reg src) else s
  if bad then s.refuseWrite ST_NOT_PERMITTED src (SLE_CTL a)
  else s.answer (if stopSt = ST_OK then startSt else stopSt)

/-- A write to a register of an axis block. -/
def State.sleWrite (s : State) (src a off : Nat) (v : Word) : State :=
  let o := off - sleBase a
  if off = SLE_CTL a then s.sleCtlWrite src a v
  else if off = SLE_SP_COMMIT a then s.spCommit src a v
  else if off = SLE_SP_OWNER a then
    if src = mSCP then (s.plainWrite off v).answer ST_OK else s.refuseWrite ST_NOT_PERMITTED src off
  else if 0x100 ≤ o && o < 0x11C then
    if s.spWriter src a then (s.plainWrite off v).answer ST_OK else s.refuseWrite ST_NOT_PERMITTED src off
  else if off = SLE_FAULT a then
    let s := s.plainWrite off v
    (if s.fld (SLE_FAULT_FAULT a) = 0 then s.setF (SLE_FAULT_FIRST a) 0x1F else s).answer ST_OK
  else if sleCfg.contains o then
    if src = mHIP && (s.axState a = axSTOPPED || s.axState a = axCONFIG) then (s.plainWrite off v).answer ST_OK
    else s.refuseWrite ST_NOT_PERMITTED src off
  else s.answer ST_OK

end Sys2Proof.Machine
end

