-- ==== Sys2Proof/Machine/Bindings.lean ====
section
/-! DEFINITION. Bindings of the health function's legs to Bead nodes (R244). -/

namespace Sys2Proof.Machine

def State.leg (s : State) (l : Nat) : LegSt := kget {} s.health.legs l
def State.setLeg (s : State) (l : Nat) (x : LegSt) : State :=
  { s with health := { s.health with legs := kput l x s.health.legs } }

/-- The binding in the register takes effect (R244). -/
def State.bindNow (s : State) (l : Nat) : State :=
  s.setLeg l { s.leg l with
    node := s.fld (HLT_BIND_NODE l), base := s.fld (HLT_BIND_BASE l) * 64, bindAt := none, egap := true, ggap := true
    lastCommit := s.tbNs 7 }

/-- The next carrier boundary of an axis after now (R220, R244). -/
def State.nextCarrier (s : State) (a : Nat) : Nat :=
  let t0 := s.startTick a
  if !tickReached s.tb7Tick t0 then t0
  else
    let w := 2 ^ 48 * 100
    let d := (s.tb7Tick + w - t0 % w) % w
    t0 + (d / s.axP a + 1) * s.axP a

/-- The binding in the register is a new one: it takes effect at the next carrier boundary of the leg's axis, or
at once when the axis is not RUNNING (R244). -/
def State.rebind (s : State) (l : Nat) : State :=
  if s.axState (l / 3) ≠ axRUNNING then s.bindNow l
  else s.setLeg l { s.leg l with bindAt := some (s.nextCarrier (l / 3)) }

/-- The SCP writes HLT_BIND again for the legs bound to a node that has been swapped (R244). -/
def State.rebindNode (s : State) (n : Nat) : State :=
  s.each ((List.range 48).filter fun l => s.fld (HLT_BIND_NODE l) = n) State.rebind

end Sys2Proof.Machine
end

