-- ==== Sys2Proof/Machine/Health.lean ====
section
/-! DEFINITION. Gate edges, the edge timing unit, the gate telemetry link and the health block
(R220, R221, R232–R249). -/

namespace Sys2Proof.Machine

/-! ### State -/

/-- State code of HEALTH. -/
def State.hltState (s : State) : Nat := bitsN (s.rd HLT_STAT).toNat 0 2

/-- HEALTH takes a state (R233, R297). -/
def State.setHlt (s : State) (v : Nat) (st : St) : State :=
  (s.setF ⟨HLT_STAT, 0, 2⟩ v).fnEvent fHEALTH s.hltState v st

abbrev hltSTOPPED : Nat := 0
abbrev hltCONFIG : Nat := 1
abbrev hltRUNNING : Nat := 2
abbrev hltFAULT : Nat := 3

/-- Edges and frames are captured: RUNNING, or FAULT (R233). -/
def State.capturing (s : State) : Bool := s.hltState == hltRUNNING || s.hltState == hltFAULT

def State.edgeIn (s : State) (m : Nat) : EdgeIn := kget {} s.health.inputs m
def State.setEdgeIn (s : State) (m : Nat) (x : EdgeIn) : State :=
  { s with health := { s.health with inputs := kput m x s.health.inputs } }
/-! ### Rings (R242, R243) -/

def State.eSize (s : State) (l : Nat) : Nat := 2 ^ s.fld (HLT_LCFG_ESIZE l)
def State.gSize (s : State) (l : Nat) : Nat := 2 ^ s.fld (HLT_LCFG_GSIZE l)

/-- Device address of a leg's edge ring. -/
def State.eRing (s : State) (l : Nat) : Nat :=
  0xFFFF * 2 ^ 48 + 0x40000000 + (s.leg l).node * 0x10000 + (s.leg l).base

/-- Device address of a leg's GTL ring. -/
def State.gRing (s : State) (l : Nat) : Nat := s.eRing l + 64 + 16 * s.eSize l

/-- The leg has a binding in force (R244). -/
def State.bound (s : State) (l : Nat) : Bool := (s.leg l).node < 4096

/-- The 16 bytes of an edge record (R236). -/
def edgeBytes (seq : Word) (r : EdgeRec) (gap : Bool) : List Byte :=
  leBytes 4 seq.toNat ++ leBytes 4 (r.t / 100) ++ leBytes 4 r.delay ++ leBytes 1 (r.t % 100)
    ++ leBytes 1 (r.kind + if gap then 4 else 0) ++ leBytes 2 (wrapN 16 r.iph)

/-- An edge record enters its ring, or is dropped and counted (R243). An unbound leg writes nothing
(R244). -/
def State.putEdge (s : State) (l : Nat) (r : EdgeRec) : State :=
  if !s.bound l then s
  else
    let x := s.leg l
    let (ok, s) := s.putRecord mSLE (s.eRing l) (s.eSize l) x.eseq x.ewr (s.rd (HLT_EDGE_RD l))
      (edgeBytes x.eseq r x.egap)
    let s := s.setLeg l { s.leg l with eseq := x.eseq + 1, ewr := if ok then x.ewr + 1 else x.ewr, egap := !ok }
    if ok then s else s.inc (ETU_DROP l)

/-- A GTL record enters its ring, or is dropped and counted (R241, R243). -/
def State.putGtl (s : State) (l : Nat) (data : Nat) (flags : Nat) : State :=
  if !s.bound l then s
  else
    let x := s.leg l
    let body := leBytes 4 x.gseq.toNat ++ leBytes 4 (s.tbNs 7) ++ leBytes 7 data
      ++ leBytes 1 (flags + if x.ggap then 2 else 0)
    let (ok, s) := s.putRecord mSLE (s.gRing l) (s.gSize l) x.gseq x.gwr (s.rd (HLT_GTL_RD l)) body
    let s := s.setLeg l { s.leg l with gseq := x.gseq + 1, gwr := if ok then x.gwr + 1 else x.gwr, ggap := !ok }
    if ok then s else s.inc (GTL_DROP l)

/-- The commanded instant of the oldest open window of a leg. -/
def State.oldestWin (s : State) (l : Nat) : Option Nat :=
  match (s.edgeIn (2 * l)).win, (s.edgeIn (2 * l + 1)).win with
  | some a, some b => some (if tickReached a.tCmd b.tCmd then b.tCmd else a.tCmd)
  | some a, none => some a.tCmd
  | none, some b => some b.tCmd
  | none, none => none

/-- Insert a record in the order of T_CMD and SUB, compared under R8. -/
def recInsert (r : EdgeRec) : List EdgeRec → List EdgeRec
  | [] => [r]
  | x :: xs => if !tickReached r.t x.t then r :: x :: xs else x :: recInsert r xs

/-- Write the records of a leg that no open window precedes (R236). -/
def State.flushRecs (s : State) (l : Nat) : State :=
  let go (r : EdgeRec) : Bool := match s.oldestWin l with
    | none => true
    | some t => !tickReached r.t t
  let out := (s.leg l).recs.takeWhile go
  let s := s.setLeg l { s.leg l with recs := (s.leg l).recs.drop out.length }
  s.each out fun s r => s.putEdge l r

/-- A record of a leg's edge is complete. -/
def State.addRec (s : State) (l : Nat) (r : EdgeRec) : State :=
  (s.setLeg l { s.leg l with recs := recInsert r (s.leg l).recs }).flushRecs l

/-- KIND of a record, GAP aside (R236). -/
def edgeKind (dev : Nat) (on missing spur uncal trig : Bool) : Nat :=
  let b (x : Bool) (k : Nat) : Nat := if x then 2 ^ k else 0
  dev + b (!on) 1 + b missing 3 + b spur 4 + b uncal 5 + b trig 6

/-- Phase current of a leg in Q1.15 from the value latched last (R236). -/
def State.phaseCur (s : State) (l : Nat) : Int :=
  let x := s.axis (l / 3)
  let three := bitsN (s.rd (SLE_PWM_CFG (l / 3))).toNat 8 1 = 1
  let v := match l % 3 with
    | 0 => x.ia
    | 1 => x.ib
    | _ => if three then x.ic else satS 24 (-x.ia - x.ib)
  satS 16 (rhu v 256)

/-- The open window of an input closes without a match: a MISSING record (R234). -/
def State.closeMissing (s : State) (m : Nat) : State :=
  let x := s.edgeIn m
  match x.win with
  | none => s
  | some w =>
    (s.setEdgeIn m { x with win := none }).addRec (m / 2)
      ⟨w.tCmd, 0x80000000, edgeKind (m % 2) w.on true false x.uncal w.trig, w.iph⟩

/-! ### Gate edges (R220, R221) -/

abbrev devNo : Device → Nat
  | .high => 0
  | .low => 1

/-- CMP of phase `j`, 0 where the outputs are held low. -/
def cmpOf (c : Option (Nat × Nat × Nat)) (j : Nat) : Nat :=
  match c, j with
  | none, _ => 0
  | some c, 0 => c.1
  | some c, 1 => c.2.1
  | some c, _ => c.2.2

/-- CMP of phase `j` in half-carrier period `h`, counted from START_T: commands take effect at loop boundaries
(R220, R222). After the next boundary it is the command that has been computed for it; while that one is
outstanding, the one in force (log entry 118). -/
def State.cmpIn (s : State) (a j h : Nat) : Nat :=
  let x := s.axis a
  let from_ := x.loops * s.loopHalf a
  if h < from_ then cmpOf x.cmpOld j
  else if h < from_ + s.loopHalf a then cmpOf x.cmp j
  else cmpOf (if x.shadow.isSome then x.shadow else x.cmp) j

/-- Instants of carrier period `k` at which REF of a phase rises and falls, 10 ps units: it is high while
c > P / 2 − CMP, and a command that takes effect at the peak moves REF there (R221). -/
def State.refEdges (s : State) (a j k : Nat) : Option (Nat × Nat) :=
  let peak := s.startTick a + k * s.axP a + s.axP a / 2
  let up := s.cmpIn a j (2 * k)
  let down := s.cmpIn a j (2 * k + 1)
  if up = 0 && down = 0 then none else some (peak - up, peak + down)

/-- A commanded edge: its instant, and the length of the on-interval that it begins (R221). A low side that
REF does not end in the next carrier period stays on beyond it. -/
def State.gateEdge (s : State) (a j k : Nat) (dev : Device) (on : Bool) : Option (Nat × Int) :=
  match s.refEdges a j k with
  | none => none
  | some (rise, fall) =>
    match dev, on with
    | .high, true =>
      let t := rise + bitsN (s.rd (SLE_DTH a j)).toNat 0 20
      some (t, (fall : Int) - t)
    | .high, false => some (fall, 0)
    | .low, true =>
      let t := fall + bitsN (s.rd (SLE_DTL a j)).toNat 0 20
      let next := match s.refEdges a j (k + 1) with
        | some e => e.1
        | none => s.startTick a + (k + 2) * s.axP a
      some (t, (next : Int) - t)
    | .low, false => some (rise, 0)

/-- Level of a gate output. -/
def State.gate (s : State) (a j : Nat) (dev : Device) : Bool :=
  match dev with
  | .high => kget false (s.axis a).pwmH j
  | .low => kget false (s.axis a).pwmL j

/-- A gate output takes a level. -/
def State.setGate (s : State) (a j : Nat) (dev : Device) (v : Bool) : State :=
  let x := s.axis a
  match dev with
  | .high => s.setAxis a { x with pwmH := kput j v x.pwmH }
  | .low => s.setAxis a { x with pwmL := kput j v x.pwmL }

/-- The other device of the leg. -/
def otherDev : Device → Device
  | .high => .low
  | .low => .high

/-- The trigger decision at a produced turn-on edge (R239): whether its record carries TRIG. -/
def State.trigDecide (s : State) (l : Nat) (dev : Device) (t : Nat) (len : Int) : Bool × State :=
  let x := s.leg l
  let low := dev = .low
  let n := (if low then x.onsL else x.onsH) + 1
  let put (n : Nat) (x : LegSt) : LegSt := if low then { x with onsL := n } else { x with onsH := n }
  let at_ := t + s.fld (HLT_LCFG_VON_DLY l) * 250
  if n < s.fld (HLT_LCFG_TRIG_DIV l) || (len < (at_ - t + 10000 : Nat)) then (false, s.setLeg l (put n x))
  else
    let early := match x.lastTrig with
      | some p => !tickReached at_ (p + 560000)
      | none => false
    if early then (false, (s.setLeg l (put n x)).inc (GTL_TRIG_SKIP l))
    else
      let x' := put 0 x
      (true, s.setLeg l { x' with lastTrig := some at_, trigAt := some (low, at_) })

/-- The ETU opens a matching window on the input of a produced edge (R234). -/
def State.openWin (s : State) (l : Nat) (dev : Device) (on : Bool) (t : Nat) (len : Int) : State :=
  if !s.capturing then s
  else
    let m := 2 * l + devNo dev
    let s := s.closeMissing m
    let (trig, s) := if on then s.trigDecide l dev t len else (false, s)
    let w : EdgeWin :=
      { tCmd := t, on := on, iph := s.phaseCur l, trig := trig, closeAt := t + bitsN (s.rd (HLT_WIN l)).toNat 0 20 }
    s.setEdgeIn m { s.edgeIn m with win := some w }

/-- COMMANDED_GATE_EDGE (R221, R234): the edge of a device in carrier period `k`. An on-interval below MINP is
not produced, and both outputs of a leg are never high at once. -/
def execCommandedGateEdge (a : Fin 16) (j : Fin 3) (dev : Device) (on : Bool) (k : Nat) (s : State) : Out :=
  let a := a.val
  let j := j.val
  match s.gateEdge a j k dev on with
  | none => .next s
  | some (t, len) =>
    if s.axState a ≠ axRUNNING || (s.axis a).cmp.isNone || !tickReached s.tb7Tick t || s.gate a j dev = on
        || (on && s.gate a j (otherDev dev)) then .next s
    else if on && (len ≤ 0 || len < bitsN (s.rd (SLE_MINP a)).toNat 0 16) then .next (s.inc (SLE_MINP_CNT a))
    else .next ((s.setGate a j dev on).openWin (3 * a + j) dev on t len)

/-! ### Edge timing (R234–R238) -/

/-- ETU_SKEW of an input's device. -/
def State.skew (s : State) (m : Nat) : Int :=
  signedN 16 (s.rd (if m % 2 = 0 then ETU_SKEW_H (m / 2) else ETU_SKEW_L (m / 2))).toNat

/-- FEEDBACK_EDGE (R234–R236): an edge stamped `t` in 10 ps units of TB7. Every edge of an axis that is not
RUNNING is SPURIOUS. -/
def execFeedbackEdge (m : Fin 96) (rising : Bool) (t : Nat) (s : State) : Out :=
  let m := m.val
  let l := m / 2
  if !s.capturing then .next s
  else
    let x := s.edgeIn m
    let spur := ((s.addRec l ⟨t, 0, edgeKind (m % 2) rising false true x.uncal false, s.phaseCur l⟩).inc (ETU_SPUR l))
    match x.win with
    | none => .next spur
    | some w =>
      if s.axState (l / 3) ≠ axRUNNING || w.on ≠ rising || !tickReached t w.tCmd || !tickReached w.closeAt t then .next spur
      else
        let d : Int := tickDiff t w.tCmd - s.skew m
        .next ((s.setEdgeIn m { x with win := none }).addRec l
          ⟨w.tCmd, wrapN 32 d, edgeKind (m % 2) w.on false false x.uncal w.trig, w.iph⟩)

/-- EDGE_WINDOW_CLOSE (R234). -/
def execEdgeWindowClose (m : Fin 96) (s : State) : Out :=
  match (s.edgeIn m.val).win with
  | none => .next s
  | some w => .next (if tickReached s.tb7Tick w.closeAt then s.closeMissing m.val else s)

/-- ETU_CAL_PER in ns. -/
def State.calNs (s : State) : Nat := bitsN (s.rd ETU_CAL_PER).toNat 0 8 * 1000000

/-- TDC_CAL_EXCHANGE (R237, R238): the TDCs exchange roles and the one that leaves service is
calibrated; where the other is out of service, that one is calibrated again. -/
def execTdcCalExchange (m : Fin 96) (s : State) : Out :=
  let x := s.edgeIn m.val
  if !s.capturing || x.win.isSome || !x.cal.isEmpty || sinceNs s.now x.lastXchg < s.calNs then .next s
  else
    let otherBad := if x.inService then x.bad0 else x.bad1
    let x := { x with lastXchg := s.now }
    .next (s.setEdgeIn m.val (if otherBad then { x with cal := [!x.inService] }
      else { x with inService := !x.inService, cal := [x.inService] }))

/-- UNCAL of an input in HLT_LSTAT. -/
def uncalBit (m : Nat) : Fld := ⟨HLT_LSTAT (m / 2), if m % 2 = 0 then 1 else 2, 1⟩

/-- TDC_CAL_COMPLETE (R238, R233): the result of the oldest calibration outstanding on the input. A TDC that
has passed takes over from one that is out of service. An
input whose two TDCs have failed puts HEALTH in FAULT, and its records carry UNCAL. -/
def execTdcCalComplete (m : Fin 96) (ok : Bool) (s : State) : Out :=
  let m := m.val
  let x := s.edgeIn m
  match x.cal with
  | [] => .next s
  | t :: ts =>
    if !s.capturing then .next s
    else if ok then
      let x := if t then { x with cal := ts, cal1At := s.now, bad1 := false } else { x with cal := ts, cal0At := s.now, bad0 := false }
      let x := { x with inService := if (if x.inService then x.bad1 else x.bad0) then t else x.inService, uncal := false }
      .next ((s.setEdgeIn m x).setF (uncalBit m) 0)
    else
      let x := if t then { x with cal := ts, bad1 := true } else { x with cal := ts, bad0 := true }
      let x := { x with
        inService := if x.inService = t then !t else x.inService, uncal := x.uncal || (x.bad0 && x.bad1) }
      let s := s.setEdgeIn m x
      .next (if x.bad0 && x.bad1 && s.hltState = hltRUNNING then s.setHlt hltFAULT ST_OK else s)

/-- TDC_CALIBRATION_EXPIRED (R238). -/
def execTdcCalibrationExpired (m : Fin 96) (s : State) : Out :=
  let x := s.edgeIn m.val
  let last := if x.inService then x.cal1At else x.cal0At
  if s.capturing && 2 * s.calNs < sinceNs s.now last then
    .next ((s.setEdgeIn m.val { x with uncal := true }).setF (uncalBit m.val) 1)
  else .next s

/-! ### Gate telemetry (R239–R241) -/

/-- GTL_TRIGGER (R239): a trigger that was decided at its turn-on edge is sent. -/
def execGtlTrigger (l : Fin 48) (dev : Device) (s : State) : Out :=
  let x := s.leg l.val
  match x.trigAt with
  | none => .next s
  | some (low, t) =>
    if !s.capturing || low ≠ (dev = .low) || !tickReached s.tb7Tick t then .next s
    else
      let x := { x with trigAt := none }
      .next (s.setLeg l.val (if low then { x with trigL := (x.trigL + 1) % 8 } else { x with trigH := (x.trigH + 1) % 8 }))

/-- GTL_FRAME (R240, R241). -/
def execGtlFrame (l : Fin 48) (bits : BitVec 64) (codingOk : Bool) (s : State) : Out :=
  let l := l.val
  let w := bits.toNat
  if !s.capturing then .next s
  else if !codingOk || bitsN w 60 4 ≠ 1 then .next (s.inc (GTL_CRC_ERR l))
  else
    let x := s.leg l
    let sent := if bitsN w 59 1 = 0 then x.trigH else x.trigL
    let old := if bitsN w 56 3 ≠ sent then 4 else 0
    if (crc8 (leBytes 7 (w / 256)).reverse).toNat ≠ bitsN w 0 8 then .next ((s.putGtl l (w / 256) (1 + old)).inc (GTL_CRC_ERR l))
    else
      let s := (s.setLeg l { x with lastGood := s.now }).setF (HLT_LSTAT_LINK_DOWN l) 0
      .next (s.putGtl l (w / 256) old)

/-- GTL_LINK_TIMEOUT (R241, R277). -/
def execGtlLinkTimeout (l : Fin 48) (s : State) : Out :=
  let l := l.val
  if s.capturing && !s.flag (HLT_LSTAT_LINK_DOWN l)
      && bitsN (s.rd HLT_GTL_TMO).toNat 0 16 * 1000 ≤ sinceNs s.now (s.leg l).lastGood then
    .next ((s.setF (HLT_LSTAT_LINK_DOWN l) 1).sfpEvent mSLE 5 ST_OK)
  else .next s

/-! ### Bindings (R244) -/

/-- A write to HLT_BIND (R233, R244). -/
def State.bindWrite (s : State) (src l : Nat) (v : Word) : State :=
  let node := bitsN v.toNat 16 13
  let base := bitsN v.toNat 6 10 * 64
  if src ≠ mSCP then s.refuseWrite ST_NOT_PERMITTED src (HLT_BIND l)
  else if node ≠ 0x1FFF && (4096 ≤ node || 65536 < base + 128 + 16 * s.eSize l + 16 * s.gSize l) then
    s.refuseWrite ST_BAD_FIELD src (HLT_BIND l)
  else
    let s := s.plainWrite (HLT_BIND l) v
    (s.rebind l).answer ST_OK

/-- HLT_BIND_WRITE (R244). -/
def execHltBindWrite (src : Nat) (l : Fin 48) (v : Word) (s : State) : Out := .next (s.bindWrite src l.val v)

/-- BINDING_APPLIED (R244): at the carrier boundary, or at once when the axis no longer runs. -/
def execBindingApplied (l : Fin 48) (s : State) : Out :=
  match (s.leg l.val).bindAt with
  | none => .next s
  | some t =>
    .next (if tickReached s.tb7Tick t || s.axState (l.val / 3) ≠ axRUNNING then s.bindNow l.val else s)

/-! ### Commits (R248, R249) -/

/-- The source is the leg's bound node or the SCP (R233). -/
def State.legWriter (s : State) (src l : Nat) : Bool :=
  src == mSCP || (s.bound l && src == (s.leg l).node)

/-- The stop of R248: taken by a running axis that is not stopping, recorded in any case. -/
def State.healthAct (s : State) (l : Nat) : State :=
  let a := l / 3
  let s := s.sfpEvent mSLE 5 ST_OK
  if s.axState a = axRUNNING && !s.flag (SLE_STATUS_STOPPING a) && !s.flag (SLE_STATUS_GATED a) then
    ((s.ss1Write mSLE a).setF (HLT_LSTAT_ACTED l) 1)
  else s

/-- A write to HLT_COMMIT (R233, R248). -/
def State.commitWrite (s : State) (src l : Nat) (v : Word) : State :=
  if !s.legWriter src l then s.refuseWrite ST_NOT_PERMITTED src (HLT_COMMIT l)
  else
    let w := v.toNat
    let good := bitsN w 0 1 = 1 && bitsN w 3 1 = 1 && bitsN w 1 2 = 0
      && bitsN (s.rd (HLT_CONF l)).toNat 0 16 ≤ bitsN w 16 16
    let n := if good then min 15 (s.fld (HLT_LSTAT_IMM_CNT l) + 1) else 0
    let s := (s.setF (HLT_LSTAT_IMM_CNT l) n).setLeg l { s.leg l with lastCommit := s.tbNs 7 }
    let s := s.setF (HLT_LSTAT_RES_LATE l) 0
    let s := if good && n = s.fld (HLT_LCFG_IMM_N l) + 1 && s.flag (HLT_LCFG_ACT_EN l) && s.capturing then s.healthAct l
      else s
    s.answer ST_OK

/-- HLT_COMMIT (R248). -/
def execHltCommit (src : Nat) (l : Fin 48) (v : Word) (s : State) : Out := .next (s.commitWrite src l.val v)

/-- RESULT_TIMEOUT (R249). -/
def execResultTimeout (l : Fin 48) (s : State) : Out :=
  let l := l.val
  if s.capturing && s.bound l && !s.flag (HLT_LSTAT_RES_LATE l)
      && passedNs (bitsN (s.rd (HLT_CONF l)).toNat 16 16 * 1000) (s.tbNs 7) (s.leg l).lastCommit then
    .next ((s.setF (HLT_LSTAT_RES_LATE l) 1).sfpEvent mSLE 5 ST_OK)
  else .next s

/-! ### Function commands and registers (R233, R286) -/

/-- First offset of the ETU and GTL block. -/
abbrev hltBase : Nat := 0xB0000

/-- Leg and offset within the leg's registers of an offset of the block. -/
def legOf (o : Nat) : Option (Nat × Nat) :=
  if 0x1000 ≤ o && o < 0x1000 + 48 * 0x40 then some ((o - 0x1000) / 0x40, (o - 0x1000) % 0x40) else none

/-- A configuration register of HEALTH with its fields in range (R286). -/
def hltItemOk (o : Nat) (v : Word) : Bool :=
  let n := v.toNat
  match legOf o with
  | none => (o = 8 && 2 ≤ n && n ≤ 255) || (o = 0xC && n < 2 ^ 16)
  | some (_, i) =>
    if i = 4 then
      6 ≤ bitsN n 24 4 && bitsN n 24 4 ≤ 11 && 6 ≤ bitsN n 20 4 && bitsN n 20 4 ≤ 11 && 8 ≤ bitsN n 8 12 && 1 ≤ bitsN n 0 8
    else if i = 8 then 1 ≤ n && n ≤ 1000000
    else if i = 0xC then true
    else (i = 0x10 || i = 0x14) && n < 2 ^ 16

/-- A write to a register of the block (R233). -/
def State.hltWrite (s : State) (src off : Nat) (v : Word) : State :=
  let cfg := if src = mHIP && (s.hltState = hltSTOPPED || s.hltState = hltCONFIG) then (s.plainWrite off v).answer ST_OK
    else s.refuseWrite ST_NOT_PERMITTED src off
  match legOf (off - hltBase) with
  | none => cfg
  | some (l, i) =>
    if i = 0 then s.bindWrite src l v
    else if i = 0x20 then s.commitWrite src l v
    else if i = 0x18 || i = 0x1C then
      if s.legWriter src l then (s.plainWrite off v).answer ST_OK else s.refuseWrite ST_NOT_PERMITTED src off
    else if i = 0x24 then (s.plainWrite off v).answer ST_OK
    else cfg

/-- FN_CONFIG of HEALTH (R233, R286). -/
def execFnConfigHealth (via : Via) (s : State) : Out :=
  .next (s.fnConfig via fHEALTH (s.hltState = hltSTOPPED || s.hltState = hltCONFIG) hltItemOk
    (fun s o v => s.wr (hltBase + o) v) (fun _ => true) fun s => s.setHlt hltCONFIG ST_OK)

/-- FN_START of HEALTH (R233, R238): every TDC is calibrated and capture starts. -/
def execFnStartHealth (via : Via) (s : State) : Out :=
  .next (s.fnPlain via opFN_START fHEALTH (s.hltState = hltCONFIG) fun c =>
    let s := s.each (List.range 96) fun s m =>
      (s.setEdgeIn m { cal := [false, true], cal0At := s.now, cal1At := s.now, lastXchg := s.now }).setF (uncalBit m) 0
    let s := s.each (List.range 48) fun s l =>
      s.setLeg l { s.leg l with lastGood := s.now, lastCommit := s.tbNs 7, recs := [], onsH := 0, onsL := 0, trigAt := none }
    (s.setHlt hltRUNNING ST_OK).complete c ST_OK)

/-- FN_STOP of HEALTH (R233): capture and autonomous action cease at once. -/
def execFnStopHealth (via : Via) (s : State) : Out :=
  .next (s.fnPlain via opFN_STOP fHEALTH (s.hltState = hltRUNNING || s.hltState = hltFAULT) fun c =>
    let s := s.each (List.range 96) fun s m => s.setEdgeIn m { s.edgeIn m with win := none, cal := [] }
    let s := s.each (List.range 48) fun s l => s.setLeg l { s.leg l with recs := [], trigAt := none }
    (s.setHlt hltSTOPPED ST_OK).complete c ST_OK)

end Sys2Proof.Machine
end

