-- ==== Sys2Proof/Machine/Model.lean ====
section
/-! DEFINITION. The function MODEL: loading and activating a package, its cycle table, windows
and tasks (R164–R188, R264, R286, R314). -/

namespace Sys2Proof.Machine

/-! ### Commands to MODEL (R187, R314, R344) -/

/-- The resident package spans a pair and this chip is not its primary (R343, R344). -/
def State.pairSecondary (s : State) : Bool :=
  (s.model.pkg.map Package.pair).getD false && s.fld GLB_CHIP_ID_CHIP ≠ 0

/-- What keeps every command to MODEL from its effect (R314, R317, R344). -/
def State.modelBar (s : State) : Option St :=
  if s.procState 0 = procRESTART || s.procState 0 = procFAILED || s.procState 0 = procHALTED then some ST_PROC_RESTART
  else if s.pairSecondary then some ST_NOT_PERMITTED
  else none

/-- A command to MODEL: barred, or performed by `k`. -/
def State.modelCmd (s : State) (via : Via) (op : Nat) (k : State) : State :=
  s.hostCmd via op fMODEL fun c =>
    match s.modelBar with
    | some st => s.complete c st
    | none => k

/-! ### Staging (R162, R166) -/

/-- Bytes of the usable LPDDR5X; the staging area follows them (R162). -/
def State.stageBase (s : State) : Nat := (s.rd DDR_SIZE).toNat * 2 ^ 20
def State.stageLen (s : State) : Nat := (s.rd DDR_STAGE).toNat * 2 ^ 20

/-- No package is staged. -/
def State.unstage (s : State) : State :=
  { s with model := { s.model with stagedLen := 0, staged := 0, checked := none } }

/-- A full staging area is checked; a package that fails is discarded (R167). -/
def State.stageCheck (s : State) : St × State :=
  let (st, p) := s.pkgCheck (s.mems.ddr.bytes s.stageBase s.model.stagedLen)
  match p with
  | some p => (st, { s with model := { s.model with checked := some p } })
  | none => (st, s.unstage)

/-- One chunk of a package (R166). -/
def State.stageChunk (s : State) (payload : List Byte) : St × State :=
  if payload.length < 16 then (ST_BAD_FIELD, s)
  else
    let off := fieldN payload 0 8
    let len := fieldN payload 8 8
    let d := payload.drop 16
    let ok := if off = 0 then 256 ≤ len && len ≤ 2 ^ 31 && len ≤ s.stageLen && d.length ≤ len
      else len = s.model.stagedLen && off = s.model.staged && off + d.length ≤ len && s.model.stagedLen ≠ 0
    if !ok then (ST_BAD_FIELD, if off = 0 && s.model.checked.isNone then s.unstage else s)
    else
      let s := if off = 0 then
          { s with model := { s.model with stagedLen := len, staged := 0, checked := none } }
        else s
      let (r, s) := s.writeLong mHIP (BitVec.ofNat 64 (0xFFFF * 2 ^ 48 + 0x1000000000 + s.stageBase + off)) d
      if r.1 ≠ ST_OK then (r.1, s)
      else
        let s := { s with model := { s.model with staged := off + d.length } }
        if s.model.staged = s.model.stagedLen then s.stageCheck else (ST_OK, s)

/-- PKG_LOAD (R166, R167): AUX is the number of bytes staged. -/
def execPkgLoad (via : Via) (s : State) : Out :=
  .next (s.hostCmd via opPKG_LOAD fMODEL fun c =>
    match s.modelBar with
    | some st => s.complete c st
    | none =>
      if !c.arg.all (· == 0) || !c.plenOk then s.complete c ST_BAD_FIELD s.model.staged
      else
        let (st, t) := s.stageChunk c.payload
        t.complete c st (if st = ST_OK || t.model.staged ≠ 0 then s.model.staged.max t.model.staged else 0))

/-! ### Activation (R188, R253) -/

/-- The release of the resident package: its monitors are disarmed, and instances already open
are judged without it (R188, R264). -/
def State.release (s : State) : State :=
  let s := s.agmDisarm
  { s with
    model := { s.model with
      pkg := none, insts := [], opened := [], outs := [], ended := [], requeued := [], tableOn := false
      startVia := none, stopping := false, resumeAt := false, heldByScp := false, accG := [], accW := [] }
    safety := { s.safety with
      agmInsts := s.safety.agmInsts.map fun i => { i with live := false }, agmTarget := [], agmSeen := []
      jobs := [], cross := [], nets := [], params := {} }
    power := { s.power with coll := [] } }

/-- A failure whose status the spec does not state: a free value of class 1 or above. -/
def State.freshFail (s : State) : St × State :=
  let (v, s) := s.freshSt
  (if v.toNat < 0x1000 then v + 0x1000 else v, s)

/-- Perform steps up to the first that fails. -/
def State.steps {α : Type} (s : State) (l : List α) (f : State → α → St × State) : St × State :=
  l.foldl (fun r x => if r.1 ≠ ST_OK then r else f r.2 x) (ST_OK, s)

/-- The tensors of this chip take their places; those of another chip of the pair are placed by
that chip (R188, R344). -/
def State.placeTensors (s : State) (p : Package) : St × State :=
  s.steps p.tensors fun s t =>
    match s.target mSCP t.1 with
    | .remote _ => (ST_OK, s)
    | _ => let (r, s) := s.writeLong mSCP t.1 t.2; (r.1, s)

/-- The delta states that the package's descriptors name (R81). -/
def Package.deltas (p : Package) : List Nat :=
  ((p.tasks.filter fun t => t.kind = 0).flatMap fun t => (List.range t.ndesc).filterMap fun i =>
    let d := facDesc (tmplOf p.graph t i)
    if d.fl 6 && (d.op = 1 || d.op = 2) then some d.delta else none).eraseDups

/-- VALID of a delta state is cleared (R81, R188). A header whose first word is poisoned, or whose bank
serves nothing, fails the step with ST_ECC_UNCORRECTED or the refusal's status (DESIGN CHOICE, log
entry 100). -/
def State.clearDelta (s : State) (a : Nat) : St × State :=
  let (r, s) := s.readAt mSCP (BitVec.ofNat 64 a) 1
  if r.st ≠ ST_OK then (r.st, s)
  else s.writeAt mSCP (BitVec.ofNat 64 a) [r.data.headD 0 &&& 0xFE]

/-- A class set enters ARB_CLASS (R154, R430). -/
def State.loadClasses (s : State) (p : Package) (k : Nat) : State :=
  match p.classes[k]? with
  | none => s
  | some ws => s.each (List.range ws.length) fun s j => s.wr (ARB_CLASS j) (ws.getD j 0)

/-- Every window is closed (R188). -/
def State.closeWindows (s : State) : State :=
  s.each (List.range 4096) fun s w => if s.flag (ARB_WIN_CTL_STATE w) then s.winCtlWrite mSCP w 2 else s

/-- A window of the package is written and opened (R432). -/
def State.openWindow (s : State) (d : WinDef) : St × State :=
  match s.target mSCP d.base with
  | .remote _ => (ST_OK, s)
  | _ =>
    let s := (s.wrN (ARB_WIN_BASE d.win) (d.base.toNat % 2 ^ 32)).wrN (ARB_WIN_SIZE d.win) (d.lines * 2 ^ (ARB_WIN_SIZE_SIZE d.win).lo)
    let s := s.winCtlWrite mSCP d.win 1
    if s.flag (ARB_WIN_CTL_STATE d.win) then (ST_OK, s) else s.freshFail

/-- The steps of R188 on a package whose staging is sound. -/
def State.place5 (s : State) (p : Package) : St × State :=
  if !annexCheck p p.annexRaw then (ST_BAD_FIELD, s)
  else
    let (st, s) := s.placeTensors p
    if st ≠ ST_OK then (st, s)
    else
      let (st, s) := s.steps p.deltas State.clearDelta
      if st ≠ ST_OK then (st, s)
      else
        let (st, s) := ((s.loadClasses p 0).closeWindows).steps p.wins State.openWindow
        if st ≠ ST_OK then (st, s)
        else (ST_OK, s.each p.soInit fun s x => s.soSet mSCP x.1 x.2)

/-- The parameters of the annex are in force and their digest is shown (R252). -/
def State.loadParams (s : State) (p : Package) : State :=
  let dig := if p.annex.isSome then beBytes 48 p.paramDigest.toNat else List.replicate 48 0
  { s.wrBytes (SAF_PARAM_DIGEST 0) dig with safety := { s.safety with
      params := (p.annex.map Annex.params).getD {} } }

/-- The SCP names the node of each hand-over task in SLE_SP_OWNER of its axis (R225). -/
def State.setOwners (s : State) (p : Package) : State :=
  s.each ((p.tasks.filter fun t => t.kind = 4).flatMap fun t => (List.range t.ndesc).map fun i => (t, i)) fun s x =>
    let t := x.1
    let a := byteN (tmplOf p.graph t x.2) 0x1D
    if a < 16 then s.wrN (SLE_SP_OWNER a) (t.cand % 8192) else s

/-- PKG_ACTIVATE (R188, R253, R344). -/
def execPkgActivate (via : Via) (s : State) : Out :=
  .next (s.modelCmd via opPKG_ACTIVATE (s.fnPlain via opPKG_ACTIVATE fMODEL
    (s.model.fn == .stopped && s.model.checked.isSome) fun c =>
      match s.model.checked with
      | none => s
      | some p =>
        if p.pair && s.fld GLB_CHIP_ID_CHIP ≠ 0 then s.complete c ST_NOT_PERMITTED
        else
          let bad := s.mems.ddr.anyBad 8 s.stageBase s.model.stagedLen
          let t := s.release.unstage
          let (st, t) := if bad then (ST_ECC_UNCORRECTED, t.log ST_ECC_UNCORRECTED mHIP EV_ECC 8) else t.place5 p
          let (st, t) := if st = ST_OK && p.pair then t.freshSt else (st, t)
          if st ≠ ST_OK then (t.rephase.setModelFn .fault st).complete c st
          else
            let t := { t with model := { t.model with pkg := some p } }
            (((t.rephase.loadParams p).setOwners p).setModelFn .config ST_OK).complete c ST_OK))

/-! ### FN_STOP, FN_CONFIG, FN_START (R187, R264, R286) -/

/-- The axes that take setpoints from the resident package: those that its hand-overs name. -/
def State.pkgAxes (s : State) : List Nat :=
  match s.model.pkg with
  | none => []
  | some p => ((p.tasks.filter fun t => t.kind = 4).flatMap fun t =>
      (List.range t.ndesc).map fun i => byteN (tmplOf p.graph t i) 0x1D).eraseDups

/-- MODEL begins to stop: no instance of a later cycle opens (R187). -/
def State.modelStop (s : State) (via : Option Via) : State :=
  if s.model.fn ≠ .running || s.model.pkg.isNone then
    let s := { s with model := { s.model with insts := [], tableOn := false, startVia := none } }
    let s := (s.agmDisarm.reqUpdate).setModelFn .stopped ST_OK
    match via with
    | some v => s.completeVia v ST_OK
    | none => s
  else
    ({ s with model := { s.model with stopping := true, stopVia := via } }).stopCheck

/-- FN_STOP of MODEL (R187). -/
def execFnStopModel (via : Via) (s : State) : Out :=
  .next (s.modelCmd via opFN_STOP (s.fnPlain via opFN_STOP fMODEL
    (s.model.fn ≠ .stopped && s.model.stopVia.isNone && s.pkgAxes.all fun a => s.axState a = axSTOPPED)
    fun _ => s.modelStop (some via)))

/-- An item of MODEL's FN_CONFIG is in range (R171, R286). -/
def State.modelItemOk (s : State) (off : Nat) (v : Word) : Bool :=
  match s.model.pkg with
  | none => false
  | some p =>
    let i := off % 2 ^ 24
    let v := v.toNat
    match off / 2 ^ 24 with
    | 1 => i < 64 && 1 ≤ v && v ≤ 1024
    | 2 => i < 512 && v ≤ 7
    | 3 => i < p.windows.length && v < 65536 && 1 ≤ v % 256 && v % 256 ≤ 64 && v / 256 < v % 256
    | _ => false

/-- An item of MODEL's FN_CONFIG is applied (R286). -/
def State.modelApply (s : State) (off : Nat) (v : Word) : State :=
  match s.model.pkg with
  | none => s
  | some p =>
    let i := off % 2 ^ 24
    let p := match off / 2 ^ 24 with
      | 1 => { p with groups := p.groups.set i (v.toNat, (p.groups.getD i (1, 0)).2) }
      | 2 => { p with phases := p.phases.set i v.toNat }
      | _ => match p.windows[i]? with
        | some w => { p with windows := p.windows.set i { w with rateDiv := v.toNat % 256, rateOfs := v.toNat / 256 } }
        | none => p
    { s with model := { s.model with pkg := some p } }

/-- FN_CONFIG of MODEL: the state is kept (R187, R286). -/
def execFnConfigModel (via : Via) (s : State) : Out :=
  .next (s.modelCmd via opFN_CONFIG (s.fnConfig via fMODEL
    (s.model.fn == .stopped || s.model.fn == .config) s.modelItemOk State.modelApply (fun _ => true) id))

/-- FN_START of MODEL: the cycle table starts at the next boundary (R187). -/
def execFnStartModel (via : Via) (s : State) : Out :=
  .next (s.modelCmd via opFN_START (s.fnPlain via opFN_START fMODEL
    (s.model.fn == .config && s.model.startVia.isNone)
    fun _ => { s with model := { s.model with startVia := some via } }))

/-! ### The cycle table (R172–R175, R264, R314, R345) -/

/-- The cycle table starts or resumes at the boundary (R187, R264, R314). -/
def State.tableStart (s : State) : State :=
  if !s.scpUp then s
  else
    match s.model.startVia with
    | some v =>
      let s := { s with model := { s.model with
        startVia := none, tableOn := true, firstCycle := s.model.cycle, opened := [], insts := [], outs := []
        ended := [], requeued := [] } }
      (s.agmArm.setModelFn .running ST_OK).completeVia v ST_OK
    | none =>
      if s.model.resumeAt then
        { s with model := { s.model with resumeAt := false, heldByScp := false, firstCycle := s.model.cycle } }
      else s

/-- The result slots of a cycle in which the resident package does not run carry STALE
(R188, R314). -/
def State.staleSlots (s : State) : State :=
  match s.model.pkg with
  | none => s
  | some p =>
    if s.model.fn = .running then s
    else
      s.each (List.range p.rings.length) fun s k =>
        let on := match (p.rings[k]?).bind fun r => (p.task r.task).bind fun t => p.window t.window with
          | some w => w.sel s.model.cycle
          | none => false
        if on then (s.openOut k s.model.cycle).staleOut k s.model.cycle none else s

/-- CYCLE_BOUNDARY (R172): the cycle number advances; what waits for the boundary happens. -/
def execCycleBoundary (s : State) : Out :=
  let since := sinceNs (s.tbNs 7) s.model.cycleStart
  if since < s.major then .next s
  else
    let at_ := (s.model.cycleStart + s.major) % 2 ^ 48
    let s := { s with model := { s.model with cycle := s.model.cycle + 1, cycleStart := at_ } }
    let s := if s.model.stopping then
        ({ s with model := { s.model with tableOn := false } }).agmDisarm.stopCheck
      else s.tableStart
    let s := s.agmOrigin 0 0 (at_ / 1000) s.model.cycle false
    .next s.staleSlots

/-- The heartbeats of a cycle from every other chip of the package are held (R345). -/
def State.hbHeld (s : State) (p : Package) (cyc : Word) : Bool :=
  !p.pair || s.fld PLK_CFG_MODE = 0 || (List.range p.nchips).all fun c =>
    c = s.fld GLB_CHIP_ID_CHIP || s.pair.hbFrom.contains (c, cyc)

/-- Instances of a window that have not completed when a later one opens; at the fourth a backlog
event reaches the SFP, and the safe state follows for a window holding REDUN or KIND 4 tasks
(R174, R268). -/
def State.countLater (s : State) (p : Package) (w : Nat) : State :=
  s.each (s.model.insts.filter fun i => i.win = w) fun s i =>
    let i := { i with later := i.later + 1 }
    let s := s.putInst i
    if i.later ≠ 4 || i.complete p then s
    else
      let a := s.winAcc w
      let s := (s.setWinAcc w { a with backlog := a.backlog + 1 }).sfpEvent mSCP 2 ST_OK
      if (p.tasksOf w).any fun t => t.redun ≠ 0 || t.kind = 4 then s.safeEnter cBACKLOG else s

/-- An instance of a window opens (R173, R175, R396, R430); displaced share work on its engines that no
time-triggered task waits for goes on (R176, R177). -/
def State.openInst (s : State) (p : Package) (w : Nat) (x : Window) (cyc : Word) : State :=
  let s := s.countLater p w
  let back := (s.model.cycle - cyc).toNat * s.major
  let s := { s with model := { s.model with
    insts := s.model.insts ++ [({ win := w, cyc := cyc
                                  boundary := (s.model.cycleStart + 2 ^ 48 - back % 2 ^ 48) % 2 ^ 48 } : Inst)]
    opened := kput w (some cyc) s.model.opened } }
  let s := if x.classSet = 0xFF then s else s.loadClasses p x.classSet
  let s := (s.each (s.winOuts p w) fun s k => s.openOut k cyc).reqUpdate
  if x.share then s
  else
    let s := s.each ((List.range 32).filter x.facets.getLsbD) fun s f => if (s.shareOn f).isSome then s.handBack f else s
    s.each ((s.beads.map Prod.fst).filter fun n => x.regions.getLsbD (beadRegion n)) fun s n =>
      if (s.shareOn (100 + n)).isSome then s.handBack (100 + n) else s

/-- The oldest cycle of the table's present run in which the window opens and has not opened; an instance
that heartbeats held up past its cycle is not skipped (R173, R345). -/
def State.nextOpen (s : State) (x : Window) (w : Nat) : Option Word :=
  let from_ := match kget none s.model.opened w with
    | some c => c + 1
    | none => s.model.firstCycle
  let n := (diffC 32 s.model.cycle.toNat from_.toNat).toNat
  ((List.range (min 64 n + 1)).map fun k => s.model.cycle - BitVec.ofNat 32 (min 64 n - k)).find? fun c =>
    x.sel c && reached 32 c.toNat s.model.firstCycle.toNat && reached 32 c.toNat from_.toNat

/-- WINDOW_INSTANCE_OPEN (R173, R264, R345): the age monitor runs apart from the SCP. -/
def execWindowInstanceOpen (w : Fin 64) (s : State) : Out :=
  match s.model.pkg with
  | none => .next s
  | some p =>
    match p.window w.val with
    | none => .next s
    | some x =>
      let here := x.start ≤ sinceNs (s.tbNs 7) s.model.cycleStart
      let s := if here && x.sel s.model.cycle then
          s.agmOrigin 2 w.val ((s.model.cycleStart + x.start) / 1000) s.model.cycle true
        else s
      match s.nextOpen x w.val with
      | none => .next s
      | some c =>
        if (c ≠ s.model.cycle || here) && s.model.tableOn && s.model.fn == .running && !s.model.heldByScp && s.scpUp
            && s.hbHeld p c then .next (s.openInst p w.val x c)
        else .next s

/-- WINDOW_DEADLINE (R174): an instance that has not completed is counted, and its late outputs
that no age monitor covers carry STALE. -/
def execWindowDeadline (w : Fin 64) (cyc : Word) (s : State) : Out :=
  match s.model.pkg, s.inst? w.val cyc with
  | some p, some i =>
    match p.window w.val with
    | none => .next s
    | some x =>
      if i.late || !s.scpUp || sinceNs (s.tbNs 7) i.boundary < x.deadline then .next s
      else
        let exceeded := !i.complete p
        let s := s.putInst { i with late := true }
        let s := if exceeded then
            let s := s.setWinAcc w.val { s.winAcc w.val with winovr := (s.winAcc w.val).winovr + 1 }
            s.each (s.winOuts p w.val) fun s k =>
              if s.covered k || (s.outSt k cyc).done then s else s.markOut mSCP k cyc dSTALE none
          else s
        .next (s.reqUpdate.instCheck p w.val cyc)
  | _, _ => .next s

/-! ### Tasks (R174, R176, R177, R179–R182, R431) -/

/-- The SCP dispatches (R187, R314). -/
def State.dispatching (s : State) : Bool := s.scpUp && s.model.fn == .running && !s.model.heldByScp

/-- TASK_DISPATCH (R174): a time-triggered task of an open instance. -/
def execTaskDispatch (w : Fin 64) (cyc : Word) (t : Nat) (s : State) : Out :=
  match s.model.pkg, s.inst? w.val cyc with
  | some p, some i =>
    match (p.tasksOf w.val).find? (fun u => u.id = t) with
    | none => .next s
    | some u =>
      if !s.dispatching || !p.isTT w.val || i.isDone t then .next s
      else .next (s.dispatchTT p w.val cyc u i)
  | _, _ => .next s

/-- SHARE_DISPATCH (R176, R179, R182): an engine takes a share task, or its running one is handed
its next template. -/
def execShareDispatch (e : Engine) (s : State) : Out :=
  let k := match e with
    | .facet f => f.val
    | .bead n => 100 + n.val
  match s.model.pkg with
  | none => .next s
  | some p =>
    if !s.dispatching then .next s
    else
      let s := s.liftGroups p (((s.readyShares p).map fun x => x.2.group).eraseDups)
      match s.shareOn k with
      | some (i, r) =>
        match p.task r.task with
        | none => .next s
        | some t =>
          if s.ttOn k || !s.inShare p t k || !s.fitsShare p t r.cand r.sent then .next s
          else
            let (s, r') := State.sendAll p t i.cyc false t.ndesc (s, r)
            match s.inst? i.win i.cyc with
            | some i => .next (s.putInst { i with
                running := i.running.map fun x => if x.task = r.task then r' else x })
            | none => .next s
      | none =>
        match s.pickShare p k with
        | none => .next s
        | some (i, t) =>
          match s.place p i.cyc t with
          | some c => .next (s.dispatchShare p i t c)
          | none => .next s

/-- A node of a Bead task that has stopped in FAULT (R112). -/
def State.faultedNode (s : State) (p : Package) (t : Task) (r : RunTask) : Option Nat :=
  if t.kind = 2 || t.kind = 4 then
    ((p.keys t r.cand).map (· - 100)).find? fun n => s.beadState n = bdFAULT
  else none

/-- The status of a task whose node has stopped in FAULT: ST_ECC_UNCORRECTED for cause 0x18
(R399); the spec states none for the others. -/
def State.faultStatus (s : State) (n : Nat) : St × State :=
  if s.fld (BEAD_STATUS_CAUSE n) = 0x18 then (ST_ECC_UNCORRECTED, s) else s.freshFail

/-- A Hallmark submission task whose verdict has not been given (R258). -/
def State.judging (s : State) (p : Package) (t : Task) (cyc : Word) : Bool :=
  t.kind = 5 && (List.range t.ndesc).any fun i =>
    s.safety.jobs.any fun j => j.net = fieldN (tmplOf p.graph t i) 0 2 && j.cyc = cyc && j.verdict.isNone

/-- TASK_COMPLETE (R86, R179, R180, R431): every increment that the task makes has been made. A setpoint
hand-over that the policy HOLD or the safe state overtook has committed nothing since, and says so (R269,
R301). -/
def execTaskComplete (w : Fin 64) (cyc : Word) (t : Nat) (s : State) : Out :=
  match s.model.pkg, s.inst? w.val cyc with
  | some p, some i =>
    match p.task t, i.running.find? (fun r => r.task = t) with
    | some u, some r =>
      let dead := s.faultedNode p u r
      if !s.scpUp || (dead.isNone && (r.sent ≠ u.ndesc || !s.runDone r || s.judging p u cyc)) then .next s
      else
        let s := if p.isTT w.val then s
          else
            let s := s.charge p u r
            let g := s.group u.group
            s.setGroup u.group { g with tasks := g.tasks + 1 }
        let (st, s) := match dead with
          | some n => s.faultStatus n
          | none => s.runStatus u cyc r
        let st := if u.kind = 4 && s.handoverHeld ≠ ST_OK then s.handoverHeld else st
        .next (s.taskEnd p w.val cyc u r.cand st)
    | _, _ => .next s
  | _, _ => .next s

/-- The next instance of a time-triggered window opens within `lead` ns, in this cycle or the
next. -/
def State.comesUp (s : State) (p : Package) (w lead : Nat) : Bool :=
  match p.window w with
  | none => false
  | some x =>
    let now := sinceNs (s.tbNs 7) s.model.cycleStart
    !x.share && ((x.sel s.model.cycle && kget none s.model.opened w ≠ some s.model.cycle && x.start ≤ now + lead)
      || (x.sel (s.model.cycle + 1) && p.majorNs + x.start ≤ now + lead))

/-- PREEMPT_FOR_WINDOW (R176): 3 µs before START. -/
def execPreemptForWindow (w : Fin 64) (s : State) : Out :=
  match s.model.pkg with
  | none => .next s
  | some p =>
    match p.window w.val with
    | none => .next s
    | some x =>
      if !s.dispatching || !s.comesUp p w.val 3000 then .next s
      else .next (s.each (List.range 32) fun s f =>
        if x.facets.getLsbD f && (s.shareOn f).isSome && s.facState f = facRUNNING then s.preemptReq mSCP f else s)

/-- YIELD_FOR_WINDOW (R177): 5 µs before START. -/
def execYieldForWindow (w : Fin 64) (s : State) : Out :=
  match s.model.pkg with
  | none => .next s
  | some p =>
    match p.window w.val with
    | none => .next s
    | some x =>
      if !s.dispatching || !s.comesUp p w.val 5000 then .next s
      else
        let ns := (s.model.insts.filter fun i => !p.isTT i.win).flatMap fun i => i.running.flatMap fun r =>
          match p.task r.task with
          | some t => if t.kind = 2 || t.kind = 4 then (p.keys t r.cand).map (· - 100) else []
          | none => []
        .next (s.each ns fun s n =>
          if x.regions.getLsbD (beadRegion n) && s.beadState n = bdRUNNING then s.yieldReqOp mSCP n else s)

/-! ### Waits of tasks (R148, R183, R185) -/

/-- The result of a task whose wait has timed out carries STALE with ST_WAIT_TIMEOUT (R183,
R185). -/
def State.waitMissed (s : State) (src : Nat) : State :=
  match s.model.pkg with
  | none => s
  | some p =>
    if 4096 ≤ src then s
    else
      s.each (s.model.insts.flatMap fun i => i.running.map fun r => (i, r)) fun s x =>
        match p.task x.2.task with
        | some t =>
          if (p.keys t x.2.cand).contains (100 + src) then
            s.each (p.outsBelow t.id) fun s k => s.staleOut k x.1.cyc (some ST_WAIT_TIMEOUT)
          else s
        | none => s

/-- SO_WAIT_TIMEOUT (R148, R185). -/
def execSoWaitTimeout (src : Nat) (s : State) : Out :=
  match s.fab.waits.find? (fun w => w.src = src) with
  | none => .next s
  | some w =>
    if sinceNs s.now w.since < w.tmoUs * 1000 then .next s
    else .next ((s.waitTimeout w).waitMissed src)

end Sys2Proof.Machine
end

