-- ==== Sys2Proof/Machine/Hallmark.lean ====
section
/-! DEFINITION. The Hallmark, triage and quarantine, the age monitor, and self-test
(R254–R267). -/

namespace Sys2Proof.Machine

/-! ### Verdicts (R257, R258, R348) -/

def State.setJobs (s : State) (l : List HmkJob) : State := { s with safety := { s.safety with jobs := l } }

/-- Replace the job of a network and cycle. -/
def State.putJob (s : State) (j : HmkJob) : State :=
  s.setJobs (s.safety.jobs.map fun x => if x.net = j.net && x.cyc = j.cyc then j else x)

/-- The Hallmark reads the ranges of an execution's output or checkpoint in TOFS order: the bytes,
and whether every read was served and clean. Failed reads are logged (R258, R399). -/
def State.hmkRead (s : State) (rs : List RangeEnt) : (List Byte × Bool) × State :=
  rs.foldl (fun (x, s) r =>
    let (v, s) := s.readLong mSafety r.addr r.len
    let s := if v.st ≠ ST_OK then s.log v.st mSafety EV_REQUEST_REFUSED 0xFFFF r.addr
      else if v.bad then s.log ST_COMPARE_MISMATCH mSafety EV_ECC 4 r.addr else s
    ((x.1 ++ v.data, x.2 && v.st = ST_OK && !v.bad), s)) (([], true), s)

/-- The signature of an execution's output: none where a read failed (R257, R258). -/
def State.signature (s : State) (n : Net) (x : Nat) (cyc : Word) : Option (BitVec 64) × State :=
  let (r, s) := s.hmkRead (n.pick x 0)
  (if r.2 then some (crc64 (r.1 ++ leBytes 4 cyc.toNat ++ leBytes 2 n.sigTask)) else none, s)

/-- HMK_LAST shows a verdict. -/
def State.hmkLast (s : State) (net v : Nat) (cyc : Word) : State :=
  ((s.setF HMK_LAST_NET net).setF HMK_LAST_VERDICT v).setF HMK_LAST_CYCLE (cyc.toNat % 65536)

def State.netOf (s : State) (net : Nat) : Option Net := s.annex.bind fun a => a.nets.find? fun n => n.net = net

/-- The package runs on the two chips of a pair, which compare their signatures (R348). -/
def State.pairChecked (s : State) : Bool :=
  s.fld PLK_CFG_MODE = 1 && (s.model.pkg.map Package.pair).getD false

/-- A result of a network does not compare: MISMATCH, its status, the report (R258, R277, R348). -/
def State.mismatch (s : State) (n : Net) (cyc : Word) : State :=
  let s := s.each (s.netOuts n) fun s k => s.markOut mSafety k cyc dMISMATCH (some ST_COMPARE_MISMATCH)
  (s.sfpEvent mSafety 0 ST_COMPARE_MISMATCH).judgeInvalid n cyc

/-- The partner's record meets the own EQUAL verdict (R348). -/
def State.crossCompare (s : State) (n : Net) (cyc : Word) : State :=
  match s.safety.jobs.find? (fun j => j.net = n.net && j.cyc = cyc && j.verdict = some 0),
      s.safety.cross.find? (fun c => c.1 = n.net && c.2.1 = cyc) with
  | some j, some c =>
    if j.sigA = some c.2.2 then
      s.each (s.netOuts n) fun s k => (s.putOut { s.outSt k cyc with cross := true }).validateOut k cyc
    else s.mismatch n cyc
  | _, _ => s

/-- The 16-byte record of an EQUAL verdict (R348). -/
def crossRecord (net : Nat) (cyc : Word) (sig : BitVec 64) : List Byte :=
  leBytes 2 net ++ leBytes 4 cyc.toNat ++ [0, 0] ++ leBytes 8 sig.toNat

/-- HALLMARK_VERDICT (R257, R258): of the oldest submission of the network. -/
def execHallmarkVerdict (net : Fin 64) (s : State) : Out :=
  match s.safety.jobs.find? (fun j => j.net = net.val && j.verdict.isNone), s.netOf net.val with
  | some j, some n =>
    let (a, s) := s.signature n 1 j.cyc
    let (b, s) := s.signature n 2 j.cyc
    let eq := a.isSome && a = b
    let j' := { j with sigA := a, sigB := b, verdict := some (if eq then 0 else 1)
                       triage := if eq then .none else .waiting, at_ := s.model.cycle }
    let s := (s.putJob j').hmkLast net.val (if eq then 0 else 1) j.cyc
    let s := s.setJobs (s.safety.jobs.filter fun x =>
      x.net ≠ net.val || x.cyc = j.cyc || x.verdict.isNone || x.triage ≠ .none)
    if eq then
      let s := s.each (s.netOuts n) fun s k => (s.putOut { s.outSt k j.cyc with eq := true }).validateOut k j.cyc
      if s.pairChecked then
        .next ({ s with pair := { s.pair with
          sent := s.pair.sent ++ [crossRecord n.net j.cyc (a.getD 0)] } }.crossCompare n j.cyc)
      else .next s
    else .next ((s.inc HMK_MISMATCH_CNT).mismatch n j.cyc)
  | _, _ => .next s

/-! ### Self-test order and quarantine (R30, R262, R267) -/

def State.test (s : State) (u : Nat) : TestSt := kget { lastPass := s.safety.testBase } s.safety.tests u
def State.setTest (s : State) (u : Nat) (x : TestSt) : State :=
  { s with safety := { s.safety with tests := kput u x s.safety.tests } }

/-- Engines go to the head of the self-test order. -/
def State.testFirst (s : State) (us : List Nat) : State :=
  { s with safety := { s.safety with testOrder := us ++ s.safety.testOrder.filter fun u => !us.contains u } }

/-- The physical engine that serves engine `k`. -/
def State.unitOf (s : State) (k : Nat) : Nat := if k < 100 then s.physFacet k else 64 + s.physBead (k - 100)

/-- The physical engines of one execution, of its ranges and of its tasks: Facet p at p, node p at
64 + p. -/
def State.execUnits (s : State) (n : Net) (x : Nat) : List Nat :=
  let own := (n.ranges.filter fun r => r.exec = x).flatMap fun r =>
    if r.bead then (List.range r.nnodes).map fun i => 100 + r.id + i else [r.id]
  let used := match s.model.pkg with
    | some p => (p.execTasks n x).flatMap fun t => p.keys t t.cand
    | none => []
  ((own ++ used).map s.unitOf).eraseDups

/-- The spares of the kind: physical Facets 32 and 33, or the four spare nodes of the region. -/
def spares (k : Nat) : List Nat :=
  if k < 100 then [32, 33] else (List.range 4).map fun i => 64 + 260 * ((k - 100) / 256) + 256 + i

/-- A physical engine serves some logical id. -/
def State.serves (s : State) (u : Nat) : Bool :=
  if u < 64 then (List.range 32).any fun f => s.physFacet f = u
  else (List.range 256).any fun i => s.physBead (256 * ((u - 64) / 260) + i) = u - 64

/-- The spare that is taken: the one whose last slice passed most recently, then the lowest
(R262). -/
def State.pickSpare (s : State) (k : Nat) : Option Nat :=
  ((spares k).filter fun u => !(s.test u).unusable && !s.serves u).foldl (fun best u =>
    match best with
    | none => some u
    | some b => if (s.test b).lastPass < (s.test u).lastPass then some u else some b) none

/-- The resident operands or local state of a logical engine are loaded again (R262). -/
def State.reload (s : State) (k : Nat) : State :=
  match s.model.pkg with
  | none => s
  | some p =>
    s.each p.tensors fun s t =>
      match s.target mSCP t.1 with
      | .fom f _ => if k = f then (s.writeLong mSCP t.1 t.2).2 else s
      | .blm n _ => if k = 100 + n then (s.writeLong mSCP t.1 t.2).2 else s
      | _ => s

/-- The core behind a node that is swapped is another one: nothing that the old one saved or held goes with
the logical id (R30; log entry 114). -/
def State.freshCore (s : State) (n : Nat) : State :=
  let b := s.bead n
  if s.beadState n = bdRUNNING then s
  else s.setBead n { movers := b.movers, beforeTest := b.beforeTest, activeClk := b.activeClk, outNs := b.outNs }

/-- A logical engine is quarantined: a spare takes its place, or none remains (R30, R262). The legs bound to a
node are bound anew (R244). Madder stores the remap in NVM, in a form that is open (R374; log entry 120). -/
def State.quarantine (s : State) (k : Nat) : State :=
  let old := s.unitOf k
  let s := s.setTest old { s.test old with unusable := true, running := false, parts := 0 }
  match s.pickSpare k with
  | none => s.safeEnter cSPARES
  | some u =>
    let s := if k < 100 then (s.setF (ARB_FAC_MAP_PHYS k) u).setF (ARB_FAC_MAP_REMAPPED k) 1
      else
        let n := k - 100
        let s := (s.setF (ARB_BEAD_MAP_PHYS n) (u - 64)).setF (ARB_BEAD_MAP_REMAPPED n) 1
        let s := (s.setF (ARB_BEAD_MAP_X n) (Config.meshX (u - 64))).setF (ARB_BEAD_MAP_Y n) (Config.meshY (u - 64))
        (s.freshCore n).rebindNode n
    let s := (s.wr ARB_REMAP_GEN (s.rd ARB_REMAP_GEN + 1)).inc HMK_QUAR_CNT
    let s := { s.setMem .nvm (s.mems.nvm.lose 8 0x100000 0x10000 s.free) with free := s.free + 1 }
    (s.reload k).event fDEVICE evQUARANTINE ST_OK (s.rd ARB_REMAP_GEN).toNat

/-- Share work on an engine is ended before its quarantine: pre-empted or parked first, then
aborted and requeued (R176, R177, R262). Answers whether the engine is free of it. -/
def State.endShare (s : State) (p : Package) (k : Nat) : Bool × State :=
  match s.shareOn k with
  | none => (true, s)
  | some (i, r) =>
    if k < 100 then
      if s.facState k = facRUNNING then (false, s.preemptReq mSCP k)
      else
        let s := if s.facState k = facPREEMPTED then s.facAbort mSCP k else if s.ttOn k then s else s.setFacQueue k []
        (true, s.requeue p i r)
    else
      let n := k - 100
      if s.beadState n = bdRUNNING then (false, if s.flag (BEAD_STATUS_YPEND n) then s else s.yieldReqOp mSCP n)
      else
        let s := s.beadStopOp mSCP n
        (true, (s.setBead n { s.bead n with saved := none, outAt := none }).requeue p i r)

/-- Engines are quarantined once none of them runs share work (R262). -/
def State.quarantineAll (s : State) (ks : List Nat) : Bool × State :=
  match s.model.pkg with
  | none => (true, s.each ks State.quarantine)
  | some p =>
    let (ok, s) := ks.foldl (fun (ok, s) k => let (b, s) := s.endShare p k; (ok && b, s)) (true, s)
    (ok, if ok then s.each ks State.quarantine else s)

/-! ### Triage (R260, R261) -/

/-- Triage ends without a result: every engine of A and B heads the self-test order (R262). -/
def State.triageOpen (s : State) (n : Net) (j : HmkJob) (verdict : Nat) : State :=
  let s := (s.putJob { j with triage := .none }).hmkLast n.net verdict j.cyc
  let s := s.setInsts (s.model.insts.filter fun i => !(i.win = 64 + n.net && i.cyc = j.cyc))
  s.testFirst ((s.execUnits n 1 ++ s.execUnits n 2).eraseDups)

/-- A self-test part is in progress on engine `k`. -/
def State.inTest (s : State) (k : Nat) : Bool :=
  if k < 100 then s.facState k == facSELFTEST else s.beadState (k - 100) == bdSELFTEST

/-- When execution C ends, in ns from the end of a self-test part in progress: each task starts when those that
it depends on and the tasks before it on its engines have ended, and takes its BOUND_NS, the bound at its
window's phase (R165, R260). -/
def Package.boundC (p : Package) (n : Net) : Nat :=
  let c := p.execC n
  let ends := c.foldl (fun (l : List (Task × Nat)) t =>
    let ks := p.keys t t.cand
    let from_ := (l.filter fun u => t.deps.contains u.1.id || (p.keys u.1 u.1.cand).any ks.contains).foldl
      (fun m u => max m u.2) 0
    l ++ [(t, from_ + t.boundNs)]) []
  ends.foldl (fun m u => max m u.2) 0

/-- The bound of C fits before the next time-triggered instance on its engines and before the next
boundary, from the end of any self-test part in progress (R260). -/
def State.triageFits (s : State) (p : Package) (n : Net) : Bool :=
  let ks := ((p.execC n).flatMap fun t => p.keys t t.cand).eraseDups
  let part := ks.foldl (fun m k => if s.inTest k then max m (if k < 100 then 2500 else 5000) else m) 0
  let b := part + p.boundC n
  let left := p.majorNs - sinceNs (s.tbNs 7) s.model.cycleStart
  !(p.execC n).isEmpty && b ≤ left && ks.all fun k =>
    match s.nextTT p k with
    | none => true
    | some d => b + (if k < 100 then 3000 else 5000) ≤ d

/-- One task of execution C is dispatched, handed further templates, or ended. -/
def State.triageTask (s : State) (p : Package) (w : Nat) (cyc : Word) (t : Task) : State :=
  match s.inst? w cyc with
  | none => s
  | some i =>
    if i.isDone t.id then s
    else
      match i.running.find? (fun r => r.task = t.id) with
      | some r =>
        match s.faultedNode p t r with
        | some n => let (st, s) := s.faultStatus n; s.taskEnd p w cyc t r.cand st
        | none =>
          if r.sent = t.ndesc && s.runDone r then
            let (st, s) := s.runStatus t cyc r
            s.taskEnd p w cyc t r.cand st
          else
            let (s, r') := State.sendAll p t cyc true t.ndesc (s, r)
            s.putInst { i with running := i.running.map fun x => if x.task = t.id then r' else x }
      | none =>
        let busy := (p.keys t t.cand).any fun k => i.running.any fun r =>
          match p.task r.task with
          | some u => (p.keys u u.cand).contains k
          | none => false
        if busy || !(t.deps.all (s.depDone p cyc)) || !s.enginesFree p t then s
        else
          let (urgent, s) := if t.kind ≤ 1 then s.claimFacet p w t.cand else (false, s)
          let (s, r) := State.sendAll p t cyc true t.ndesc (s, s.newRun p t t.cand urgent)
          match s.inst? w cyc with
          | some i => (s.putInst { i with running := i.running ++ [r] }).engineBoundary (p.keys t t.cand)
          | none => s

/-- Share work on C's engines gives way (R260). -/
def State.triageDisplace (s : State) (p : Package) (n : Net) : State :=
  s.each ((p.execC n).flatMap fun t => p.keys t t.cand).eraseDups fun s k =>
    if (s.shareOn k).isNone then s
    else if k < 100 then (if s.facState k = facRUNNING then s.preemptReq mSCP k else s)
    else if s.beadState (k - 100) = bdRUNNING then s.yieldReqOp mSCP (k - 100) else s

/-- The job of a network whose triage is under way. -/
def State.triageJob (s : State) (net : Nat) : Option HmkJob :=
  s.safety.jobs.find? fun j => j.net = net && j.triage ≠ .none

/-- A mismatch of an earlier network entry in the cycle goes first (R260). -/
def State.triageTurn (s : State) (net : Nat) (cyc : Word) : Bool :=
  match s.annex with
  | none => false
  | some a => (a.nets.takeWhile fun n => n.net ≠ net).all fun n =>
      !(s.safety.jobs.any fun j => j.net = n.net && j.cyc = cyc && (j.triage = .waiting || j.triage = .running))

/-- TRIAGE_DISPATCH (R260): execution C starts when it fits, in the cycle of the mismatch, and its engines
hold no time-triggered work, or the verdict is NOT_RUN; while it runs its tasks are dispatched in turn. -/
def execTriageDispatch (net : Fin 64) (s : State) : Out :=
  match s.triageJob net.val, s.netOf net.val, s.model.pkg with
  | some j, some n, some p =>
    let w := 64 + net.val
    if !s.scpUp || !s.triageTurn net.val j.cyc then .next s
    else if j.triage = .waiting then
      if s.model.cycle ≠ j.at_ || !s.triageFits p n then .next (s.triageOpen n j 5)
      else if ((p.execC n).flatMap fun t => p.keys t t.cand).any fun k => s.ttOn k || s.inTest k then .next s
      else
        let s := (s.putJob { j with triage := .running }).triageDisplace p n
        let s := s.setInsts (s.model.insts ++ [({ win := w, cyc := j.cyc, boundary := s.model.cycleStart } : Inst)])
        .next (s.each (p.execC n) fun s t => s.triageTask p w j.cyc t)
    else if j.triage = .running then .next (s.each (p.execC n) fun s t => s.triageTask p w j.cyc t)
    else .next s
  | _, _, _ => .next s

/-- TRIAGE_COMPARE (R261): C's signature against those of A and B. -/
def execTriageCompare (net : Fin 64) (s : State) : Out :=
  match s.triageJob net.val, s.netOf net.val, s.model.pkg with
  | some j, some n, some p =>
    match s.inst? (64 + net.val) j.cyc with
    | none => .next s
    | some i =>
      if j.triage ≠ .running || !i.complete p then .next s
      else if i.done.any fun d => d.2 = ST_PROC_RESTART then .next (s.triageOpen n j 5)
      else
        let (c, s) := s.signature n 3 j.cyc
        let a := c.isSome && c = j.sigA
        let b := c.isSome && c = j.sigB
        if a = b then .next (s.triageOpen n j 4)
        else
          let s := s.setInsts (s.model.insts.filter fun x => !(x.win = 64 + net.val && x.cyc = j.cyc))
          let s := s.putJob { j with triage := .localise, faulty := if b then 1 else 2 }
          .next (s.hmkLast net.val (if b then 2 else 3) j.cyc)
  | _, _, _ => .next s

/-- The first checkpoint at which executions X and C differ, else 0 (R261). -/
def State.badCheckpoint (s : State) (n : Net) (x : Nat) : Nat × State :=
  ((List.range n.nchk).map (· + 1)).foldl (fun (k, s) c =>
    if k ≠ 0 then (k, s)
    else
      let (a, s) := s.hmkRead (n.pick x c)
      let (b, s) := s.hmkRead (n.pick 3 c)
      (if a.2 && b.2 && a.1 = b.1 then 0 else c, s)) (0, s)

/-- The engines whose ranges of X at checkpoint `k` differ from C's bytes (R261). -/
def State.badUnits (s : State) (n : Net) (x k : Nat) : List Nat × State :=
  let (c, s) := s.hmkRead (n.pick 3 k)
  (n.pick x k).foldl (fun (l, s) r =>
    let (v, s) := s.hmkRead [r]
    if v.2 && v.1 = (c.1.drop r.tofs).take r.len then (l, s)
    else
      (l ++ if r.bead then (List.range r.nnodes).map fun i => 100 + r.id + i else [r.id], s)) ([], s)

/-- FAULT_LOCALISATION (R261, R262): the faulty engines are found and quarantined. -/
def execFaultLocalisation (net : Fin 64) (s : State) : Out :=
  match s.triageJob net.val, s.netOf net.val with
  | some j, some n =>
    if j.triage ≠ .localise || !s.scpUp then .next s
    else
      let (k, s) := s.badCheckpoint n j.faulty
      let (l, s) := s.badUnits n j.faulty k
      let (ok, s) := s.quarantineAll l.eraseDups
      .next (if ok then s.putJob { j with triage := .none } else s)
  | _, _ => .next s

/-! ### The age monitor (R264) -/

/-- The results that an entry judges: its network's, else those whose final task increments its
object (R263). -/
def State.agmOuts (s : State) (i : AgmInst) : List Nat :=
  match s.model.pkg, s.annex, i.live with
  | some p, some a, true =>
    let ns := a.nets.filter fun n => n.agm = i.entry
    if !ns.isEmpty then ns.flatMap s.netOuts
    else
      (List.range p.rings.length).filter fun k =>
        match (p.rings[k]?).bind fun r => p.task r.task with
        | some t => (List.range t.ndesc).any fun q =>
            (tmplSos t.kind (tmplOf p.graph t q)).headD 0xFFFF = i.ent.so
        | none => false
  | _, _, _ => []

/-- The networks that an entry judges. -/
def State.agmNets (s : State) (i : AgmInst) : List Net :=
  if i.live then ((s.annex.map Annex.nets).getD []).filter fun n => n.agm = i.entry else []

/-- A partner's record is missing at the age limit (R348). -/
def State.crossMissing (s : State) (n : Net) (cyc : Word) : Bool :=
  s.pairChecked && (s.netOuts n).any fun k => (s.outSt k cyc).eq && !(s.outSt k cyc).cross
    && !(s.safety.cross.any fun c => c.1 = n.net && c.2.1 = cyc)

/-- Madder judges a network when its instance is judged (R259). -/
def State.judgeAt (s : State) (n : Net) (cyc : Word) (stale : Bool) : State :=
  let ks := s.netOuts n
  if stale || ks.isEmpty || ks.any fun k => s.outInvalid k cyc then s.judgeInvalid n cyc
  else if ks.all fun k =>
      match s.outAddr k cyc with
      | some a => (s.desc a).cyc = cyc.toNat && (s.desc a).flags % 2 = 1
      | none => false then s.judgeValid n cyc
  else s

/-- The limit of an instance has passed, with the microsecond in which it falls (R264). -/
def State.agmDue (s : State) (i : AgmInst) : Bool :=
  (i.ent.limitUs + 1) * 1000 ≤ sinceNs (s.tbNs 7) (i.t0 * 1000)

/-- The instance that is judged next: of an entry of the resident package and of one of a released package,
which are different entries, the oldest whose limit has passed (R264). -/
def State.agmNext (s : State) (e : Nat) : Option AgmInst :=
  let first (live : Bool) : Option AgmInst :=
    (s.safety.agmInsts.find? fun i => i.entry = e && i.live = live).filter s.agmDue
  match first false with
  | some i => some i
  | none => first true

/-- The object reached TARGET after the limit, or has not reached it: an increment within the microsecond of
the limit is in time (R14, R264). TB7 µs wrap with its 48-bit ns. -/
def AgmInst.stale (i : AgmInst) : Bool :=
  match i.met with
  | none => true
  | some m => i.ent.limitUs * 1000 < sinceNs (m * 1000) (i.t0 * 1000)

/-- AGM_LIMIT_EXPIRED (R264): the next instance of the entry is judged. The report of an entry that belongs
to a network is row 1 of the events (R277). -/
def execAgmLimitExpired (e : Fin 256) (s : State) : Out :=
  match s.agmNext e.val with
  | none => .next s
  | some i =>
    let late := i.stale
    let ns := s.agmNets i
    let lost := ns.any fun n => s.crossMissing n i.cyc
    let s := if late then
        let s := s.inc AGM_STALE_CNT
        if i.ent.safety then s.sfpEvent mSafety 1 ST_RESULT_STALE else s
      else s
    let s := if late || lost then
        s.each (s.agmOuts i) fun s k => s.markOut mSafety k i.cyc dSTALE none
      else s
    let s := s.each ns fun s n => s.judgeAt n i.cyc (late || lost)
    .next { s with safety := { s.safety with agmInsts := s.safety.agmInsts.erase i } }

/-! ### Self-test (R85, R266, R267) -/

/-- Number of a physical engine in the self-test tables. -/
def unitNo : PhysUnit → Nat
  | .facet p => p.val
  | .bead p => 64 + p.val

/-- The logical engine that a physical engine serves. -/
def State.logicalOf (s : State) (u : Nat) : Option Nat :=
  if u < 64 then (List.range 32).find? fun f => s.physFacet f = u
  else ((List.range 256).map fun i => 256 * ((u - 64) / 260) + i).find? (fun n => s.physBead n = u - 64) |>.map (100 + ·)

/-- DTI in ns. -/
def State.dtiNs (s : State) : Nat := s.safety.params.dtiMs * 1000000

/-- An engine has not passed a slice for so long. -/
def State.unpassed (s : State) (u ns : Nat) : Bool := ns ≤ sinceNs s.now (s.test u).lastPass

/-- SAF_ST_OVERDUE counts the engines without a passed slice for DTI. -/
def State.overdueCount (s : State) : State :=
  s.wrN SAF_ST_OVERDUE ((s.safety.tests.filter fun t => t.2.overdue && !t.2.unusable).length)

/-- The engine is open to a part: no time-triggered work, in a share window or outside every
window, and enough time before the next instance (R178, R266). -/
def State.testOpen (s : State) (k : Nat) : Bool :=
  match s.model.pkg with
  | none => true
  | some p =>
    let inTT := s.model.insts.any fun i => !i.late && (match p.window i.win with
      | some w => !w.share && sinceNs (s.tbNs 7) i.boundary < w.deadline
          && (if k < 100 then w.facets.getLsbD k else w.regions.getLsbD (beadRegion (k - 100)))
      | none => false)
    !s.ttOn k && !inTT && (s.model.fn ≠ .running || (match s.nextTT p k with
      | none => true
      | some d => (if k < 100 then 2500 + 3000 else 5000 + 5000) ≤ d))

/-- SELFTEST_PART_START (R85, R266). -/
def execSelftestPartStart (u : PhysUnit) (s : State) : Out :=
  let n := unitNo u
  let x := s.test n
  if x.running || x.unusable then .next s
  else
    match s.logicalOf n with
    | none => .next (s.setTest n { x with running := true })
    | some k =>
      if !s.testOpen k then .next s
      else if k < 100 then
        let st := s.facState k
        if (st = facIDLE || st = facPREEMPTED) && (s.facet k).cur.isNone then
          let s := (s.setTest n { x with running := true }).setFacState k facSELFTEST
          .next (s.setFacet k { s.facet k with beforeTest := st })
        else .next s
      else
        let b := k - 100
        let st := s.beadState b
        if st = bdIDLE || st = bdPARKED then
          let s := (s.setTest n { x with running := true }).setBeadState b bdSELFTEST
          .next (s.setBead b { s.bead b with beforeTest := st })
        else .next s

/-- The engine returns to the state it left (R85). -/
def State.testReturn (s : State) (u : Nat) : State :=
  match s.logicalOf u with
  | none => s
  | some k =>
    if k < 100 then (if s.facState k = facSELFTEST then s.setFacState k (s.facet k).beforeTest else s)
    else if s.beadState (k - 100) = bdSELFTEST then s.setBeadState (k - 100) (s.bead (k - 100)).beforeTest
    else s

/-- Some engine that is not unusable has not passed a slice for 2 × DTI_MS: one with an entry, or one of the 34
Facets and 4,160 nodes that has none and counts from the start checks (R267, R268). -/
def State.lateUnits (s : State) : Bool :=
  (s.safety.tests.any fun t => !t.2.unusable && s.unpassed t.1 (2 * s.dtiNs))
    || (s.safety.tests.length < 4194 && 2 * s.dtiNs ≤ sinceNs s.now s.safety.testBase)

/-- SELFTEST_PART_COMPLETE (R266, R267): a passed slice starts a new interval; a failed part
quarantines the engine, or marks a spare unusable. -/
def execSelftestPartComplete (u : PhysUnit) (pass : Bool) (s : State) : Out :=
  let n := unitNo u
  let x := s.test n
  if !x.running then .next s
  else
    let s := s.testReturn n
    if pass then
      let k := x.parts + 1
      if k < (if n < 64 then 16 else 8) then .next (s.setTest n { x with parts := k, running := false })
      else
        let s := s.setTest n { x with parts := 0, running := false, overdue := false, lastPass := s.now }
        let s := { s with safety := { s.safety with testOrder := s.safety.testOrder.filter (· ≠ n) } }
        let late := s.lateUnits
        let s := { s with safety := { s.safety with causeGone := s.safety.causeGone || !late } }
        .next s.overdueCount
    else
      let s := s.setTest n { x with parts := 0, running := false }
      match s.logicalOf n with
      | none => .next ((s.setTest n { s.test n with unusable := true }).overdueCount)
      | some k => .next (s.quarantineAll [k]).2.overdueCount

/-- SELFTEST_DEFERRED (R267). Intervals count from the end of the start checks. -/
def execSelftestDeferred (u : PhysUnit) (s : State) : Out :=
  let n := unitNo u
  let x := s.test n
  if s.fld SAF_STATUS_STATE = safINIT || x.overdue || x.unusable || !s.unpassed n s.dtiNs then .next s
  else
    let s := ((s.setTest n { x with overdue := true }).testFirst [n]).overdueCount
    .next (s.sfpEvent mSFP 3 ST_SELFTEST_DEFERRED)

/-- SELFTEST_LATE (R267, R268). -/
def execSelftestLate (u : PhysUnit) (s : State) : Out :=
  let n := unitNo u
  if s.fld SAF_STATUS_STATE = safINIT || (s.test n).unusable || !s.unpassed n (2 * s.dtiNs) then .next s
  else .next (s.safeEnter cSELFTEST_LATE)

/-- HMK_TEST (R267): `unequal` and `equal` say whether the verdict on the known pair of that kind
was right. -/
def execHmkTest (unequal equal : Bool) (s : State) : Out :=
  if unequal && equal then .next s else .next (s.safeEnter cHMK_TEST)

end Sys2Proof.Machine
end

