-- ==== Sys2Proof/Machine/ProcOps.lean ====
section
/-! DEFINITION. Crashes of the firmware processors (R312–R317). -/

namespace Sys2Proof.Machine

/-- Index of a processor in the GLB registers (R318). -/
def procNo : Proc → Nat
  | .scp => 0
  | .sfp => 1
  | .hip => 2

/-- Instruction memory, and data memory, of processor `p` in bytes (R303). -/
def imemSize (p : Nat) : Nat := if p = 1 then 0x40000 else 0x80000

/-- CAUSE codes of GLB_PROC_STAT. -/
def crashCode : CrashCause → Nat
  | .wdog => 1
  | .ecc => 2
  | .fatal => 3
  | .lockstep => 4

/-- Watchdog timeouts in ns (R303). -/
def wdogNs : Proc → Nat
  | .scp => 200000
  | .sfp => 100000
  | .hip => 2000000

/-- The 48 bytes of GLB_FW_DIGEST of processor `p`. -/
def State.fwDigest (s : State) (p : Nat) : List Byte :=
  (List.range 12).flatMap fun i => leBytes 4 (s.rd (GLB_FW_DIGEST p i)).toNat

/-- The image in instruction memory has the digest of the booted one (R313). -/
def State.imageIntact (s : State) (p : Nat) : Bool := sha384 (kget [] s.mems.imem p) == s.fwDigest p

/-- What an outage of Indigo does at once (R314, R317). -/
def State.scpLost (s : State) (failed : Bool) : State :=
  let s := if s.model.heldByScp then s
    else { s with model := { s.model with heldByScp := s.model.fn == .running, heldCyc := s.model.cycle } }
  let s := { s with model := { s.model with resumeAt := false } }
  if failed then s.setModelFn .fault ST_PROC_RESTART else s

/-- A crash (R313, R316, R317): it is logged, data memory is cleared, the image verified, and a
restart begins; a third crash of the SCP or HIP within 1 s leaves FAILED. -/
def State.crash (s : State) (p : Proc) (c : CrashCause) : State :=
  let n := procNo p
  if s.procState n ≠ procRUN then s
  else
    let s := s.log ST_PROC_RESTART (mSCP + n) EV_PROC_CRASH (n * 256 + crashCode c)
    let s := if c = .ecc then s.log ST_PROC_RESTART (mSCP + n) EV_ECC 9 else s
    let s := s.setMem .dmem (s.mems.dmem.zero 4 (n * 0x80000) 0x80000)
    let recent := (s.now :: (s.proc n).crashes).filter fun t => sinceNs s.now t < 1000000000
    let failed := p ≠ .sfp && 3 ≤ recent.length
    let s := s.setProc n { s.proc n with
      crashes := recent, key := none, reload := !s.imageIntact n, crashRestart := true }
    let s := s.setF (GLB_PROC_STAT_CAUSE n) (crashCode c)
    let s := s.setF (GLB_PROC_STAT_STATE n) (if failed then procFAILED else procRESTART)
    match p with
    | .scp => s.scpLost failed
    | .sfp => (s.safeEnter (if c = .wdog || c = .fatal then cSFP_WD else cSFP_LOCKSTEP)).paths
    | .hip =>
      let s := s.setF MBX_FW_STAGE 4
      if failed then
        s.each (s.host.rings.map Prod.fst) fun s r =>
          if s.fld (RNG_CTL_STATE r) = rngACTIVE then s.setF (RNG_CTL_STATE r) rngFROZEN else s
      else s

/-- A watchdog key is written: it must alternate (R312). -/
def State.kick (s : State) (p : Proc) (v : Word) : State :=
  let n := procNo p
  let x := s.proc n
  if (v = 0x5A5A5A5A || v = 0xA5A5A5A5) && x.key ≠ some v then
    s.setProc n { x with key := some v, kickAt := s.now }
  else s.crash p .wdog

/-- The register of a processor's watchdog (R303). -/
def wdogReg : Proc → Nat
  | .scp => GLB_WDOG_SCP
  | .sfp => SAF_WDOG
  | .hip => GLB_WDOG_HIP

/-- A write to a watchdog register: from its own processor only. -/
def State.kickWrite (s : State) (src : Nat) (p : Proc) (v : Word) : State :=
  if src ≠ mSCP + procNo p then s.refuseWrite ST_NOT_PERMITTED src (wdogReg p)
  else (s.kick p v).answer ST_OK

/-- The watchdog has not been written within its timeout (R312, R268). -/
def State.wdogLate (s : State) (p : Proc) : Bool :=
  s.procState (procNo p) == procRUN && wdogNs p ≤ sinceNs s.now (s.proc (procNo p)).kickAt

/-- The slot that the running set came from (R318). -/
def State.bootedSlot (s : State) : Option FlashSlot :=
  if s.flag GLB_FW_SET_SLOT then s.sec.slotB else s.sec.slotA

/-- Instruction memory whose digest did not match takes the image from the booted slot again
(R313). -/
def State.reloadImage (s : State) (n : Nat) : State :=
  if !(s.proc n).reload then s
  else
    match s.bootedSlot.bind fun x => x.images[n]? with
    | some i => { s with mems := { s.mems with imem := kput n i.body s.mems.imem } }
    | none => s

/-- The core of processor `n` as its image starts: machine mode, at the entry point. -/
def coreReset (n : Nat) : CoreSt := { pc := Config.procEntry n }

/-- A processor runs its image again (R313): its watchdog starts anew. -/
def State.procStart (s : State) (n : Nat) : State :=
  let s := s.setProc n { s.proc n with key := none, kickAt := s.now, reload := false, core := coreReset n }
  (s.setF (GLB_PROC_STAT_STATE n) procRUN).incF (GLB_PROC_STAT_RESTARTS n) 1

end Sys2Proof.Machine
end

