-- ==== Sys2Proof/Machine/Safety.lean ====
section
/-! DEFINITION. The safe-state commands: paths, e-stop, acknowledgement, the SFP's watchdog and
restart (R231, R268–R276, R316). -/

namespace Sys2Proof.Machine

/-! ### Safe-torque-off paths (R231) -/

/-- STO_PATH_ASSERT (R231): the SFP asserts path A, the safe-state logic path B. -/
def execStoPathAssert (p : StoPath) (s : State) : Out := .next (s.hold (p = .a) (p = .b))

/-- STO_PATH_RELEASE (R231, R275, R276): only while nothing holds the path, in NORMAL with both
e-stop inputs high. -/
def execStoPathRelease (p : StoPath) (s : State) : Out :=
  if s.fld SAF_STATUS_STATE ≠ safNORMAL || !s.safety.estopA || !s.safety.estopB || s.safety.ss1From.isSome
      || s.procState 1 ≠ procRUN then .next s
  else
    let x := s.safety
    let x := match p with
      | .a => { x with safeHoldA := false, estopHoldA := false }
      | .b => { x with safeHoldB := false, estopHoldB := false }
    .next { s with safety := x }.paths

/-- SS1_TIMER_EXPIRED (R269, R275): SS1_TMAX_US after the request. -/
def execSs1TimerExpired (s : State) : Out :=
  match s.safety.ss1From with
  | none => .next s
  | some t => if sinceNs s.now t < s.safety.params.ss1TmaxUs * 1000 then .next s else .next s.ss1Assert

/-! ### The SFP's watchdog and lockstep (R268, R312, R316) -/

/-- SAF_WDOG (R268, R312). -/
def execSafWdog (src : Nat) (v : Word) (s : State) : Out := .next (s.kickWrite src .sfp v)

/-- SFP_WD (R268): SAF_WDOG not written for 100 µs. -/
def execSfpWd (s : State) : Out := .next (if s.wdogLate .sfp then s.crash .sfp .wdog else s)

/-- SFP_LOCKSTEP (R268): a compare error, or an uncorrected error in the SFP's memories. -/
def execSfpLockstep (ecc : Bool) (s : State) : Out :=
  .next (s.crash .sfp (if ecc then .ecc else .lockstep))

/-! ### The safety message and acknowledgement (R270–R273) -/

/-- SAFETY_MESSAGE (R270): MSG_PER_MS after the last one, by Madder. -/
def execSafetyMessage (s : State) : Out :=
  if s.procState 1 ≠ procRUN || sinceNs s.now s.safety.msgLast < s.safety.params.msgPerMs * 1000000 then .next s
  else .next s.sendSafety

/-- An acknowledgement: discarded while the cause persists; for causes 0x05 and 0x06 it starts a
restart of Madder, else the safe state is left (R271, R273). -/
def State.acknowledge (s : State) : State :=
  if s.fld SAF_STATUS_STATE ≠ safSAFE || !s.causeMet then s
  else if s.fld SAF_FIRST_CAUSE_CAUSE = cSFP_WD || s.fld SAF_FIRST_CAUSE_CAUSE = cSFP_LOCKSTEP
      || s.procState 1 = procRESTART then
    { s with safety := { s.safety with ackHeld := true } }.setF SAF_STATUS_STATE safRESTART
  else if s.procState 1 = procRUN then s.safeExit
  else { s with safety := { s.safety with ackHeld := true } }

/-- SAFE_ACK (R271): SAFE_ACK_N was low for `lowUs` µs and is released. -/
def execSafeAck (lowUs : Nat) (s : State) : Out :=
  if 10000 ≤ lowUs && lowUs ≤ 100000 then .next s.acknowledge else .next s

/-- The checks on an acknowledgement message (R272). -/
def State.ackOk (s : State) (d : List Byte) : Bool :=
  s.fld SAF_STATUS_STATE == safSAFE && d.length == 16
    && fieldN d 12 4 == crc32c (d.take 12) && fieldN d 2 1 == s.fld GLB_CHIP_ID_CHIP && fieldN d 3 1 == 0xA5
    && fieldN d 4 1 == s.fld SAF_FIRST_CAUSE_CAUSE && fieldN d 8 4 == (s.rd SAF_CAUSE_CYCLE).toNat
    && s.safety.ackSeq != some (BitVec.ofNat 16 (fieldN d 0 2))

/-- ACK_MESSAGE (R272): Madder takes the oldest acknowledgement message that has reached it, with this channel,
identifier and data; it is discarded and logged unless it matches. -/
def execAckMessage (ch id : Nat) (data : List Byte) (s : State) : Out :=
  match s.safety.ackIn with
  | [] => .next s
  | d :: ds =>
    if s.procState 1 ≠ procRUN || ch ≠ s.safety.params.msgCh || id ≠ s.safety.params.ackId || data ≠ d then .next s
    else
      let s := { s with safety := { s.safety with ackIn := ds } }
      if !s.safety.params.ackMsg || !s.ackOk d then .next (s.log ST_NOT_PERMITTED mSFP EV_REQUEST_REFUSED 0xFFFF)
      else
        let s := { s with safety := { s.safety with ackSeq := some (BitVec.ofNat 16 (fieldN d 0 2)) } }
        .next s.acknowledge

/-! ### Start checks and the e-stop (R274, R275) -/

/-- When the channels differ (R268, R274). -/
def State.discUpdate (s : State) : State :=
  let x := s.safety
  { s with safety := { x with discSince := if x.estopA ≠ x.estopB then some (x.discSince.getD s.now) else none } }

/-- Madder's start checks have passed: the path of each requesting e-stop channel is held, and the
discrepancy time and, at the first time since a reset, the self-test intervals count from here (R266, R274).
SEC_MIN_MSEQ is raised to the booted set's (R384). -/
def State.checksPass (s : State) : State :=
  let s := s.wrN SEC_MIN_MSEQ (max (s.rd SEC_MIN_MSEQ).toNat (s.fld GLB_FW_SET_MSEQ))
  let s := { s with
    reset_ := { s.reset_ with checksDone := true }
    safety := { s.safety with
      testBase := if s.reset_.checksDone then s.safety.testBase else s.now, discSince := none
      estopHoldA := !s.safety.estopA, estopHoldB := !s.safety.estopB } }
  s.discUpdate

/-- START_CHECKS_COMPLETE (R274): NORMAL follows when every check passes. -/
def execStartChecksComplete (ok : Bool) (s : State) : Out :=
  if s.fld SAF_STATUS_STATE ≠ safINIT || s.procState 1 ≠ procRUN || !ok then .next s
  else
    let s := s.checksPass
    let s := { s with safety := { s.safety with safeHoldA := false, safeHoldB := false, safeN := true } }
    .next (s.setF SAF_STATUS_STATE safNORMAL).paths.sendSafety

/-- MADDER_RESTART_COMPLETE (R273, R274, R313, R316): Madder runs, from the booted slot's image where its
copy was damaged, and has repeated its start checks. -/
def execMadderRestartComplete (ok : Bool) (s : State) : Out :=
  if s.fld SAF_STATUS_STATE ≠ safRESTART then .next s
  else if ok then
    .next ((((s.reloadImage 1).procStart 1).checksPass).safeExit.event fDEVICE evPROC_RESTART ST_PROC_RESTART 1)
  else .next (s.setF SAF_STATUS_STATE safSAFE)

/-- The e-stop reaction of a channel whose input is low (R275). -/
def State.estopReact (s : State) (p : StoPath) : State :=
  if s.safety.params.estopReact = 1 then s.ss1Start true
  else
    match p with
    | .a => { s with safety := { s.safety with estopHoldA := true } }.paths
    | .b => { s with safety := { s.safety with estopHoldB := true } }.paths

/-- Both inputs are high and Madder has confirmed it: the e-stop holds are lifted (R275). -/
def State.estopLift (s : State) : State :=
  if s.safety.estopA && s.safety.estopB && s.procState 1 = procRUN then
    { s with safety := { s.safety with estopHoldA := false, estopHoldB := false } }.paths
  else s

/-- ESTOP_INPUT_CHANGE (R275). -/
def execEstopInputChange (p : StoPath) (level : Bool) (s : State) : Out :=
  let s := match p with
    | .a => { s with safety := { s.safety with estopA := level } }.setF SAF_STATUS_ESTOP_A (if level then 0 else 1)
    | .b => { s with safety := { s.safety with estopB := level } }.setF SAF_STATUS_ESTOP_B (if level then 0 else 1)
  if s.fld SAF_STATUS_STATE = safINIT then .next s
  else
    let s := s.discUpdate
    .next (if level then s.estopLift else s.estopReact p)

/-- ESTOP_DISC (R268): the channels have differed for ESTOP_DISC_MS. -/
def execEstopDisc (s : State) : Out :=
  match s.safety.discSince with
  | none => .next s
  | some t =>
    if s.fld SAF_STATUS_STATE = safINIT || sinceNs s.now t < s.safety.params.estopDiscMs * 1000000 then .next s
    else .next (s.safeEnter cESTOP_DISC)

/-- STO_FB (R231, R268): the levels of the readback judged and of the other one, high while the path is released;
the safe state follows when the one judged has differed from its path for 1 ms. -/
def execStoFb (p : StoPath) (level other : Bool) (s : State) : Out :=
  let s := (match p with
    | .a => { s with safety := { s.safety with fbA := level, fbB := other } }
    | .b => { s with safety := { s.safety with fbB := level, fbA := other } }).fbUpdate
  let since := match p with
    | .a => s.safety.fbDiffA
    | .b => s.safety.fbDiffB
  match since with
  | none => .next s
  | some t =>
    if sinceNs s.now t < 1000000 || s.fld SAF_STATUS_STATE = safINIT then .next s else .next (s.safeEnter cSTO_FB)

end Sys2Proof.Machine
end

