-- ==== Sys2Proof/Machine/Time.lean ====
section
/-! DEFINITION. Time-base control, pulse outputs, captures and function TIME (R319–R326,
R339). -/

namespace Sys2Proof.Machine

/-! ### Time bases -/

/-- Servo writes are taken: TIME is not STOPPED (R339). -/
def State.servoOk (s : State) : Bool := s.time.fn ≠ .stopped

/-- A pulse output on TB7 is armed (R320). -/
def State.pulseOnTb7 (s : State) : Bool :=
  (List.range 8).any fun p =>
    s.time.fn = .running && s.flag (TIM_PO_CFG_ARM p) && s.fld (TIM_PO_CFG_TB p) == 7

/-- A step of base `n` is permitted (R320). -/
def State.stepOk (s : State) (n : Nat) : Bool :=
  if n = 0 then false
  else if n = 7 then
    s.model.fn = .stopped && axesAll.all (fun a => s.axState a ≠ axRUNNING) && !s.pulseOnTb7
  else s.servoOk

/-- Time base `n` takes a value. -/
def State.setTb (s : State) (n : Nat) (v : BitVec 96) : State :=
  { s with time := { s.time with tb := kput n v s.time.tb } }

/-- Base `n` steps by an offset in the format of R319 (R321). -/
def State.tbStep (s : State) (n : Nat) (hi lo : Word) : State :=
  let ofs : BitVec 64 := hi ++ lo
  let s := s.setTb n (s.tb n + (ofs.setWidth 96 <<< 32))
  let s := if n = 7 then s.rephase else s
  s.setF (TIM_TB_CFG_STEPS n) (s.fld (TIM_TB_CFG_STEPS n) + 1)

/-- A write to TIM_TB_STEP_HI (R321): from the HIP, and while a step is permitted (R320). -/
def State.stepWrite (s : State) (src n : Nat) (hi : Word) : State :=
  if src ≠ mHIP || !s.stepOk n then
    (s.setF (TIM_TB_CFG_STEP_REF n) 1).refuseWrite ST_NOT_PERMITTED src (TIM_TB_STEP_HI n)
  else (s.tbStep n hi (s.rd (TIM_TB_STEP_LO n))).answer ST_OK

/-- RATE saturated to ±500 ppm (R320). -/
def rateSat (v : Word) : Word := BitVec.ofInt 32 (max (-549755814) (min v.toInt 549755814))

/-- RATE[n] takes a value, copied to RATE[7] under FOLLOW (R322). -/
def State.setRate (s : State) (n : Nat) (v : Word) : State :=
  let s := s.wr (TIM_TB_RATE n) (rateSat v)
  if n ≠ 7 && s.fld (TIM_TB_CFG_FOLLOW 7) = n then s.wr (TIM_TB_RATE 7) (rateSat v) else s

/-- A write to TIM_TB_RATE (R320, R322, R339). -/
def State.rateWrite (s : State) (src n : Nat) (v : Word) : State :=
  if src ≠ mHIP || n = 0 || !s.servoOk || (n = 7 && s.fld (TIM_TB_CFG_FOLLOW 7) ≠ 0) then
    s.refuseWrite ST_NOT_PERMITTED src (TIM_TB_RATE n)
  else (s.setRate n v).answer ST_OK

/-- All eight bases are latched in one clock (R320). -/
def State.snapshot (s : State) : State :=
  s.each (List.range 8) fun s n =>
    let t := (s.tb64 n).toNat
    (s.wrN (TIM_SNAP_LO n) t).wrN (TIM_SNAP_HI n) (t / 2 ^ 32)

/-- A read of TIM_TB_LO latches TIM_TB_HI. -/
def State.tbRead (s : State) (n : Nat) : Word × State :=
  let t := (s.tb64 n).toNat
  (BitVec.ofNat 32 t, s.wrN (TIM_TB_HI n) (t / 2 ^ 32))

/-! ### Pulse outputs -/

def State.pulse (s : State) (p : Nat) : PulseSt := kget {} s.time.pulses p
def State.setPulse (s : State) (p : Nat) (x : PulseSt) : State :=
  { s with time := { s.time with pulses := kput p x s.time.pulses } }

/-- The 64-bit value of the pulse's base. -/
def State.pulseNow (s : State) (p : Nat) : Nat := (s.tb64 (s.fld (TIM_PO_CFG_TB p))).toNat

def State.pulseStart (s : State) (p : Nat) : Nat :=
  (s.rd64 (TIM_PO_START_LO p) (TIM_PO_START_HI p)).toNat

/-- PERIOD and WIDTH in the units of R319. -/
def State.pulsePeriod (s : State) (p : Nat) : Nat := (s.rd (TIM_PO_PERIOD p)).toNat * 65536
def State.pulseWidth (s : State) (p : Nat) : Nat := (s.rd (TIM_PO_WIDTH p)).toNat * 65536

/-- Instant `k` of a pulse output (R323). -/
def State.pulseAt (s : State) (p k : Nat) : Nat := (s.pulseStart p + k * s.pulsePeriod p) % 2 ^ 64

/-- The level of an inactive output. -/
def State.pulseIdle (s : State) (p : Nat) : Bool := s.flag (TIM_PO_CFG_POL p)

/-- Arm a pulse output: its first instant is instant 0; a once-only pulse armed in the past does
not fire and is missed (R324). -/
def State.armPulse (s : State) (p : Nat) : State :=
  let past := s.pulsePeriod p = 0 && 0 < diffC 64 (s.pulseNow p) (s.pulseStart p)
  let s := if past then s.inc (TIM_PO_MISSED p) else s
  s.setPulse p { k := if past then 1 else 0, active := false, endAt := 0, level := s.pulseIdle p }

/-- Disarm a pulse output: an active pulse ends at once (R324). -/
def State.disarmPulse (s : State) (p : Nat) : State :=
  (s.setF (TIM_PO_CFG_ARM p) 0).setPulse p { s.pulse p with active := false, level := s.pulseIdle p }

/-- A write to TIM_PO_CFG: its configuration while TIME is STOPPED or CONFIG, and ARM in every
state but takes effect while TIME is RUNNING (R324, R339). -/
def State.pulseCfgWrite (s : State) (src p : Nat) (v : Word) : State :=
  if src ≠ mHIP then s.refuseWrite ST_NOT_PERMITTED src (TIM_PO_CFG p)
  else if s.time.fn = .running then
    let was := s.flag (TIM_PO_CFG_ARM p)
    if !v.getLsbD 8 then (s.disarmPulse p).answer ST_OK
    else if was then s.answer ST_OK
    else ((s.setF (TIM_PO_CFG_ARM p) 1).armPulse p).answer ST_OK
  else if s.time.fn = .fault then s.refuseWrite ST_NOT_PERMITTED src (TIM_PO_CFG p)
  else (s.plainWrite (TIM_PO_CFG p) v).answer ST_OK

/-- A pulse output fires (R323, R324). -/
def State.pulseFire (s : State) (p : Nat) : State :=
  let x := s.pulse p
  let now := s.pulseNow p
  let per := s.pulsePeriod p
  let atK := s.pulseAt p x.k
  let late := per ≠ 0 && 0 < diffC 64 now (s.pulseAt p (x.k + 1))
  let k' := if late then x.k + (diffC 64 now atK).toNat / per + 1 else x.k + 1
  let s := if late then s.incN (TIM_PO_MISSED p) (k' - x.k - 1) else s
  s.setPulse p
    { k := k', active := true, level := !s.pulseIdle p
      endAt := ((if late then now else atK) + s.pulseWidth p) % 2 ^ 64 }

/-! ### Captures -/

def State.capture (s : State) (c : Nat) : CaptureSt := kget {} s.time.caps c
def State.setCapture (s : State) (c : Nat) (x : CaptureSt) : State :=
  { s with time := { s.time with caps := kput c x s.time.caps } }

/-- A time base in whole ns, in the format of R319. -/
def State.stampNs (s : State) (n : Nat) : BitVec 64 := BitVec.ofNat 64 (s.tbNs n * 65536)

/-- Fields of TIM_CAP_STAT. -/
abbrev capMERGED (c : Nat) : Fld := ⟨TIM_CAP_STAT c, 16, 8⟩
abbrev capOVF (c : Nat) : Fld := ⟨TIM_CAP_STAT c, 0, 16⟩
abbrev capGAP (c : Nat) : Fld := ⟨TIM_CAP_STAT c, 31, 1⟩

/-- The FIFO takes a value; LEVEL follows. -/
def State.setFifo (s : State) (c : Nat) (x : CaptureSt) : State :=
  (s.setCapture c x).setF (TIM_CAP_CFG_LEVEL c) x.fifo.length

/-- A read of TIM_CAP_LO (R326): the head record leaves the FIFO. An empty FIFO gives an open
value. -/
def State.capRead (s : State) (c : Nat) : Word × State :=
  let x := s.capture c
  match x.fifo with
  | [] => s.fresh
  | r :: rest =>
    let s := s.setFifo c { x with fifo := rest }
    let s := s.wrN (TIM_CAP_LO c) r.tb.toNat
    let s := s.wrN (TIM_CAP_HI c) (r.tb.toNat / 2 ^ 32)
    let s := (s.wrN (TIM_CAP_TB0_LO c) r.tb0.toNat).wrN (TIM_CAP_TB0_HI c) (r.tb0.toNat / 2 ^ 32)
    (BitVec.ofNat 32 r.tb.toNat, s.setF (capGAP c) (if r.gap then 1 else 0))

/-! ### Register writes and FN_CONFIG -/

/-- Offset of a register in the TIM block. -/
abbrev timBase : Nat := 0x50000

/-- The registers of TIM that FN_CONFIG names, with their fields in range (R286, R320–R325); a step of TB6
is among them (R320). -/
def timItemOk (o : Nat) (v : Word) : Bool :=
  let off := timBase + o
  (off == TIM_TB_CFG 7 && v.toNat ≤ 6)
    || ((List.range 8).any fun n => n ≠ 0 && off == TIM_TB_RATE n)
    || off == TIM_TB_STEP_LO 6 || off == TIM_TB_STEP_HI 6
    || ((List.range 8).any fun p =>
      off == TIM_PO_CFG p || off == TIM_PO_START_LO p || off == TIM_PO_START_HI p
        || (off == TIM_PO_PERIOD p && (v.toNat == 0 || 100 ≤ v.toNat))
        || (off == TIM_PO_WIDTH p && 8 ≤ v.toNat))
    || ((List.range 4).any fun c => off == TIM_CAP_CFG c && bitsN v.toNat 4 2 ≤ 2)

/-- TB7 follows the primary of a pair: FOLLOW reads 0 and takes no write (R343). -/
def State.pairFollows (s : State) : Bool :=
  s.pair.fn == .running && s.fld PLK_CFG_MODE ≠ 0 && s.fld GLB_CHIP_ID_CHIP ≠ 0

/-- An item of FN_CONFIG of TIME is applied. -/
def State.timApply (s : State) (o : Nat) (v : Word) : State :=
  let off := timBase + o
  match (List.range 8).find? fun n => off = TIM_TB_RATE n with
  | some n => if n = 7 && s.fld (TIM_TB_CFG_FOLLOW 7) ≠ 0 then s else s.setRate n v
  | none =>
    if off = TIM_TB_STEP_HI 6 then s.tbStep 6 v (s.rd (TIM_TB_STEP_LO 6))
    else if off = TIM_TB_CFG 7 && s.pairFollows then s
    else s.plainWrite off v

/-- Every pulse is shorter than its period (R323). -/
def State.timCheck (s : State) : Bool :=
  (List.range 8).all fun p =>
    let per := (s.rd (TIM_PO_PERIOD p)).toNat
    per == 0 || (s.rd (TIM_PO_WIDTH p)).toNat + 8 ≤ per

/-- TIME takes a state. -/
def State.setTimeFn (s : State) (x : FnState) : State :=
  let old := s.time.fn
  let s' := { s with time := { s.time with fn := x } }
  s'.fnEvent fTIME old.code x.code ST_OK

/-- A write to a register of the TIM block (R320, R321, R339). -/
def State.timWrite (s : State) (src off : Nat) (v : Word) : State :=
  match (List.range 8).find? fun n => off = TIM_TB_STEP_HI n || off = TIM_TB_RATE n || off = TIM_PO_CFG n with
  | some n =>
    if off = TIM_TB_STEP_HI n then s.stepWrite src n v
    else if off = TIM_TB_RATE n then s.rateWrite src n v
    else s.pulseCfgWrite src n v
  | none =>
    if off = TIM_SNAP then (if v.getLsbD 0 then s.snapshot else s).answer ST_OK
    else if src ≠ mHIP || (off = TIM_TB_CFG 7 && s.pairFollows && v.toNat % 8 ≠ 0) then
      s.refuseWrite ST_NOT_PERMITTED src off
    else if (List.range 8).any fun n => off = TIM_TB_STEP_LO n then (s.plainWrite off v).answer ST_OK
    else if s.time.fn = .stopped || s.time.fn = .config then (s.plainWrite off v).answer ST_OK
    else if (List.range 8).any fun n => off = TIM_TB_CFG n then
      (s.plainWrite off (v &&& 8 ||| (s.rd off &&& 7))).answer ST_OK
    else s.refuseWrite ST_NOT_PERMITTED src off

/-- A read in the TIM block. -/
def State.timRead (s : State) (off : Nat) : Word × State :=
  match (List.range 8).find? fun n => off = TIM_TB_LO n with
  | some n => s.tbRead n
  | none =>
    match (List.range 4).find? fun c => off = TIM_CAP_LO c with
    | some c => s.capRead c
    | none => s.plainRead off

/-! ### The commands -/

/-- TB_STEP (R321). -/
def execTbStep (src : Nat) (n : Fin 8) (hi : Word) (s : State) : Out := .next (s.stepWrite src n.val hi)

/-- TB_RATE_WRITE (R320, R322). -/
def execTbRateWrite (src : Nat) (n : Fin 8) (v : Word) (s : State) : Out := .next (s.rateWrite src n.val v)

/-- TIM_SNAP (R320). -/
def execTimSnap (_src : Nat) (s : State) : Out := .next (s.snapshot.answer ST_OK)

/-- PULSE_ARM (R324). -/
def execPulseArm (src : Nat) (p : Fin 8) (v : Word) (s : State) : Out := .next (s.pulseCfgWrite src p.val v)

/-- PULSE_INSTANT (R323, R324): the chosen base is at or later than instant k. -/
def execPulseInstant (p : Fin 8) (s : State) : Out :=
  let p := p.val
  let x := s.pulse p
  let due := s.time.fn = .running && s.flag (TIM_PO_CFG_ARM p)
    && (s.pulsePeriod p ≠ 0 || x.k = 0) && reached 64 (s.pulseNow p) (s.pulseAt p x.k)
  .next (if due then s.pulseFire p else s)

/-- PULSE_END (R323). -/
def execPulseEnd (p : Fin 8) (s : State) : Out :=
  let p := p.val
  let x := s.pulse p
  if x.active && reached 64 (s.pulseNow p) x.endAt then
    .next (s.setPulse p { x with active := false, level := s.pulseIdle p })
  else .next s

/-- CAPTURE_EDGE (R325, R326). -/
def execCaptureEdge (c : Fin 4) (rising : Bool) (s : State) : Out :=
  let c := c.val
  let e := s.fld (TIM_CAP_CFG_EDGE c)
  if s.time.fn ≠ .running || !s.flag (TIM_CAP_CFG_ENABLE c)
      || !((e == 0 && rising) || (e == 1 && !rising) || e == 2) then .next s
  else
    let x := s.capture c
    let close := match x.last with | none => false | some t => sinceNs s.now t < 20
    if close then .next (s.incF (capMERGED c) 1)
    else
      let r : CapRec := ⟨s.stampNs (s.fld (TIM_CAP_CFG_TB c)), s.stampNs 0, x.gap⟩
      if 16 ≤ x.fifo.length then
        .next ((s.setCapture c { x with gap := true, last := some s.now }).incF (capOVF c) 1)
      else .next (s.setFifo c { fifo := x.fifo ++ [r], gap := false, last := some s.now })

/-- CAPTURE_POP (R326): a read of TIM_CAP_LO. -/
def execCapturePop (_src : Nat) (c : Fin 4) (s : State) : Out :=
  let (v, s) := s.capRead c.val
  .next (s.answer ST_OK (leBytes 4 v.toNat))

/-- FN_CONFIG_TIME (R286, R339). -/
def execFnConfigTime (via : Via) (s : State) : Out :=
  .next (s.fnConfig via fTIME (s.time.fn = .stopped || s.time.fn = .config) timItemOk State.timApply
    State.timCheck fun s => s.setTimeFn .config)

/-- TIME enters RUNNING: the configured pulses and captures are armed (R339). -/
def State.timeBegin (s : State) : State :=
  (s.each (List.range 8) fun s p => if s.flag (TIM_PO_CFG_ARM p) then s.armPulse p else s).setTimeFn .running

/-- FN_START_TIME (R339). -/
def execFnStartTime (via : Via) (s : State) : Out :=
  .next (s.fnPlain via opFN_START fTIME (s.time.fn = .config) fun c => s.timeBegin.complete c ST_OK)

/-- FN_STOP_TIME (R339): pulses are disarmed and captures off; the time bases go on. -/
def execFnStopTime (via : Via) (s : State) : Out :=
  .next (s.fnPlain via opFN_STOP fTIME (s.time.fn = .running || s.time.fn = .fault) fun c =>
    let s := s.each (List.range 8) State.disarmPulse
    let s := s.each (List.range 4) fun s c => s.setF (TIM_CAP_CFG_ENABLE c) 0
    (s.setTimeFn .stopped).complete c ST_OK)

end Sys2Proof.Machine
end

