-- ==== Sys2Proof/Machine/Pair.lean ====
section
/-! DEFINITION. The pair link (R340–R348). -/

namespace Sys2Proof.Machine

/-! ### PLK_STAT (R341, R348) -/

/-- PAIR takes a state. -/
def State.setPairFn (s : State) (x : FnState) (st : St) : State :=
  let old := s.pair.fn
  let s := { s with pair := { s.pair with fn := x } }.setF plkSTATE x.code
  s.fnEvent fPAIR old.code x.code st

/-- The resident package spans chips that are linked. -/
def State.pairPkg (s : State) : Bool := s.plkMode ≠ 0 && (s.model.pkg.map Package.pair).getD false

/-! ### Loss of the link or of a heartbeat (R342, R346) -/

/-- Every chip of a safety package enters the safe state with cause PAIR; another package stops,
its axes first (R346). -/
def State.pairLost (s : State) : State :=
  let s := s.log ST_OK mSFP EV_PAIR 2
  match s.model.pkg with
  | none => s
  | some p =>
    if !p.pair then s
    else if p.safety then s.safeEnter cPAIR
    else
      let s := s.each s.pkgAxes fun s a => if s.axState a = axRUNNING then s.axStop a false none else s
      if s.model.fn = .running then (if s.model.stopping then s else s.modelStop none) else s

/-- Traffic to chip `c` leaves by port `k`: in a pair by the port in use, in a chain by the side on
which the chip lies (R341). -/
def State.routedBy (s : State) (k c : Nat) : Bool :=
  if s.plkMode = 2 then (if k = 0 then c < s.ownChip else s.ownChip < c) else s.fld plkInUse == k

/-- Remote loads in flight on port `k` fail at their source (R114, R342). -/
def State.failLoads (s : State) (k : Nat) : State :=
  s.each (s.beads.map Prod.fst) fun s n =>
    match (s.bead n).stall with
    | none => s
    | some r =>
      match s.target n r.addr with
      | .remote c => if s.routedBy k c then (s.setBead n { s.bead n with stall := none }).beadFault n 0x19 else s
      | _ => s

/-- A port goes down: traffic moves to the other port, or the link is lost (R340, R342). -/
def State.portDown (s : State) (k : Nat) : State :=
  if !s.flag (plkUp k) then s
  else
    let used := s.plkMode = 2 || s.fld plkInUse = k
    let s := (s.setF (plkUp k) 0)
    let s := { s with pair := { s.pair with replays := kput k 0 s.pair.replays } }
    let s := if used then s.failLoads k else s
    if !s.linked then s.pairLost
    else if used && s.plkMode = 1 then
      (s.setF plkInUse (1 - k)).log ST_OK (mPLK k) EV_PAIR 1
    else s

/-- LANE_LOCK_LOSS (R340). -/
def execLaneLockLoss (k : Fin 2) (s : State) : Out := .next (s.portDown k.val)

/-- PLK_FLIT (R340): a flit that fails its CRC is replayed; after 16 failed replays in a row the
port is down. -/
def execPlkFlit (k : Fin 2) (crcOk : Bool) (s : State) : Out :=
  let k := k.val
  if !s.flag (plkUp k) then .next s
  else if crcOk then .next { s with pair := { s.pair with replays := kput k 0 s.pair.replays } }
  else
    let n := kget 0 s.pair.replays k + 1
    let s := { s.inc (PLK_REPLAY k) with pair := { s.pair with replays := kput k n s.pair.replays } }
    .next (if 17 ≤ n then s.portDown k else s)

/-! ### Function PAIR (R286, R341, R343) -/

/-- The item of FN_CONFIG: PLK_CFG with its fields in range. -/
def pairItemOk (off : Nat) (v : Word) : Bool :=
  off = 0 && v.toNat < 512 && bitsN v.toNat 2 2 = 0 && v.toNat % 4 ≤ 2
    && (v.toNat % 4 ≠ 2 || (2 ≤ bitsN v.toNat 4 4))

/-- FN_CONFIG_PAIR (R286, R341). -/
def execFnConfigPair (via : Via) (s : State) : Out :=
  .next (s.fnConfig via fPAIR (s.pair.fn = .stopped || s.pair.fn = .config) pairItemOk
    (fun s _ v => s.wr PLK_CFG v) (fun _ => true) fun s => s.setPairFn .config ST_OK)

/-- PAIR enters RUNNING: the primary is shown, and on any other chip TB7 and the cycle number take
the primary's values, which are open here: TB7 by a step (R321). FOLLOW reads 0, and the link adjusts
RATE[7] (R343). -/
def State.pairRun (s : State) : State :=
  let s := s.setF plkPrimary (if s.plkMode ≠ 0 && s.ownChip = 0 then 1 else 0)
  let s := { s with pair := { s.pair with hbFrom := [], hbSent := none } }
  if s.plkMode = 0 || s.ownChip = 0 then s.setPairFn .running ST_OK
  else
    let (a, s) := s.fresh
    let (b, s) := s.fresh
    let (c, s) := s.fresh
    let (r, s) := s.fresh
    let s := (s.tbStep 7 b a).wr (TIM_TB_RATE 7) (rateSat r)
    let s := { s with model := { s.model with cycle := c } }
    (s.setF (TIM_TB_CFG_FOLLOW 7) 0).setPairFn .running ST_OK

/-- The conditions on FN_START on every chip (R343). -/
def State.pairStartOk (s : State) (peers : List PeerReport) : Bool :=
  let own := s.model.fn = .stopped && (s.ownChip = 0 ||
    (axesAll.all (fun a => s.axState a ≠ axRUNNING) && !((List.range 8).any fun p =>
      s.time.fn = .running && s.flag (TIM_PO_CFG_ARM p) && s.fld (TIM_PO_CFG_TB p) = 7)))
  own && peers.all fun r => r.modelStopped && (r.id = 0 || (!r.axisRunning && !r.pulseOnTb7))

/-- Every other chip reports its id and the own MODE (R343). -/
def State.peersMatch (s : State) (peers : List PeerReport) : Bool :=
  let want := (List.range s.plkChips).filter (· ≠ s.ownChip)
  want.all (fun c => peers.any fun r => r.id.toNat = c) && peers.all fun r =>
    want.contains r.id.toNat && r.mode.toNat = s.plkMode

/-- FN_START_PAIR (R343): it completes when the links are trained. A report that does not match
fails it with a status the spec does not state. -/
def execFnStartPair (via : Via) (peers : List PeerReport) (s : State) : Out :=
  .next (s.fnPlain via opFN_START fPAIR
    (s.pair.fn == .config && s.pair.startVia.isNone && (s.plkMode = 0 || s.pairStartOk peers)) fun c =>
      if s.plkMode = 0 then s.pairRun.complete c ST_OK
      else if !s.peersMatch peers then let (st, s) := s.freshFail; s.complete c st
      else { s with pair := { s.pair with startVia := some via } })

/-- PAIR_LINK_TRAINED (R340): the ports that have trained are up; with every route in place
FN_START completes. -/
def execPairLinkTrained (ports : BitVec 2) (s : State) : Out :=
  match s.pair.startVia with
  | none => .next s
  | some v =>
    let s := s.each [0, 1] fun s k => if ports.getLsbD k && s.wired k then s.setF (plkUp k) 1 else s
    if !s.linked then .next s
    else
      let s := s.setF plkInUse (if s.plkMode = 1 && !s.flag (plkUp 0) then 1 else 0)
      let s := { s with pair := { s.pair with startVia := none } }.pairRun
      .next (s.completeVia v ST_OK)

/-- FN_STOP_PAIR (R343): refused while a pair package is resident; the ports go down. -/
def execFnStopPair (via : Via) (s : State) : Out :=
  .next (s.fnPlain via opFN_STOP fPAIR
    ((s.pair.fn == .running || s.pair.fn == .fault) && !(s.model.pkg.map Package.pair).getD false) fun c =>
      let s := ((s.setF (plkUp 0) 0).setF (plkUp 1) 0).setF plkInUse 0
      (s.setPairFn .stopped ST_OK).complete c ST_OK)

/-! ### Heartbeats (R345, R346) -/

/-- Every time-triggered task of cycle `c` whose window's DEADLINE is at most MAJOR has completed
(R345). -/
def State.cycleDone (s : State) (p : Package) (c : Word) : Bool :=
  (List.range p.windows.length).all fun w =>
    match p.window w with
    | none => true
    | some x =>
      x.share || p.majorNs < x.deadline || !x.sel c || diffC 32 c.toNat s.model.firstCycle.toNat < 0 ||
        (match s.inst? w c with
          | some i => i.complete p
          | none => match kget none s.model.opened w with
            | some o => reached 32 o.toNat c.toNat
            | none => false)

/-- The cycle whose heartbeat is sent next: that after the last one sent, from the first cycle of MODEL
(R345). -/
def State.hbNext (s : State) : Word :=
  match s.pair.hbSent with
  | none => s.model.firstCycle
  | some h => if reached 32 h.toNat s.model.firstCycle.toNat then h + 1 else s.model.firstCycle

/-- CYCLE_HEARTBEAT_SEND (R345). -/
def execCycleHeartbeatSend (s : State) : Out :=
  match s.model.pkg with
  | none => .next s
  | some p =>
    let c := s.hbNext
    if !s.pairPkg || s.pair.fn ≠ .running || s.model.fn ≠ .running || !s.scpUp
        || !reached 32 s.model.cycle.toNat c.toNat || !s.cycleDone p (c - 1) then .next s
    else .next { s with pair := { s.pair with hbSent := some c, sent := s.pair.sent ++ [leBytes 4 c.toNat] } }

/-- TB7 ns since the boundary of a cycle at or before the present one. -/
def State.sinceBoundary (s : State) (c : Word) : Nat :=
  sinceNs (s.tbNs 7) s.model.cycleStart + (s.model.cycle - c).toNat * s.major

/-- CYCLE_HEARTBEAT_RECEIVED (R345, R346): the last one of a cycle gives the lag. -/
def execCycleHeartbeatReceived (chip : Fin 16) (cyc : Word) (s : State) : Out :=
  match s.model.pkg with
  | none => .next s
  | some p =>
    if !s.pairPkg || s.pair.fn ≠ .running || chip.val = s.ownChip || s.pair.hbFrom.contains (chip.val, cyc) then
      .next s
    else
      let keep := s.pair.hbFrom.filter fun h => diffC 32 cyc.toNat h.2.toNat < 64
      let s := { s with pair := { s.pair with hbFrom := keep ++ [(chip.val, cyc)] } }
      if !s.hbHeld p cyc then .next s
      else
        let lag := if reached 32 s.model.cycle.toNat cyc.toNat then s.sinceBoundary cyc else 0
        let s := (s.wrN PLK_LAG lag).wrN PLK_LAG_MAX (max lag (s.rd PLK_LAG_MAX).toNat)
        if lag ≤ s.safety.params.skewUs * 1000 then .next s
        else .next (((s.inc PLK_LAG_CNT).log ST_OK mSFP EV_PAIR 0).sfpEvent mSFP 6 ST_OK)

/-- The heartbeats of some cycle are not all held at MAJOR + SKEW_US after its boundary; SKEW_US may span
many cycles (R346). -/
def State.hbLate (s : State) (p : Package) : Bool :=
  (List.range 32).any fun j =>
    let c := s.model.cycle - 1 - BitVec.ofNat 32 j
    reached 32 c.toNat s.model.firstCycle.toNat && !s.hbHeld p c
      && s.major + s.safety.params.skewUs * 1000 ≤ s.sinceBoundary c

/-- PAIR_HEARTBEAT_TIMEOUT (R346): a heartbeat is late, or the link is lost. -/
def execPairHeartbeatTimeout (s : State) : Out :=
  match s.model.pkg with
  | none => .next s
  | some p =>
    if !s.pairPkg || s.model.fn ≠ .running || s.model.stopping || (!s.hbLate p && s.linked) then .next s
    else .next s.pairLost

/-! ### Cross-check and the partner (R347, R348) -/

/-- CROSS_CHECK_RECORD (R348). -/
def execCrossCheckRecord (net : Fin 64) (cyc : Word) (sig : BitVec 64) (s : State) : Out :=
  match s.netOf net.val with
  | none => .next s
  | some n =>
    if !s.pairChecked || s.pair.fn ≠ .running then .next s
    else
      let keep := s.safety.cross.filter fun c => !(c.1 = net.val && (c.2.1 = cyc || 64 ≤ diffC 32 cyc.toNat c.2.1.toNat))
      .next ({ s with safety := { s.safety with cross := keep ++ [(net.val, cyc, sig)] } }.crossCompare n cyc)

/-- PARTNER_SAFE_STATE (R348). -/
def execPartnerSafeState (s : State) : Out :=
  if s.plkMode = 0 || s.pair.fn ≠ .running then .next s else .next (s.safeEnter cPAIR)

/-- PAIR_EQUALISATION (R347): `d` names the logical Facet or the region, as the phase table
does; without a point the ceiling is released. -/
def execPairEqualisation (d : Fin 50) (op : Option (Fin 8)) (s : State) : Out :=
  if s.plkMode = 0 || s.pair.fn ≠ .running || !s.flag PLK_CFG_EQUALISE || (32 ≤ d.val && d.val < 34) then .next s
  else
    let dom := if d.val < 32 then domFacet (s.physFacet d.val) else d.val
    .next ((s.setF (PWR_DOM_STAT_PAIR_CEIL dom) ((op.map Fin.val).getD 7)).powerUpdate)

end Sys2Proof.Machine
end

