-- ==== Sys2Proof/Machine/Power.lean ====
section
/-! DEFINITION. Power, temperature and supply: intervals, caps, limits, domains (R349–R364). -/

namespace Sys2Proof.Machine

def facDoms : List Nat := List.range 34
def beadDoms : List Nat := (List.range 16).map (34 + ·)

/-! ### Limit events (R361) -/

/-- Bits of PWR_LIMIT_STAT. -/
abbrev limTELEM : Nat := 9
abbrev limSUPPLY : Nat := 8
abbrev limUNMET : Nat := 7
abbrev limSHORT : Nat := 6
abbrev limLONG : Nat := 5
abbrev limCURRENT : Nat := 4
abbrev limTEMP : Nat := 3
abbrev limDROOP : Nat := 2

/-- A hardware limit has acted: its bit, the log, and the event that the HIP writes (R361). -/
def State.limitEvent (s : State) (bit : Nat) : State :=
  ((s.setF ⟨PWR_LIMIT_STAT, bit, 1⟩ 1).log ST_HW_LIMIT mLogic EV_HW_LIMIT bit).event fPOWER evHW_LIMIT
    ST_HW_LIMIT bit

/-- The contributions of domains change. -/
def State.eachDom (s : State) (ds : List Nat) (f : DomSt → DomSt) : State :=
  s.each ds fun s d => s.setDom d (f (s.dom d))

def State.setPower (s : State) (p : PowerSt) : State := { s with power := p }

/-! ### Readings (R355) -/

/-- A rail's reading enters its registers. -/
def State.setRail (s : State) (r : Nat) (v : Nat × Nat) : State :=
  (s.wrN (PWR_RAIL_MV r) v.1).wrN (PWR_RAIL_MA r) v.2

/-- An AVSBus reading of rail `r`, or its absence. -/
def State.avsRail (s : State) (r : Nat) (v : Option (Nat × Nat)) : State :=
  match v with
  | some v => (s.setRail r v).setPower { s.power with missing := kput r 0 s.power.missing }
  | none => s.setPower { s.power with missing := kput r (kget 0 s.power.missing r + 1) s.power.missing }

/-- Chip power in µW: voltage times current over the nine rails (R355). -/
def State.chipUw (s : State) : Nat :=
  ((List.range 9).map fun r => (s.rd (PWR_RAIL_MV r)).toNat * (s.rd (PWR_RAIL_MA r)).toNat).sum

/-- Mean of the last `n` intervals in mW. -/
def State.meanMw (s : State) (n : Nat) : Nat := (s.power.hist.take n).sum / n

/-! ### The software cap (R356) -/

/-- Domains in the order in which SW_CEIL is lowered: share work, then time-triggered work, then
idle domains, the highest number first. -/
def State.capOrder (s : State) : List Nat :=
  let cls (c : Nat) : List Nat := (opDomains.filter fun d => (s.dom d).work = c).reverse
  cls 1 ++ cls 2 ++ cls 0

/-- SW_CEIL of a domain moves to a point: at once on an idle engine, else at the next task
boundary (R186, R356). -/
def State.capTo (s : State) (d v : Nat) : State :=
  let s := s.setDom d { s.dom d with swNext := v }
  if (s.dom d).work = 0 then s.setF (PWR_DOM_STAT_SW_CEIL d) v else s

/-- One interval of the cap. -/
def State.capStep (s : State) : State :=
  let cap := s.fld PWR_CFG_CAP * 1000
  let mean := s.meanMw 20
  if cap < mean then
    let s := s.setPower { s.power with under := 0 }
    match s.capOrder.find? fun d => (s.dom d).swNext ≠ 0 with
    | some d => s.capTo d ((s.dom d).swNext - 1)
    | none =>
      if s.flag PWR_LIMIT_STAT_CAP_UNMET then s
      else (s.setF PWR_LIMIT_STAT_CAP_UNMET 1).event fPOWER evHW_LIMIT ST_HW_LIMIT limUNMET
  else if mean + 5000 ≤ cap then
    let s := s.setPower { s.power with under := min 20 (s.power.under + 1) }
    if s.power.under < 20 then s
    else
      match s.capOrder.reverse.find? fun d => (s.dom d).swNext < 7 with
      | some d => s.capTo d ((s.dom d).swNext + 1)
      | none => s
  else s.setPower { s.power with under := 0 }

/-! ### Hardware limits per interval (R361) -/

/-- The 180 W limit: two points off every Facet; released one point per interval after 20
intervals at or below 150 W. -/
def State.shortStep (s : State) (mw : Nat) : State :=
  let s := s.setPower { s.power with okShort := if mw ≤ 150000 then s.power.okShort + 1 else 0 }
  if 180000 < mw then (s.eachDom facDoms fun x => { x with short := x.short - 2 }).limitEvent limSHORT
  else if 20 < s.power.okShort then s.eachDom facDoms fun x => { x with short := min 7 (x.short + 1) }
  else s

/-- The 10 ms limit: one point off every domain per interval; released one point per 1 ms. -/
def State.longStep (s : State) : State :=
  let mean := s.meanMw 200
  if 150000 < mean then
    let s := s.setPower { s.power with longAt := s.now }
    (s.eachDom opDomains fun x => { x with long := x.long - 1 }).limitEvent limLONG
  else if mean ≤ 145000 then
    if 1000000 ≤ sinceNs s.now s.power.longAt then
      (s.setPower { s.power with longAt := s.now }).eachDom opDomains fun x => { x with long := min 7 (x.long + 1) }
    else s
  else s.setPower { s.power with longAt := s.now }

/-- Current limits in mA of VDD_FAC, VDD_BEAD and VDD_SOC, and the domains of each with operating
points. -/
def railLimits : List (Nat × Nat × List Nat) := [(0, 140000, facDoms), (1, 45000, beadDoms), (2, 40000, [])]

/-- The rail current limits. -/
def State.currentStep (s : State) : State :=
  s.each railLimits fun s x =>
    let (r, lim, ds) := x
    if lim < (s.rd (PWR_RAIL_MA r)).toNat then
      let s := s.setPower { s.power with okCurrent := kput r 0 s.power.okCurrent }
      (s.eachDom ds fun x => { x with current := x.current - 1 }).limitEvent limCURRENT
    else
      let n := kget 0 s.power.okCurrent r + 1
      let s := s.setPower { s.power with okCurrent := kput r n s.power.okCurrent }
      if 20 < n then s.eachDom ds fun x => { x with current := min 7 (x.current + 1) } else s

/-- Lost telemetry: three readings of a rail missing in a row; released after 20 good ones. -/
def State.telemStep (s : State) (allGood : Bool) : State :=
  let s := s.setPower { s.power with good := if allGood then s.power.good + 1 else 0 }
  if [0, 1, 2].any fun r => 3 ≤ kget 0 s.power.missing r then
    let on := opDomains.all fun d => (s.dom d).telem = 1
    let s := s.eachDom opDomains fun x => { x with telem := 1 }
    if on then s else s.limitEvent limTELEM
  else if 20 ≤ s.power.good then s.eachDom opDomains fun x => { x with telem := 7 }
  else s

/-! ### Energy (R358) -/

/-- The nearest integer to `a / b`. -/
def roundDiv (a b : Nat) : Nat := (2 * a + b) / (2 * b)

/-- The measured energy of the interval is charged to the tasks active in it, the rest to POOL. -/
def State.energyStep (s : State) (nj : Nat) : State :=
  let acts := s.power.acts
  let den := 2000000000 * modelUnit + (acts.map (·.2)).sum
  let (paid, s) := acts.foldl (fun (paid, s) (a : Nat × Nat) =>
    match s.model.pkg.bind fun p => (p.task a.1).map fun t => (p, t) with
    | none => (paid, s)
    | some (p, t) =>
      let e := roundDiv (nj * a.2) den
      let s := if p.isTT t.window then
          s.setWinAcc t.window { s.winAcc t.window with energy := (s.winAcc t.window).energy + e }
        else s.setGroup t.group { s.group t.group with energy := (s.group t.group).energy + e }
      (paid + e, s)) (0, s)
  s.setPower { s.power with acts := [], pool := s.power.pool + nj - paid, energyNj := s.power.energyNj + nj }

/-- POWER_INTERVAL (R355–R358, R361): one interval of 50 µs. -/
def execPowerInterval (avs : AvsReadings) (s : State) : Out :=
  let s := ((s.avsRail 0 avs.fac).avsRail 1 avs.bead).avsRail 2 avs.soc
  let uw := s.chipUw
  let mw := uw / 1000
  let s := s.setPower { s.power with hist := (mw :: s.power.hist).take 200 }
  let s := ((s.wrN PWR_CHIP_MW mw).wrN PWR_MEAN_1MS (s.meanMw 20)).wrN PWR_MEAN_10MS (s.meanMw 200)
  let s := (((s.capStep.shortStep mw).longStep).currentStep).telemStep
    (avs.fac.isSome && avs.bead.isSome && avs.soc.isSome)
  .next ((s.energyStep (uw * 50 / 1000)).powerUpdate)

/-- PMBUS_POLL (R355): the readings of rails 3–8, in order. -/
def execPmbusPoll (rails : List (Nat × Nat)) (s : State) : Out :=
  .next (s.each (List.range (min 6 rails.length)) fun s i => s.setRail (3 + i) (rails.getD i (0, 0)))

/-! ### Temperature (R360, R361) -/

/-- The domains that a sensor protects. -/
def sensorDoms (n : Nat) : List Nat := if n < 50 then [n] else opDomains

/-- The temperature contributions follow the clamped sensors. -/
def State.tempApply (s : State) : State :=
  s.each opDomains fun s d =>
    let hot := s.power.sensors.any fun x => x.2 && (sensorDoms x.1).contains d
    s.setDom d { s.dom d with temp := if hot then 1 else 7 }

/-- TEMP_SAMPLE (R360, R361): a sensor reads `temp` °C. A temperature beyond 8 bits signed leaves
MON_TEMP open. -/
def execTempSample (sensor : Fin 56) (temp : Int) (s : State) : Out :=
  let n := sensor.val
  let fits := -128 ≤ temp && temp ≤ 127
  let (w, s) := if fits then ((wrapN 8 temp), s) else (s.fresh.1.toNat % 256, s.fresh.2)
  let s := s.wrN (MON_TEMP n) w
  let s := if signedN 8 ((s.rd MON_TEMP_MAX).toNat % 256) < temp then s.wrN MON_TEMP_MAX (n * 256 + w) else s
  let clamp := if Config.gradeXT then 130 else 115
  let shut := if Config.gradeXT then 140 else 125
  let on := kget false s.power.sensors n
  let s :=
    if clamp ≤ temp then
      let s := s.setPower { s.power with sensors := kput n true s.power.sensors, cool := kdel n s.power.cool }
      if on then s else s.tempApply.limitEvent limTEMP
    else if !on then s
    else if clamp - 5 ≤ temp then s.setPower { s.power with cool := kdel n s.power.cool }
    else
      let t := (s.power.cool.lookup n).getD s.now
      if 1000000 ≤ sinceNs s.now t then
        (s.setPower { s.power with sensors := kdel n s.power.sensors, cool := kdel n s.power.cool }).tempApply
      else s.setPower { s.power with cool := kput n t s.power.cool }
  let s :=
    if shut ≤ temp && s.power.shutdown.isNone then
      (s.setPower { s.power with shutdown := some s.now }).limitEvent limSUPPLY |>.safeEnter cSUPPLY
    else s
  .next s.powerUpdate

/-- SUPPLY_FAULT (R361): a rail was outside its window for 1 µs. -/
def execSupplyFault (_rail : Fin 9) (s : State) : Out := .next ((s.limitEvent limSUPPLY).safeEnter cSUPPLY)

/-- DROOP (R361): the domain's clock is halved. -/
def execDroop (d : Fin 50) (s : State) : Out :=
  let s := (s.setDom d.val { s.dom d.val with halved := true }).inc (MON_DROOP_CNT d.val)
  .next (s.limitEvent limDROOP)

/-- DROOP_STRETCH_END (R361). -/
def execDroopStretchEnd (d : Fin 50) (s : State) : Out :=
  .next (s.setDom d.val { s.dom d.val with halved := false })

/-- VOLTAGE_CONFIRMED (R353). -/
def execVoltageConfirmed (d : Fin 50) (s : State) : Out :=
  let d := d.val
  if (s.dom d).raising then
    .next ((s.setF (PWR_DOM_STAT_GRANTED d) (s.grantOf d)).setDom d { s.dom d with raising := false })
  else .next s

/-! ### Switching domains (R87, R143, R354) -/

/-- The logical Facets that a physical one serves. -/
def State.facetsOn (s : State) (p : Nat) : List Nat := (List.range 32).filter fun f => s.physFacet f = p

/-- A node loses its power: the core's state is gone. -/
def State.beadPowerOff (s : State) (n : Nat) : State :=
  ((s.setBead n {}).setF (BEAD_STATUS_YPEND n) 0).setBeadState n bdOFF

/-- The counters and W1C flags of a logical Facet return to their reset values with its domain
(R373). -/
def State.facStatsOff (s : State) (f : Nat) : State :=
  let gone := [FAC_FLAGS f, FAC_ACTIVE_CLK_LO f, FAC_ACTIVE_CLK_HI f, FAC_DELTA_CNT f, FAC_ATTN_CNT f]
  ({ s with csr := s.csr.filter fun e => !gone.contains e.1 }).setFacet f { s.facet f with activeClk := 0 }

/-- The counters and W1C flags of a logical node do so. -/
def State.beadStatsOff (s : State) (n : Nat) : State :=
  let gone := [BEAD_FLAGS n, BEAD_ACTIVE_CLK_LO n, BEAD_ACTIVE_CLK_HI n, BEAD_ECC n]
  { s with csr := s.csr.filter fun e => !gone.contains e.1 }

/-- A switched domain goes off and its contents are lost (R349, R354, R87, R143, R373). -/
def State.domOff (s : State) (d : Nat) : State :=
  let s := if d < 50 then (s.setF (PWR_DOM_STAT_PSTATE d) 0).railsSet
    else { s with power := { s.power with other := kput d true s.power.other } }
  if d < 34 then
    let s := s.each (s.facetsOn d) fun s f => ((s.facPowerOff f).setFacQueue f []).facStatsOff f
    s.setMem .fom (s.mems.fom.zero 8 (d * 0x200000) 0x200000)
  else if d < 50 then
    let g := d - 34
    let s := s.each ((List.range 256).map (256 * g + ·)) fun s n => (s.beadPowerOff n).beadStatsOff n
    s.setMem .blm (s.mems.blm.zero 4 (260 * g * 0x10000) (260 * 0x10000))
  else if d < 58 then
    s.each ((List.range 32).map (32 * (d - 50) + ·)) fun s b =>
      ((s.setF (MM_STATUS_STATE b) bankOFF).setMove b .none).bankZero b
  else if d = 58 then
    let s := s.setMem .ddr (s.mems.ddr.lose 8 0 34359738368 s.free)
    { s with free := s.free + 1, reset_ := { s.reset_ with ddrTrained := false } }
  else s

/-- A domain has come on: its clock starts aligned and its engines are idle (R354, R372). -/
def State.domReady (s : State) (d : Nat) : State :=
  let s := (s.setF (PWR_DOM_STAT_PSTATE d) 1).railsSet.clockStart d
  if d < 34 then
    s.each (s.facetsOn d) fun s f => if s.facState f = facOFF then s.setFacState f facIDLE else s
  else
    s.each ((List.range 256).map (256 * (d - 34) + ·)) fun s n =>
      if s.beadState n = bdOFF then s.setBeadState n bdIDLE else s

/-- A write to PWR_DOM_CTL (R354, R364). -/
def State.domCtlWrite (s : State) (src d : Nat) (v : Word) : State :=
  if src ≠ mSCP && src ≠ mHIP then s.refuseWrite ST_NOT_PERMITTED src (PWR_DOM_CTL d)
  else
    let s := s.wrN (PWR_DOM_CTL d) (v.toNat % 2)
    let st := s.fld (PWR_DOM_STAT_PSTATE d)
    let s := if v.getLsbD 0 then (if st = 0 then s.setF (PWR_DOM_STAT_PSTATE d) 2 else s)
      else if st = 0 then s else s.domOff d
    s.answer ST_OK

/-- PWR_DOM_CTL_WRITE (R354). -/
def execPwrDomCtlWrite (src : Nat) (d : Fin 50) (v : Word) (s : State) : Out := .next (s.domCtlWrite src d.val v)

/-- DOMAIN_ON_COMPLETE (R354). -/
def execDomainOnComplete (d : Fin 50) (s : State) : Out :=
  if s.fld (PWR_DOM_STAT_PSTATE d.val) = 2 then .next (s.domReady d.val) else .next s

/-- SHUTDOWN_POWER_OFF (R361): 100 µs after a thermal shutdown. -/
def execShutdownPowerOff (s : State) : Out :=
  match s.power.shutdown with
  | none => .next s
  | some t =>
    if s.power.offAll || sinceNs s.now t < 100000 then .next s
    else
      let s := s.setPower { s.power with offAll := true }
      .next (s.each (List.range 64) State.domOff)

/-! ### Function POWER (R286, R364) -/

/-- POWER takes a state. -/
def State.setPowerFn (s : State) (x : FnState) : State :=
  let old := s.power.fn
  { s with power := { s.power with fn := x } }.fnEvent fPOWER old.code x.code ST_OK

/-- PWR_CFG in range. -/
def pwrItemOk (off : Nat) (v : Word) : Bool :=
  off = 0 && bitsN v.toNat 24 8 = 0 && bitsN v.toNat 8 8 = 0 && bitsN v.toNat 3 1 = 0
    && 35 ≤ PWR_CFG_CAP.get v && PWR_CFG_CAP.get v ≤ 150

/-- An item names a field other than CAP: it would change one (R364). -/
def State.pwrOther (s : State) (off : Nat) (v : Word) : Bool :=
  off ≠ 0 || PWR_CFG_CAP.set 0 v ≠ PWR_CFG_CAP.set 0 (s.rd PWR_CFG)

/-- FN_CONFIG_POWER (R286, R364). -/
def execFnConfigPower (via : Via) (s : State) : Out :=
  .next (s.hostCmd via opFN_CONFIG fPOWER fun c =>
    let items := fnItems (c.payload.length / 8) c.payload
    if s.power.fn = .running && items.any (fun i => s.pwrOther i.1 i.2) then s.complete c ST_BAD_STATE
    else s.fnConfig via fPOWER true pwrItemOk (fun s _ v => s.wr PWR_CFG v) (fun _ => true) fun s =>
      let s := s.reqUpdate
      if s.power.fn = .stopped then s.setPowerFn .config else s)

/-- FN_START_POWER (R364). -/
def execFnStartPower (via : Via) (s : State) : Out :=
  .next (s.fnPlain via opFN_START fPOWER (s.power.fn == .config) fun c =>
    (s.setPowerFn .running).complete c ST_OK)

/-- FN_STOP_POWER (R364): the controller goes on in every state. -/
def execFnStopPower (via : Via) (s : State) : Out :=
  .next (s.fnPlain via opFN_STOP fPOWER (s.power.fn == .running || s.power.fn == .fault) fun c =>
    (s.setPowerFn .stopped).complete c ST_OK)

end Sys2Proof.Machine
end

