-- ==== Sys2Proof/Machine/Rings.lean ====
section
/-! DEFINITION. Rings and mailboxes as the host drives them: index and control writes, command
fetch, mailbox requests, coalesced interrupts (R290–R299). -/

namespace Sys2Proof.Machine

/-! ### Checks 1–5 of a command (R284) -/

/-- The first failing one of checks 1–5; `ring` is the FUNC of the ring it came on. -/
def State.hostCheck (s : State) (ring : Option Nat) (op func version : Nat) : St :=
  if op ≠ opATTACH && op ≠ opIFACE_QUERY && !(s.host.verMin ≤ version && version ≤ s.host.verMax) then
    ST_IFACE_VERSION
  else if !opDefined op then ST_BAD_OPCODE
  else if !allFuncs.contains func then ST_BAD_FIELD
  else if !opAccepts op func || (ring.isSome && !opOnRing op) then ST_BAD_OPCODE
  else
    match ring with
    | some f => if f = fDEVICE || f = func then ST_OK else ST_NOT_PERMITTED
    | none => ST_OK

/-- A command from the bytes of its header (R281). -/
def cmdOfBytes (via : Via) (b : List Byte) (payload : List Byte) (room : Nat) (bad : Bool) : HostCmd :=
  { via := via, opcode := fieldN b 0 2, func := fieldN b 2 1, tag := BitVec.ofNat 32 (fieldN b 4 4)
    version := fieldN b 12 2, arg := (b.drop 16).take 48, payload := payload, room := room
    bad := bad || fieldN b 3 1 ≠ 0 || fieldN b 14 2 ≠ 0 }

/-- Woad takes a command: it is in flight, or completes at once on a failed check; one that
starts what LIGHT switches off causes exit (R284, R285, R371). -/
def State.take (s : State) (ring : Option Nat) (c : HostCmd) : State :=
  let s := { s with host := { s.host with inflight := s.host.inflight ++ [c] } }
  let st := s.hostCheck ring c.opcode c.func c.version
  if st ≠ ST_OK then s.complete c st
  else if c.needsActive then s.wake
  else s

/-- Woad takes commands: it runs, has reported READY, and no exit from STANDBY is awaited
(R298, R299, R371). -/
def State.serving (s : State) : Bool := s.hipUp && s.fld MBX_FW_STAGE == 3 && !s.inStandby

/-! ### Mailboxes (R298, R299) -/

/-- The 256 bytes of a mailbox. -/
def State.mbxBytes (s : State) (m : Nat) : List Byte :=
  (List.range 64).flatMap fun i => leBytes 4 (s.rd (MBX_DATA m i)).toNat

/-- The command that a mailbox holds. A PLEN above 192 fails check 7 (R298). -/
def State.mbxCmd (s : State) (m : Fin 16) : HostCmd :=
  let b := s.mbxBytes m.val
  let plen := fieldN b 8 4
  cmdOfBytes (.mbx m) b ((b.drop 64).take plen) 0 (192 < plen)

/-- The 16 bytes that IFACE_QUERY returns (R285). -/
def State.ifaceBytes (s : State) (lo hi : Nat) : List Byte :=
  leBytes 2 lo ++ leBytes 2 hi ++ (List.range 3).flatMap fun p => leBytes 4 (s.rd (GLB_FW_VER p)).toNat

/-- In FIRMWARE_HOLD the boot ROM answers: every request with ST_FW_SET_INVALID, except
IFACE_QUERY, whose range no image declares (R299; log entry 41). -/
def State.holdAnswer (s : State) (m : Fin 16) : State :=
  let c := s.mbxCmd m
  if c.opcode = opIFACE_QUERY then
    let (a, s) := s.fresh
    let (b, s) := s.fresh
    s.mbxComplete m.val c ST_OK 0 (s.ifaceBytes a.toNat b.toNat)
  else s.mbxComplete m.val c ST_FW_SET_INVALID 0 []

/-- The held requests are taken in the order of their GO writes, once somebody serves them
(R285, R299). -/
def State.takeGos (s : State) : State :=
  let due := s.host.goOrder
  let clear (s : State) : State := { s with host := { s.host with goOrder := [] } }
  if s.inStandby then s
  else if s.fld MBX_FW_STAGE = 1 then (clear s).each due State.holdAnswer
  else if s.serving then (clear s).each due fun s m => s.take none (s.mbxCmd m)
  else s

/-- A mailbox register is written by the host or by Woad. -/
def mbxWriter (src : Nat) : Bool := src = mPCIe || src = mHIP

/-- A write to MBX_CTL (R298). GO on a mailbox that is BUSY submits nothing. -/
def State.mbxCtlWrite (s : State) (src m : Nat) (v : Word) : State :=
  if !mbxWriter src then s.refuseWrite ST_NOT_PERMITTED src (MBX_CTL m)
  else
    let busy := s.flag (MBX_CTL_BUSY m)
    let s := (s.hostAccess src).plainWrite (MBX_CTL m) v
    let s := s.setF (MBX_CTL_GO m) 0
    let s := if v.getLsbD 0 && !busy then
        ({ s.setF (MBX_CTL_BUSY m) 1 with host := { s.host with
            goOrder := s.host.goOrder ++ [Fin.ofNat 16 m] } }).takeGos
      else s
    s.answer ST_OK

/-- A write to MBX_DATA (R298). -/
def State.mbxDataWrite (s : State) (src m off : Nat) (v : Word) : State :=
  if !mbxWriter src then s.refuseWrite ST_NOT_PERMITTED src off
  else if s.flag (MBX_CTL_BUSY m) then s.refuseWrite ST_BAD_STATE src off
  else ((s.hostAccess src).wr off v).answer ST_OK

/-- MAILBOX_GO (R298, R299). -/
def execMailboxGo (src : Nat) (m : Fin 16) (v : Word) (s : State) : Out :=
  .next (s.hostWrite src (MBX_CTL m.val) (v ||| 1) fun s => s.mbxCtlWrite src m.val (v ||| 1))

/-! ### Ring registers (R290–R293) -/

def State.ringState (s : State) (r : Nat) : Nat := s.fld (RNG_CTL_STATE r)

/-- A submission ring that is not DISABLED has the ring as its PEER (R292). -/
def State.isPeer (s : State) (r : Nat) : Bool :=
  (s.host.rings.map Prod.fst).any fun q =>
    !s.flag (RNG_CFG_DIR q) && s.ringState q ≠ rngDISABLED && s.fld (RNG_LINK_PEER q) = r

/-- The conditions of ENABLE = 1 (R292). -/
def State.enableOk (s : State) (r : Nat) : Bool :=
  let p := s.fld (RNG_LINK_PEER r)
  s.rd (RNG_PI r) == s.rd (RNG_CI r) && 12 ≤ s.fld (RNG_CFG_LOG2SIZE r) && s.fld (RNG_CFG_LOG2SIZE r) ≤ 24
    && s.ringMemOk r
    && (s.flag (RNG_CFG_DIR r) || (p < 8192 && s.flag (RNG_CFG_DIR p) && s.ringState p == rngACTIVE))

/-- A write to RNG_CTL: COAL in any state, EVENTS only while DISABLED, ENABLE under R292. A
write that R292 does not apply changes CAUSE alone. -/
def State.ringCtlWrite (s : State) (src r : Nat) (v : Word) : State :=
  let off := RNG_CTL r
  if !mbxWriter src then s.refuseWrite ST_NOT_PERMITTED src off
  else
    let s := s.hostAccess src
    let st := s.ringState r
    let en := v.getLsbD 0
    if st ≠ rngDISABLED && v.getLsbD 3 ≠ s.flag (RNG_CTL_EVENTS r) then s.refuseWrite ST_BAD_STATE src off
    else
      let t := (s.plainWrite off v).setF (RNG_CTL_ENABLE r) (if en && st ≠ rngDRAINING then 1 else 0)
      if en && st = rngDISABLED then
        if s.enableOk r then
          (((t.setF (RNG_CTL_STATE r) rngACTIVE).setF (RNG_CTL_CAUSE r) 0).setRing r {}).answer ST_OK
        else (s.setF (RNG_CTL_CAUSE r) 1).answer ST_OK
      else if !en && st ≠ rngDISABLED && st ≠ rngDRAINING then
        if s.flag (RNG_CFG_DIR r) && s.isPeer r then (s.setF (RNG_CTL_CAUSE r) 1).answer ST_OK
        else (t.setF (RNG_CTL_STATE r) rngDRAINING).answer ST_OK
      else t.answer ST_OK

/-- RING_ENABLE (R292). -/
def execRingEnable (src : Nat) (r : Fin 8192) (v : Word) (s : State) : Out :=
  .next (s.hostWrite src (RNG_CTL r.val) (v ||| 1) fun s => s.ringCtlWrite src r.val (v ||| 1))

/-- RING_DISABLE (R292). -/
def execRingDisable (src : Nat) (r : Fin 8192) (v : Word) (s : State) : Out :=
  .next (s.hostWrite src (RNG_CTL r.val) (v &&& ~~~(1 : Word)) fun s =>
    s.ringCtlWrite src r.val (v &&& ~~~(1 : Word)))

/-- RING_DRAINED (R292): every command fetched from the ring has its completion. -/
def execRingDrained (r : Fin 8192) (s : State) : Out :=
  if s.ringState r.val = rngDRAINING && (s.ring r.val).flight = 0 then
    .next (s.setF (RNG_CTL_STATE r.val) rngDISABLED)
  else .next s

/-- An index takes a value that the host has written (R293). -/
def State.indexSet (s : State) (r : Nat) (pi : Bool) (v : Word) : State :=
  let pv := (if pi then v else s.rd (RNG_PI r)).toNat
  let cv := (if pi then s.rd (RNG_CI r) else v).toNat
  if s.ringLines r < (pv + 2 ^ 32 - cv) % 2 ^ 32 then s.ringError r 2
  else if pi then s.wr (RNG_PI r) v
  else
    let s := s.wr (RNG_CI r) v
    if s.hipUp && s.ringLive r then s.flushWithheld r else s

/-- A write to RNG_PI or RNG_CI (R291, R293): both while DISABLED; else the producer writes PI
and the consumer CI. A doorbell is held while exit from STANDBY is awaited (R371). -/
def State.indexWrite (s : State) (src r : Nat) (pi : Bool) (v : Word) : State :=
  let off := if pi then RNG_PI r else RNG_CI r
  if !mbxWriter src then s.refuseWrite ST_NOT_PERMITTED src off
  else
    let s := s.hostAccess src
    if s.ringState r = rngDISABLED then (s.wr off v).answer ST_OK
    else if (src = mPCIe) ≠ (pi ≠ s.flag (RNG_CFG_DIR r)) then s.refuseWrite ST_BAD_STATE src off
    else if src = mHIP then (s.wr off v).answer ST_OK
    else if pi && s.inStandby then (s.holdHost (.write off v)).answer ST_OK
    else (s.indexSet r pi v).answer ST_OK

/-- RING_DOORBELL (R293). -/
def execRingDoorbell (src : Nat) (r : Fin 8192) (pi : Word) (s : State) : Out :=
  .next (s.hostWrite src (RNG_PI r.val) pi fun s => s.indexWrite src r.val true pi)

/-- A write to another register of a ring (R291). -/
def State.ringCfgWrite (s : State) (src r off : Nat) (v : Word) : State :=
  if !mbxWriter src then s.refuseWrite ST_NOT_PERMITTED src off
  else if s.ringState r ≠ rngDISABLED then s.refuseWrite ST_BAD_STATE src off
  else ((s.hostAccess src).plainWrite off v).answer ST_OK

/-- A write to the RNG block. -/
def State.ringWriteReg (s : State) (src off : Nat) (v : Word) : State :=
  let r := (off - RNG_BASE_LO 0) / 32
  if off = RNG_CTL r then s.ringCtlWrite src r v
  else if off = RNG_PI r then s.indexWrite src r true v
  else if off = RNG_CI r then s.indexWrite src r false v
  else if off = RNG_WITHHELD r then s.answer ST_OK
  else s.ringCfgWrite src r off v

/-! ### Fetch (R285, R293–R295) -/

/-- The header of the entry at CI. -/
def State.ringHead (s : State) (r : Nat) : List Byte :=
  s.peek (s.ringLine r (s.rd (RNG_CI r)).toNat).toNat 64

/-- Result bytes that the largest completion entry of a command may hold (R294). -/
def largestResult (hd : List Byte) : Nat :=
  if fieldN hd 0 2 = opDATA_GET then fieldN hd 0x18 4
  else if fieldN hd 0 2 = opTELEMETRY then fieldN hd 0x10 4
  else 0

/-- The largest completion entry exceeds the completion ring, one line of which is kept free
(R294). -/
def State.tooLarge (s : State) (r : Nat) (hd : List Byte) : Bool :=
  s.ringLines (s.fld (RNG_LINK_PEER r)) ≤ entryLines (largestResult hd)

/-- Lines of the command entry with this header. -/
def cmdLines (hd : List Byte) : Nat := 1 + (fieldN hd 8 4 + 63) / 64

/-- Woad may fetch from the ring: it is an active submission ring with a whole entry, another
command may be in flight, and the completion ring has room (R293–R295). -/
def State.fetchable (s : State) (r : Nat) : Bool :=
  let hd := s.ringHead r
  let p := s.fld (RNG_LINK_PEER r)
  s.ringState r == rngACTIVE && !s.flag (RNG_CFG_DIR r) && s.rd (RNG_PI r) != s.rd (RNG_CI r)
    && (s.ring r).flight < (if s.flag (RNG_CFG_MODE r) then 16 else 1)
    && (65536 < fieldN hd 8 4 || cmdLines hd ≤ s.ringUsed r)
    && (if s.tooLarge r hd || 65536 < fieldN hd 8 4 then 1 ≤ s.ringFree p
        else entryLines (largestResult hd) + 1 ≤ s.ringFree p)

/-- Round robin by ring id (R285). -/
def State.fetchTurn (s : State) : Option Nat :=
  let el := (s.host.rings.map Prod.fst).filter s.fetchable
  match el.find? (fun r => s.host.lastRing < r) with
  | some r => some r
  | none => el.head?

/-- Bytes of `n` ring lines from line index `i`, and the status and poison of their reads. -/
def State.ringRead (s : State) (r i n : Nat) : ReadRes × State :=
  (List.range n).foldl (fun (x, s) k =>
    let (y, s) := s.readAt mHIP (s.ringLine r (i + k)) 64
    (⟨if x.st = ST_OK then y.st else x.st, x.data ++ y.data, x.bad || y.bad⟩, s)) (⟨ST_OK, [], false⟩, s)

/-- Fetch the entry at CI of a submission ring. -/
def State.fetch (s : State) (r : Fin 8192) : State :=
  let ci := (s.rd (RNG_CI r.val)).toNat
  let hd := s.ringHead r.val
  let big := 65536 < fieldN hd 8 4
  let n := if big then 1 else cmdLines hd
  let (res, s) := s.ringRead r.val ci n
  let s := { s with host := { s.host with lastRing := r.val } }
  if res.st ≠ ST_OK then s.ringError r.val 4
  else if res.bad then s.crash .hip .ecc
  else
    let p := s.fld (RNG_LINK_PEER r.val)
    let full := s.tooLarge r.val hd
    let room := if big || full then 0 else entryLines (largestResult hd)
    let x := s.ring r.val
    let c := cmdOfBytes (.ring r x.seq) hd (if big then [] else (res.data.drop 64).take (fieldN hd 8 4)) room big
    let s := s.setRing r.val { x with seq := x.seq + 1, flight := x.flight + 1 }
    let s := s.setRing p { s.ring p with reserved := (s.ring p).reserved + room }
    let s := s.wrN (RNG_CI r.val) (ci + n)
    let put (s : State) : State := { s with host := { s.host with inflight := s.host.inflight ++ [c] } }
    if big then ((put s).complete c ST_BAD_FIELD).ringError r.val 3
    else if full then (put s).complete c ST_RING_FULL
    else s.take (some (s.fld (RNG_CFG_FUNC r.val))) c

/-- COMMAND_FETCH (R285, R294, R295). Its reads wait for another master's clasp (R155). -/
def execCommandFetch (r : Fin 8192) (s : State) : Out :=
  if s.serving && s.fetchTurn = some r.val && !s.claspMeets mHIP (s.ringBase r.val) (64 * s.ringLines r.val) then
    .next (s.fetch r)
  else .next s

/-- MSIX_COALESCE_EXPIRED (R296): COAL µs after the first entry not yet signalled. -/
def execMsixCoalesceExpired (r : Fin 8192) (s : State) : Out :=
  let x := s.ring r.val
  match x.unsent with
  | none => .next s
  | some t =>
    if sinceNs s.now t < s.fld (RNG_CTL_COAL r.val) * 1000 then .next s
    else
      let s := s.setRing r.val { x with unsent := none }
      .next (if s.flag (RNG_LINK_IRQ_EN r.val) then s.msix (s.fld (RNG_LINK_VECTOR r.val)) else s)

end Sys2Proof.Machine
end

