-- ==== Sys2Proof/Machine/Host.lean ====
section
/-! DEFINITION. DATA_PUT, telemetry, the host session and host loss (R280, R285, R287, R288,
R300, R301). -/

namespace Sys2Proof.Machine

/-! ### DATA_PUT of MODEL (R287) -/

/-- A line of DATA_PUT lies in normal map memory or in the usable LPDDR5X, outside the areas of
R145 (R287). Another chip checks its own addresses. -/
def State.putLineOk (s : State) (a n : Nat) : Bool :=
  match s.target mPCIe (BitVec.ofNat 64 a) with
  | .map .normal off => !syncArea off n
  | .ddr _ => true
  | .remote _ => true
  | _ => false

/-- DATA_PUT to MODEL (R287). -/
def execDataPutModel (via : Via) (s : State) : Out :=
  .next (s.modelCmd via opDATA_PUT (s.hostCmd via opDATA_PUT fMODEL fun c =>
    let addr := BitVec.ofNat 64 (fieldN c.arg 0 8)
    let so := fieldN c.arg 12 2
    let ls := lines addr c.payload.length
    if !c.argTail 14 || !c.plenOk || c.payload.length % 4 ≠ 0 || (so ≠ 0xFFFF && 16384 ≤ so)
        || !s.putLineOk addr.toNat (min 1 c.payload.length) || !ls.all (fun l => s.putLineOk l.1 l.2) then
      s.complete c ST_BAD_FIELD
    else
      let (r, s) := s.postLong mHIP addr c.payload (BitVec.ofNat 16 (fieldN c.arg 8 2)) (BitVec.ofNat 16 (fieldN c.arg 10 2))
      let s := if r.1 = ST_OK && so ≠ 0xFFFF then s.soAdd mHIP so 1 else s
      s.complete c r.1 r.2))

/-! ### TELEMETRY (R181, R285, R359, R400) -/

/-- The records of MODEL: share groups, then windows (R181). -/
def State.modelRecords (s : State) : List Byte :=
  match s.model.pkg with
  | none => []
  | some p =>
    ((List.range p.groups.length).flatMap fun g =>
      let x := s.group g
      let d := p.groups.getD g (1, 0)
      leBytes 2 g ++ leBytes 2 d.1 ++ leBytes 2 d.2 ++ leBytes 2 0 ++ leBytes 8 x.engineNs
        ++ leBytes 8 (s.groupV p g) ++ leBytes 4 x.tasks.toNat ++ leBytes 4 x.aborts.toNat ++ leBytes 32 0)
    ++ (List.range p.windows.length).flatMap fun w =>
      let x := s.winAcc w
      leBytes 2 w ++ leBytes 2 0 ++ leBytes 4 x.winovr.toNat ++ leBytes 4 x.backlog.toNat
        ++ leBytes 4 x.lastCycle.toNat

/-- An energy record (R359). -/
def energyRecord (kind id : Nat) (nj : Int) : List Byte :=
  leBytes 1 kind ++ leBytes 1 id ++ leBytes 6 0 ++ leBytes 8 (wrapN 64 nj)

/-- The records of POWER (R359). -/
def State.powerRecords (s : State) : List Byte :=
  leBytes 4 (s.rd PWR_CFG).toNat ++ leBytes 4 (s.rd PWR_MEAN_1MS).toNat ++ leBytes 4 (s.rd PWR_MEAN_10MS).toNat
    ++ leBytes 8 (s.power.energyNj / 1000) ++ leBytes 4 (s.rd PWR_LIMIT_STAT).toNat ++ leBytes 40 0
    ++ (match s.model.pkg with
      | none => []
      | some p =>
        ((List.range p.windows.length).flatMap fun w => energyRecord 0 w (s.winAcc w).energy)
          ++ (List.range p.groups.length).flatMap fun g => energyRecord 1 g (s.group g).energy)
    ++ energyRecord 2 0 s.power.pool

/-- The unread entries of the error log (R400). -/
def State.logRecords (s : State) : List Byte :=
  let rd := (s.rd GLB_ELOG_RD).toNat
  (List.range (min 256 (((s.rd GLB_ELOG_WR).toNat + 2 ^ 32 - rd) % 2 ^ 32))).flatMap fun i =>
    (List.range 8).flatMap fun j => leBytes 4 (s.rd (GLB_ELOG_ENT ((rd + i) % 256) j)).toNat

/-- The records of a function whose layout no rule gives: their number and bytes are free
values (log entry 42). -/
def State.freeRecords (s : State) : List Byte × State :=
  let (n, s) := s.fresh
  ((List.range (n.toNat % 65537)).map fun i => Config.freeByte (2 ^ 41 + s.free) i, s)

/-- The records of a function. -/
def State.records (s : State) (func : Nat) : List Byte × State :=
  if func = fMODEL then (s.modelRecords, s)
  else if func = fPOWER then (s.powerRecords, s)
  else if func = fDEVICE then (s.logRecords, s)
  else s.freeRecords

/-- TELEMETRY (R285): the records cut at MAXLEN, and their full length. -/
def execTelemetry (via : Via) (s : State) : Out :=
  match s.cmdVia via with
  | none => .next s
  | some c =>
    .next (s.hostCmd via opTELEMETRY c.func fun c =>
      let max := fieldN c.arg 0 4
      if c.func = fMODEL && s.modelBar.isSome then s.complete c (s.modelBar.getD ST_OK)
      else if !c.argTail 4 || !c.payload.isEmpty || max < 64 || 65536 < max then s.complete c ST_BAD_FIELD
      else
        let (b, s) := s.records c.func
        let b' := b.take max
        if c.isMbx && 224 < b'.length then s.complete c ST_BAD_FIELD
        else s.complete c ST_OK b.length b')

/-! ### The session (R300, R301) -/

/-- The heartbeat timer starts anew. -/
def State.heartbeat (s : State) : State := { s with host := { s.host with hbLast := s.now } }

/-- HOST_HEARTBEAT (R301). -/
def execHostHeartbeat (via : Via) (s : State) : Out :=
  .next (s.fnPlain via opHOST_HEARTBEAT fDEVICE (!s.flag MBX_HOST_LOST) fun c => s.heartbeat.complete c ST_OK)

/-- A write to MBX_HB (R301). -/
def State.hbWrite (s : State) (src : Nat) : State :=
  if !mbxWriter src then s.refuseWrite ST_NOT_PERMITTED src MBX_HB
  else ((s.hostAccess src).heartbeat).answer ST_OK

/-- MBX_HB (R301). -/
def execMbxHb (src : Nat) (v : Word) (s : State) : Out :=
  .next (s.hostWrite src MBX_HB v fun s => s.hbWrite src)

/-- FLUSH: PI := CI on every submission ring that is ACTIVE or FROZEN (R300 step 3). -/
def State.flushRings (s : State) : State :=
  s.each (s.host.rings.map Prod.fst) fun s r =>
    if s.ringLive r && !s.flag (RNG_CFG_DIR r) then s.wr (RNG_PI r) (s.rd (RNG_CI r)) else s

/-- Every FROZEN ring returns to ACTIVE (R300 step 4). -/
def State.thawRings (s : State) : State :=
  s.each (s.host.rings.map Prod.fst) fun s r =>
    if s.ringState r = rngFROZEN then s.setF (RNG_CTL_STATE r) rngACTIVE else s

/-- The 64 bytes that ATTACH returns (R300). -/
def State.attachBytes (s : State) : List Byte :=
  let w := (s.host.rings.map fun r => (s.rd (RNG_WITHHELD r.1)).toNat).sum
  leBytes 2 (s.fld MBX_HOST_SESSION) ++ leBytes 2 s.host.verMin ++ leBytes 2 s.host.verMax
    ++ leBytes 1 (s.fld MBX_HOST_POLICY) ++ leBytes 1 0 ++ leBytes 4 w ++ leBytes 52 0

/-- ATTACH (R300). -/
def execAttach (via : Via) (s : State) : Out :=
  .next (s.hostCmd via opATTACH fDEVICE fun c =>
    let period := fieldN c.arg 0 2
    let policy := fieldN c.arg 2 1
    let opt := fieldN c.arg 3 1
    if !c.argTail 4 || !c.payload.isEmpty || period = 0 || 1000 < period || (2 < policy && policy ≠ 0xFF) || 1 < opt then
      s.complete c ST_BAD_FIELD
    else
      let s := s.setF MBX_HOST_SESSION (s.fld MBX_HOST_SESSION + 1)
      let s := s.setF MBX_HOST_PERIOD period
      let s := if policy ≤ 2 then s.setF MBX_HOST_POLICY policy else s
      let s := if opt = 1 then s.flushRings else s
      let s := (s.thawRings.setF MBX_HOST_LOST 0).setF MBX_HOST_ATTACHED 1
      let s := ({ s with host := { s.host with policyOn := false } }).heartbeat
      s.complete c ST_OK 0 s.attachBytes)

/-- IFACE_QUERY (R285). -/
def execIfaceQuery (via : Via) (s : State) : Out :=
  .next (s.fnPlain via opIFACE_QUERY fDEVICE true fun c =>
    s.complete c ST_OK 0 (s.ifaceBytes s.host.verMin s.host.verMax))

/-! ### Host loss (R301) -/

/-- The policy's action: HOLD stops the RUNNING axes that have no setpoint timeout, STOP_SS1
every RUNNING axis. -/
def State.policyAct (s : State) : State :=
  match s.fld MBX_HOST_POLICY with
  | 1 => s.each axesAll fun s a =>
      if s.axState a = axRUNNING && bitsN (s.rd (SLE_SP_TMO a)).toNat 0 16 = 0 then s.ss1Write mHIP a else s
  | 2 => s.each axesAll fun s a => if s.axState a = axRUNNING then s.ss1Write mHIP a else s
  | _ => s

/-- The host is lost while a session is in force (R301). -/
def State.hostLost (s : State) : State :=
  if !s.flag MBX_HOST_ATTACHED || s.flag MBX_HOST_LOST then s
  else
    let s := s.setF MBX_HOST_LOST 1
    let s := s.each (s.host.rings.map Prod.fst) fun s r =>
      if s.ringState r = rngACTIVE then s.setF (RNG_CTL_STATE r) rngFROZEN else s
    let s := { s with host := { s.host with policyOn := true } }
    (s.event fDEVICE evHOST_LOSS ST_OK (s.fld MBX_HOST_POLICY)).policyAct

/-- PCIE_LINK_RESET (R280): configuration space and the BAR2 base return to their reset values,
and the host is lost. A lost link is down. -/
def execPcieLinkReset (kind : LinkReset) (s : State) : Out :=
  let s := { s with
    csr := s.csr.filter fun e => e.1 ≠ PCI_BAR2_BASE_LO && e.1 ≠ PCI_BAR2_BASE_HI
    fab := { s.fab with bar2Hi := 0xFFFF0010, bar2Lo := 0 }
    host := { s.host with pci := {}, msixPending := [] } }
  let s := match kind with
    | .linkLoss => s.setF PCI_LINK_STAT_UP 0
    | _ => s
  .next s.hostLost

/-- HOST_LOSS (R301): no heartbeat for 3 × PERIOD ms of TB0. While Woad does not run its timer
does not either (R302). -/
def execHostLoss (s : State) : Out :=
  if s.hipUp && s.fld MBX_HOST_PERIOD * 3000000 ≤ sinceNs s.now s.host.hbLast then .next s.hostLost
  else .next s

end Sys2Proof.Machine
end

