-- ==== Sys2Proof/Machine/Settings.lean ====
section
/-! DEFINITION. Persistent settings: records, commit entries, SETTINGS_STORE and the load at
boot (R289, R374–R378). -/

namespace Sys2Proof.Machine

/-! ### Configuration registers of each function (R286, R375) -/

/-- The CSR offset to which the item offsets of a function are relative. The DEVICE record names
RCK_BOOT and MBX_HOST by their CSR offsets (log entry 43). -/
def cfgBase (f : Nat) : Nat :=
  if 0x10 ≤ f && f < 0x20 then sleBase (f - 0x10)
  else if 0x20 ≤ f && f < 0x24 then ifeBase (f - 0x20)
  else if f = fHEALTH then hltBase
  else if f = fETH then ethBase
  else if 0x38 ≤ f && f < 0x40 then canBase (f - 0x38)
  else if f = fTIME then timBase
  else if f = fPAIR then PLK_CFG
  else if f = fPOWER then PWR_CFG
  else 0

/-- Offsets `a`, `a + 4`, …, `n` of them. -/
def wordRun (a n : Nat) : List Nat := (List.range n).map fun i => a + 4 * i

/-- The configuration registers of a function. RATE is none: it returns to zero at every reset
that applies a record (R373). -/
def cfgOffsets (f : Nat) : List Nat :=
  if f = fDEVICE then [RCK_BOOT, MBX_HOST]
  else if 0x10 ≤ f && f < 0x20 then sleCfg
  else if 0x20 ≤ f && f < 0x24 then [0, 4] ++ wordRun 0x0C 16 ++ wordRun 0x50 8
  else if f = fHEALTH then
    [8, 0xC] ++ (List.range 48).flatMap fun l => (wordRun 4 5).map (0x1000 + 0x40 * l + ·)
  else if f = fETH then
    [ETH_DOM_MAP - ethBase, ETH_PTP_CFG - ethBase] ++ (List.range 6).map (fun p => ETH_PDELAY p - ethBase)
      ++ (List.range 7).flatMap fun p => wordRun (0x10000 + 0x1000 * p) 512
  else if 0x38 ≤ f && f < 0x40 then
    [0, 4, 8] ++ wordRun 0x40 64 ++ [0x140, 0x144, 0x148] ++ (if f < 0x3A then [0x150] else [])
  else if f = fTIME then
    [TIM_TB_CFG 7 - timBase] ++ (List.range 8).flatMap (fun p => wordRun (0x400 + 0x20 * p) 5)
      ++ (List.range 4).map fun c => TIM_CAP_CFG c - timBase
  else if f = fPAIR || f = fPOWER then [0]
  else []

/-- The value that a record holds of a register: its configuration bits. -/
def State.cfgValue (s : State) (f o : Nat) : Word :=
  let v := s.rd (cfgBase f + o)
  if f = fDEVICE && o = MBX_HOST then v &&& 3
  else if 0x38 ≤ f && f < 0x40 && o = 0 then v &&& 0x1E
  else if 0x38 ≤ f && f < 0x40 && o = 0x150 then v &&& ~~~(4 : Word)
  else v

/-- The check of one item (R286). -/
def cfgItemOk (f o : Nat) (v : Word) : Bool :=
  if f = fDEVICE then (o = RCK_BOOT && v.toNat < 2) || (o = MBX_HOST && v.toNat ≤ 2)
  else if 0x10 ≤ f && f < 0x20 then axItemOk o v
  else if 0x20 ≤ f && f < 0x24 then camItemOk (f - 0x20) o v
  else if f = fHEALTH then hltItemOk o v
  else if f = fETH then ethItemOk o v
  else if 0x38 ≤ f && f < 0x40 then canItemOk (f - 0x38) o v
  else if f = fTIME then timItemOk o v
  else if f = fPAIR then pairItemOk o v
  else if f = fPOWER then pwrItemOk o v
  else false

/-- A register takes the value of an item. -/
def State.cfgApply (s : State) (f o : Nat) (v : Word) : State :=
  if f = fDEVICE then
    if o = MBX_HOST then s.setF MBX_HOST_POLICY v.toNat else s.wr o v
  else if 0x38 ≤ f && f < 0x40 then s.canApply (f - 0x38) o v
  else if f = fTIME then s.timApply o v
  else if f = fETH || (0x20 ≤ f && f < 0x24) then s.plainWrite (cfgBase f + o) v
  else s.wr (cfgBase f + o) v

/-- The function's own checks (R286). -/
def State.cfgChecks (s : State) (f : Nat) : Bool :=
  if 0x10 ≤ f && f < 0x20 then s.axChecks (f - 0x10)
  else if 0x20 ≤ f && f < 0x24 then s.camChecks (f - 0x20)
  else if f = fTIME then s.timCheck
  else true

/-- The state of a function; DEVICE has none. -/
def State.fnState (s : State) (f : Nat) : Nat :=
  if f = fMODEL then s.model.fn.code
  else if 0x10 ≤ f && f < 0x20 then s.axState (f - 0x10)
  else if 0x20 ≤ f && f < 0x24 then s.camState (f - 0x20)
  else if f = fHEALTH then s.hltState
  else if f = fETH then s.eth.fn.code
  else if 0x38 ≤ f && f < 0x40 then (s.can (f - 0x38)).fn.code
  else if f = fTIME then s.time.fn.code
  else if f = fPAIR then s.pair.fn.code
  else if f = fPOWER then s.power.fn.code
  else 0

/-! ### Records and commit entries (R374, R375) -/

/-- The slot of a function: its place in ascending order of the ids. -/
def slotOf (f : Nat) : Nat := allFuncs.findIdx (· == f)

/-- NVM offset of copy `c` of slot `k`. -/
def slotAddr (k c : Nat) : Nat := 0x130000 + 0x10000 * k + 0x8000 * c

/-- NVM offset of the commit entry of a GEN (DEDUCED, log entry 43). -/
def commitAddr (gen : Nat) : Nat := 0x110000 + 64 * (gen % 2048)

/-- The record of a function (R375). The CRC covers header bytes 0–11 and the items; LEN is the
length of the record (log entry 43). -/
def State.recordOf (s : State) (f gen : Nat) : List Byte :=
  let items := (cfgOffsets f).flatMap fun o => leBytes 4 o ++ leBytes 4 (s.cfgValue f o).toNat
  let n := (cfgOffsets f).length
  let hd := leBytes 1 f ++ leBytes 1 (if s.fnState f = 2 then 1 else 0) ++ leBytes 2 n ++ leBytes 4 gen
    ++ leBytes 4 (16 + 8 * n)
  hd ++ leBytes 4 (crc32c (hd ++ items)) ++ items

/-- The commit entry: GEN, FUNC, MAP and the CRC-32C of bytes 0–59 (R375). -/
def commitEntry (gen f map : Nat) : List Byte :=
  let b := leBytes 4 gen ++ leBytes 1 f ++ leBytes 3 0 ++ leBytes 8 map ++ leBytes 44 0
  b ++ leBytes 4 (crc32c b)

/-- The bytes of an NVM area. -/
def State.nvmBytes (s : State) (a n : Nat) : List Byte := s.mems.nvm.bytes a n

/-- The commit entry at index `i` has a valid CRC; an entry of zeros has none (R377). -/
def State.commitValid (s : State) (i : Nat) : Bool :=
  let b := s.nvmBytes (0x110000 + 64 * i) 64
  b.any (· ≠ 0) && crc32c (b.take 60) == fieldN b 60 4

/-- The index of the valid commit entry with the latest GEN (R377). -/
def State.commitInForce (s : State) : Option Nat :=
  let gen (i : Nat) : Nat := fieldN (s.nvmBytes (0x110000 + 64 * i) 4) 0 4
  (List.range 2048).foldl (fun best i =>
    if !s.commitValid i then best
    else
      match best with
      | none => some i
      | some j => if reached 32 (gen i) (gen j) then some i else some j) none

/-- MAP of the commit entry in force; zero while there is none. -/
def State.mapInForce (s : State) : Nat :=
  match s.commitInForce with
  | none => 0
  | some i => fieldN (s.nvmBytes (0x110000 + 64 * i) 64) 8 8

/-! ### Stores (R376, R378) -/

/-- Write counts of NVM blocks. -/
def State.wearOf (s : State) (k : Nat) : Nat := kget 0 s.sec.wear k

/-- The 4 KiB blocks that a write touches. -/
def nvmBlocks (a n : Nat) : List Nat := wordsOf 4096 a n

/-- A write of settings or commit bytes: the blocks wear, and NVM_WEAR shows the highest count. -/
def State.nvmWrite (s : State) (a : Nat) (b : List Byte) : State :=
  let s := s.setMem .nvm (s.mems.nvm.putBytes a b)
  let s := s.each (nvmBlocks a b.length) fun s k =>
    { s with sec := { s.sec with wear := kput k (s.wearOf k + 1) s.sec.wear } }
  s.wrN NVM_WEAR ((s.sec.wear.map Prod.snd).foldl max 0)

/-- The functions that a store of `f` affects. MODEL has no record. -/
def storeFuncs (f : Nat) : List Nat :=
  if f = fDEVICE then allFuncs.filter (· ≠ fMODEL) else if f = fMODEL then [] else [f]

/-- The writes of a store: offset and bytes of each record. -/
def State.storeWrites (s : State) (f gen : Nat) : List (Nat × List Byte) :=
  let map := s.mapInForce
  (storeFuncs f).map fun g => (slotAddr (slotOf g) (1 - bitsN map (slotOf g) 1), s.recordOf g gen)

/-- Every block that the store writes stays at or below 100,000 writes (R378). -/
def State.wearOk (s : State) (ws : List (Nat × List Byte)) (gen : Nat) : Bool :=
  (ws.flatMap (fun w => nvmBlocks w.1 w.2.length) ++ nvmBlocks (commitAddr gen) 64).all fun k =>
    s.wearOf k + 1 ≤ 100000

/-- A store may begin: no other store is under way, and a DEVICE store meets every function
between two of its commands (R376). -/
def State.storeTurn (s : State) (c : HostCmd) : Bool :=
  s.host.store.isNone
    && (c.func ≠ fDEVICE || (s.host.inflight.takeWhile fun d => d.via ≠ c.via).all fun d => !opSerial d.opcode)

/-- SETTINGS_STORE (R289, R376): the snapshot is taken and every record written to the copy that
is not in force. -/
def execSettingsStore (via : Via) (s : State) : Out :=
  match s.cmdVia via with
  | none => .next s
  | some c =>
    .next (s.hostCmd via opSETTINGS_STORE c.func fun c =>
      if !s.storeTurn c then s
      else if c.func = fMODEL && s.modelBar.isSome then s.complete c (s.modelBar.getD ST_OK)
      else if !c.noArgs then s.complete c ST_BAD_FIELD
      else if c.func = fMODEL then s.complete c ST_OK
      else
        let gen := ((s.rd NVM_GEN).toNat + 1) % 2 ^ 32
        let ws := s.storeWrites c.func gen
        if !s.wearOk ws gen then
          ((s.log ST_HW_LIMIT mHIP EV_STORE c.func).setF ⟨NVM_STAT, 16, 16⟩ ST_HW_LIMIT.toNat).complete c ST_HW_LIMIT
        else
          let s := s.each ws fun s w => s.nvmWrite w.1 w.2
          { s.setF ⟨NVM_STAT, 0, 1⟩ 1 with host := { s.host with
              store := some ⟨via, c.func, BitVec.ofNat 32 gen, (ws.map fun w => w.2.length).sum⟩ } })

/-- MAP with the copies of the stored slots turned over. -/
def State.storeMap (s : State) (f : Nat) : Nat :=
  (storeFuncs f).foldl (fun m g => m ^^^ 2 ^ slotOf g) s.mapInForce

/-- SETTINGS_COMMIT (R376): the single write that puts the store into effect. -/
def execSettingsCommit (s : State) : Out :=
  match s.host.store with
  | none => .next s
  | some x =>
    if !s.hipUp then .next s
    else
      let e := commitEntry x.gen.toNat x.func (s.storeMap x.func)
      let s := (s.nvmWrite (commitAddr x.gen.toNat) e).wr NVM_GEN x.gen
      let s := { s.wrN NVM_STAT 0 with host := { s.host with store := none } }
      .next (s.completeVia x.via ST_OK x.bytes)

/-- A store that did not reach its commit entry ends without effect (R376). -/
def State.dropStore (s : State) (st : St) : State :=
  match s.host.store with
  | none => s
  | some _ => { s.wrN NVM_STAT (st.toNat * 65536) with host := { s.host with store := none } }

/-! ### The load at boot (R377) -/

/-- The record of a function passes its CRC. -/
def recordOk (f : Nat) (b : List Byte) : Bool :=
  let n := fieldN b 2 2
  fieldN b 0 1 == f && fieldN b 8 4 == 16 + 8 * n && 16 + 8 * n ≤ 0x8000
    && crc32c (b.take 12 ++ (b.drop 16).take (8 * n)) == fieldN b 12 4

/-- The stored record of a function as the commit entry in force names it; a slot that nothing
was stored in reads as zeros. -/
def State.storedRecord (s : State) (f : Nat) : Option (List Byte) :=
  match s.commitInForce with
  | none => none
  | some _ =>
    let a := slotAddr (slotOf f) (bitsN s.mapInForce (slotOf f) 1)
    let hd := s.nvmBytes a 16
    if hd.all (· == 0) then none else some (s.nvmBytes a (min 0x8000 (16 + 8 * fieldN hd 2 2)))

/-- Load the settings of a function: whether it was stored while RUNNING. A record that fails
its CRC or its checks leaves the defaults and is logged. -/
def State.loadRecord (s : State) (f : Nat) : Bool × State :=
  match s.storedRecord f with
  | none => (false, s)
  | some b =>
    let items := fnItems (fieldN b 2 2) (b.drop 16)
    let t := items.foldl (fun s i => s.cfgApply f i.1 i.2) s
    if recordOk f b && items.all (fun i => cfgItemOk f i.1 i.2) && t.cfgChecks f then (fieldN b 1 1 == 1, t)
    else
      let s := s.log ST_BAD_FIELD mHIP EV_STORE f
      (false, { s with reset_ := { s.reset_ with badRecords := s.reset_.badRecords ++ [f] } })

/-- At the NVM step: the commit entry in force and the settings of DEVICE (R368, R377). -/
def State.loadDevice (s : State) : State :=
  let gen := match s.commitInForce with
    | none => 0
    | some i => fieldN (s.nvmBytes (0x110000 + 64 * i) 4) 0 4
  ((s.wrN NVM_GEN gen).wrN NVM_WEAR ((s.sec.wear.map Prod.snd).foldl max 0)).loadRecord fDEVICE |>.2

/-- The other functions take their settings and their boot states (R369, R377). -/
def State.loadFunctions (s : State) : State :=
  s.each (allFuncs.filter fun f => f ≠ fDEVICE && f ≠ fMODEL) fun s f =>
    let (run, s) := s.loadRecord f
    if f = fPOWER then
      let s := s.reqUpdate
      { s with power := { s.power with fn := if s.reset_.badRecords.contains f then .stopped else .running } }
    else if !run then s
    else if f = fTIME then s.timeBegin
    else if f = fETH then s.ethBegin
    else if 0x38 ≤ f && f < 0x40 then s.canBegin (f - 0x38)
    else s

end Sys2Proof.Machine
end

