-- ==== Sys2Proof/Machine/Procs.lean ====
section
/-! DEFINITION. Watchdogs, crashes and restarts of the firmware processors (R302, R312–R317). -/

namespace Sys2Proof.Machine

/-- WATCHDOG_KICK (R312). -/
def execWatchdogKick (src : Nat) (p : Proc) (v : Word) (s : State) : Out := .next (s.kickWrite src p v)

/-- The SCP's clock runs: it stops in LIGHT and STANDBY (R370). -/
def State.scpClock (s : State) : Bool := s.lpState == lpACTIVE

/-- WATCHDOG_EXPIRED (R312). While the SCP's clock is stopped its watchdog is not checked
(log entry 44). -/
def execWatchdogExpired (p : Proc) (s : State) : Out :=
  if s.wdogLate p && (p ≠ .scp || s.scpClock) then .next (s.crash p .wdog) else .next s

/-- PROCESSOR_CRASH (R313): a lockstep error is the SFP's alone. -/
def execProcessorCrash (p : Proc) (cause : CrashCause) (s : State) : Out :=
  if cause = .lockstep && p ≠ .sfp then .next s else .next (s.crash p cause)

/-- Commands whose effect has begun and waits for an event. -/
def State.begun (s : State) : List Via :=
  (s.model.startVia.toList ++ s.model.stopVia.toList ++ s.pair.startVia.toList
    ++ (s.host.store.map StoreSt.via).toList)
    ++ s.cams.flatMap (fun c => c.2.stopVia.toList)
    ++ s.axes.flatMap fun a => a.2.startVia.toList ++ (a.2.stop.map StopSt.vias).getD []

/-- After a Woad restart every command in flight completes; AUX bit 0 tells whether its effect
was applied, and is open for one whose effect has begun (R302; log entry 45), but for a SETTINGS_STORE, whose
effect is its commit entry (R376). -/
def State.failInflight (s : State) : State :=
  let begun := s.begun
  let store := s.host.store.map StoreSt.via
  s.each s.host.inflight fun s c =>
    if begun.contains c.via && !c.applied && store ≠ some c.via then
      let (w, s) := s.fresh
      s.complete c ST_PROC_RESTART (w.toNat % 2)
    else s.complete c ST_PROC_RESTART (if c.applied then 1 else 0)

/-- Woad runs again (R302): commands in flight complete, a store that had not reached its commit
entry ends, the heartbeat timer starts anew, held requests are served. -/
def State.hipRestart (s : State) : State :=
  let s := s.setF MBX_FW_STAGE (if s.reset_.boot = .ready then 3 else 2)
  let s := (s.failInflight.dropStore ST_PROC_RESTART).heartbeat
  (s.event fDEVICE evPROC_RESTART ST_PROC_RESTART 2).takeGos

/-- PROCESSOR_RESTART_COMPLETE (R313): the SCP under R314, the HIP under R302. After a crash the
SFP restarts only by MADDER_RESTART_COMPLETE (R316); after a halt it repeats its start checks or
stays in the safe state (R391). -/
def execProcessorRestartComplete (p : Proc) (s : State) : Out :=
  let n := procNo p
  if s.procState n ≠ procRESTART then .next s
  else
    match p with
    | .scp => .next (((s.reloadImage 0).procStart 0).scpRestart.event fDEVICE evPROC_RESTART ST_PROC_RESTART 0)
    | .hip => .next ((s.reloadImage 2).procStart 2).hipRestart
    | .sfp =>
      let st := s.fld SAF_STATUS_STATE
      if !(s.proc 1).crashRestart && (st = safINIT || st = safSAFE) then
        .next ((((s.reloadImage 1).procStart 1).paths).event fDEVICE evPROC_RESTART ST_PROC_RESTART 1)
      else .next s

end Sys2Proof.Machine
end

