-- ==== Sys2Proof/Machine/Boot.lean ====
section
/-! DEFINITION. Resets and the boot sequence (R304–R311, R365–R369, R373, R384). -/

namespace Sys2Proof.Machine

/-! ### What survives a reset (R373) -/

/-- Registers that every reset keeps: fuses and stored security values, straps, the remap. -/
def keptCold (off : Nat) : Bool :=
  (0x904000 ≤ off && off < ARB_REMAP_GEN) || (SEC_LC ≤ off && off < 0xA20000)
    || off == GLB_CHIP_ID || off == DDR_POP

/-- Registers of the always-on domain, and those that count since cold reset, but for the restart
counts (R365, R400; DEDUCED, log entry 46). -/
def keptWarm (off : Nat) : Bool :=
  off == RCK_LP || off == RCK_CAUSE || off == RCK_WAKE_T_LO || off == RCK_WAKE_T_HI
    || (GLB_ELOG_WR ≤ off && off ≤ GLB_ELOG_LOST) || (GLB_ELOG_ENT 0 0 ≤ off && off < GLB_ELOG_ENT 256 0)
    || off == DBG_AUTH_FAIL_CNT || off == DDR_SCRUB_PASS

/-- A map bank keeps its contents over a warm or device reset. -/
def State.bankHolds (s : State) (b : Nat) : Bool :=
  let st := s.fld (MM_STATUS_STATE b)
  st == bankON || st == bankDRAIN || st == bankRET

/-- Map memory after a reset that keeps it in part. -/
def State.mapAfter (s : State) : Memory :=
  (List.range 256).foldl (fun m b => if s.bankHolds b then m else m.zero 8 (b * 0x80000) 0x80000) s.mems.map

/-- A quarantine survives every reset: the engines that are unusable stay so (R262). -/
def State.keptTests (s : State) : KMap TestSt :=
  (s.safety.tests.filter fun t => t.2.unusable).map fun t => (t.1, { unusable := true })

/-- The state right after a reset has begun: `kind` is 0 cold, 1 warm, 2 device, 3 entry to
HIBERNATE. Every function, engine and interface is as reset leaves it; gate outputs are low,
both paths asserted and SAFE_N low (R366). -/
def State.afterReset (s : State) (kind : Nat) : State :=
  let keep (off : Nat) : Bool :=
    keptCold off || (kind ≠ 0 && keptWarm off) || (kind == 2 && off == PCI_LINK_STAT)
  let t : State := {
    pending := s.pending
    csr := s.csr.filter fun e => keep e.1
    mems := {
      map := if kind = 1 || kind = 2 then s.mapAfter else {}
      ddr := if kind = 2 then s.mems.ddr else s.mems.ddr.lose 8 0 34359738368 s.free
      nvm := s.mems.nvm }
    time := { tb := if kind = 0 then [] else [(0, s.tb 0)] }
    safety := {
      estopA := s.safety.estopA, estopB := s.safety.estopB, fbA := s.safety.fbA, fbB := s.safety.fbB
      tests := s.keptTests }
    power := if kind = 0 then {} else { pool := s.power.pool, energyNj := s.power.energyNj }
    dport := { chalGen := s.dport.chalGen }
    sec := s.sec
    host := if kind = 2 then { pci := s.host.pci, aer := s.host.aer } else {}
    elogLost := if kind = 0 then 0 else s.elogLost
    free := s.free + 1
    reset_ := { boot := .held, lastKind := kind } }
  let t := if kind = 0 then t else t.setF RCK_LP_STATE lpACTIVE
  if kind = 0 then t
  else (List.range 3).foldl (fun t p => t.setF (GLB_PROC_STAT_RESTARTS p) (s.fld (GLB_PROC_STAT_RESTARTS p))) t

/-- RCK_CAUSE after a reset other than cold (R378). -/
def State.countReset (s : State) (kind : Nat) : State :=
  let n := min 255 (bitsN (s.rd RCK_CAUSE).toNat 8 8 + 1)
  s.wrN RCK_CAUSE (bitsN (s.rd RCK_CAUSE).toNat 16 16 * 65536 + n * 256 + kind)

/-- The boot begins at the NVM step (R368). -/
def State.bootStart (s : State) : State := { s with reset_ := { s.reset_ with boot := .nvm, lp := .none } }

/-- COLD_RESET (R365). -/
def execColdReset (s : State) : Out := .next (s.afterReset 0)

/-- COLD_RESET_RELEASE (R368, R380, R381, R411): the straps are sampled, and a lifecycle state
that was pending is in force. -/
def execColdResetRelease (straps : BitVec 4) (s : State) : Out :=
  if s.reset_.boot ≠ .held || s.reset_.lastKind ≠ 0 then .next s
  else
    let s := s.wrN GLB_CHIP_ID straps.toNat
    let pend := bitsN (s.rd SEC_LC).toNat 8 4
    let s := if pend = 0 then s else s.wrN SEC_LC pend
    .next s.bootStart

/-- WARM_RESET (R365): SYS_RST_N low for `lowNs` ns. Below 1 µs it is ignored; between 1 and 10 µs
a whole warm reset or none follows (chapter 22). A cold reset under way prevails. -/
def execWarmReset (lowNs : Nat) (s : State) : Out :=
  let go (s : State) : State := (s.afterReset 1).countReset 1
  if lowNs < 1000 || (s.reset_.boot = .held && s.reset_.lastKind = 0) then .next s
  else if 10000 ≤ lowNs then .next (go s)
  else
    let (w, t) := s.fresh
    .next (if w.toNat % 2 = 1 then go t else t)

/-- WARM_RESET_RELEASE (R368). -/
def execWarmResetRelease (s : State) : Out :=
  if s.reset_.boot = .held && s.reset_.lastKind = 1 then .next s.bootStart else .next s

/-- A write to RCK_RESET (R367). A larger reset under way prevails (R365). -/
def State.rckResetWrite (s : State) (src : Nat) (v : Word) : State :=
  let s := s.hostAccess src
  if src ≠ mPCIe && src ≠ mHIP then s.refuseWrite ST_NOT_PERMITTED src RCK_RESET
  else if v.toNat / 65536 ≠ 0xD5E5 then s.answer ST_BAD_FIELD
  else if !v.getLsbD 0 then s.answer ST_OK
  else if s.reset_.boot = .held then s.answer ST_OK
  else if (axesAll.any fun a => s.axState a = axRUNNING) && s.fld SAF_STATUS_STATE ≠ safSAFE then
    (s.setF ⟨RCK_CAUSE, 16, 16⟩ ST_BAD_STATE.toNat).refuseWrite ST_BAD_STATE src RCK_RESET
  else
    let t := ((s.afterReset 2).setF ⟨RCK_CAUSE, 16, 16⟩ 0).countReset 2
    { t.bootStart with reset_ := { t.bootStart.reset_ with devInReset := true } }

/-- DEVICE_RESET (R367). -/
def execDeviceReset (src : Nat) (v : Word) (s : State) : Out :=
  .next (s.hostWrite src RCK_RESET v fun s => s.rckResetWrite src v)

/-! ### The firmware set (R306–R309, R384) -/

/-- The 160 bytes of a manifest entry (R307). -/
def manifestBytes (e : ManifestEntry) : List Byte :=
  e.vers.flatMap (fun v => leBytes 4 v.toNat) ++ e.digests.flatMap (fun d => beBytes 48 d.toNat) ++ leBytes 4 0

/-- MSEQ and NENT of the manifest's header: bytes 0–1 and byte 2 (R307; log entry 113). -/
def manifestMseq (x : FlashSlot) : Nat := fieldN x.raw 0 2
def manifestNent (x : FlashSlot) : Nat := fieldN x.raw 2 1

/-- The manifest's signed bytes spell its entries (R307). -/
def manifestForm (x : FlashSlot) : Bool :=
  1 ≤ x.entries.length && x.entries.length ≤ 255 && manifestNent x == x.entries.length
    && x.entries.all (fun e => e.vers.length == 3 && e.digests.length == 3)
    && x.raw.length == 16 + 160 * x.entries.length && x.raw.drop 16 == x.entries.flatMap manifestBytes

/-- An image is what its descriptor says (R306). -/
def imageForm (i : FwImage) (p : Nat) : Bool :=
  i.desc.length == 64 && fieldN i.desc 0 2 == p && fieldN i.desc 3 1 == 0 && fieldN i.desc 0xC 4 == i.body.length
    && i.body.length ≤ imemSize p && (i.desc.drop (if p = 2 then 0x24 else 0x20)).all (· == 0)

/-- Check 1 of R308 under R384: the carried key, X and Y of 48 bytes each in the byte order of R6, has the
root hash, and every signature verifies. An image's signature covers its descriptor and its bytes. -/
def State.slotSigned (s : State) (x : FlashSlot) : Bool :=
  sha384N (leBytes 48 x.keyX.toNat ++ leBytes 48 x.keyY.toNat) == s.sec.rootHash
    && ecdsaVerify x.keyX x.keyY (sha384 x.raw) x.sigR x.sigS
    && x.images.all fun i => ecdsaVerify x.keyX x.keyY (sha384 (i.desc ++ i.body)) i.sigR i.sigS

/-- The version of an image. -/
def imageVersion (i : FwImage) : Nat := fieldN i.desc 4 4

/-- Check 3 of R308: version `v` lies in peer range `k` of the descriptor. -/
def imageAccepts (i : FwImage) (k v : Nat) : Bool :=
  fieldN i.desc (0x10 + 8 * k) 4 ≤ v && v ≤ fieldN i.desc (0x14 + 8 * k) 4

/-- Each image accepts the other two. -/
def slotPeers (x : FlashSlot) : Bool :=
  match x.images with
  | [a, b, c] =>
    imageAccepts a 0 (imageVersion b) && imageAccepts a 1 (imageVersion c) && imageAccepts b 0 (imageVersion a) && imageAccepts b 1 (imageVersion c)
      && imageAccepts c 0 (imageVersion a) && imageAccepts c 1 (imageVersion b)
  | _ => false

/-- Check 4 of R308: the entry that equals the versions and digests. -/
def slotEntry (x : FlashSlot) : Option Nat :=
  let vers := x.images.map fun i => BitVec.ofNat 32 (imageVersion i)
  let digs := x.images.map fun i => sha384N i.body
  x.entries.findIdx? fun e => e.vers == vers && e.digests == digs

/-- Lifecycle codes (R380). -/
abbrev lcBLANK : Nat := 1
abbrev lcENGINEERING : Nat := 2
abbrev lcPRODUCTION : Nat := 4
abbrev lcRMA : Nat := 8
abbrev lcSCRAPPED : Nat := 15

def State.lifecycle (s : State) : Nat := bitsN (s.rd SEC_LC).toNat 0 4

/-- FW_SET_OVERRIDE is honoured (R309, R380). -/
def State.overrideOn (s : State) : Bool :=
  s.flag SEC_POLICY_FW_SET_OVERRIDE && (s.lifecycle == lcBLANK || s.lifecycle == lcENGINEERING)

/-- The set of a slot is accepted: whether under override, and the manifest entry. -/
def State.slotAccept (s : State) (x : FlashSlot) : Option (Bool × Option Nat) :=
  let forms := x.images.length == 3 && (x.images[0]?.all fun i => imageForm i 0) && (x.images[1]?.all fun i => imageForm i 1)
    && (x.images[2]?.all fun i => imageForm i 2)
  let ids := x.images.all fun i => fieldN i.desc 2 1 == s.fld GLB_ID_MEMBER
    && fieldN i.desc 8 4 == (s.rd GLB_ARITH_SIG).toNat
  let old := s.lifecycle == lcPRODUCTION && manifestMseq x < bitsN (s.rd SEC_MIN_MSEQ).toNat 0 16
  if !forms || !manifestForm x || !s.slotSigned x || !ids || old then none
  else if slotPeers x && (slotEntry x).isSome then some (false, slotEntry x)
  else if s.overrideOn then some (true, slotEntry x)
  else none

/-- The slot that boots: the one BOOT_SLOT names, else the other (R308). -/
def State.bootSlot (s : State) : Option (Nat × FlashSlot × Bool × Option Nat) :=
  let try_ (k : Nat) : Option (Nat × FlashSlot × Bool × Option Nat) :=
    match if k = 0 then s.sec.slotA else s.sec.slotB with
    | none => none
    | some x => (s.slotAccept x).map fun r => (k, x, r)
  let first := bitsN (s.rd RCK_BOOT).toNat 0 1
  if s.lifecycle = lcSCRAPPED then none
  else match try_ first with
    | some r => some r
    | none => try_ (1 - first)

/-- One image is in instruction memory and its processor runs (R305, R311). -/
def State.startImage (s : State) (p : Nat) (i : FwImage) : State :=
  let s := { s with mems := { s.mems with imem := kput p i.body s.mems.imem } }
  let s := (s.wrN (GLB_FW_VER p) (imageVersion i)).wrBytes (GLB_FW_DIGEST p 0) (sha384 i.body)
  let s := s.setProc p { kickAt := s.now, core := coreReset p }
  let s := s.setF (GLB_PROC_STAT_STATE p) procRUN
  if p = 2 then
    { s with host := { s.host with verMin := fieldN i.desc 0x20 2, verMax := fieldN i.desc 0x22 2 } }
  else s

/-- The domains whose ON is set are switched on as the clocks are released (R354, R368; log entry 119). -/
def State.domainsOn (s : State) : State :=
  (s.each ((List.range 50).filter fun d => (s.rd (PWR_DOM_CTL d)).getLsbD 0) fun s d =>
    s.setF (PWR_DOM_STAT_PSTATE d) 2).clockStart 64

/-- FIRMWARE_SET_LOAD (R308, R309, R368): the stored settings of DEVICE are read, then a slot is
tried and the other. Without an accepted set the device stops in FIRMWARE_HOLD. -/
def execFirmwareSetLoad (s : State) : Out :=
  if s.reset_.boot ≠ .nvm then .next s
  else
    let s := s.loadDevice
    match s.bootSlot with
    | none =>
      .next ({ s.setF MBX_FW_STAGE 1 with reset_ := { s.reset_ with boot := .hold, devInReset := false } }).takeGos
    | some (k, x, ovr, e) =>
      let (ent, s) := match e with
        | some n => (n, s)
        | none => (s.fresh.1.toNat % 256, s.fresh.2)
      let s := s.wrN GLB_FW_SET ((if ovr then 2 ^ 31 else 0) + k * 2 ^ 24 + ent * 65536 + manifestMseq x)
      let s := if ovr then s.log ST_FW_SET_INVALID mLogic EV_SECURITY 3 else s
      let s := (List.range 3).foldl (fun s p => match x.images[p]? with
        | some i => s.startImage p i
        | none => s) s
      .next { s.domainsOn.setF MBX_FW_STAGE 2 with reset_ := { s.reset_ with boot := .starting, devInReset := false } }

/-- Usable size and staging area in MiB by populated capacity (R162). -/
def ddrSizes (pop : Nat) : Nat × Nat :=
  match pop with
  | 0 => (3072, 512)
  | 1 => (6144, 1024)
  | 2 => (12288, 2048)
  | _ => (26624, 2048)

/-- LPDDR5X_TRAINED (R161–R163). -/
def execLpddr5xTrained (s : State) : Out :=
  if s.reset_.boot ≠ .starting || s.reset_.ddrTrained then .next s
  else
    let z := ddrSizes (bitsN (s.rd DDR_POP).toNat 0 2)
    let s := ((s.wrN DDR_SIZE z.1).wrN DDR_STAGE z.2).wrN DDR_STAT 1
    .next { s with reset_ := { s.reset_ with ddrTrained := true } }

/-- LPDDR5X_PATROL_SCRUB (R162, R398): a 64-bit word is checked; the pass ends with the last. A
corrected word is written back and counted, an uncorrected one poisoned and counted. -/
def execLpddr5xPatrolScrub (word : Nat) (found : EccFinding) (endOfPass : Bool) (s : State) : Out :=
  let total := ((s.rd DDR_SIZE).toNat + (s.rd DDR_STAGE).toNat) * 2 ^ 20
  if !s.reset_.ddrTrained || total ≤ 8 * word then .next s
  else
    let s := match found with
      | .clean => s
      | .corrected => if s.mems.ddr.bad word then s else s.inc DDR_ECC_CORR
      | .uncorrected => (s.setMem .ddr (s.mems.ddr.setBad word true)).inc DDR_ECC_UNCORR
    .next (if endOfPass then s.inc DDR_SCRUB_PASS else s)

/-- BOOT_READY (R368, R369, R377): stored settings are applied, functions enter their boot states,
Woad serves mailboxes. -/
def execBootReady (s : State) : Out :=
  if s.reset_.boot ≠ .starting || !s.reset_.ddrTrained || !s.reset_.checksDone || !s.hipUp then .next s
  else
    let s := s.loadFunctions
    let bad := s.reset_.badRecords
    let s := { s.setF MBX_FW_STAGE 3 with reset_ := { s.reset_ with boot := .ready, badRecords := [] } }
    .next (s.each bad fun s f => s.event f evSTATE_CHANGE ST_BAD_FIELD 0).takeGos

/-- A link width, a rate and a payload size that the endpoint supports (R278). -/
def linkOk (link : PcieLink) (cfg : PciCfg) : Bool :=
  [1, 2, 4, 8].contains link.width.toNat && 1 ≤ link.rate.toNat && link.rate.toNat ≤ 5 && [128, 256, 512].contains cfg.maxPayload

/-- PCIE_LINK_UP (R26, R368): the link is up and the host configures the endpoint, whose base addresses are
aligned to their windows (R23). A vector that is no longer masked is sent if it is pending (R296; log entry 121). -/
def execPcieLinkUp (link : PcieLink) (cfg : PciCfg) (s : State) : Out :=
  if s.reset_.boot = .held then .next s
  else if !linkOk link cfg then .fault .badOperand
  else
    let s := s.wrN PCI_LINK_STAT (256 + link.width.toNat * 16 + link.rate.toNat)
    let s := { s with host := { s.host with
      pci := { cfg with bar0 := cfg.bar0 &&& 0xFFFFFFFFFC000000, bar2 := cfg.bar2 &&& 0xFFFFFFFF00000000 }
      msixPending := [] } }
    .next (s.each s.host.msixPending State.msix)

end Sys2Proof.Machine
end

