-- ==== Sys2Proof/Machine/LowPower.lean ====
section
/-! DEFINITION. The low-power states (R370, R371, R373). -/

namespace Sys2Proof.Machine

/-- The functions that LIGHT requires STOPPED (R370). -/
def lightFuncs : List Nat :=
  [fMODEL] ++ (List.range 16).map fAXIS ++ (List.range 4).map fCAM ++ [fHEALTH]

/-- The entry conditions of a state: 1 LIGHT, 2 STANDBY, 3 HIBERNATE (R370). -/
def State.lpAllowed (s : State) (req : Nat) : Bool :=
  let stopped (fs : List Nat) : Bool := fs.all fun f => s.fnState f = 0
  match req with
  | 1 => stopped lightFuncs
  | 2 => stopped (fPAIR :: lightFuncs)
  | _ => stopped (allFuncs.filter fun f => f ≠ fDEVICE && f ≠ fPOWER)

/-- RCK_LP.LAST_ST takes a status. -/
def State.lpLast (s : State) (st : St) : State := s.setF RCK_LP_LAST_ST st.toNat

/-- A write to RCK_LP with REQ = `req`. From a low-power state a deeper one may be requested
(log entry 47). -/
def State.lpWrite (s : State) (v : Word) (req : Nat) : State :=
  let st := s.lpState
  let keep (s : State) : State := (s.setF RCK_LP_WAKE_PIN (bitsN v.toNat 3 1)).setF RCK_LP_WAKE_TIME (bitsN v.toNat 2 1)
  if st = lpENTERING || st = lpEXITING then (s.lpLast ST_BAD_STATE).answer ST_OK
  else if req = 0 then ((keep s).lpLast ST_OK).wake.answer ST_OK
  else if req = st then ((keep s).lpLast ST_OK).answer ST_OK
  else if req < st || !s.lpAllowed req then (s.lpLast ST_BAD_STATE).answer ST_OK
  else
    let s := ((keep s).lpLast ST_OK).setF RCK_LP_STATE lpENTERING
    { s with reset_ := { s.reset_ with lp := .entering req } }.answer ST_OK

/-- A write to RCK_LP; a BAR0 access wakes the device from STANDBY. -/
def State.rckLpWrite (s : State) (src : Nat) (v : Word) (req : Nat) : State :=
  let held := s.inStandby && src = mPCIe
  (if held then s.lpWrite v (if req = 3 then 3 else 0) else s.lpWrite v req)

/-- A request for low-power state `req`, in its place among the host's writes (R279). -/
def State.lpRequest (s : State) (src : Nat) (v : Word) (req : Nat) : State :=
  s.hostWrite src RCK_LP (BitVec.ofNat 32 (v.toNat / 4 * 4 + req)) fun s => s.rckLpWrite src v req

/-- LP_REQ_ACTIVE (R370). -/
def execLpReqActive (src : Nat) (v : Word) (s : State) : Out := .next (s.lpRequest src v 0)

/-- LP_REQ_LIGHT (R370). -/
def execLpReqLight (src : Nat) (v : Word) (s : State) : Out := .next (s.lpRequest src v 1)

/-- LP_REQ_STANDBY (R370). -/
def execLpReqStandby (src : Nat) (v : Word) (s : State) : Out := .next (s.lpRequest src v 2)

/-- LP_REQ_HIBERNATE (R370). -/
def execLpReqHibernate (src : Nat) (v : Word) (s : State) : Out := .next (s.lpRequest src v 3)

/-- A write to another register of the RCK block. -/
def State.rckWrite (s : State) (src off : Nat) (v : Word) : State :=
  if off = RCK_RESET then s.rckResetWrite src v
  else if off = RCK_LP then s.rckLpWrite src v (v.toNat % 4)
  else if off = RCK_BOOT && src ≠ mHIP && src ≠ mPCIe then s.refuseWrite ST_NOT_PERMITTED src off
  else ((s.hostAccess src).plainWrite off v).answer ST_OK

/-- The STATE_CHANGE event of DEVICE on entry and exit; its AUX is open (R371; log entry 48). -/
def State.lpEvent (s : State) : State :=
  let (w, s) := s.fresh
  s.event fDEVICE evSTATE_CHANGE ST_OK w.toNat

/-- Domains 0–49 go off and banks 0–247 enter RETENTION (R370). -/
def State.lightOff (s : State) : State :=
  let doms := (List.range 50).filter fun d => s.fld (PWR_DOM_STAT_PSTATE d) ≠ 0
  let banks := (List.range 248).filter fun b => s.fld (MM_STATUS_STATE b) ≠ bankOFF && s.fld (MM_STATUS_STATE b) ≠ bankRET
  let s := s.each doms State.domOff
  let s := s.each banks fun s b => (s.setF (MM_STATUS_STATE b) bankRET).setMove b .none
  { s with reset_ := { s.reset_ with lpDoms := s.reset_.lpDoms ++ doms, lpBanks := s.reset_.lpBanks ++ banks } }

/-- Counters and W1C flags of the camera, pair, servo and health blocks, whose domains STANDBY
switches off (R373). -/
def standbyStat (off : Nat) : Bool :=
  let blk := (0xA0000 ≤ off && off < 0x100000) || (0xA30000 ≤ off && off < 0xA40000)
  blk && match regAt off with
    | none => false
    | some (r, i, _) => r.w1c != 0 || r.rc != 0
      || off == IFE_VOID_CNT i || off == IFE_HDR_CORR i || off == IFE_DISCARD i
      || off == PLK_LAG_CNT || off == PLK_REPLAY i

/-- STANDBY switches off domains 58, 61, 62 and 63 beside, LPDDR5X in self-refresh (R370). -/
def State.standbyOff (s : State) : State :=
  let s := { s with
    csr := s.csr.filter fun e => !standbyStat e.1
    power := { s.power with other := [58, 61, 62, 63].foldl (fun m d => kput d true m) s.power.other } }
  s.setF ⟨DDR_STAT, 1, 1⟩ 1

/-- The resident operands of the package in Facet and Bead memories are loaded again, and VALID is clear in
every delta state (R371). -/
def State.reloadResident (s : State) : State :=
  match s.model.pkg with
  | none => s
  | some p =>
    let s := s.each p.tensors fun s t =>
      match s.target mSCP t.1 with
      | .fom _ _ => s.poke t.1.toNat t.2
      | .blm _ _ => s.poke t.1.toNat t.2
      | _ => s
    s.each p.deltas fun s a => (s.clearDelta a).2

/-- LP_ENTRY_COMPLETE (R370, R371, R373): the state is reached; a wake event that arrived meanwhile
starts the exit at once. -/
def execLpEntryComplete (s : State) : Out :=
  match s.reset_.lp with
  | .entering 3 =>
    let t := s.afterReset 3
    let t := { t with reset_ := { t.reset_ with lp := .hibernate } }
    .next (if s.reset_.wakeHeld then (t.countReset 3).bootStart else t)
  | .entering st =>
    let held := s.reset_.wakeHeld
    let s := s.lightOff
    let s := if st = 2 then s.standbyOff else s
    let s := { s.setF RCK_LP_STATE st with reset_ := { s.reset_ with lp := .none, wakeHeld := false } }
    let s := s.lpEvent
    .next (if held then s.wake else s)
  | _ => .next s

/-- A wake event acts: exit from LIGHT or STANDBY, or the warm-reset sequence from HIBERNATE. -/
def State.wakeEvent (s : State) : State :=
  if s.reset_.lp = .hibernate then (s.countReset 3).bootStart else s.wake

/-- WAKE_N (R370): low for at least 1 µs (chapter 22) while WAKE_PIN is 1. -/
def execWakeN (lowNs : Nat) (s : State) : Out :=
  if 1000 ≤ lowNs && s.flag RCK_LP_WAKE_PIN then .next s.wakeEvent else .next s

/-- WAKE_TIME (R370): TB0 has reached RCK_WAKE_T while WAKE_TIME is 1. -/
def execWakeTime (s : State) : Out :=
  if s.flag RCK_LP_WAKE_TIME && reached 64 (s.tb64 0).toNat (s.rd64 RCK_WAKE_T_LO RCK_WAKE_T_HI).toNat then
    .next s.wakeEvent
  else .next s

end Sys2Proof.Machine
end

