-- ==== Sys2Proof/Machine/Security.lean ====
section
/-! DEFINITION. Lifecycle, keys, flash, debug authentication and boundary scan (R380–R384,
R388–R390). -/

namespace Sys2Proof.Machine

/-- The debug port is open in the state without authentication (R380). -/
def State.portOpen (s : State) : Bool :=
  s.lifecycle == lcBLANK || s.lifecycle == lcENGINEERING || s.lifecycle == lcRMA

/-- Permission bit `k` of R390 is in force: the state is open, or PRODUCTION has granted it. -/
def State.permitted (s : State) (k : Nat) : Bool :=
  s.portOpen || (s.lifecycle == lcPRODUCTION && bitsN (s.rd DBG_AUTH_STAT).toNat (14 + k) 1 == 1)

abbrev permBSCAN : Nat := 0
abbrev permHALT_FW : Nat := 1
abbrev permHALT_SFP : Nat := 2
abbrev permHALT_BEAD : Nat := 3
abbrev permMEM_READ : Nat := 4
abbrev permMEM_WRITE : Nat := 5
abbrev permFLASH : Nat := 6
abbrev permLIFECYCLE : Nat := 7
abbrev permKEYS : Nat := 8

/-- A security event in the log (R400). -/
def State.secLog (s : State) (st : St) (aux : Nat) : State := s.log st mDebug EV_SECURITY aux

/-- A request of the debug port that is not applied (R381, R388). -/
def State.secRefuse (s : State) : State := (s.secLog ST_NOT_PERMITTED 4).answer ST_NOT_PERMITTED

/-! ### Authentication (R390) -/

abbrev authFAILS : Fld := ⟨DBG_AUTH_STAT, 12, 2⟩
abbrev authLOCKOUT : Fld := ⟨DBG_AUTH_STAT, 11, 1⟩
abbrev authPERM : Fld := ⟨DBG_AUTH_STAT, 14, 9⟩

/-- AUTH is available: no lockout, and the part is not SCRAPPED (R380, R390). -/
def State.authOpen (s : State) : Bool := !s.flag authLOCKOUT && s.lifecycle != lcSCRAPPED

/-- DBG_CHAL_READ (R383, R390): a fresh challenge. -/
def execDbgChalRead (s : State) : Out :=
  if !s.authOpen then .next s.secRefuse
  else
    let c := Config.challenge s.dport.chalGen
    .next ({ s with dport := { s.dport with
      chal := some c, chalAt := s.now, chalGen := s.dport.chalGen + 1 } }.answer ST_OK (leBytes 32 c.toNat))

/-- The bytes that a response signs (R390). -/
def State.authBytes (s : State) (chal : BitVec 256) (perm : Word) : List Byte :=
  leBytes 32 chal.toNat ++ (List.range 4).flatMap (fun i => leBytes 4 (s.rd (SEC_UID i)).toNat)
    ++ leBytes 4 perm.toNat ++ leBytes 1 s.lifecycle

/-- AUTH_RESPONSE (R390): one response per challenge; the third failure in a row locks AUTH. -/
def execAuthResponse (perm : Word) (r s' : BitVec 384) (s : State) : Out :=
  if !s.authOpen then .next s.secRefuse
  else
    let ok := match s.dport.chal with
      | none => false
      | some c => perm.toNat < 512 && s.flag ⟨SEC_KEY_STAT, 16, 1⟩
          && ecdsaVerify s.sec.dbgX s.sec.dbgY (sha384 (s.authBytes c perm)) r s'
    let s := { s with dport := { s.dport with chal := none } }
    if ok then .next (((s.setF authPERM perm.toNat).setF authFAILS 0).secLog ST_OK 0 |>.answer ST_OK)
    else
      let n := s.fld authFAILS + 1
      let s := ((s.setF authFAILS (min 3 n)).inc DBG_AUTH_FAIL_CNT).secLog ST_NOT_PERMITTED 1
      let s := if 3 ≤ n then { s.setF authLOCKOUT 1 with dport := { s.dport with lockAt := some s.now } } else s
      .next (s.answer ST_NOT_PERMITTED)

/-- CHALLENGE_EXPIRED (R390): 10 s of TB0. -/
def execChallengeExpired (s : State) : Out :=
  if s.dport.chal.isSome && 10000000000 ≤ sinceNs s.now s.dport.chalAt then
    .next { s with dport := { s.dport with chal := none } }
  else .next s

/-- LOCKOUT_END (R390): 60 s of TB0; the count of failures starts anew. -/
def execLockoutEnd (s : State) : Out :=
  match s.dport.lockAt with
  | none => .next s
  | some t =>
    if sinceNs s.now t < 60000000000 then .next s
    else
      let s := { s with dport := { s.dport with lockAt := none } }
      .next ((s.setF authLOCKOUT 0).setF authFAILS 0)

/-! ### Lifecycle and keys (R381–R383) -/

/-- The state in the fuses: the pending one where a request has been recorded. -/
def State.fuseState (s : State) : Nat :=
  let p := bitsN (s.rd SEC_LC).toNat 8 4
  if p = 0 then s.lifecycle else p

/-- A transition that R381 allows. -/
def lcStep (a b : Nat) : Bool :=
  (a == lcBLANK && b == lcENGINEERING) || (a == lcENGINEERING && b == lcPRODUCTION)
    || (a == lcPRODUCTION && b == lcRMA) || b == lcSCRAPPED

/-- Every package AES key and the wrapped secrets are erased (R381). -/
def State.eraseSecrets (s : State) : State :=
  { s.setF ⟨SEC_KEY_STAT, 8, 4⟩ 0 with sec := { s.sec with aes := [], wrapped := false } }

/-- LIFECYCLE_REQUEST (R381): it takes effect at the next cold reset. -/
def execLifecycleRequest (target : BitVec 4) (s : State) : Out :=
  let a := s.fuseState
  let b := target.toNat
  let keys := s.flag ⟨SEC_KEY_STAT, 0, 1⟩ && s.flag ⟨SEC_KEY_STAT, 16, 1⟩
  if !s.permitted permLIFECYCLE || !lcStep a b || (b = lcPRODUCTION && !keys) || s.host.store.isSome then
    .next s.secRefuse
  else
    let s := if b = lcRMA then s.eraseSecrets else s
    .next ((s.setF ⟨SEC_LC, 8, 4⟩ b).secLog ST_OK 2 |>.answer ST_OK)

/-- The bit of SEC_KEY_STAT that shows a slot provisioned. -/
def keyBit : KeySlot → Nat
  | .pub k => k.val
  | .aes k => 8 + k.val
  | .dbg => 16

/-- KEY_PROVISION (R383): accepted only while the slot is empty. -/
def execKeyProvision (slot : KeySlot) (x y : BitVec 384) (s : State) : Out :=
  let f : Fld := ⟨SEC_KEY_STAT, keyBit slot, 1⟩
  if !s.permitted permKEYS || s.flag f then .next s.secRefuse
  else
    let s := s.setF f 1
    let sec := match slot with
      | .pub k => { s.sec with pubX := kput k.val x s.sec.pubX, pubY := kput k.val y s.sec.pubY }
      | .aes k => { s.sec with aes := kput k.val x s.sec.aes, wrapped := true }
      | .dbg => { s.sec with dbgX := x, dbgY := y }
    .next ({ s with sec := sec }.answer ST_OK)

/-- A provisioned package key slot other than `k` is not revoked (R383). -/
def State.otherPub (s : State) (k : Nat) : Bool :=
  let v := (s.rd SEC_KEY_STAT).toNat
  (List.range 4).any fun j => j ≠ k && bitsN v j 1 = 1 && bitsN v (4 + j) 1 = 0

/-- KEY_REVOKE (R383): a revocation bit is never cleared. The debug key has none. -/
def execKeyRevoke (slot : KeySlot) (s : State) : Out :=
  if !s.permitted permKEYS then .next s.secRefuse
  else
    match slot with
    | .pub k =>
      if s.otherPub k.val then .next ((s.setF ⟨SEC_KEY_STAT, 4 + k.val, 1⟩ 1).answer ST_OK)
      else .next s.secRefuse
    | .aes k => .next ((s.setF ⟨SEC_KEY_STAT, 12 + k.val, 1⟩ 1).answer ST_OK)
    | .dbg => .next s.secRefuse

/-- SEC_POLICY_WRITE (R387, R388): through SEC_ACCESS, which PRODUCTION opens with LIFECYCLE or
KEYS. -/
def execSecPolicyWrite (v : Word) (s : State) : Out :=
  if s.permitted permLIFECYCLE || s.permitted permKEYS then .next ((s.wr SEC_POLICY (v &&& 7)).answer ST_OK)
  else .next s.secRefuse

/-! ### Flash and boundary scan (R310, R384, R389) -/

/-- XSPI_ACCESS (R310, R384): the board programs a slot in cold reset, the debug port with the
FLASH permission any but the slot that GLB_FW_SET names. -/
def execXspiAccess (slotB : Bool) (content : FlashSlot) (s : State) : Out :=
  let cold := s.reset_.boot == .held && s.reset_.lastKind == 0
  if cold || (s.permitted permFLASH && s.flag GLB_FW_SET_SLOT ≠ slotB) then
    let sec := if slotB then { s.sec with slotB := some content } else { s.sec with slotA := some content }
    .next ({ s with sec := sec }.answer ST_OK)
  else .next s.secRefuse

/-- BOUNDARY_SCAN (R388, R389): accepted only in INIT or SAFE; a refused instruction selects
BYPASS. The cells of the gate outputs and of the safety outputs observe only. -/
def execBoundaryScan (i : ScanInstr) (s : State) : Out :=
  let st := s.fld SAF_STATUS_STATE
  if s.permitted permBSCAN && (st = safINIT || st = safSAFE) then
    .next ({ s with dport := { s.dport with ir := some i } }.answer ST_OK)
  else .next ({ s with dport := { s.dport with ir := none } }.answer ST_NOT_PERMITTED)

end Sys2Proof.Machine
end

