-- ==== Sys2Proof/Machine/Csr.lean ====
section
/-! DEFINITION. CSR space: which unit takes a write or answers a read, and the commands that
address a register by its offset (R25, R27, R31–R33, R367). -/

namespace Sys2Proof.Machine

/-- The source may write a register whose writers the table names by unit. -/
def ownOk (o : Own) (src : Nat) : Bool :=
  match o with
  | .scp => src == mSCP
  | .sfp => src == mSFP
  | .hip => src == mHIP
  | .hipHost => src == mHIP || src == mPCIe
  | .scpHip => src == mSCP || src == mHIP
  | _ => true

/-- A write to a register that only its access types and its writers govern. -/
def State.ownWrite (s : State) (src off : Nat) (v : Word) : State :=
  match regAt off with
  | none => s.answer ST_OK
  | some (r, _) =>
    if readOnly off then s.answer ST_OK
    else if ownOk r.own src then ((s.hostAccess src).plainWrite off v).answer ST_OK
    else s.refuseWrite ST_NOT_PERMITTED src off

/-- A write in the GLB block. -/
def State.glbWrite (s : State) (src off : Nat) (v : Word) : State :=
  if off = GLB_WDOG_SCP then s.kickWrite src .scp v
  else if off = GLB_WDOG_HIP then s.kickWrite src .hip v
  else s.ownWrite src off v

/-- A write in the MBX block. -/
def State.mbxBlockWrite (s : State) (src off : Nat) (v : Word) : State :=
  if off < MBX_CTL 16 then s.mbxCtlWrite src ((off - MBX_CTL 0) / 4) v
  else if off = MBX_HB then s.hbWrite src
  else if MBX_DATA 0 0 ≤ off && off < MBX_DATA 16 0 then s.mbxDataWrite src ((off - MBX_DATA 0 0) / 256) off v
  else s.answer ST_OK

/-- A write in the PWR block. -/
def State.pwrWrite (s : State) (src off : Nat) (v : Word) : State :=
  if PWR_DOM_CTL 0 ≤ off && off < PWR_DOM_CTL 50 then s.domCtlWrite src ((off - PWR_DOM_CTL 0) / 4) v
  else if off = PWR_CFG then
    if src ≠ mHIP then s.refuseWrite ST_NOT_PERMITTED src off
    else ((s.plainWrite off v).reqUpdate).answer ST_OK
  else s.ownWrite src off v

/-- A write in the SAF and HMK block: from the SFP only (R277). -/
def State.safWrite (s : State) (src off : Nat) (v : Word) : State :=
  if off = SAF_WDOG then s.kickWrite src .sfp v
  else if src ≠ mSFP then s.refuseWrite ST_NOT_PERMITTED src off
  else (s.plainWrite off v).answer ST_OK

/-- A write in the FAC block (R86, R88). -/
def State.facWriteReg (s : State) (src off : Nat) (v : Word) : State :=
  let f := (off - FAC_DESC_LO 0) / 0x10000
  if off = FAC_DESC_HI f then s.submit src f v
  else if off = FAC_URGENT_HI f then s.urgent src f v
  else if off = FAC_CTL f then s.facCtlWrite src f v
  else s.ownWrite src off v

/-- A write in the ARB block (R147, R152, R154). -/
def State.arbWrite (s : State) (src off : Nat) (v : Word) : State :=
  if ARB_CLASS 0 ≤ off && off < ARB_CLASS 260 then s.classWrite src ((off - ARB_CLASS 0) / 4) v
  else if ARB_WIN_BASE 0 ≤ off && off < ARB_WIN_BASE 4096 then
    let w := (off - ARB_WIN_BASE 0) / 16
    if off = ARB_WIN_CTL w then s.winCtlWrite src w v
    else if off = ARB_WIN_REJ w then s.answer ST_OK
    else s.winRangeWrite src w off v
  else if ARB_SO_SET 0 ≤ off && off < ARB_SO_SET 16384 then s.soSet src ((off - ARB_SO_SET 0) / 4) v
  else if ARB_SO_WAIT 0 ≤ off && off < ARB_SO_WAIT 16384 then
    (s.setArmed src ((off - ARB_SO_WAIT 0) / 4) (some v)).answer ST_OK
  else s.ownWrite src off v

/-- A write of PLK_CFG: the HIP, while PAIR is STOPPED or CONFIG. -/
def State.plkWrite (s : State) (src off : Nat) (v : Word) : State :=
  if off ≠ PLK_CFG then s.answer ST_OK
  else if src = mHIP && (s.pair.fn = .stopped || s.pair.fn = .config) then (s.plainWrite off v).answer ST_OK
  else s.refuseWrite ST_NOT_PERMITTED src off

/-- An aligned word written to a register, by block (R27). A reserved offset ignores it, and so does a register
that is only read: R233 and R339 limit the sources of configuration registers (R32). -/
def State.csrPut (s : State) (src off : Nat) (v : Word) : State :=
  if (regAt off).isNone then s.answer ST_OK
  else if off < 0x10000 then s.glbWrite src off v
  else if off < 0x20000 then s.mbxBlockWrite src off v
  else if off < 0x30000 then s.pwrWrite src off v
  else if off < 0x40000 then s.rckWrite src off v
  else if off < 0x50000 then s.safWrite src off v
  else if 0x50000 ≤ off && off < 0xC0000 && readOnly off then s.answer ST_OK
  else if off < 0x60000 then s.timWrite src off v
  else if off < 0x68000 then s.canWrite src ((off - 0x60000) / 0x1000) off v
  else if off < 0xA0000 then s.ethWrite src off v
  else if off < 0xB0000 then s.sleWrite src ((off - 0xA0000) / 0x1000) off v
  else if off < 0xC0000 then s.hltWrite src off v
  else if off < 0x100000 then s.camWrite src ((off - 0xC0000) / 0x1000) off v
  else if off < 0x140000 then s.ringWriteReg src off v
  else if off < 0x150000 then s.soAdd src ((off - 0x140000) / 4) v
  else if off < 0x400000 then s.facWriteReg src off v
  else if off < 0x800000 then s.beadBlockWrite src ((off - 0x400000) / 0x400) off v
  else if off < 0x810000 then
    let b := (off - 0x800000) / 0x100
    if off = MM_CTL b then s.bankReq src b (v.toNat % 4) else s.answer ST_OK
  else if off < 0xA00000 then s.arbWrite src off v
  else if off < 0xA30000 then s.answer ST_OK
  else if off < 0xA40000 then s.plkWrite src off v
  else if off < 0xA50000 then s.pciWrite src off v
  else s.answer ST_OK

/-- The block takes no write from the host through BAR0 (R25). -/
def bar0Refuses (off : Nat) : Bool :=
  (0x40000 ≤ off && off < 0x50000) || (0xA00000 ≤ off && off < 0xA20000)

/-- A write of a word with byte enables at an offset (R25, R31). -/
def State.csrWriteOp (s : State) (src off : Nat) (be : BitVec 4) (v : Word) : State :=
  let s := s.hostAccess src
  if be ≠ 0xF || off % 4 ≠ 0 then s.refuseWrite ST_BAD_FIELD src off
  else if src = mPCIe && bar0Refuses off then s.refuseWrite ST_NOT_PERMITTED src off
  else s.csrPut src off v

/-- LO and HI of a 64-bit count: reading LO latches HI. -/
def State.latch (s : State) (hi : Nat) (c : BitVec 64) : Word × State :=
  (c.setWidth 32, s.wr hi ((c >>> 32).setWidth 32))

/-- A read in the FAC block: FAC_ACTIVE_CLK_LO latches HI (R88). -/
def State.facReadReg (s : State) (off : Nat) : Word × State :=
  let f := (off - FAC_DESC_LO 0) / 0x10000
  if off = FAC_ACTIVE_CLK_LO f then s.latch (FAC_ACTIVE_CLK_HI f) (s.facet f).activeClk else s.plainRead off

/-- A read in the IFE block: DSC_FREE is counted (R206). -/
def State.ifeReadReg (s : State) (off : Nat) : Word × State :=
  let c := (off - 0xC0000) / 0x1000
  let (w, s) := s.plainRead off
  (if c < 4 && off = IFE_STAT c then (IFE_STAT_DSC_FREE c).set (s.dscFree c) w else w, s)

/-- A read in the SLE block: SLE_POS_LO latches HI (R231). -/
def State.sleReadReg (s : State) (off : Nat) : Word × State :=
  let a := (off - 0xA0000) / 0x1000
  if off = SLE_POS_LO a then s.latch (SLE_POS_HI a) ((s.axis a).posB.setWidth 64) else s.plainRead off

/-- The register at an offset as a read returns it. Reads of sync-object words are the
engine's. MON_PROC reports the part's process corner, which the spec does not state (R363). -/
def State.csrGet (s : State) (off : Nat) : Word × State :=
  if off = PWR_ENERGY_LO then s.latch PWR_ENERGY_HI (BitVec.ofNat 64 (s.power.energyNj / 1000))
  else if off = MON_PROC then (Config.processCorner.setWidth 32, s)
  else if 0x50000 ≤ off && off < 0x60000 then s.timRead off
  else if 0xA0000 ≤ off && off < 0xB0000 then s.sleReadReg off
  else if 0xC0000 ≤ off && off < 0x100000 then s.ifeReadReg off
  else if 0x200000 ≤ off && off < 0x400000 then s.facReadReg off
  else if 0x400000 ≤ off && off < 0x800000 then s.beadBlockRead ((off - 0x400000) / 0x400) off
  else s.plainRead off

/-- A read of an aligned word: its answer stands in the reply (R31, R147). A WAIT that is held is
answered later. While a device reset is under way BAR0 reads outside RCK and MBX return zero
(R367). -/
def State.csrReadOp (s : State) (src off : Nat) : State :=
  let s := s.hostAccess src
  if src = mPCIe && s.reset_.devInReset && !(0x10000 ≤ off && off < 0x20000) && !(0x30000 ≤ off && off < 0x40000) then
    s.answer ST_OK (leBytes 4 0)
  else if 0x140000 ≤ off && off < 0x150000 then s.soRead src ((off - 0x140000) / 4)
  else if ARB_SO_WAIT 0 ≤ off && off < ARB_SO_WAIT 16384 then s.soAliasRead src ((off - ARB_SO_WAIT 0) / 4)
  else
    let (w, t) := s.csrGet (off / 4 * 4)
    t.answer ST_OK (leBytes 4 w.toNat)

/-- CSR space is 64 MiB (R21). -/
abbrev csrSize : Nat := 0x4000000

/-- Hardware sets W1C bits `hw` of a register in the clock in which a write may clear them: they end
set (R33). -/
def State.hardwareSets (s : State) (off : Nat) (hw : Word) : State :=
  match regAt off with
  | some (r, _) => if hw &&& BitVec.ofNat 32 r.w1c = 0 then s else s.wr off (s.rd off ||| (hw &&& BitVec.ofNat 32 r.w1c))
  | none => s

/-- CSR_WRITE (R31–R33), beside the W1C bits that hardware sets in the same clock. A write that names only
some bytes is refused at once; a whole word of the host keeps its place behind the earlier ones. -/
def execCsrWrite (src off : Nat) (be : BitVec 4) (v : RegWrite) (s : State) : Out :=
  if csrSize ≤ off then .fault .badOperand
  else if be ≠ 0xF then .next ((s.csrWriteOp src off be v.value).hardwareSets off v.hw)
  else .next ((s.hostWrite src off v.value fun s => s.csrWriteOp src off be v.value).hardwareSets off v.hw)

/-- RC_REGISTER_READ (R32, R33): the read returns the value from before an update `upd` of the
same clock, and the update is kept. -/
def execRcRegisterRead (src off upd : Nat) (s : State) : Out :=
  if csrSize ≤ off then .fault .badOperand
  else if s.hostStalls src then .next (s.holdHost (.read off))
  else
    let s := s.csrReadOp src off
    match regAt (off / 4 * 4) with
    | some (r, _) =>
      let rc := BitVec.ofNat 32 r.rc
      let off := off / 4 * 4
      .next (if r.rc = 0 || upd = 0 then s else s.wr off ((s.rd off &&& ~~~rc) ||| (BitVec.ofNat 32 upd &&& rc)))
    | none => .next s

end Sys2Proof.Machine
end

