-- ==== Sys2Proof/Machine/Mesh.lean ====
section
/-! DEFINITION. Requests on the mesh (R20–R22, R127, R136, R139, R392). -/

namespace Sys2Proof.Machine

/-- A request of `n` bytes is 4–64 B within one aligned 64-byte line (R136, R139). -/
def lineOk (addr n : Nat) : Bool := 4 ≤ n && n ≤ 64 && addr % 64 + n ≤ 64

/-- A request that was not applied is in the log (R400). -/
def State.refuseRequest (s : State) (st : St) (src : Nat) (addr : BitVec 64) (n : Nat) : State :=
  (s.log st src EV_REQUEST_REFUSED (s.target src addr).master addr).answer st (List.replicate n 0)

/-- The reply of a performed request; a refused one is logged. -/
def State.replied (s : State) (src : Nat) (addr : BitVec 64) (r : Reply) : State :=
  let s := { s with reply := r }
  if r.st = ST_OK then s else s.log r.st src EV_REQUEST_REFUSED (s.target src addr).master addr

/-- A request to a memory; one that waits at a clasp is answered later. -/
def State.memRequest (s : State) (src : Nat) (addr : BitVec 64) (op : ReqOp) : State :=
  let (r, t) := s.request src addr op
  if s.mustWait src addr op then t else t.replied src addr r

/-- A read request (R20, R31, R136, R387). CSR space answers aligned words. -/
def State.meshReadOp (s : State) (src : Nat) (addr : BitVec 64) (n : Nat) : State :=
  if (src = mPCIe || src = mDebug) && s.isSealed addr n then
    { s.refuseRequest ST_NOT_PERMITTED src addr n with reply :=
      { st := ST_NOT_PERMITTED, data := List.replicate n 0, ur := src = mPCIe } }
  else
    match s.target src addr with
    | .csr off => if n = 4 && off % 4 = 0 then s.csrReadOp src off else s.refuseRequest ST_BAD_FIELD src addr n
    | _ => s.memRequest src addr (.read n)

/-- A write request (R20–R22, R31, R136, R139, R151). -/
def State.meshWriteOp (s : State) (src : Nat) (addr : BitVec 64) (d : List Byte) (win epoch : BitVec 16) : State :=
  match s.target src addr with
  | .csr off =>
    if d.length = 4 && off % 4 = 0 then s.csrWriteOp src off 0xF (BitVec.ofNat 32 (leNat d))
    else s.refuseWrite ST_BAD_FIELD src off
  | _ => s.memRequest src addr (s.writeOp src addr d win epoch)

/-- A held request of the host is performed; the answer of a read comes later. -/
def State.hostPerform (s : State) : HostReq → State
  | .write off v => s.csrWriteOp mPCIe off 0xF v
  | .read off => let t := s.csrReadOp mPCIe off; t.answerLater mPCIe t.reply
  | .bar2 a n none => let t := s.bar2Read a n; t.answerLater mPCIe t.reply
  | .bar2 a _ (some d) => s.bar2Write a d

/-- The requests that the endpoint holds are performed in their order, as far as the host's earlier
writes have been performed (R279). -/
def State.hostDrain : Nat → State → State
  | 0, s => s
  | k + 1, s =>
    match s.reset_.heldHost with
    | [] => s
    | q :: rest =>
      if s.inStandby || s.fab.raised.any (fun q => q.src = mPCIe && q.op.isWrite) then s
      else State.hostDrain k ({ s with reset_ := { s.reset_ with heldHost := rest } }.hostPerform q)

/-- What a request on the mesh sets free at the endpoint is performed. -/
def State.hostFree (s : State) : State := s.hostDrain s.reset_.heldHost.length

/-- MESH_READ (R136). -/
def execMeshRead (src : Nat) (addr : BitVec 64) (len : Nat) (s : State) : Out :=
  if lineOk addr.toNat len then .next (s.meshReadOp src addr len).hostFree else .fault .badOperand

/-- MESH_WRITE (R136). -/
def execMeshWrite (src : Nat) (addr : BitVec 64) (data : List Byte) (win epoch : BitVec 16) (s : State) : Out :=
  if lineOk addr.toNat data.length then .next (s.meshWriteOp src addr data win epoch).hostFree
  else .fault .badOperand

/-- Device address of an offset in an alias of the issuing chip's map memory (R21). -/
def aliasAddr (base ofs : Nat) : BitVec 64 := BitVec.ofNat 64 (0xFFFF * 2 ^ 48 + base + ofs)

/-- An offset in map memory at which a request of `n` bytes may stand. -/
def mapOfsOk (ofs n : Nat) : Bool := ofs < 0x8000000 && lineOk ofs n

/-- SET_ALIAS_WRITE (R21, R139). -/
def execSetAliasWrite (src ofs : Nat) (data : List Byte) (s : State) : Out :=
  if mapOfsOk ofs data.length then .next (s.memRequest src (aliasAddr 0x20000000 ofs) (.setBits data 0xFFFF 0)).hostFree
  else .fault .badOperand

/-- CLEAR_ALIAS_WRITE (R21, R139). -/
def execClearAliasWrite (src ofs : Nat) (data : List Byte) (s : State) : Out :=
  if mapOfsOk ofs data.length then .next (s.memRequest src (aliasAddr 0x30000000 ofs) (.clearBits data 0xFFFF 0)).hostFree
  else .fault .badOperand

/-- A read-modify-write request: one aligned word of a Bead local memory (R127). -/
def State.rmwRequest (s : State) (src : Nat) (addr : BitVec 64) (op : ReqOp) : State :=
  if addr.toNat % 4 ≠ 0 then s.refuseRequest ST_BAD_FIELD src addr 4 else s.memRequest src addr op

/-- MESH_CMPSET (R127, R128). -/
def execMeshCmpset (src : Nat) (addr : BitVec 64) (cmp new : Word) (s : State) : Out :=
  .next (s.rmwRequest src addr (.cmpset cmp new)).hostFree

/-- MESH_COUNT (R127, R128). -/
def execMeshCount (src : Nat) (addr : BitVec 64) (inc : Word) (s : State) : Out :=
  .next (s.rmwRequest src addr (.count inc)).hostFree

/-- CLASP_TIMEOUT (R155): each beat not yet performed returns ST_CLASP_TIMEOUT. -/
def execClaspTimeout (src : Nat) (s : State) : Out :=
  match s.fab.clasps.find? (fun c => c.owner = src) with
  | none => .next s
  | some c =>
    let s := { s with fab := { s.fab with
      clasps := s.fab.clasps.filter fun x => x.owner ≠ src
      answered := s.fab.answered ++ List.replicate c.left (src, ({ st := ST_CLASP_TIMEOUT } : Reply)) } }
    let s := (s.setF ARB_CLASP_STAT_MASTER src).incF ARB_CLASP_STAT_COUNT 1
    .next (s.serve c.res).hostFree

end Sys2Proof.Machine
end

