-- ==== Sys2Proof/Machine/Float.lean ====
section
/-! DEFINITION. Arithmetic of the binary formats under IEEE 754 with its flags, for the F
extension and the vector lanes (R110, R111, R117). Each operation answers a code and the flags
it raises, as fcsr.fflags numbers them. -/

namespace Sys2Proof.Machine

abbrev flNX : Nat := 1
abbrev flUF : Nat := 2
abbrev flOF : Nat := 4
abbrev flDZ : Nat := 8
abbrev flNV : Nat := 16

/-- A code read with its sign; `q` is the magnitude. -/
inductive FVal where
  | num (neg : Bool) (q : Fr)
  | inf (neg : Bool)
  | nan (quiet : Bool)
  deriving DecidableEq, Repr

/-- A result code and the flags raised. -/
structure FRes where
  code : Nat
  fl : Nat
  deriving DecidableEq, Repr

/-- The rounding mode that fcsr.frm or an instruction names; 5–7 name none. -/
def rmOf : Nat → Option Rm
  | 0 => some .rne
  | 1 => some .rtz
  | 2 => some .rdn
  | 3 => some .rup
  | 4 => some .rmm
  | _ => none

/-- Sign bit of a code. -/
def Bin.neg (f : Bin) (c : Nat) : Bool := c / 2 ^ (f.p + f.w - 1) % 2 == 1

/-- Read a code. -/
def Bin.read (f : Bin) (c : Nat) : FVal :=
  match f.val c with
  | .num q => .num (f.neg c) q.abs
  | .inf neg => .inf neg
  | .nan => .nan (c / 2 ^ (f.p - 2) % 2 == 1)

def FVal.isNan : FVal → Bool
  | .nan _ => true
  | _ => false

def FVal.signalling : FVal → Bool
  | .nan q => !q
  | _ => false

/-- The value with the other sign. -/
def FVal.flip : FVal → FVal
  | .num n q => .num (!n) q
  | .inf n => .inf (!n)
  | .nan q => .nan q

/-- A signed exact number. -/
def signFr (neg : Bool) (q : Fr) : Fr := if neg then q.neg else q

/-- The NaN that an operation answers: the quiet NaN without a payload, as the F extension has
it; a signalling operand is invalid. -/
def Bin.nanRes (f : Bin) (xs : List FVal) : FRes :=
  ⟨f.nanCode, if xs.any FVal.signalling then flNV else 0⟩

/-- An invalid operation. -/
def Bin.invalid (f : Bin) : FRes := ⟨f.nanCode, flNV⟩

/-- The largest finite code is kept where the rounding mode does not pass it. -/
def overflowsToInf (rm : Rm) (neg : Bool) : Bool :=
  match rm with
  | .rne | .rmm => true
  | .rtz => false
  | .rdn => neg
  | .rup => !neg

/-- The value rounds, with an unbounded exponent, below the smallest normal number. -/
def Bin.tiny (f : Bin) (rm : Rm) (a : Fr) : Bool :=
  let (e, k) := roundSig rm f.p (a.log2 - 1) a
  (dyad k e).lt (pow2 f.emin)

/-- Round a number once; tininess is detected after rounding. -/
def Bin.pack (f : Bin) (rm : Rm) (neg : Bool) (q : Fr) : FRes :=
  let sg := f.signBit neg
  if q.isZero then ⟨sg, 0⟩
  else
    let a := signFr neg q
    let c := f.magCode rm a
    if f.infCode ≤ c then
      ⟨(if overflowsToInf rm neg then f.infCode else f.infCode - 1) + sg, flOF + flNX⟩
    else
      let exact := match f.val c with
        | .num x => x.eq q
        | _ => false
      ⟨c + sg, if exact then 0 else if f.tiny rm a then flUF + flNX else flNX⟩

/-- A signed number rounded once; an exact zero sum is negative only toward −∞. -/
def Bin.packSum (f : Bin) (rm : Rm) (a : Fr) : FRes :=
  if a.isZero then ⟨f.signBit (rm = .rdn), 0⟩ else f.pack rm (a.n < 0) a.abs

/-- x + y. -/
def Bin.addV (f : Bin) (rm : Rm) (x y : FVal) : FRes :=
  match x, y with
  | .nan _, _ | _, .nan _ => f.nanRes [x, y]
  | .inf s, .inf t => if s = t then ⟨f.infCode + f.signBit s, 0⟩ else f.invalid
  | .inf s, _ => ⟨f.infCode + f.signBit s, 0⟩
  | _, .inf t => ⟨f.infCode + f.signBit t, 0⟩
  | .num s a, .num t b =>
    if a.isZero && b.isZero && s = t then ⟨f.signBit s, 0⟩
    else f.packSum rm ((signFr s a).add (signFr t b))

/-- x × y. -/
def Bin.mulV (f : Bin) (rm : Rm) (x y : FVal) : FRes :=
  match x, y with
  | .nan _, _ | _, .nan _ => f.nanRes [x, y]
  | .inf s, .inf t => ⟨f.infCode + f.signBit (s != t), 0⟩
  | .inf s, .num t b | .num t b, .inf s =>
    if b.isZero then f.invalid else ⟨f.infCode + f.signBit (s != t), 0⟩
  | .num s a, .num t b => f.pack rm (s != t) (a.mul b)

/-- x ÷ y. -/
def Bin.divV (f : Bin) (rm : Rm) (x y : FVal) : FRes :=
  match x, y with
  | .nan _, _ | _, .nan _ => f.nanRes [x, y]
  | .inf _, .inf _ => f.invalid
  | .inf s, .num t _ => ⟨f.infCode + f.signBit (s != t), 0⟩
  | .num s _, .inf t => ⟨f.signBit (s != t), 0⟩
  | .num s a, .num t b =>
    if b.isZero then
      if a.isZero then f.invalid else ⟨f.infCode + f.signBit (s != t), flDZ⟩
    else f.pack rm (s != t) (a.div b)

/-- x × y + z, rounded once; infinity times zero is invalid whatever z is. -/
def Bin.fmaV (f : Bin) (rm : Rm) (x y z : FVal) : FRes :=
  let bad := match x, y with
    | .inf _, .num _ q | .num _ q, .inf _ => q.isZero
    | _, _ => false
  if bad then f.invalid
  else if x.isNan || y.isNan || z.isNan then f.nanRes [x, y, z]
  else
    match x, y, z with
    | .num s a, .num t b, .num u c =>
      let p := s != t
      if (a.mul b).isZero && c.isZero && p = u then ⟨f.signBit u, 0⟩
      else f.packSum rm ((signFr p (a.mul b)).add (signFr u c))
    | .num _ _, .num _ _, .inf u => ⟨f.infCode + f.signBit u, 0⟩
    | _, _, _ =>
      let sg (v : FVal) : Bool := match v with
        | .num s _ => s
        | .inf s => s
        | .nan _ => false
      let p := sg x != sg y
      match z with
      | .inf u => if p = u then ⟨f.infCode + f.signBit u, 0⟩ else f.invalid
      | _ => ⟨f.infCode + f.signBit p, 0⟩

/-- Largest k with k² ≤ n, by its bits from bit `b − 1` down. -/
def sqrtBits (n : Nat) : Nat → Nat → Nat
  | 0, r => r
  | b + 1, r => sqrtBits n b (if (r + 2 ^ b) * (r + 2 ^ b) ≤ n then r + 2 ^ b else r)

/-- √x: the root to 80 bits with a half bit standing for what is cut off, rounded once. -/
def Bin.sqrtV (f : Bin) (rm : Rm) (x : FVal) : FRes :=
  match x with
  | .nan _ => f.nanRes [x]
  | .inf neg => if neg then f.invalid else ⟨f.infCode, 0⟩
  | .num neg q =>
    if q.isZero then ⟨f.signBit neg, 0⟩
    else if neg then f.invalid
    else
      let h := q.log2 / 2 - 80
      let m := (q.mul (pow2 (-2 * h))).floor.toNat
      let r := sqrtBits m 90 0
      f.pack rm false ((⟨2 * r + (if r * r = m then 0 else 1), 2⟩ : Fr).mul (pow2 h))

/-- x < y for values without a NaN; −0 lies below +0 where `zeros` is set. -/
def FVal.less (zeros : Bool) : FVal → FVal → Bool
  | .nan _, _ | _, .nan _ => false
  | .inf s, .inf t => s && !t
  | .inf s, _ => s
  | _, .inf t => !t
  | .num s a, .num t b => if a.isZero && b.isZero then zeros && s && !t else (signFr s a).lt (signFr t b)

def FVal.same : FVal → FVal → Bool
  | .inf s, .inf t => s == t
  | .num s a, .num t b => (signFr s a).eq (signFr t b)
  | _, _ => false

/-- Convert between formats. -/
def Bin.convert (f g : Bin) (rm : Rm) (c : Nat) : FRes :=
  match f.read c with
  | .nan q => ⟨g.nanCode, if q then 0 else flNV⟩
  | .inf neg => ⟨g.infCode + g.signBit neg, 0⟩
  | .num neg q => g.pack rm neg q

/-- An integer rounded to a format. -/
def Bin.ofInt (f : Bin) (rm : Rm) (i : Int) : FRes := f.pack rm (i < 0) (Fr.ofInt i).abs

/-- A code rounded to an integer in [lo, hi]; none where it is invalid. -/
def Bin.toInt? (f : Bin) (rm : Rm) (lo hi : Int) (c : Nat) : Option (Int × Nat) :=
  match f.read c with
  | .num neg q =>
    let i := (signFr neg q).round rm
    if lo ≤ i && i ≤ hi then some (i, if (Fr.ofInt i).eq (signFr neg q) then 0 else flNX) else none
  | _ => none

/-- Minimum and maximum of the F extension: a NaN beside a number gives the number. -/
def Bin.minMax (f : Bin) (isMax : Bool) (a b : Nat) : FRes :=
  let x := f.read a
  let y := f.read b
  let fl := if x.signalling || y.signalling then flNV else 0
  if x.isNan && y.isNan then ⟨f.nanCode, fl⟩
  else if x.isNan then ⟨b, fl⟩
  else if y.isNan then ⟨a, fl⟩
  else ⟨if (y.less true x) = isMax then a else b, fl⟩

/-- Class mask of FCLASS.S. -/
def Bin.classOf (f : Bin) (c : Nat) : Nat :=
  match f.read c with
  | .inf neg => if neg then 2 ^ 0 else 2 ^ 7
  | .nan q => if q then 2 ^ 9 else 2 ^ 8
  | .num neg q =>
    if q.isZero then (if neg then 2 ^ 3 else 2 ^ 4)
    else if q.lt (pow2 f.emin) then (if neg then 2 ^ 2 else 2 ^ 5)
    else (if neg then 2 ^ 1 else 2 ^ 6)

end Sys2Proof.Machine
end

