-- ==== Sys2Proof/Machine/Rv.lean ====
section
/-! DEFINITION. The base instructions of a Bead core: RV32IMFC, Zicsr and Zifencei of the
RISC-V unprivileged ISA 20191213, and the machine-mode instructions (R110). A code that the
ISA reserves is illegal. -/

namespace Sys2Proof.Machine

/-- Integer operations. -/
inductive Alu where
  | add | sub | sll | slt | sltu | xor | srl | sra | or | and
  | mul | mulh | mulhsu | mulhu | div | divu | rem | remu
  deriving DecidableEq, Repr

/-- Branch conditions. -/
inductive Cond where
  | eq | ne | lt | ge | ltu | geu
  deriving DecidableEq, Repr

/-- Floating operations of two operands that round. -/
inductive FOp where
  | add | sub | mul | div
  deriving DecidableEq, Repr

/-- A decoded base instruction. `rm` is the rounding-mode field. -/
inductive Rv where
  | lui (rd : Nat) (imm : Word)
  | auipc (rd : Nat) (imm : Word)
  | jal (rd : Nat) (imm : Word)
  | jalr (rd rs1 : Nat) (imm : Word)
  | branch (c : Cond) (rs1 rs2 : Nat) (imm : Word)
  | load (len : Nat) (signed fp : Bool) (rd rs1 : Nat) (imm : Word)
  | store (len : Nat) (fp : Bool) (rs1 rs2 : Nat) (imm : Word)
  | alu (op : Alu) (rd rs1 rs2 : Nat)
  | alui (op : Alu) (rd rs1 : Nat) (imm : Word)
  | fence
  | nop
  | ecall
  | ebreak
  | mret
  /-- `kind` 1 writes, 2 sets, 3 clears; the source is x[rs1] or the number rs1 -/
  | csr (kind : Nat) (imm : Bool) (rd rs1 csr : Nat)
  | fma (negP negC : Bool) (rd rs1 rs2 rs3 rm : Nat)
  | farith (op : FOp) (rd rs1 rs2 rm : Nat)
  | fsqrt (rd rs1 rm : Nat)
  | fsgnj (kind rd rs1 rs2 : Nat)
  | fminmax (isMax : Bool) (rd rs1 rs2 : Nat)
  | fcmp (kind rd rs1 rs2 : Nat)
  | fclass (rd rs1 : Nat)
  | fcvtToInt (unsigned : Bool) (rd rs1 rm : Nat)
  | fcvtFromInt (unsigned : Bool) (rd rs1 rm : Nat)
  | fmvXW (rd rs1 : Nat)
  | fmvWX (rd rs1 : Nat)
  /-- a custom-0 word: one of the Bead extension (R116) -/
  | custom (w : Nat)
  deriving DecidableEq, Repr

/-- An immediate of `len` bits, sign-extended. -/
def immS (len v : Nat) : Word := BitVec.ofInt 32 (signedN len v)

def immN (v : Nat) : Word := BitVec.ofNat 32 v

/-- Immediates of the I, S, B, U and J formats. -/
def immI (w : Nat) : Word := immS 12 (bitsN w 20 12)
def immSt (w : Nat) : Word := immS 12 (bitsN w 25 7 * 32 + bitsN w 7 5)
def immB (w : Nat) : Word :=
  immS 13 (bitsN w 31 1 * 4096 + bitsN w 7 1 * 2048 + bitsN w 25 6 * 32 + bitsN w 8 4 * 2)
def immU (w : Nat) : Word := immN (bitsN w 12 20 * 4096)
def immJ (w : Nat) : Word :=
  immS 21 (bitsN w 31 1 * 2 ^ 20 + bitsN w 12 8 * 4096 + bitsN w 20 1 * 2048 + bitsN w 21 10 * 2)

def condOf : Nat → Option Cond
  | 0 => some .eq
  | 1 => some .ne
  | 4 => some .lt
  | 5 => some .ge
  | 6 => some .ltu
  | 7 => some .geu
  | _ => none

/-- Register-register operations by funct7 and funct3. -/
def aluOf : Nat → Nat → Option Alu
  | 0, 0 => some .add
  | 0, 1 => some .sll
  | 0, 2 => some .slt
  | 0, 3 => some .sltu
  | 0, 4 => some .xor
  | 0, 5 => some .srl
  | 0, 6 => some .or
  | 0, 7 => some .and
  | 32, 0 => some .sub
  | 32, 5 => some .sra
  | 1, 0 => some .mul
  | 1, 1 => some .mulh
  | 1, 2 => some .mulhsu
  | 1, 3 => some .mulhu
  | 1, 4 => some .div
  | 1, 5 => some .divu
  | 1, 6 => some .rem
  | 1, 7 => some .remu
  | _, _ => none

/-- Register-immediate operations. -/
def aluiOf (w : Nat) : Option Rv :=
  let rd := bitsN w 7 5
  let rs1 := bitsN w 15 5
  let f7 := bitsN w 25 7
  match bitsN w 12 3 with
  | 0 => some (.alui .add rd rs1 (immI w))
  | 1 => if f7 = 0 then some (.alui .sll rd rs1 (immN (bitsN w 20 5))) else none
  | 2 => some (.alui .slt rd rs1 (immI w))
  | 3 => some (.alui .sltu rd rs1 (immI w))
  | 4 => some (.alui .xor rd rs1 (immI w))
  | 5 =>
    if f7 = 0 then some (.alui .srl rd rs1 (immN (bitsN w 20 5)))
    else if f7 = 32 then some (.alui .sra rd rs1 (immN (bitsN w 20 5)))
    else none
  | 6 => some (.alui .or rd rs1 (immI w))
  | _ => some (.alui .and rd rs1 (immI w))

/-- Loads by funct3. -/
def loadOf (w : Nat) : Option Rv :=
  let rd := bitsN w 7 5
  let rs1 := bitsN w 15 5
  match bitsN w 12 3 with
  | 0 => some (.load 1 true false rd rs1 (immI w))
  | 1 => some (.load 2 true false rd rs1 (immI w))
  | 2 => some (.load 4 true false rd rs1 (immI w))
  | 4 => some (.load 1 false false rd rs1 (immI w))
  | 5 => some (.load 2 false false rd rs1 (immI w))
  | _ => none

/-- Stores by funct3. -/
def storeOf (w : Nat) : Option Rv :=
  match bitsN w 12 3 with
  | 0 => some (.store 1 false (bitsN w 15 5) (bitsN w 20 5) (immSt w))
  | 1 => some (.store 2 false (bitsN w 15 5) (bitsN w 20 5) (immSt w))
  | 2 => some (.store 4 false (bitsN w 15 5) (bitsN w 20 5) (immSt w))
  | _ => none

/-- SYSTEM. -/
def systemOf (w : Nat) : Option Rv :=
  let f3 := bitsN w 12 3
  if f3 = 0 then
    if w = 0x00000073 then some .ecall
    else if w = 0x00100073 then some .ebreak
    else if w = 0x30200073 then some .mret
    else if w = 0x10500073 then some .nop
    else none
  else if f3 = 4 then none
  else some (.csr (f3 % 4) (4 < f3) (bitsN w 7 5) (bitsN w 15 5) (bitsN w 20 12))

/-- The rounding-mode field names a mode or the dynamic one. -/
def rmField (k : Nat) : Bool := k ≤ 4 || k == 7

/-- OP-FP with format S. -/
def opFp (w : Nat) : Option Rv :=
  let rd := bitsN w 7 5
  let rm := bitsN w 12 3
  let rs1 := bitsN w 15 5
  let rs2 := bitsN w 20 5
  match bitsN w 25 7 with
  | 0x00 => if rmField rm then some (.farith .add rd rs1 rs2 rm) else none
  | 0x04 => if rmField rm then some (.farith .sub rd rs1 rs2 rm) else none
  | 0x08 => if rmField rm then some (.farith .mul rd rs1 rs2 rm) else none
  | 0x0C => if rmField rm then some (.farith .div rd rs1 rs2 rm) else none
  | 0x2C => if rmField rm && rs2 = 0 then some (.fsqrt rd rs1 rm) else none
  | 0x10 => if rm ≤ 2 then some (.fsgnj rm rd rs1 rs2) else none
  | 0x14 => if rm ≤ 1 then some (.fminmax (rm = 1) rd rs1 rs2) else none
  | 0x50 => if rm ≤ 2 then some (.fcmp rm rd rs1 rs2) else none
  | 0x60 => if rmField rm && rs2 ≤ 1 then some (.fcvtToInt (rs2 = 1) rd rs1 rm) else none
  | 0x68 => if rmField rm && rs2 ≤ 1 then some (.fcvtFromInt (rs2 = 1) rd rs1 rm) else none
  | 0x70 =>
    if rs2 ≠ 0 then none
    else if rm = 0 then some (.fmvXW rd rs1)
    else if rm = 1 then some (.fclass rd rs1)
    else none
  | 0x78 => if rs2 = 0 && rm = 0 then some (.fmvWX rd rs1) else none
  | _ => none

/-- FMADD, FMSUB, FNMSUB, FNMADD with format S. -/
def fmaOf (negP negC : Bool) (w : Nat) : Option Rv :=
  if bitsN w 25 2 = 0 && rmField (bitsN w 12 3) then
    some (.fma negP negC (bitsN w 7 5) (bitsN w 15 5) (bitsN w 20 5) (bitsN w 27 5) (bitsN w 12 3))
  else none

/-- A 32-bit instruction; none is illegal. -/
def rvDecode (w : Nat) : Option Rv :=
  let rd := bitsN w 7 5
  let f3 := bitsN w 12 3
  let rs1 := bitsN w 15 5
  let rs2 := bitsN w 20 5
  match bitsN w 0 7 with
  | 0x37 => some (.lui rd (immU w))
  | 0x17 => some (.auipc rd (immU w))
  | 0x6F => some (.jal rd (immJ w))
  | 0x67 => if f3 = 0 then some (.jalr rd rs1 (immI w)) else none
  | 0x63 => (condOf f3).map fun c => .branch c rs1 rs2 (immB w)
  | 0x03 => loadOf w
  | 0x23 => storeOf w
  | 0x13 => aluiOf w
  | 0x33 => (aluOf (bitsN w 25 7) f3).map fun o => .alu o rd rs1 rs2
  | 0x0F => if f3 = 0 then some .fence else if f3 = 1 then some .nop else none
  | 0x73 => systemOf w
  | 0x07 => if f3 = 2 then some (.load 4 false true rd rs1 (immI w)) else none
  | 0x27 => if f3 = 2 then some (.store 4 true rs1 rs2 (immSt w)) else none
  | 0x43 => fmaOf false false w
  | 0x47 => fmaOf false true w
  | 0x4B => fmaOf true false w
  | 0x4F => fmaOf true true w
  | 0x53 => opFp w
  | 0x0B => some (.custom w)
  | _ => none

/-- Compressed instructions, quadrant 0. -/
def rvc0 (h : Nat) : Option Rv :=
  let r1 := 8 + bitsN h 7 3
  let r2 := 8 + bitsN h 2 3
  let off := immN (bitsN h 10 3 * 8 + bitsN h 6 1 * 4 + bitsN h 5 1 * 64)
  match bitsN h 13 3 with
  | 0 =>
    let i := bitsN h 11 2 * 16 + bitsN h 7 4 * 64 + bitsN h 6 1 * 4 + bitsN h 5 1 * 8
    if i = 0 then none else some (.alui .add r2 2 (immN i))
  | 2 => some (.load 4 true false r2 r1 off)
  | 3 => some (.load 4 false true r2 r1 off)
  | 6 => some (.store 4 false r1 r2 off)
  | 7 => some (.store 4 true r1 r2 off)
  | _ => none

/-- Immediate of C.J and C.JAL. -/
def immCJ (h : Nat) : Word :=
  immS 12 (bitsN h 12 1 * 2048 + bitsN h 11 1 * 16 + bitsN h 9 2 * 256 + bitsN h 8 1 * 1024
    + bitsN h 7 1 * 64 + bitsN h 6 1 * 128 + bitsN h 3 3 * 2 + bitsN h 2 1 * 32)

/-- Immediate of C.BEQZ and C.BNEZ. -/
def immCB (h : Nat) : Word :=
  immS 9 (bitsN h 12 1 * 256 + bitsN h 10 2 * 8 + bitsN h 5 2 * 64 + bitsN h 3 2 * 2 + bitsN h 2 1 * 32)

/-- The 6-bit immediate of quadrants 1 and 2. -/
def immC6 (h : Nat) : Nat := bitsN h 12 1 * 32 + bitsN h 2 5

/-- The arithmetic of quadrant 1 on x8–x15. -/
def rvcArith (h : Nat) : Option Rv :=
  let r1 := 8 + bitsN h 7 3
  let r2 := 8 + bitsN h 2 3
  match bitsN h 10 2 with
  | 0 => if bitsN h 12 1 = 0 then some (.alui .srl r1 r1 (immN (bitsN h 2 5))) else none
  | 1 => if bitsN h 12 1 = 0 then some (.alui .sra r1 r1 (immN (bitsN h 2 5))) else none
  | 2 => some (.alui .and r1 r1 (immS 6 (immC6 h)))
  | _ =>
    if bitsN h 12 1 = 1 then none
    else
      match bitsN h 5 2 with
      | 0 => some (.alu .sub r1 r1 r2)
      | 1 => some (.alu .xor r1 r1 r2)
      | 2 => some (.alu .or r1 r1 r2)
      | _ => some (.alu .and r1 r1 r2)

/-- Compressed instructions, quadrant 1. -/
def rvc1 (h : Nat) : Option Rv :=
  let rd := bitsN h 7 5
  let i := immS 6 (immC6 h)
  match bitsN h 13 3 with
  | 0 => some (.alui .add rd rd i)
  | 1 => some (.jal 1 (immCJ h))
  | 2 => some (.alui .add rd 0 i)
  | 3 =>
    if immC6 h = 0 then none
    else if rd = 2 then
      some (.alui .add 2 2 (immS 10 (bitsN h 12 1 * 512 + bitsN h 6 1 * 16 + bitsN h 5 1 * 64
        + bitsN h 3 2 * 128 + bitsN h 2 1 * 32)))
    else some (.lui rd (immS 18 (immC6 h * 4096)))
  | 4 => rvcArith h
  | 5 => some (.jal 0 (immCJ h))
  | 6 => some (.branch .eq (8 + bitsN h 7 3) 0 (immCB h))
  | _ => some (.branch .ne (8 + bitsN h 7 3) 0 (immCB h))

/-- Compressed instructions, quadrant 2. -/
def rvc2 (h : Nat) : Option Rv :=
  let rd := bitsN h 7 5
  let rs2 := bitsN h 2 5
  let lsp := immN (bitsN h 12 1 * 32 + bitsN h 4 3 * 4 + bitsN h 2 2 * 64)
  let ssp := immN (bitsN h 9 4 * 4 + bitsN h 7 2 * 64)
  match bitsN h 13 3 with
  | 0 => if bitsN h 12 1 = 0 then some (.alui .sll rd rd (immN rs2)) else none
  | 2 => if rd = 0 then none else some (.load 4 true false rd 2 lsp)
  | 3 => some (.load 4 false true rd 2 lsp)
  | 4 =>
    if bitsN h 12 1 = 0 then
      if rs2 = 0 then (if rd = 0 then none else some (.jalr 0 rd 0)) else some (.alu .add rd 0 rs2)
    else if rs2 = 0 then (if rd = 0 then some .ebreak else some (.jalr 1 rd 0))
    else some (.alu .add rd rd rs2)
  | 6 => some (.store 4 false 2 rs2 ssp)
  | 7 => some (.store 4 true 2 rs2 ssp)
  | _ => none

/-- A 16-bit instruction; none is illegal. -/
def rvcDecode (h : Nat) : Option Rv :=
  match h % 4 with
  | 0 => rvc0 h
  | 1 => rvc1 h
  | 2 => rvc2 h
  | _ => none

/-- The length in bytes of the instruction that begins with a halfword. -/
def rvLen (h : Nat) : Nat := if h % 4 = 3 then 4 else 2

/-- Integer operations (the division corners as the M extension gives them). -/
def Alu.eval (op : Alu) (a b : Word) : Word :=
  match op with
  | .add => a + b
  | .sub => a - b
  | .sll => a <<< (b.toNat % 32)
  | .slt => if a.toInt < b.toInt then 1 else 0
  | .sltu => if a.toNat < b.toNat then 1 else 0
  | .xor => a ^^^ b
  | .srl => a >>> (b.toNat % 32)
  | .sra => a.sshiftRight (b.toNat % 32)
  | .or => a ||| b
  | .and => a &&& b
  | .mul => a * b
  | .mulh => BitVec.ofInt 32 (a.toInt * b.toInt / 2 ^ 32)
  | .mulhsu => BitVec.ofInt 32 (a.toInt * b.toNat / 2 ^ 32)
  | .mulhu => BitVec.ofNat 32 (a.toNat * b.toNat / 2 ^ 32)
  | .div => if b = 0 then BitVec.ofInt 32 (-1) else BitVec.ofInt 32 (a.toInt.tdiv b.toInt)
  | .divu => if b = 0 then BitVec.ofInt 32 (-1) else BitVec.ofNat 32 (a.toNat / b.toNat)
  | .rem => if b = 0 then a else BitVec.ofInt 32 (a.toInt.tmod b.toInt)
  | .remu => if b = 0 then a else BitVec.ofNat 32 (a.toNat % b.toNat)

def Cond.holds (c : Cond) (a b : Word) : Bool :=
  match c with
  | .eq => a == b
  | .ne => a != b
  | .lt => a.toInt < b.toInt
  | .ge => b.toInt ≤ a.toInt
  | .ltu => a.toNat < b.toNat
  | .geu => b.toNat ≤ a.toNat

/-! ### The Bead extension (R116) -/

/-- What an instruction field names. -/
inductive FieldKind where
  | vec | wide | free
  deriving DecidableEq, Repr

/-- A vector field uses its bits [2:0], a wide-sum field its bits [1:0]. -/
def FieldKind.ok (k : FieldKind) (r : Nat) : Bool :=
  match k with
  | .vec => r < 8
  | .wide => r < 4
  | .free => true

/-- Which lane types an instruction accepts, and what its fields rd, rs1 and rs2 name. -/
structure ExtForm where
  allTy : Bool
  rd : FieldKind
  rs1 : FieldKind
  rs2 : FieldKind
  deriving DecidableEq, Repr

def ExtForm.legal (f : ExtForm) (ty rd rs1 rs2 : Nat) : Bool :=
  (f.allTy || ty == 0) && f.rd.ok rd && f.rs1.ok rs1 && f.rs2.ok rs2

abbrev formVVV : ExtForm := ⟨true, .vec, .vec, .vec⟩
abbrev formVV : ExtForm := ⟨true, .vec, .vec, .free⟩
abbrev formVX : ExtForm := ⟨true, .vec, .free, .free⟩
abbrev formXV : ExtForm := ⟨true, .free, .vec, .free⟩
abbrev formWX : ExtForm := ⟨false, .wide, .free, .free⟩
abbrev formWVV : ExtForm := ⟨true, .wide, .vec, .vec⟩
abbrev formWV : ExtForm := ⟨true, .wide, .vec, .free⟩
abbrev formWW : ExtForm := ⟨false, .wide, .wide, .free⟩
abbrev formFW : ExtForm := ⟨false, .free, .wide, .free⟩
abbrev formVMem : ExtForm := ⟨false, .vec, .free, .free⟩
abbrev formVIdx : ExtForm := ⟨true, .vec, .free, .vec⟩
abbrev formX : ExtForm := ⟨false, .free, .free, .free⟩

/-- The table of R116 by funct3 and OP. -/
def extForm : Nat → Nat → Option ExtForm
  | 0, 0 | 0, 1 | 0, 2 | 0, 3 | 0, 4 | 0, 5 => some formVVV
  | 0, 6 => some formVV
  | 0, 7 => some formVX
  | 0, 8 => some formXV
  | 1, 0 => some formWX
  | 1, 1 => some formWVV
  | 1, 2 => some formWV
  | 1, 3 => some formWW
  | 1, 4 => some formFW
  | 1, 5 | 1, 6 => some formWX
  | 2, 0 | 2, 1 => some formVMem
  | 2, 2 | 2, 3 => some formVIdx
  | 2, 4 | 2, 5 => some formX
  | 3, 0 => some formX
  | _, _ => none

/-- A custom-0 word is an instruction of the extension. -/
def extLegal (w : Nat) : Bool :=
  match extForm (bitsN w 12 3) (bitsN w 27 5) with
  | some f => f.legal (bitsN w 25 2) (bitsN w 7 5) (bitsN w 15 5) (bitsN w 20 5)
  | none => false

end Sys2Proof.Machine
end

