-- ==== Sys2Proof/Machine/BeadCore.lean ====
section
/-! DEFINITION. The Bead core: its clocks, its accesses, its base instructions and what answers
its remote accesses (R110–R114, R119, R127). -/

namespace Sys2Proof.Machine

/-! ### Clocks -/

/-- The task that runs on node `n` (R165, R358). -/
def State.beadTask (s : State) (n : Nat) : Option Nat :=
  match s.model.pkg with
  | none => none
  | some p =>
    ((s.model.insts.flatMap Inst.running).find? fun r =>
      match p.task r.task with
      | some t => (t.kind = 2 || t.kind = 4) && (p.keys t r.cand).contains (100 + n)
      | none => false).map RunTask.task

/-- mcountinhibit stops a counter: bit 0 cycle, bit 2 instret (R110). -/
def BeadSt.inhibits (b : BeadSt) (i : Nat) : Bool := (kget 0 b.mcsr 0x320).getLsbD i

/-- `k` Bead clocks in RUNNING pass: the counters advance, and the task is charged (R133, R358). -/
def State.beadClocks (s : State) (n k : Nat) : State :=
  let b := s.bead n
  let s := s.setBead n { b with
    cycle := b.cycle + (if b.inhibits 0 then 0 else BitVec.ofNat 64 k), activeClk := b.activeClk + BitVec.ofNat 64 k }
  match s.beadTask n with
  | some t => s.noteActive t (k * beadCharge (s.fld (PWR_DOM_STAT_GRANTED (domRegion (beadRegion n)))))
  | none => s

/-- An instruction completes and the core continues at `pc`. How many clocks it takes is open
but for its least (R119), so the rest is a free value. -/
def State.retire (s : State) (n : Nat) (pc : Word) (least : Nat := 1) : State :=
  let b := s.bead n
  let s := (s.setBead n { b with
    pc := pc, instret := b.instret + (if b.inhibits 2 then 0 else 1) }).corrected (.blm n 0)
  let (k, s) := s.fresh
  s.beadClocks n (least + k.toNat)

/-- The next instruction follows at `ilen` bytes. -/
def State.goOn (s : State) (n ilen : Nat) (least : Nat := 1) : State :=
  s.retire n ((s.bead n).pc + BitVec.ofNat 32 ilen) least

/-! ### Addresses and accesses (R113) -/

/-- What a core address maps. -/
inductive CoreAddr where
  | blm (off : Nat)
  | csr (off : Nat)
  | remote (a : BitVec 64)
  | none
  deriving DecidableEq, Repr

/-- The core address map of node `n` (R113). -/
def State.coreAddr (s : State) (n : Nat) (a : Word) : CoreAddr :=
  let a := a.toNat
  if a < 0x10000 then .blm a
  else if a < 0x10400 then .csr (BEAD_CTL n + (a - 0x10000))
  else if 0x80000000 ≤ a then
    .remote (s.rd64 (BEAD_RWIN_LO n) (BEAD_RWIN_HI n) + BitVec.ofNat 64 (a - 0x80000000))
  else .none

/-- Where byte `off` of a node's local memory lies. -/
def State.blmAt (s : State) (n off : Nat) : Nat := s.physBead n * 0x10000 + off

/-- Device address of a byte of a node's local memory (R21). -/
def blmAddr (n off : Nat) : BitVec 64 := BitVec.ofNat 64 (0x40000000 + n * 0x10000 + off)

/-- `len` bytes of the node's local memory; none where a word is poisoned. -/
def State.blmRead (s : State) (n off len : Nat) : Option Nat :=
  if s.mems.blm.anyBad 4 (s.blmAt n off) len then none
  else some (leNat (s.mems.blm.bytes (s.blmAt n off) len))

/-- Bytes are stored in the node's local memory; a write that covers only part of a poisoned
word is not applied (R398). -/
def State.blmWrite (s : State) (n off : Nat) (d : List Byte) : State :=
  match s.mems.blm.store 4 (s.blmAt n off) d with
  | some m => s.setMem .blm m
  | none => (s.setF (BEAD_FLAGS_ECC n) 1).log ST_ECC_UNCORRECTED n EV_ECC 1 (blmAddr n off)

/-- What a load of `len` bytes delivers. -/
def loadVal (len : Nat) (signed : Bool) (v : Nat) : Word :=
  if signed then BitVec.ofInt 32 (signedN (8 * len) v) else BitVec.ofNat 32 (v % 2 ^ (8 * len))

/-- A register takes a loaded value and the instruction completes. -/
def State.deliver (s : State) (n : Nat) (fp : Bool) (rd ilen : Nat) (v : Word) : State :=
  let b := s.bead n
  (s.setBead n (if fp then b.setFr rd v else b.setX rd v)).goOn n ilen

/-- A load (R112–R114). -/
def State.coreLoad (s : State) (n len : Nat) (signed fp : Bool) (rd ilen : Nat) (a : Word) : State :=
  if a.toNat % len ≠ 0 then s.beadFault n 4
  else
    match s.coreAddr n a with
    | .none => s.beadFault n 5
    | .blm off =>
      match s.blmRead n off len with
      | none => s.beadEcc n (blmAddr n off)
      | some v => s.deliver n fp rd ilen (loadVal len signed v)
    | .csr off =>
      let (w, t) := s.csrGet (off / 4 * 4)
      t.deliver n fp rd ilen (loadVal len signed (w.toNat / 2 ^ (8 * (off % 4))))
    | .remote d =>
      let q : RemoteLoad := ⟨d, .read len, len, signed, rd, fp, ilen, false, s.unitAt (s.target n d)⟩
      s.setBead n { s.bead n with stall := some q }

/-- A posted store leaves the core; one that meets a clasp is answered later (R114, R155). -/
def State.postStore (s : State) (n : Nat) (d : BitVec 64) (bytes : List Byte) : State :=
  let waits := s.mustWait n d (s.writeOp n d bytes (BitVec.ofNat 16 (s.fld (BEAD_WIN_WIN n)))
    (BitVec.ofNat 16 (s.fld (BEAD_WIN_EPOCH n))))
  let t := s.meshWriteOp n d bytes (BitVec.ofNat 16 (s.fld (BEAD_WIN_WIN n)))
    (BitVec.ofNat 16 (s.fld (BEAD_WIN_EPOCH n)))
  let st := if waits then none else some t.reply.st
  ({ t with reply := s.reply }).setBead n { t.bead n with posted := (t.bead n).posted ++ [st] }

/-- A store (R112–R114). -/
def State.coreStore (s : State) (n len ilen : Nat) (a : Word) (v : Word) : State :=
  if a.toNat % len ≠ 0 then s.beadFault n 6
  else
    match s.coreAddr n a with
    | .none => s.beadFault n 7
    | .blm off => (s.blmWrite n off (leBytes len v.toNat)).goOn n ilen
    | .csr off =>
      let t := s.csrWriteOp n (off / 4 * 4) (if len = 4 then 0xF else 0) v
      ({ t with reply := s.reply }).goOn n ilen
    | .remote d => (s.postStore n d (leBytes len v.toNat)).goOn n ilen

/-! ### Control and status registers of the core (R110) -/

/-- The low or the high half of a 64-bit counter. -/
def half (hi : Bool) (c : BitVec 64) : Word := if hi then (c >>> 32).setWidth 32 else c.setWidth 32

/-- A 64-bit counter with one half replaced. -/
def setHalf (hi : Bool) (v : Word) (c : BitVec 64) : BitVec 64 :=
  if hi then BitVec.ofNat 64 (c.toNat % 2 ^ 32 + v.toNat * 2 ^ 32)
  else BitVec.ofNat 64 (c.toNat / 2 ^ 32 * 2 ^ 32 + v.toNat)

/-- Machine-mode registers that hold a legal value of what is written. -/
def warlCsr (c : Nat) : Bool :=
  c == 0x304 || c == 0x305 || c == 0x320 || (0x323 ≤ c && c ≤ 0x33F) || c == 0x342 || c == 0x343
    || c == 0x344 || (0xB03 ≤ c && c ≤ 0xB1F) || (0xB83 ≤ c && c ≤ 0xB9F)

/-- The value of a control and status register; none where there is none. -/
def State.coreCsr (s : State) (n c : Nat) : Option Word :=
  let b := s.bead n
  if c = 0x001 then some ((b.fcsr &&& 0x1F).setWidth 32)
  else if c = 0x002 then some ((b.fcsr >>> 5).setWidth 32)
  else if c = 0x003 then some (b.fcsr.setWidth 32)
  else if c = 0xC00 || c = 0xB00 then some (half false b.cycle)
  else if c = 0xC80 || c = 0xB80 then some (half true b.cycle)
  else if c = 0xC01 then some (half false (BitVec.ofNat 64 s.now))
  else if c = 0xC81 then some (half true (BitVec.ofNat 64 s.now))
  else if c = 0xC02 || c = 0xB02 then some (half false b.instret)
  else if c = 0xC82 || c = 0xB82 then some (half true b.instret)
  else if c = 0x300 then some (kget 0 b.mcsr c ||| 0x80007800)
  else if c = 0x301 then some 0x40001124
  else if c = 0x310 then some 0
  else if c = 0x340 || c = 0x341 || warlCsr c then some (kget 0 b.mcsr c)
  else if 0xF11 ≤ c && c ≤ 0xF15 then some (Config.beadIdent c n)
  else none

/-- A control and status register takes a written value. -/
def BeadSt.setCsr (b : BeadSt) (c : Nat) (v : Word) : BeadSt :=
  if c = 0x001 then { b with fcsr := (b.fcsr &&& 0xE0) ||| (v.setWidth 8 &&& 0x1F) }
  else if c = 0x002 then { b with fcsr := (b.fcsr &&& 0x1F) ||| (v.setWidth 8 <<< 5) }
  else if c = 0x003 then { b with fcsr := v.setWidth 8 }
  else if c = 0xB00 || c = 0xB80 then { b with cycle := setHalf (c = 0xB80) v b.cycle }
  else if c = 0xB02 || c = 0xB82 then { b with instret := setHalf (c = 0xB82) v b.instret - (if b.inhibits 2 then 0 else 1) }
  else if c = 0x300 then { b with mcsr := kput c (v &&& 0x88) b.mcsr }
  else if c = 0x340 then { b with mcsr := kput c v b.mcsr }
  else if c = 0x341 then { b with mcsr := kput c (v &&& ~~~1) b.mcsr }
  else if warlCsr c then { b with mcsr := kput c (Config.beadLegal c v) b.mcsr }
  else b

/-- CSRRW, CSRRS, CSRRC and their immediate forms. -/
def State.csrOp (s : State) (n kind : Nat) (imm : Bool) (rd rs1 c : Nat) : State :=
  let b := s.bead n
  let src := if imm then BitVec.ofNat 32 rs1 else b.xr rs1
  let writes := kind == 1 || rs1 != 0
  match s.coreCsr n c with
  | none => s.beadFault n 2
  | some old =>
    if writes && 0xC00 ≤ c then s.beadFault n 2
    else
      let v := if kind = 1 then src else if kind = 2 then old ||| src else old &&& ~~~src
      let b := if writes then b.setCsr c v else b
      (s.setBead n (b.setX rd old)).goOn n 4

/-! ### Base instructions -/

/-- The rounding mode in force: the instruction's or fcsr.frm. -/
def BeadSt.rm (b : BeadSt) (field : Nat) : Option Rm := rmOf (if field = 7 then b.fcsr.toNat / 32 else field)

/-- Flags accrue in fcsr.fflags (R117). -/
def BeadSt.accrue (b : BeadSt) (fl : Nat) : BeadSt := { b with fcsr := b.fcsr ||| BitVec.ofNat 8 (fl % 32) }

/-- A floating result is written, its flags accrue and the instruction completes. -/
def State.fpDone (s : State) (n rd : Nat) (r : FRes) : State :=
  (s.setBead n (((s.bead n).setFr rd (BitVec.ofNat 32 r.code)).accrue r.fl)).goOn n 4

/-- An integer result of a floating instruction. -/
def State.fpInt (s : State) (n rd : Nat) (v : Word) (fl : Nat) : State :=
  (s.setBead n (((s.bead n).setX rd v).accrue fl)).goOn n 4

/-- A floating instruction whose rounding mode is legal. -/
def State.withRm (s : State) (n field : Nat) (f : Rm → State) : State :=
  match (s.bead n).rm field with
  | some rm => f rm
  | none => s.beadFault n 2

/-- A float register read as a value. -/
def BeadSt.fv (b : BeadSt) (r : Nat) : FVal := fFP32.read (b.fr r).toNat

/-- Sign injection: the sign of the second, its opposite, or the exclusive or. -/
def sgnj (kind : Nat) (a b : Word) : Word :=
  let sg := if kind = 0 then b else if kind = 1 then ~~~b else a ^^^ b
  (a &&& 0x7FFFFFFF) ||| (sg &&& 0x80000000)

/-- Comparison: FLE, FLT signal on every NaN, FEQ on signalling ones. -/
def fcmp (kind : Nat) (x y : FVal) : Word × Nat :=
  if x.isNan || y.isNan then
    (0, if kind ≠ 2 || x.signalling || y.signalling then flNV else 0)
  else
    let eq := x.same y
    (if kind = 2 then (if eq then 1 else 0) else if x.less false y || (kind = 0 && eq) then 1 else 0, 0)

/-- A float converted to an integer; an invalid one saturates as the F extension says. -/
def fcvtInt (unsigned : Bool) (rm : Rm) (c : Nat) : Word × Nat :=
  let lo : Int := if unsigned then 0 else -(2 ^ 31)
  let hi : Int := if unsigned then 2 ^ 32 - 1 else 2 ^ 31 - 1
  match fFP32.toInt? rm lo hi c with
  | some (i, fl) => (BitVec.ofInt 32 i, fl)
  | none =>
    let low := match fFP32.read c with
      | .num neg _ => neg
      | .inf neg => neg
      | .nan _ => false
    (BitVec.ofInt 32 (if low then lo else hi), flNV)

/-- The result of a two-operand floating instruction. -/
def FOp.eval (op : FOp) (rm : Rm) (x y : FVal) : FRes :=
  match op with
  | .add => fFP32.addV rm x y
  | .sub => fFP32.addV rm x y.flip
  | .mul => fFP32.mulV rm x y
  | .div => fFP32.divV rm x y

/-- FENCE waits for every posted store of the core (R114). -/
def State.fenceOp (s : State) (n : Nat) : State :=
  if (s.bead n).posted.isEmpty then s.goOn n 4
  else s.setBead n { s.bead n with fencing := true }

/-- MRET: the core continues at mepc, and mstatus.MIE takes MPIE. -/
def State.mretOp (s : State) (n : Nat) : State :=
  let b := s.bead n
  let old := kget 0 b.mcsr 0x300
  let b := { b with mcsr := kput 0x300 ((if old.getLsbD 7 then 8 else 0) ||| 0x80) b.mcsr }
  (s.setBead n b).retire n (kget 0 b.mcsr 0x341)

/-- The effect of a decoded base instruction of `ilen` bytes (R110–R114). A custom-0 word is the
concern of the rows of R116. -/
def State.rvExec (s : State) (n ilen : Nat) (i : Rv) : State :=
  let b := s.bead n
  let setX (rd : Nat) (v : Word) : State := (s.setBead n (b.setX rd v)).goOn n ilen
  match i with
  | .lui rd imm => setX rd imm
  | .auipc rd imm => setX rd (b.pc + imm)
  | .jal rd imm =>
    (s.setBead n (b.setX rd (b.pc + BitVec.ofNat 32 ilen))).retire n (b.pc + imm)
  | .jalr rd rs1 imm =>
    (s.setBead n (b.setX rd (b.pc + BitVec.ofNat 32 ilen))).retire n ((b.xr rs1 + imm) &&& ~~~1)
  | .branch c rs1 rs2 imm =>
    if c.holds (b.xr rs1) (b.xr rs2) then s.retire n (b.pc + imm) else s.goOn n ilen
  | .load len signed fp rd rs1 imm => s.coreLoad n len signed fp rd ilen (b.xr rs1 + imm)
  | .store len fp rs1 rs2 imm =>
    s.coreStore n len ilen (b.xr rs1 + imm) (if fp then b.fr rs2 else b.xr rs2)
  | .alu op rd rs1 rs2 => setX rd (op.eval (b.xr rs1) (b.xr rs2))
  | .alui op rd rs1 imm => setX rd (op.eval (b.xr rs1) imm)
  | .fence => s.fenceOp n
  | .nop => s.goOn n ilen
  | .ecall => s.beadFault n 11
  | .ebreak => s.beadFault n 3
  | .mret => s.mretOp n
  | .csr kind imm rd rs1 c => s.csrOp n kind imm rd rs1 c
  | .fma negP negC rd rs1 rs2 rs3 rm =>
    s.withRm n rm fun rm =>
      let x := b.fv rs1
      let z := b.fv rs3
      s.fpDone n rd (fFP32.fmaV rm (if negP then x.flip else x) (b.fv rs2) (if negC then z.flip else z))
  | .farith op rd rs1 rs2 rm => s.withRm n rm fun rm => s.fpDone n rd (op.eval rm (b.fv rs1) (b.fv rs2))
  | .fsqrt rd rs1 rm => s.withRm n rm fun rm => s.fpDone n rd (fFP32.sqrtV rm (b.fv rs1))
  | .fsgnj kind rd rs1 rs2 => s.fpDone n rd ⟨(sgnj kind (b.fr rs1) (b.fr rs2)).toNat, 0⟩
  | .fminmax isMax rd rs1 rs2 =>
    s.fpDone n rd (fFP32.minMax isMax (b.fr rs1).toNat (b.fr rs2).toNat)
  | .fcmp kind rd rs1 rs2 =>
    let r := fcmp kind (b.fv rs1) (b.fv rs2)
    s.fpInt n rd r.1 r.2
  | .fclass rd rs1 => s.fpInt n rd (BitVec.ofNat 32 (fFP32.classOf (b.fr rs1).toNat)) 0
  | .fcvtToInt u rd rs1 rm =>
    s.withRm n rm fun rm =>
      let r := fcvtInt u rm (b.fr rs1).toNat
      s.fpInt n rd r.1 r.2
  | .fcvtFromInt u rd rs1 rm =>
    s.withRm n rm fun rm =>
      s.fpDone n rd (fFP32.ofInt rm (if u then ((b.xr rs1).toNat : Int) else (b.xr rs1).toInt))
  | .fmvXW rd rs1 => s.fpInt n rd (b.fr rs1) 0
  | .fmvWX rd rs1 => s.fpDone n rd ⟨(b.xr rs1).toNat, 0⟩
  | .custom w => if extLegal w then s else s.beadFault n 2

/-- What a fetch at the pc gives: an instruction with its length, or the cause that stops the
core (R112, R113). -/
inductive Fetched where
  | op (i : Rv) (ilen : Nat)
  | stop (cause : Nat)
  | poison (off : Nat)
  deriving DecidableEq, Repr

/-- Fetch from the node's local memory only (R113). -/
def State.beadFetch (s : State) (n : Nat) : Fetched :=
  let pc := (s.bead n).pc.toNat
  if pc % 2 ≠ 0 then .stop 0
  else if 0x10000 ≤ pc then .stop 1
  else
    match s.blmRead n pc 2 with
    | none => .poison pc
    | some h =>
      if rvLen h = 2 then
        match rvcDecode h with
        | some i => .op i 2
        | none => .stop 2
      else if 0x10000 ≤ pc + 2 then .stop 1
      else
        match s.blmRead n (pc + 2) 2 with
        | none => .poison (pc + 2)
        | some g =>
          match rvDecode (h + g * 65536) with
          | some i => .op i 4
          | none => .stop 2

/-- BEAD_BASE_INSTRUCTION (R110). -/
def execBeadBaseInstruction (n : Fin 4096) (s : State) : Out :=
  let n := n.val
  if !s.beadReady n then .next s
  else
    match s.beadFetch n with
    | .op i len => .next (s.rvExec n len i)
    | .stop c => .next (s.beadFault n c)
    | .poison off => .next (s.beadEcc n (blmAddr n off))

/-! ### Remote accesses (R114) -/

/-- Take the first answer given later to node `n`: of a read, or of a write. -/
def State.takeAnswer (s : State) (n : Nat) (read : Bool) : Option (Reply × State) :=
  match s.fab.answered.find? fun a => a.1 = n && a.2.data.isEmpty != read with
  | none => none
  | some a => some (a.2, { s with fab := { s.fab with answered := s.fab.answered.erase a } })

/-- The response to a remote load completes or stops the core. -/
def State.respond (s : State) (n : Nat) (q : RemoteLoad) (st : St) (v : Nat) (poison : Bool) : State :=
  let s := s.setBead n { s.bead n with stall := none }
  if poison || st = ST_ECC_UNCORRECTED then (s.log ST_ECC_UNCORRECTED n EV_ECC 1 q.addr).beadFault n 0x18
  else if st ≠ ST_OK then s.beadFault n 0x19
  else s.deliver n q.fp q.rd q.ilen (loadVal q.len q.signed v)

/-- The remote request at its target; the flag says that its answer comes later. -/
def State.remoteAsk (s : State) (n : Nat) (q : RemoteLoad) : Bool × State :=
  match s.target n q.addr with
  | .csr off =>
    let t := match q.op with
      | .read _ => s.csrReadOp n (off / 4 * 4)
      | _ => s.refuseRequest ST_BAD_FIELD n q.addr 4
    (t.fab.waits.length != s.fab.waits.length, t)
  | _ =>
    (s.mustWait n q.addr q.op, s.memRequest n q.addr q.op)

/-- REMOTE_LOAD_RESPONSE (R114). A narrow read of a register takes its lane of the word. What
another chip answers is the row's operand (log entry 9). -/
def execRemoteLoadResponse (n : Fin 4096) (ext : RemoteReply) (s : State) : Out :=
  let n := n.val
  match (s.bead n).stall with
  | none => .next s
  | some q =>
    if q.waiting then
      match s.takeAnswer n true with
      | none => .next s
      | some (r, s) => .next (s.respond n q r.st (leNat r.data) r.ep)
    else
      match s.target n q.addr with
      | .remote c =>
        if s.routeUp c then .next (s.respond n q ext.st ext.data.toNat ext.poison)
        else .next (s.respond n q ST_BAD_STATE 0 false)
      | t =>
        let (waits, u) := s.atUnit (s.target n q.addr) q.unit fun s => s.remoteAsk n q
        let v := leNat u.reply.data / (match t with | .csr off => 2 ^ (8 * (off % 4)) | _ => 1)
        let r := u.reply
        let u := { u with reply := s.reply }
        if waits then .next (u.setBead n { u.bead n with stall := some { q with waiting := true } })
        else .next (u.respond n q r.st v r.ep)

/-- A posted store is acknowledged with its status: a failed one sets REMOTE_ERR and increments
the object of BEAD_ERR_SO; the last one lets a FENCE continue (R114). -/
def State.storeAcked (s : State) (n : Nat) (rest : List (Option St)) (st : St) : State :=
  let s := s.setBead n { s.bead n with posted := rest }
  let s := if st = ST_OK then s
    else (s.setF (BEAD_FLAGS_REMOTE_ERR n) 1).bumpSo n ((s.rd (BEAD_ERR_SO n)).toNat % 16384) 1
  let b := s.bead n
  if b.fencing && rest.isEmpty then (s.setBead n { b with fencing := false }).goOn n 4 else s

/-- REMOTE_STORE_ACK (R114). -/
def execRemoteStoreAck (n : Fin 4096) (s : State) : Out :=
  let n := n.val
  match (s.bead n).posted with
  | [] => .next s
  | some st :: rest => .next (s.storeAcked n rest st)
  | none :: rest =>
    match s.takeAnswer n false with
    | none => .next s
    | some (r, s) => .next (s.storeAcked n rest r.st)

end Sys2Proof.Machine
end

