-- ==== Sys2Proof/Machine/DataGet.lean ====
section
/-! DEFINITION. DATA_GET from MODEL (R288). -/

namespace Sys2Proof.Machine

/-- Woad reads a register word. A WAIT that its read raises and that is held answers later: the word that
DATA_GET delivers is then open (log entry 110). -/
def State.hipWord (s : State) (off : Nat) : List Byte × State :=
  let t := s.csrReadOp mHIP off
  if t.fab.waits.length ≤ s.fab.waits.length then (t.reply.data, t)
  else
    let (w, t) := t.fresh
    (leBytes 4 w.toNat, t)

/-- Woad reads `n` bytes at a device address: words of CSR space, else lines of memory. -/
def State.hipRead (s : State) (addr : BitVec 64) (n : Nat) : ReadRes × State :=
  match s.target mHIP addr with
  | .csr off =>
    if off % 4 ≠ 0 then (⟨ST_BAD_FIELD, List.replicate n 0, false⟩, s)
    else
      let (b, t) := (List.range (n / 4)).foldl (fun (b, s) i =>
        let (w, s) := s.hipWord (off + 4 * i)
        (b ++ w, s)) (([] : List Byte), s)
      (⟨ST_OK, b, false⟩, t)
  | _ => s.readLong mHIP addr n

/-- DATA_GET from MODEL (R288): poisoned words are delivered as zero. A refused read delivers nothing, nor
does a sealed range (R387). Its reads wait for another master's clasp (R155). -/
def execDataGetModel (via : Via) (s : State) : Out :=
  .next (s.modelCmd via opDATA_GET (s.hostCmd via opDATA_GET fMODEL fun c =>
    let addr := BitVec.ofNat 64 (fieldN c.arg 0 8)
    let len := fieldN c.arg 8 4
    if !c.argTail 12 || !c.payload.isEmpty || len < 4 || 65536 < len || len % 4 ≠ 0 || (c.isMbx && 224 < len) then
      s.complete c ST_BAD_FIELD
    else if (lines addr len).any fun l => s.isSealed (BitVec.ofNat 64 l.1) l.2 then s.complete c ST_NOT_PERMITTED
    else if s.claspMeets mHIP addr.toNat len then s
    else
      let (r, t) := s.hipRead addr len
      let t := { t with reply := s.reply }
      if r.st ≠ ST_OK then t.complete c r.st 0xFFFFFFFF
      else if !r.bad then t.complete c ST_OK 0xFFFFFFFF r.data
      else
        let (b, bad) := s.readClean addr.toNat len
        (t.log ST_ECC_UNCORRECTED mHIP EV_ECC 6 addr).complete c ST_ECC_UNCORRECTED (bad.getD 0xFFFFFFFF) b))

end Sys2Proof.Machine
end

