-- ==== Sys2Proof/Machine/Mover.lean ====
section
/-! DEFINITION. Node-mover transfers (R131, R132, R399). -/

namespace Sys2Proof.Machine

/-- A read request of a node's mover. A register is read as a word; a sync-object word gives its
count. -/
def State.moverRead (s : State) (n : Nat) (addr : BitVec 64) (k : Nat) : (St × List Byte) × State :=
  match s.target n addr with
  | .csr off =>
    let t :=
      if ARB_SO_WAIT 0 ≤ off && off < ARB_SO_WAIT 16384 then s.soRead n ((off - ARB_SO_WAIT 0) / 4)
      else s.csrReadOp n off
    ((t.reply.st, t.reply.data), { t with reply := s.reply })
  | _ =>
    let (r, t) := s.request n addr (.read k)
    ((r.st, r.data), if r.st = ST_OK then t else t.log r.st n EV_REQUEST_REFUSED (s.target n addr).master addr)

/-- A write request of a node's mover. -/
def State.moverWrite (s : State) (n : Nat) (addr : BitVec 64) (d : List Byte) (win epoch : BitVec 16) : St × State :=
  let t := s.meshWriteOp n addr d win epoch
  (t.reply.st, { t with reply := s.reply })

/-- The word at a device address is poisoned. -/
def State.wordBad (s : State) (n : Nat) (addr : BitVec 64) : Bool :=
  match s.locate (s.target n addr) with
  | some (sp, a) => (s.mem sp).anyBad sp.ecc a 4
  | none => false

/-- The word at a device address becomes poisoned. -/
def State.poisonAt (s : State) (n : Nat) (addr : BitVec 64) : State :=
  match s.locate (s.target n addr) with
  | some (sp, a) => s.setMem sp ((s.mem sp).setBad (a / sp.ecc) true)
  | none => s

/-- The address of a register. -/
def Target.isCsr : Target → Bool
  | .csr _ => true
  | _ => false

/-- Where a transfer's requests begin and how long they are: whole lines where both ends are
aligned, words otherwise (R131). -/
def State.moverParts (s : State) (n : Nat) (m : Mover) : List (Nat × Nat) :=
  let lines := if m.src.toNat % 64 = 0 && m.dst.toNat % 64 = 0 && !(s.target n m.src).isCsr
      && !(s.target n m.dst).isCsr then m.len / 64 else 0
  (List.range lines).map (fun i => (64 * i, 64))
    ++ (List.range ((m.len - 64 * lines) / 4)).map fun i => (64 * lines + 4 * i, 4)

/-- What the mover has read of one part: its place, its bytes, its poisoned words. -/
structure MoverPart where
  ofs : Nat
  data : List Byte
  bad : List Nat
  deriving DecidableEq, Repr

/-- A status on which a transfer goes on: poisoned words are written as poisoned (R399). -/
def moverOn (st : St) : Bool := st = ST_OK || st = ST_ECC_UNCORRECTED

/-- Read one part of the source. -/
def State.moverFetch (n : Nat) (m : Mover) (acc : St × List MoverPart × State) (p : Nat × Nat) :
    St × List MoverPart × State :=
  let (st, ps, s) := acc
  if !moverOn st then acc
  else
    let src := m.src + BitVec.ofNat 64 p.1
    let bad := (List.range (p.2 / 4)).filter fun i => s.wordBad n (src + BitVec.ofNat 64 (4 * i))
    let ((rs, d), s) := s.moverRead n src p.2
    if !moverOn rs then (rs, ps, s)
    else
      let s := if bad.isEmpty || st = ST_ECC_UNCORRECTED then s else s.log ST_ECC_UNCORRECTED n EV_ECC 2 src
      let bit := if bad.isEmpty && rs = ST_OK then ST_OK else ST_ECC_UNCORRECTED
      (if st ≠ ST_OK then st else bit, ps ++ [⟨p.1, d, bad⟩], s)

/-- Write one part to the destination, as long as no write has failed. -/
def State.moverStore (n : Nat) (m : Mover) (acc : St × State) (p : MoverPart) : St × State :=
  let (st, s) := acc
  if !moverOn st then acc
  else
    let dst := m.dst + BitVec.ofNat 64 p.ofs
    let (ws, s) := s.moverWrite n dst p.data m.win m.epoch
    if ws ≠ ST_OK then (ws, s)
    else (st, s.each p.bad fun s i => s.poisonAt n (dst + BitVec.ofNat 64 (4 * i)))

/-- One part of a transfer that is no clasp: read, then written. -/
def State.moverPart (n : Nat) (m : Mover) (acc : St × State) (p : Nat × Nat) : St × State :=
  let (st, ps, s) := State.moverFetch n m (acc.1, [], acc.2) p
  ps.foldl (State.moverStore n m) (st, s)

/-- The transfer is issued as one clasp (R156). -/
def State.moverClasp (s : State) (n : Nat) (m : Mover) : Bool :=
  let first := resourceOf (s.target n m.dst)
  64 ≤ m.len && m.len ≤ 1024 && m.dst.toNat % 64 == 0
    && first == resourceOf (s.target n (m.dst + BitVec.ofNat 64 (m.len - 1)))
    && (match first with | some r => r.claspable | none => false)

/-- A transfer issued as one clasp: the source is read completely first, and every byte is written or
none (R156). A node that holds an open clasp is refused another (R155). -/
def State.moverOneClasp (s : State) (n : Nat) (m : Mover) (parts : List (Nat × Nat)) : St × State :=
  let (st, ps, s) := parts.foldl (State.moverFetch n m) (ST_OK, [], s)
  if !moverOn st then (st, s)
  else if s.holdsClasp n then (ST_BAD_STATE, s)
  else
    let refused := ps.find? fun p =>
      s.precheck n (m.dst + BitVec.ofNat 64 p.ofs) (s.writeOp n (m.dst + BitVec.ofNat 64 p.ofs) p.data m.win m.epoch)
        ≠ ST_OK
    match refused with
    | some p => State.moverStore n m (st, s) p
    | none => ps.foldl (State.moverStore n m) (st, s)

/-- A transfer's length and addresses are those of R131. -/
def Mover.ok (m : Mover) : Bool :=
  4 ≤ m.len && m.len ≤ 65536 && m.len % 4 == 0 && m.src.toNat % 4 == 0 && m.dst.toNat % 4 == 0

/-- A request of the transfer waits at another master's clasp. -/
def State.moverWaits (s : State) (n : Nat) (m : Mover) : Bool :=
  (s.moverParts n m).any fun p =>
    s.blocked n (resourceOf (s.target n (m.src + BitVec.ofNat 64 p.1)))
      || s.blocked n (resourceOf (s.target n (m.dst + BitVec.ofNat 64 p.1)))

/-- MOVER_TRANSFER_END (R132): the running transfer is performed and ends; the one that waits
runs next. -/
def execMoverTransferEnd (n : Fin 4096) (s : State) : Out :=
  let n := n.val
  match (s.bead n).movers with
  | [] => .next s
  | m :: rest =>
    if m.ok && s.moverWaits n m then .next (s.waited n)
    else
      let (st, s) :=
        if !m.ok then (ST_BAD_FIELD, s)
        else if s.moverClasp n m then s.moverOneClasp n m (s.moverParts n m)
        else (s.moverParts n m).foldl (State.moverPart n m) (ST_OK, s)
      let s := (s.setMovers n rest).setF (BEAD_MOV_STAT_ST n) st.toNat
      let s := if st = ST_OK then s else (s.setF (BEAD_FLAGS_MOV_ERR n) 1).bumpSo n m.errSo 1
      .next (s.bumpSo n m.doneSo 1).hostFree

end Sys2Proof.Machine
end

