-- ==== Sys2Proof/Machine/ProcCore.lean ====
section
/-! DEFINITION. The core of a firmware processor: RV32IMAC of the RISC-V unprivileged ISA 20191213, machine
and user modes of the privileged ISA 1.12, 16 physical-memory-protection regions (R303, R304). The
addresses of its memories and what an implementation of that ISA chooses are constants of Config (log
entry 49). -/

namespace Sys2Proof.Machine

/-- The operations of the A extension's read-modify-write instructions. -/
inductive Amo where
  | swap | add | xor | and | or | min | max | minu | maxu
  deriving DecidableEq, Repr

/-- An instruction of a processor: of the base that Bead cores have too, or of the A extension. -/
inductive ProcOp where
  | base (i : Rv)
  | lr (rd rs1 : Nat)
  | sc (rd rs1 rs2 : Nat)
  | amo (op : Amo) (rd rs1 rs2 : Nat)
  deriving DecidableEq, Repr

/-- The instruction belongs to RV32IMC with Zicsr and Zifencei: no float, no extension of the Bead cores. -/
def Rv.integer : Rv → Bool
  | .load _ _ fp _ _ _ => !fp
  | .store _ fp _ _ _ => !fp
  | .lui _ _ | .auipc _ _ | .jal _ _ | .jalr _ _ _ | .branch _ _ _ _ | .alu _ _ _ _ | .alui _ _ _ _ => true
  | .fence | .nop | .ecall | .ebreak | .mret | .csr _ _ _ _ _ => true
  | _ => false

/-- The function field of an AMO. -/
def amoOf : Nat → Option Amo
  | 0x00 => some .add
  | 0x01 => some .swap
  | 0x04 => some .xor
  | 0x08 => some .or
  | 0x0C => some .and
  | 0x10 => some .min
  | 0x14 => some .max
  | 0x18 => some .minu
  | 0x1C => some .maxu
  | _ => none

/-- A 32-bit instruction of a processor; none is illegal. -/
def procDecode (w : Nat) : Option ProcOp :=
  if bitsN w 0 7 = 0x2F then
    let rd := bitsN w 7 5
    let rs1 := bitsN w 15 5
    let rs2 := bitsN w 20 5
    if bitsN w 12 3 ≠ 2 then none
    else if bitsN w 27 5 = 2 then (if rs2 = 0 then some (.lr rd rs1) else none)
    else if bitsN w 27 5 = 3 then some (.sc rd rs1 rs2)
    else (amoOf (bitsN w 27 5)).map fun o => .amo o rd rs1 rs2
  else
    match rvDecode w with
    | some i => if i.integer then some (.base i) else none
    | none => none

/-- What an AMO stores. -/
def Amo.eval (op : Amo) (m v : Word) : Word :=
  match op with
  | .swap => v
  | .add => m + v
  | .xor => m ^^^ v
  | .and => m &&& v
  | .or => m ||| v
  | .min => if v.toInt < m.toInt then v else m
  | .max => if m.toInt < v.toInt then v else m
  | .minu => if v.toNat < m.toNat then v else m
  | .maxu => if m.toNat < v.toNat then v else m

/-! ### Registers -/

def CoreSt.xr (c : CoreSt) (r : Nat) : Word := if r = 0 then 0 else kget 0 c.x r

def CoreSt.setX (c : CoreSt) (r : Nat) (v : Word) : CoreSt := if r = 0 then c else { c with x := kput r v c.x }

def CoreSt.reg (c : CoreSt) (k : Nat) : Word := kget 0 c.csr k

def CoreSt.setReg (c : CoreSt) (k : Nat) (v : Word) : CoreSt := { c with csr := kput k v c.csr }

def State.setCore (s : State) (p : Nat) (c : CoreSt) : State := s.setProc p { s.proc p with core := c }

abbrev csrMSTATUS : Nat := 0x300
abbrev csrMTVEC : Nat := 0x305
abbrev csrMCOUNTEREN : Nat := 0x306
abbrev csrMCOUNTINHIBIT : Nat := 0x320
abbrev csrMEPC : Nat := 0x341
abbrev csrMCAUSE : Nat := 0x342
abbrev csrMTVAL : Nat := 0x343

/-- Machine-mode registers that hold a legal value of what is written. -/
def coreWarl (k : Nat) : Bool :=
  warlCsr k || k == csrMCOUNTEREN || k == 0x30A || k == 0x31A

/-- The PMP entry `i` of 16: its configuration byte. -/
def CoreSt.pmpCfg (c : CoreSt) (i : Nat) : Nat := bitsN (c.reg (0x3A0 + i / 4)).toNat (8 * (i % 4)) 8

/-- A locked PMP entry takes no write until reset. -/
def CoreSt.pmpLocked (c : CoreSt) (i : Nat) : Bool := i < 16 && 128 ≤ c.pmpCfg i

/-- The configuration byte that a write leaves: bits [6:5] are zero, and write without read is reserved. -/
def CoreSt.pmpByte (c : CoreSt) (i v : Nat) : Nat :=
  if c.pmpLocked i then c.pmpCfg i
  else if v % 4 = 2 then bitsN (Config.procLegal (0x3A0 + i / 4) (BitVec.ofNat 32 v)).toNat 0 8 &&& 0x9D
  else v &&& 0x9F

/-- The value that a written machine register takes: the fields of mstatus are MIE, MPIE, MPP (machine or
user), MPRV and TW. -/
def coreLegal (k : Nat) (v : Word) : Word :=
  if k = csrMSTATUS then
    let mpp := bitsN v.toNat 11 2
    let m := mpp = 3 || (mpp ≠ 0 && (Config.procLegal k v).getLsbD 11)
    (v &&& 0x00220088) ||| (if m then 0x1800 else 0)
  else if k = csrMEPC then v &&& ~~~1
  else if k = 0x340 then v
  else Config.procLegal k v

/-- A control and status register takes a written value. -/
def CoreSt.setCsr (c : CoreSt) (k : Nat) (v : Word) : CoreSt :=
  if k = 0xB00 || k = 0xB80 then { c with cycle := setHalf (k = 0xB80) v c.cycle }
  else if k = 0xB02 || k = 0xB82 then { c with instret := setHalf (k = 0xB82) v c.instret - 1 }
  else if 0x3A0 ≤ k && k < 0x3A4 then
    c.setReg k (BitVec.ofNat 32 (leNat ((List.range 4).map fun j =>
      BitVec.ofNat 8 (c.pmpByte (4 * (k - 0x3A0) + j) (bitsN v.toNat (8 * j) 8)))))
  else if 0x3B0 ≤ k && k < 0x3C0 then
    let i := k - 0x3B0
    if c.pmpLocked i || (c.pmpLocked (i + 1) && bitsN (c.pmpCfg (i + 1)) 3 2 = 1) then c else c.setReg k v
  else if k = csrMSTATUS || k = csrMEPC || k = 0x340 || coreWarl k then c.setReg k (coreLegal k v)
  else c

/-- The value of a control and status register; none where there is none, or where user mode may not read
it. The counter `time` is open. -/
def State.procCsr (s : State) (p k : Nat) : Option Word :=
  let c := (s.proc p).core
  let count (i : Nat) (v : Word) : Option Word :=
    if c.user && !(c.reg csrMCOUNTEREN).getLsbD i then none else some v
  if c.user && 1 ≤ bitsN k 8 2 then none
  else if k = 0xC00 then count 0 (half false c.cycle)
  else if k = 0xC80 then count 0 (half true c.cycle)
  else if k = 0xC01 || k = 0xC81 then count 1 (Config.procWord s.free k)
  else if k = 0xC02 then count 2 (half false c.instret)
  else if k = 0xC82 then count 2 (half true c.instret)
  else if 0xC03 ≤ k && k ≤ 0xC1F then count (k - 0xC00) (c.reg (k - 0x100))
  else if 0xC83 ≤ k && k ≤ 0xC9F then count (k - 0xC80) (c.reg (k - 0x100))
  else if k = 0xB00 then some (half false c.cycle)
  else if k = 0xB80 then some (half true c.cycle)
  else if k = 0xB02 then some (half false c.instret)
  else if k = 0xB82 then some (half true c.instret)
  else if k = 0x301 then some 0x40101105
  else if k = 0x310 then some 0
  else if k = csrMSTATUS || k = 0x340 || k = csrMEPC || coreWarl k || (0x3A0 ≤ k && k < 0x3A4)
      || (0x3B0 ≤ k && k < 0x3C0) then some (c.reg k)
  else if 0xF11 ≤ k && k ≤ 0xF15 then some (Config.procIdent k p)
  else none

/-- A core whose contents are open (log entry 49): every register holds a legal value. -/
def openCore (g : Nat) : CoreSt :=
  let w (i : Nat) : Word := Config.procWord g i
  let c : CoreSt := {
    pc := w 0 &&& ~~~1
    user := (w 32).getLsbD 0
    cycle := BitVec.ofNat 64 ((w 33).toNat + 2 ^ 32 * (w 34).toNat)
    instret := BitVec.ofNat 64 ((w 35).toNat + 2 ^ 32 * (w 36).toNat)
    resv := if (w 37).getLsbD 0 then some ((w 38).toNat / 4 * 4) else none }
  let c := (List.range 31).foldl (fun c i => c.setX (i + 1) (w (i + 1))) c
  let k := [csrMSTATUS, 0x304, csrMTVEC, csrMCOUNTEREN, 0x30A, 0x31A, csrMCOUNTINHIBIT, 0x340, csrMEPC, csrMCAUSE,
    csrMTVAL, 0x344] ++ (List.range 29).flatMap (fun i => [0x323 + i, 0xB03 + i, 0xB83 + i])
  let c := k.foldl (fun c k => c.setCsr k (w k)) c
  ((List.range 16).map (0x3B0 + ·) ++ (List.range 4).map (0x3A0 + ·)).foldl (fun c k => c.setCsr k (w k)) c

/-! ### Traps -/

/-- An instruction completes and the core continues at `pc`; how many clocks it took is open. -/
def State.coreRetire (s : State) (p : Nat) (c : CoreSt) (pc : Word) : State :=
  let inh := c.reg csrMCOUNTINHIBIT
  let (k, s) := s.fresh
  s.setCore p { c with
    pc := pc
    instret := c.instret + (if inh.getLsbD 2 then 0 else 1)
    cycle := c.cycle + (if inh.getLsbD 0 then 0 else 1 + k.setWidth 64) }

/-- An exception: machine mode takes it at mtvec. What mtval tells is open. -/
def State.coreTrap (s : State) (p cause : Nat) : State :=
  let c := (s.proc p).core
  let ms := c.reg csrMSTATUS
  let (v, s) := s.fresh
  let st := (ms &&& 0x00220000) ||| (if ms.getLsbD 3 then 0x80 else 0) ||| (if c.user then 0 else 0x1800)
  let c := (((c.setReg csrMSTATUS st).setReg csrMEPC c.pc).setReg csrMCAUSE (BitVec.ofNat 32 cause)).setReg csrMTVAL
    (Config.procLegal csrMTVAL v)
  s.setCore p { c with user := false, pc := c.reg csrMTVEC &&& ~~~3 }

/-- MRET, which user mode may not execute. -/
def State.coreMret (s : State) (p : Nat) : State :=
  let c := (s.proc p).core
  if c.user then s.coreTrap p 2
  else
    let ms := c.reg csrMSTATUS
    let user := !ms.getLsbD 11
    let st := (ms &&& (if user then 0x00200000 else 0x00220000)) ||| (if ms.getLsbD 7 then 8 else 0) ||| 0x80
    s.coreRetire p { c.setReg csrMSTATUS st with user := user } (c.reg csrMEPC)

/-! ### Memory -/

/-- Kinds of access that a PMP entry permits: bits [2:0] of its configuration. -/
inductive AccKind where
  | read | write | exec
  deriving DecidableEq, Repr

def AccKind.bit : AccKind → Nat
  | .read => 0
  | .write => 1
  | .exec => 2

/-- How many of the lowest bits of `a` are one, at most `k`. -/
def trailOnes : Nat → Nat → Nat
  | 0, _ => 0
  | k + 1, a => if a % 2 = 1 then 1 + trailOnes k (a / 2) else 0

/-- The bytes that PMP entry `i` matches: from the first up to but not the second. -/
def CoreSt.pmpRange (c : CoreSt) (i : Nat) : Nat × Nat :=
  let a := (c.reg (0x3B0 + i)).toNat
  match bitsN (c.pmpCfg i) 3 2 with
  | 0 => (0, 0)
  | 1 => (if i = 0 then 0 else (c.reg (0x3AF + i)).toNat * 4, a * 4)
  | 2 => (a * 4, a * 4 + 4)
  | _ =>
    let t := trailOnes 32 a
    let base := a / 2 ^ (t + 1) * 2 ^ (t + 1) * 4
    (base, base + 2 ^ (t + 3))

/-- The lowest PMP entry that matches a byte of the access. -/
def CoreSt.pmpMatch (c : CoreSt) (a n : Nat) : Option Nat :=
  (List.range 16).find? fun i =>
    let r := c.pmpRange i
    a < r.2 && r.1 < a + n && r.1 < r.2

/-- The PMP lets an access pass: the lowest matching entry decides, and must match all of it. Machine mode
passes where no entry or an unlocked one matches. -/
def CoreSt.pmpOk (c : CoreSt) (user : Bool) (k : AccKind) (a n : Nat) : Bool :=
  match c.pmpMatch a n with
  | none => !user
  | some i =>
    let r := c.pmpRange i
    r.1 ≤ a && a + n ≤ r.2 && ((!user && !c.pmpLocked i) || (c.pmpCfg i).testBit k.bit)

/-- The mode whose rights a load or a store has: with MPRV, that of MPP. -/
def CoreSt.dataUser (c : CoreSt) : Bool :=
  let ms := c.reg csrMSTATUS
  if !c.user && ms.getLsbD 17 then !ms.getLsbD 11 else c.user

/-- What a core address names. -/
inductive ProcAddr where
  | imem (off : Nat)
  | dmem (off : Nat)
  | device (a : BitVec 64)
  | none
  deriving DecidableEq, Repr

/-- The core address map of processor `p`. -/
def procAddr (p : Nat) (a : Word) : ProcAddr :=
  let i := (Config.procImem p).toNat
  let d := (Config.procDmem p).toNat
  if i ≤ a.toNat && a.toNat < i + imemSize p then .imem (a.toNat - i)
  else if d ≤ a.toNat && a.toNat < d + imemSize p then .dmem (a.toNat - d)
  else match Config.procWindow p a with
    | some x => .device x
    | none => .none

/-- Bytes of instruction memory: the image, and above it what the boot ROM left. -/
def State.imemBytes (s : State) (p off n : Nat) : List Byte :=
  let img := kget [] s.mems.imem p
  (List.range n).map fun i => (img[off + i]?).getD (Config.procFill p (off + i))

/-- Processor number `p` by name. -/
def procOf (p : Nat) : Proc := if p = 0 then .scp else if p = 1 then .sfp else .hip

/-- What an access to the core's memory space gives. -/
inductive ProcAcc where
  | value (v : Nat) (s : State)
  /-- an exception, by its cause -/
  | trap (cause : Nat)
  /-- an uncorrected word (R313) -/
  | ecc
  /-- the request waits at a clasp: the instruction has not executed -/
  | waits

/-- A read of `n` bytes; `cause` is that of an access fault. Poisoned data crash the processor (R399). -/
def State.procRead (s : State) (p n : Nat) (a : Word) (cause : Nat) : ProcAcc :=
  match procAddr p a with
  | .imem off => .value (leNat (s.imemBytes p off n)) s
  | .dmem off =>
    if s.mems.dmem.anyBad 4 (p * 0x80000 + off) n then .ecc
    else .value (leNat (s.mems.dmem.bytes (p * 0x80000 + off) n)) s
  | .none => .trap cause
  | .device d =>
    let src := mSCP + p
    match s.target src d with
    | .csr off =>
      let t := s.csrReadOp src (off / 4 * 4)
      .value (leNat t.reply.data / 2 ^ (8 * (off % 4))) { t with reply := s.reply }
    | _ =>
      if s.mustWait src d (.read n) then .waits
      else
        let t := s.memRequest src d (.read n)
        if t.reply.ep || t.reply.st = ST_ECC_UNCORRECTED then .ecc
        else if t.reply.st = ST_OK then .value (leNat t.reply.data) { t with reply := s.reply }
        else .trap cause

/-- A write of bytes. Instruction memory is write-locked (R304). -/
def State.procWrite (s : State) (p : Nat) (a : Word) (d : List Byte) : ProcAcc :=
  match procAddr p a with
  | .imem _ => .trap 7
  | .dmem off =>
    match s.mems.dmem.store 4 (p * 0x80000 + off) d with
    | some m => .value 0 (s.setMem .dmem m)
    | none => .ecc
  | .none => .trap 7
  | .device x =>
    let src := mSCP + p
    match s.target src x with
    | .csr off =>
      let t := s.csrWriteOp src (off / 4 * 4) (if d.length = 4 then 0xF else 0) (BitVec.ofNat 32 (leNat d))
      .value 0 { t with reply := s.reply }
    | _ =>
      let op := s.writeOp src x d 0xFFFF 0
      if s.mustWait src x op then .waits
      else
        let t := s.memRequest src x op
        if t.reply.st = ST_OK then .value 0 { t with reply := s.reply } else .trap 7

/-- The instruction goes on with what the access gave. -/
def State.procThen (s : State) (p : Nat) (r : ProcAcc) (f : Nat → State → State) : State :=
  match r with
  | .value v t => f v t
  | .trap c => s.coreTrap p c
  | .ecc => s.crash (procOf p) .ecc
  | .waits => s

/-- An access whose alignment and PMP rights are checked first; `mis` and `acc` are the causes. -/
def State.procChecked (s : State) (p n : Nat) (a : Word) (ks : List AccKind) (mis acc : Nat) (f : State) : State :=
  let c := (s.proc p).core
  if a.toNat % n ≠ 0 then s.coreTrap p mis
  else if ks.all fun k => c.pmpOk c.dataUser k a.toNat n then f
  else s.coreTrap p acc

/-- A register takes a value and the instruction completes. -/
def State.procDeliver (s : State) (p rd ilen : Nat) (v : Word) : State :=
  let c := (s.proc p).core
  s.coreRetire p (c.setX rd v) (c.pc + BitVec.ofNat 32 ilen)

/-- A load. -/
def State.procLoad (s : State) (p n : Nat) (signed : Bool) (rd ilen : Nat) (a : Word) : State :=
  s.procChecked p n a [.read] 4 5
    (s.procThen p (s.procRead p n a 5) fun v t => t.procDeliver p rd ilen (loadVal n signed v))

/-- A store. -/
def State.procStore (s : State) (p n ilen : Nat) (a v : Word) : State :=
  s.procChecked p n a [.write] 6 7
    (s.procThen p (s.procWrite p a (leBytes n v.toNat)) fun _ t => t.procDeliver p 0 ilen 0)

/-- The address lies in data memory, where the A extension's instructions act. -/
def inDmem (p : Nat) (a : Word) : Bool :=
  match procAddr p a with
  | .dmem _ => true
  | _ => false

/-- LR.W. -/
def State.procLr (s : State) (p rd : Nat) (a : Word) : State :=
  s.procChecked p 4 a [.read] 4 5
    (if !inDmem p a then s.coreTrap p 5
    else s.procThen p (s.procRead p 4 a 5) fun v t =>
      (t.setCore p { (t.proc p).core with resv := some a.toNat }).procDeliver p rd 4 (BitVec.ofNat 32 v))

/-- SC.W succeeds on the address that is reserved; the reservation ends. -/
def State.procSc (s : State) (p rd : Nat) (a v : Word) : State :=
  s.procChecked p 4 a [.write] 6 7
    (if !inDmem p a then s.coreTrap p 7
    else
      let hit := (s.proc p).core.resv == some a.toNat
      let s := s.setCore p { (s.proc p).core with resv := none }
      if !hit then s.procDeliver p rd 4 1
      else s.procThen p (s.procWrite p a (leBytes 4 v.toNat)) fun _ t => t.procDeliver p rd 4 0)

/-- An AMO reads a word, writes what its operation makes of it, and delivers the word read. -/
def State.procAmo (s : State) (p : Nat) (op : Amo) (rd : Nat) (a v : Word) : State :=
  s.procChecked p 4 a [.read, .write] 6 7
    (if !inDmem p a then s.coreTrap p 7
    else s.procThen p (s.procRead p 4 a 7) fun m t =>
      let old := BitVec.ofNat 32 m
      s.procThen p (t.procWrite p a (leBytes 4 (op.eval old v).toNat)) fun _ t => t.procDeliver p rd 4 old)

/-- CSRRW, CSRRS, CSRRC and their immediate forms. -/
def State.procCsrOp (s : State) (p kind : Nat) (imm : Bool) (rd rs1 k : Nat) : State :=
  let c := (s.proc p).core
  let src := if imm then BitVec.ofNat 32 rs1 else c.xr rs1
  let writes := kind == 1 || rs1 != 0
  match s.procCsr p k with
  | none => s.coreTrap p 2
  | some old =>
    if writes && 0xC00 ≤ k then s.coreTrap p 2
    else
      let v := if kind = 1 then src else if kind = 2 then old ||| src else old &&& ~~~src
      let c := if writes then c.setCsr k v else c
      s.coreRetire p (c.setX rd old) (c.pc + 4)

/-- The effect of an instruction of `ilen` bytes. -/
def State.procExec (s : State) (p ilen : Nat) (i : ProcOp) : State :=
  let c := (s.proc p).core
  let next := c.pc + BitVec.ofNat 32 ilen
  match i with
  | .lr rd rs1 => s.procLr p rd (c.xr rs1)
  | .sc rd rs1 rs2 => s.procSc p rd (c.xr rs1) (c.xr rs2)
  | .amo op rd rs1 rs2 => s.procAmo p op rd (c.xr rs1) (c.xr rs2)
  | .base (.lui rd imm) => s.procDeliver p rd ilen imm
  | .base (.auipc rd imm) => s.procDeliver p rd ilen (c.pc + imm)
  | .base (.jal rd imm) => s.coreRetire p (c.setX rd next) (c.pc + imm)
  | .base (.jalr rd rs1 imm) => s.coreRetire p (c.setX rd next) ((c.xr rs1 + imm) &&& ~~~1)
  | .base (.branch k rs1 rs2 imm) =>
    s.coreRetire p c (if k.holds (c.xr rs1) (c.xr rs2) then c.pc + imm else next)
  | .base (.load n signed _ rd rs1 imm) => s.procLoad p n signed rd ilen (c.xr rs1 + imm)
  | .base (.store n _ rs1 rs2 imm) => s.procStore p n ilen (c.xr rs1 + imm) (c.xr rs2)
  | .base (.alu op rd rs1 rs2) => s.procDeliver p rd ilen (op.eval (c.xr rs1) (c.xr rs2))
  | .base (.alui op rd rs1 imm) => s.procDeliver p rd ilen (op.eval (c.xr rs1) imm)
  | .base .fence | .base .nop => s.coreRetire p c next
  | .base .ecall => s.coreTrap p (if c.user then 8 else 11)
  | .base .ebreak => s.coreTrap p 3
  | .base .mret => s.coreMret p
  | .base (.csr kind imm rd rs1 k) => s.procCsrOp p kind imm rd rs1 k
  | .base _ => s.coreTrap p 2

/-- Two bytes of an instruction at core address `a`: it lies in instruction memory (R304). -/
def State.procFetch (s : State) (p : Nat) (a : Word) : Option Nat :=
  let c := (s.proc p).core
  match procAddr p a with
  | .imem off => if c.pmpOk c.user .exec a.toNat 2 then some (leNat (s.imemBytes p off 2)) else none
  | _ => none

/-- The core of processor `p` executes one instruction of its image. -/
def State.coreStep (s : State) (p : Nat) : State :=
  let pc := (s.proc p).core.pc
  match s.procFetch p pc with
  | none => s.coreTrap p 1
  | some h =>
    if rvLen h = 2 then
      match rvcDecode h with
      | some i => if i.integer then s.procExec p 2 (.base i) else s.coreTrap p 2
      | none => s.coreTrap p 2
    else
      match s.procFetch p (pc + 2) with
      | none => s.coreTrap p 1
      | some g =>
        match procDecode (h + g * 65536) with
        | some i => s.procExec p 4 i
        | none => s.coreTrap p 2

end Sys2Proof.Machine
end

