-- ==== Sys2Proof/Machine/Vector.lean ====
section
/-! DEFINITION. The Bead extension: vector, wide-sum and memory instructions (R115–R122, R127,
R129). Each row carries the fields of its instruction. -/

namespace Sys2Proof.Machine

/-! ### Lanes (R115) -/

/-- Bits of a lane of type `ty`. -/
def tyBits (ty : Nat) : Nat := if ty = 3 then 32 else 16

/-- The floating format of a lane type; I16 has none. -/
def tyFmt : Nat → Option Bin
  | 1 => some fBF16
  | 2 => some fFP16
  | 3 => some fFP32
  | _ => none

/-- The lanes of a vector register, lane 0 first. -/
def lanesOf (w : Nat) (v : BitVec 128) : List Nat :=
  (List.range (128 / w)).map fun i => bitsN v.toNat (w * i) w

/-- A number spelled by lanes of `w` bits. -/
def laneNat (w : Nat) : List Nat → Nat
  | [] => 0
  | x :: xs => x % 2 ^ w + 2 ^ w * laneNat w xs

def ofLanes (w : Nat) (l : List Nat) : BitVec 128 := BitVec.ofNat 128 (laneNat w l)

/-- The exact value of a lane. -/
def laneVal (ty c : Nat) : Val :=
  match tyFmt ty with
  | none => .num (.ofInt (signedN 16 c))
  | some f => f.val c

/-- A ready core executes an instruction of the extension whose fields are legal; others are
illegal instructions (R116). -/
def State.ext (s : State) (n : Nat) (f : ExtForm) (ty : BitVec 2) (rd rs1 rs2 : BitVec 5)
    (run : Nat → Nat → Nat → Nat → State) : Out :=
  if !s.beadReady n then .next s
  else if f.legal ty.toNat rd.toNat rs1.toNat rs2.toNat then
    .next (run ty.toNat rd.toNat rs1.toNat rs2.toNat)
  else .next (s.beadFault n 2)

/-- A vector result with its flags (R117). -/
def State.vDone (s : State) (n rd w : Nat) (rs : List FRes) : State :=
  let b := ((s.bead n).setV rd (ofLanes w (rs.map FRes.code))).accrue (rs.foldl (fun a r => a ||| r.fl) 0)
  (s.setBead n b).goOn n 4

/-- Lanes of a register. -/
def State.vl (s : State) (n ty r : Nat) : List Nat := lanesOf (tyBits ty) ((s.bead n).vr r)

/-- Lane by lane over two registers: an integer operation or a rounded floating one (R117). -/
def State.vArith (s : State) (n ty rd rs1 rs2 : Nat) (int : Nat → Nat → Nat)
    (fp : Bin → Rm → FVal → FVal → FRes) : State :=
  match tyFmt ty with
  | none => s.vDone n rd 16 (List.zipWith (fun a b => ⟨int a b, 0⟩) (s.vl n ty rs1) (s.vl n ty rs2))
  | some f =>
    s.withRm n 7 fun rm =>
      s.vDone n rd (tyBits ty)
        (List.zipWith (fun a b => fp f rm (f.read a) (f.read b)) (s.vl n ty rs1) (s.vl n ty rs2))

/-- VMAC: the addend is the destination (R117). -/
def State.vMac (s : State) (n ty rd rs1 rs2 : Nat) : State :=
  let ls := List.zip (s.vl n ty rd) (List.zip (s.vl n ty rs1) (s.vl n ty rs2))
  match tyFmt ty with
  | none => s.vDone n rd 16 (ls.map fun x => ⟨x.1 + x.2.1 * x.2.2, 0⟩)
  | some f =>
    s.withRm n 7 fun rm =>
      s.vDone n rd (tyBits ty) (ls.map fun x => f.fmaV rm (f.read x.2.1) (f.read x.2.2) (f.read x.1))

/-- The larger or smaller of two floating lanes. IEEE 754 has two such operations, which differ
where one operand is a NaN: `pick` decides between the other operand and a NaN. -/
def fpPick (f : Bin) (isMax pick : Bool) (a b : Nat) : FRes :=
  let x := f.read a
  let y := f.read b
  let fl := if x.signalling || y.signalling then flNV else 0
  if x.isNan && y.isNan then ⟨f.nanCode, fl⟩
  else if x.isNan then ⟨if pick then b else f.nanCode, fl⟩
  else if y.isNan then ⟨if pick then a else f.nanCode, fl⟩
  else ⟨if (y.less true x) = isMax then a else b, fl⟩

/-- VMAX and VMIN: integer lanes compare signed (R117). -/
def State.vPick (s : State) (n ty rd rs1 rs2 : Nat) (isMax : Bool) : State :=
  let ls := List.zip (s.vl n ty rs1) (s.vl n ty rs2)
  match tyFmt ty with
  | none =>
    s.vDone n rd 16 (ls.map fun x =>
      ⟨if decide (signedN 16 x.2 < signedN 16 x.1) = isMax then x.1 else x.2, 0⟩)
  | some f =>
    s.vDone n rd (tyBits ty) (ls.map fun x => fpPick f isMax (Config.pickNumber ty isMax x.1 x.2) x.1 x.2)

/-- A lane converted from one type to another. A value that I16 cannot hold is invalid and what
is written then is open: a function of the operand. -/
def cvtLane (ty t : Nat) (rm : Rm) (c : Nat) : FRes :=
  match tyFmt ty, tyFmt t with
  | none, none => ⟨c, 0⟩
  | none, some g => g.ofInt rm (signedN 16 c)
  | some f, none =>
    match f.toInt? rm (-32768) 32767 c with
    | some (i, fl) => ⟨wrapN 16 i, fl⟩
    | none => ⟨(Config.convertInvalid ty c).toNat, flNV⟩
  | some f, some g => f.convert g rm c

/-- VCVT: rs2[1:0] names the type, rs2[2] the half of the narrower side (R116, R117). -/
def State.vCvt (s : State) (n ty rd rs1 rs2 : Nat) : State :=
  let t := rs2 % 4
  let k := rs2 / 4 % 2 * 4
  let src := s.vl n ty rs1
  let src := if ty = 3 || t ≠ 3 then src else (src.drop k).take 4
  let go (rm : Rm) : State :=
    let rs := src.map (cvtLane ty t rm)
    let rs := if ty = 3 && t ≠ 3 then
        let old := (s.vl n t rd).map fun c => (⟨c, 0⟩ : FRes)
        old.take k ++ rs ++ old.drop (k + 4)
      else rs
    s.vDone n rd (tyBits t) rs
  if ty = 0 && t = 0 then go .rne else s.withRm n 7 go

/-- VADD (R117). -/
def execVadd (n : Fin 4096) (ty : BitVec 2) (rd rs1 rs2 : BitVec 5) (s : State) : Out :=
  s.ext n.val formVVV ty rd rs1 rs2 fun ty rd a b =>
    s.vArith n.val ty rd a b (fun x y => x + y) fun f rm x y => f.addV rm x y

/-- VSUB (R117). -/
def execVsub (n : Fin 4096) (ty : BitVec 2) (rd rs1 rs2 : BitVec 5) (s : State) : Out :=
  s.ext n.val formVVV ty rd rs1 rs2 fun ty rd a b =>
    s.vArith n.val ty rd a b (fun x y => x + (65536 - y)) fun f rm x y => f.addV rm x y.flip

/-- VMUL (R117). -/
def execVmul (n : Fin 4096) (ty : BitVec 2) (rd rs1 rs2 : BitVec 5) (s : State) : Out :=
  s.ext n.val formVVV ty rd rs1 rs2 fun ty rd a b =>
    s.vArith n.val ty rd a b (fun x y => x * y) fun f rm x y => f.mulV rm x y

/-- VMAC (R117). -/
def execVmac (n : Fin 4096) (ty : BitVec 2) (rd rs1 rs2 : BitVec 5) (s : State) : Out :=
  s.ext n.val formVVV ty rd rs1 rs2 fun ty rd a b => s.vMac n.val ty rd a b

/-- VMAX (R117). -/
def execVmax (n : Fin 4096) (ty : BitVec 2) (rd rs1 rs2 : BitVec 5) (s : State) : Out :=
  s.ext n.val formVVV ty rd rs1 rs2 fun ty rd a b => s.vPick n.val ty rd a b true

/-- VMIN (R117). -/
def execVmin (n : Fin 4096) (ty : BitVec 2) (rd rs1 rs2 : BitVec 5) (s : State) : Out :=
  s.ext n.val formVVV ty rd rs1 rs2 fun ty rd a b => s.vPick n.val ty rd a b false

/-- VCVT (R117). -/
def execVcvt (n : Fin 4096) (ty : BitVec 2) (rd rs1 rs2 : BitVec 5) (s : State) : Out :=
  s.ext n.val formVV ty rd rs1 rs2 fun ty rd a b => s.vCvt n.val ty rd a b

/-- VSPLAT (R116). -/
def execVsplat (n : Fin 4096) (ty : BitVec 2) (rd rs1 rs2 : BitVec 5) (s : State) : Out :=
  s.ext n.val formVX ty rd rs1 rs2 fun ty rd a _ =>
    let w := tyBits ty
    s.vDone n.val rd w (List.replicate (128 / w) ⟨((s.bead n.val).xr a).toNat, 0⟩)

/-- VEXT (R116): FP32 has lanes 0–3 only, so what a higher lane number extracts is a free value. -/
def execVext (n : Fin 4096) (ty : BitVec 2) (rd rs1 rs2 : BitVec 5) (s : State) : Out :=
  s.ext n.val formXV ty rd rs1 rs2 fun ty rd a i =>
    match (s.vl n.val ty a)[i % 8]? with
    | some c =>
      (s.setBead n.val ((s.bead n.val).setX rd (immS (tyBits ty) c))).goOn n.val 4
    | none =>
      (s.setBead n.val ((s.bead n.val).setX rd (Config.absentLane (i % 8) ((s.bead n.val).vr a)))).goOn n.val 4

/-! ### Wide sums (R120–R122) -/

/-- A term enters a wide sum, or sets SPECIAL to NAN and raises RANGE in place of that (R121). -/
def WideSum.term (x : WideSum) (v : Val) : WideSum × Bool :=
  let out := ({ x with special := .nan }, true)
  if 32768 ≤ x.count then out
  else
    match v with
    | .num q => if (pow2 (x.anchor.toInt + 24)).le q.abs then out else ({ x.addCut 1 q with count := x.count + 1 }, false)
    | v => ({ x with special := x.special.add (Special.ofVal v), count := x.count + 1 }, false)

/-- Terms enter a wide-sum register (R121). -/
def State.wTerms (s : State) (n rd : Nat) (ts : List Val) : State :=
  let r := ts.foldl (fun (a : WideSum × Bool) v => ((a.1.term v).1, a.2 || (a.1.term v).2)) ((s.bead n).wsr rd, false)
  let s := s.setBead n ((s.bead n).setWs rd r.1)
  (if r.2 then s.setF (BEAD_FLAGS_RANGE n) 1 else s).goOn n 4

/-- WCLR (R120). -/
def execWclr (n : Fin 4096) (ty : BitVec 2) (rd rs1 rs2 : BitVec 5) (s : State) : Out :=
  s.ext n.val formWX ty rd rs1 rs2 fun _ rd a _ =>
    (s.setBead n.val ((s.bead n.val).setWs rd { anchor := ((s.bead n.val).xr a).setWidth 16 })).goOn n.val 4

/-- WDOT (R121). -/
def execWdot (n : Fin 4096) (ty : BitVec 2) (rd rs1 rs2 : BitVec 5) (s : State) : Out :=
  s.ext n.val formWVV ty rd rs1 rs2 fun ty rd a b =>
    s.wTerms n.val rd
      (List.zipWith (fun x y => (laneVal ty x).mul (laneVal ty y)) (s.vl n.val ty a) (s.vl n.val ty b))

/-- WSUM (R121). -/
def execWsum (n : Fin 4096) (ty : BitVec 2) (rd rs1 rs2 : BitVec 5) (s : State) : Out :=
  s.ext n.val formWV ty rd rs1 rs2 fun ty rd a _ =>
    s.wTerms n.val rd ((s.vl n.val ty a).map (laneVal ty))

/-- WADD (R50, R122). -/
def execWadd (n : Fin 4096) (ty : BitVec 2) (rd rs1 rs2 : BitVec 5) (s : State) : Out :=
  s.ext n.val formWW ty rd rs1 rs2 fun _ rd a _ =>
    let x := (s.bead n.val).wsr rd
    let y := (s.bead n.val).wsr a
    if x.canAdd y then (s.setBead n.val ((s.bead n.val).setWs rd (x.add y))).goOn n.val 4
    else (s.setF (BEAD_FLAGS_ANCHOR n.val) 1).goOn n.val 4

/-- WRND (R51, R119, R122). -/
def execWrnd (n : Fin 4096) (ty : BitVec 2) (rd rs1 rs2 : BitVec 5) (s : State) : Out :=
  s.ext n.val formFW ty rd rs1 rs2 fun _ rd a b =>
    let c := s.bead n.val
    let v := (c.wsr a).val.mul (fp32Val (c.fr b).toNat)
    (s.setBead n.val (c.setFr rd (BitVec.ofNat 32 (fFP32.round false v).1))).goOn n.val 4 6

/-! ### Memory (R118, R127) -/

/-- The place in the local memory of an aligned access of `len` bytes, or the cause of its
exception (R112, R118); `store` selects the causes of stores. -/
def State.blmPlace (s : State) (n len : Nat) (store : Bool) (a : Word) : Nat ⊕ Nat :=
  if a.toNat % len ≠ 0 then .inr (if store then 6 else 4)
  else
    match s.coreAddr n a with
    | .blm off => .inl off
    | _ => .inr (if store then 7 else 5)

/-- A load of `len` bytes of local memory: `put` places the number read. -/
def State.blmLoad (s : State) (n len : Nat) (a : Word) (put : Nat → BeadSt → BeadSt) : State :=
  match s.blmPlace n len false a with
  | .inr c => s.beadFault n c
  | .inl off =>
    match s.blmRead n off len with
    | none => s.beadEcc n (blmAddr n off)
    | some v => (s.setBead n (put v (s.bead n))).goOn n 4

/-- A store of bytes to local memory. -/
def State.blmStore (s : State) (n : Nat) (a : Word) (d : List Byte) : State :=
  match s.blmPlace n d.length true a with
  | .inr c => s.beadFault n c
  | .inl off => (s.blmWrite n off d).goOn n 4

/-- WLD (R118). -/
def execWld (n : Fin 4096) (ty : BitVec 2) (rd rs1 rs2 : BitVec 5) (s : State) : Out :=
  s.ext n.val formWX ty rd rs1 rs2 fun _ rd a _ =>
    s.blmLoad n.val 32 ((s.bead n.val).xr a) fun v b => b.setWs rd (WideSum.ofBytes (leBytes 32 v))

/-- WST (R118). -/
def execWst (n : Fin 4096) (ty : BitVec 2) (rd rs1 rs2 : BitVec 5) (s : State) : Out :=
  s.ext n.val formWX ty rd rs1 rs2 fun _ rd a _ =>
    s.blmStore n.val ((s.bead n.val).xr a) ((s.bead n.val).wsr rd).bytes

/-- VLD (R118). -/
def execVld (n : Fin 4096) (ty : BitVec 2) (rd rs1 rs2 : BitVec 5) (s : State) : Out :=
  s.ext n.val formVMem ty rd rs1 rs2 fun _ rd a _ =>
    s.blmLoad n.val 16 ((s.bead n.val).xr a) fun v b => b.setV rd (BitVec.ofNat 128 v)

/-- VST (R118). -/
def execVst (n : Fin 4096) (ty : BitVec 2) (rd rs1 rs2 : BitVec 5) (s : State) : Out :=
  s.ext n.val formVMem ty rd rs1 rs2 fun _ rd a _ =>
    s.blmStore n.val ((s.bead n.val).xr a) (leBytes 16 ((s.bead n.val).vr rd).toNat)

/-- The core addresses of a gather or scatter, lane 0 first (R118). -/
def State.laneAddrs (s : State) (n ty rs1 rs2 : Nat) : List Word :=
  (s.vl n ty rs2).map fun i => (s.bead n).xr rs1 + BitVec.ofNat 32 (tyBits ty / 8 * i)

/-- The cause of the exception of a gather or scatter: a misaligned lane, else one outside the
local memory (R112, R118). -/
def laneFault (e : Nat) (store : Bool) (as : List Word) : Option Nat :=
  if as.any fun a => a.toNat % e ≠ 0 then some (if store then 6 else 4)
  else if as.any fun a => 0x10000 ≤ a.toNat then some (if store then 7 else 5)
  else none

/-- Clocks of a gather or scatter: one per distinct bank (R119, R123). -/
def laneClocks (as : List Word) : Nat := (as.map fun a => a.toNat / 4 % 16).eraseDups.length

/-- VGATHER (R118). -/
def State.gather (s : State) (n ty rd rs1 rs2 : Nat) : State :=
  let e := tyBits ty / 8
  let as := s.laneAddrs n ty rs1 rs2
  match laneFault e false as with
  | some c => s.beadFault n c
  | none =>
    match as.find? fun a => (s.blmRead n a.toNat e).isNone with
    | some a => s.beadEcc n (blmAddr n a.toNat)
    | none =>
      let v := ofLanes (tyBits ty) (as.map fun a => (s.blmRead n a.toNat e).getD 0)
      (s.setBead n ((s.bead n).setV rd v)).goOn n 4 (laneClocks as)

/-- VSCATTER: lanes in ascending order (R118). -/
def State.scatter (s : State) (n ty rd rs1 rs2 : Nat) : State :=
  let e := tyBits ty / 8
  let as := s.laneAddrs n ty rs1 rs2
  match laneFault e true as with
  | some c => s.beadFault n c
  | none =>
    let s := (List.zip as (s.vl n ty rd)).foldl (fun s x => s.blmWrite n x.1.toNat (leBytes e x.2)) s
    s.goOn n 4 (laneClocks as)

/-- VGATHER (R118). -/
def execVgather (n : Fin 4096) (ty : BitVec 2) (rd rs1 rs2 : BitVec 5) (s : State) : Out :=
  s.ext n.val formVIdx ty rd rs1 rs2 fun ty rd a b => s.gather n.val ty rd a b

/-- VSCATTER (R118). -/
def execVscatter (n : Fin 4096) (ty : BitVec 2) (rd rs1 rs2 : BitVec 5) (s : State) : Out :=
  s.ext n.val formVIdx ty rd rs1 rs2 fun ty rd a b => s.scatter n.val ty rd a b

/-- A read-modify-write of one aligned word by the core: at its own local memory, or through the
remote window at another (R127). -/
def State.coreRmw (s : State) (n rd : Nat) (a : Word) (op : ReqOp) (f : Word → Word) : State :=
  if a.toNat % 4 ≠ 0 then s.beadFault n 6
  else
    match s.coreAddr n a with
    | .blm off =>
      match s.blmRead n off 4 with
      | none => s.beadEcc n (blmAddr n off)
      | some old =>
        (s.blmWrite n off (leBytes 4 (f (BitVec.ofNat 32 old)).toNat)).deliver n false rd 4 (BitVec.ofNat 32 old)
    | .remote d => s.setBead n { s.bead n with stall := some ⟨d, op, 4, false, rd, false, 4, false, s.unitAt (s.target n d)⟩ }
    | _ => s.beadFault n 7

/-- CMPSET (R127). -/
def execCmpset (n : Fin 4096) (ty : BitVec 2) (rd rs1 rs2 : BitVec 5) (s : State) : Out :=
  s.ext n.val formX ty rd rs1 rs2 fun _ rd a b =>
    let c := s.bead n.val
    s.coreRmw n.val rd (c.xr a) (.cmpset (c.xr rd) (c.xr b)) (cmpsetF (c.xr rd) (c.xr b))

/-- COUNT (R127). -/
def execCount (n : Fin 4096) (ty : BitVec 2) (rd rs1 rs2 : BitVec 5) (s : State) : Out :=
  s.ext n.val formX ty rd rs1 rs2 fun _ rd a b =>
    let c := s.bead n.val
    s.coreRmw n.val rd (c.xr a) (.count (c.xr b)) (countF (c.xr b))

/-- YIELD (R129): with a request pending the save begins once the posted stores are
acknowledged. -/
def execYield (n : Fin 4096) (ty : BitVec 2) (rd rs1 rs2 : BitVec 5) (s : State) : Out :=
  s.ext n.val formX ty rd rs1 rs2 fun _ _ _ _ =>
    let t := s.goOn n.val 4
    if s.flag (BEAD_STATUS_YPEND n.val) then t.setBead n.val { t.bead n.val with parking := true } else t

end Sys2Proof.Machine
end

