-- ==== Sys2Proof/Machine/Debug.lean ====
section
/-! DEFINITION. The debug functions: halt, step, breakpoints, resume, debug reset, debug memory
access (R391–R393). -/

namespace Sys2Proof.Machine

/-- The permission that a target's functions need (R390). -/
def haltPerm : DebugTarget → Nat
  | .proc .sfp => permHALT_SFP
  | .proc _ => permHALT_FW
  | .bead _ => permHALT_BEAD

/-- Processor `n` halts. What its image made of the core and of data memory is open (log entry 49). -/
def State.procHalt (s : State) (n : Nat) : State :=
  let g := s.free
  let s := s.setMem .dmem (s.mems.dmem.lose 4 (n * 0x80000) (imemSize n) g)
  let s := { s.setProc n { s.proc n with core := openCore g } with free := g + 1 }
  s.setF (GLB_PROC_STAT_STATE n) procHALTED

/-- A halt of a running target; a halt of a Bead in FAULT, IDLE or PARKED changes nothing
(R391). -/
def State.haltOp (s : State) (t : DebugTarget) : State :=
  match t with
  | .proc .sfp =>
    let st := s.fld SAF_STATUS_STATE
    if s.procState 1 ≠ procRUN then s.answer ST_OK
    else if st = safINIT || st = safSAFE then ((s.procHalt 1).paths).answer ST_OK
    else s.secRefuse
  | .proc p =>
    if s.procState (procNo p) ≠ procRUN then s.answer ST_OK
    else
      let s := s.procHalt (procNo p)
      (if p = .scp then s.scpLost false else s).answer ST_OK
  | .bead n =>
    (if s.beadState n.val = bdRUNNING then s.setBeadState n.val bdHALTED else s).answer ST_OK

/-- DEBUG_HALT (R391). -/
def execDebugHalt (t : DebugTarget) (s : State) : Out :=
  if s.permitted (haltPerm t) then .next (s.haltOp t) else .next s.secRefuse

/-- Breakpoints and watchpoints of a target (R391). -/
def pointCount : DebugTarget → Nat
  | .proc _ => 6
  | .bead _ => 3

/-- BREAKPOINT_HIT (R391): a hit of point `k`, breakpoints first. -/
def execBreakpointHit (t : DebugTarget) (k : Fin 6) (s : State) : Out :=
  if k.val < pointCount t && s.permitted (haltPerm t) then .next (s.haltOp t) else .next s

/-- The instruction at the pc of node `n`, whatever its kind. -/
def State.anyInstr (s : State) (n : Fin 4096) : Out :=
  match s.beadFetch n.val with
  | .op (.custom w) _ =>
    let ty := BitVec.ofNat 2 (bitsN w 25 2)
    let rd := BitVec.ofNat 5 (bitsN w 7 5)
    let a := BitVec.ofNat 5 (bitsN w 15 5)
    let b := BitVec.ofNat 5 (bitsN w 20 5)
    match bitsN w 12 3, bitsN w 27 5 with
    | 0, 0 => execVadd n ty rd a b s
    | 0, 1 => execVsub n ty rd a b s
    | 0, 2 => execVmul n ty rd a b s
    | 0, 3 => execVmac n ty rd a b s
    | 0, 4 => execVmax n ty rd a b s
    | 0, 5 => execVmin n ty rd a b s
    | 0, 6 => execVcvt n ty rd a b s
    | 0, 7 => execVsplat n ty rd a b s
    | 0, 8 => execVext n ty rd a b s
    | 1, 0 => execWclr n ty rd a b s
    | 1, 1 => execWdot n ty rd a b s
    | 1, 2 => execWsum n ty rd a b s
    | 1, 3 => execWadd n ty rd a b s
    | 1, 4 => execWrnd n ty rd a b s
    | 1, 5 => execWld n ty rd a b s
    | 1, 6 => execWst n ty rd a b s
    | 2, 0 => execVld n ty rd a b s
    | 2, 1 => execVst n ty rd a b s
    | 2, 2 => execVgather n ty rd a b s
    | 2, 3 => execVscatter n ty rd a b s
    | 2, 4 => execCmpset n ty rd a b s
    | 2, 5 => execCount n ty rd a b s
    | 3, 0 => execYield n ty rd a b s
    | _, _ => .next (s.beadFault n.val 2)
  | _ => execBeadBaseInstruction n s

/-- The node is HALTED again unless the instruction stopped it otherwise. -/
def State.rehalt (s : State) (n : Nat) : State :=
  if s.beadState n = bdRUNNING then s.setBeadState n bdHALTED else s

/-- A halted processor executes one instruction and is HALTED again, unless it crashed. -/
def State.procStep (s : State) (n : Nat) : State :=
  let t := (s.setF (GLB_PROC_STAT_STATE n) procRUN).coreStep n
  if t.procState n = procRUN then t.setF (GLB_PROC_STAT_STATE n) procHALTED else t

/-- DEBUG_STEP (R391): a halted target executes one instruction and halts again. -/
def execDebugStep (t : DebugTarget) (s : State) : Out :=
  if !s.permitted (haltPerm t) then .next s.secRefuse
  else
    match t with
    | .proc p =>
      if s.procState (procNo p) ≠ procHALTED then .next (s.answer ST_OK)
      else .next ((s.procStep (procNo p)).answer ST_OK)
    | .bead n =>
      if s.beadState n.val ≠ bdHALTED then .next (s.answer ST_OK)
      else
        match (s.setBeadState n.val bdRUNNING).anyInstr n with
        | .next t => .next ((t.rehalt n.val).answer ST_OK)
        | o => o

/-- A processor leaves halt by a restart under R313, which is not a crash (R391). -/
def State.haltRestart (s : State) (p : Proc) : State :=
  let n := procNo p
  let s := s.setMem .dmem (s.mems.dmem.zero 4 (n * 0x80000) 0x80000)
  let s := s.setProc n { s.proc n with key := none, reload := !s.imageIntact n, crashRestart := false }
  let s := s.setF (GLB_PROC_STAT_STATE n) procRESTART
  match p with
  | .hip => s.setF MBX_FW_STAGE 4
  | .scp => s
  | .sfp => if s.safety.ackHeld && s.fld SAF_STATUS_STATE = safSAFE then s.setF SAF_STATUS_STATE safRESTART else s

/-- A halted Bead continues; a halted processor restarts (R391). -/
def State.resumeOp (s : State) (t : DebugTarget) : State :=
  match t with
  | .proc p => if s.procState (procNo p) = procHALTED then s.haltRestart p else s
  | .bead n => if s.beadState n.val = bdHALTED then s.setBeadState n.val bdRUNNING else s

/-- DEBUG_RESUME (R391). -/
def execDebugResume (t : DebugTarget) (s : State) : Out :=
  if s.permitted (haltPerm t) then .next ((s.resumeOp t).answer ST_OK) else .next s.secRefuse

/-- DEBUG_RESET (R373, R393): grants end; halted Beads resume; halted processors restart, the SFP
only when the safe state has been acknowledged. The port then selects IDCODE, which it answers with (R388). -/
def execDebugReset (s : State) : Out :=
  let s := s.wr DBG_AUTH_STAT (csrReset DBG_AUTH_STAT)
  let s := { s with dport := { s.dport with chal := none, lockAt := none, ir := none } }
  let s := s.each (List.range 4096) fun s n =>
    if s.beadState n = bdHALTED then s.setBeadState n bdRUNNING else s
  let s := (s.resumeOp (.proc .scp)).resumeOp (.proc .hip)
  let s := if s.safety.ackHeld then s.resumeOp (.proc .sfp) else s
  .next (s.answer ST_OK (leBytes 4 0x10D09ABB))

/-- Blocks that take no write from the debug port (R392). -/
def debugRefuses (off : Nat) : Bool :=
  (0x40000 ≤ off && off < 0x50000) || (0xA00000 ≤ off && off < 0xA20000)
    || (0x200000 ≤ off && off < 0x800000)

/-- DEBUG_MEMORY_ACCESS (R392): a request of master 4,140. -/
def execDebugMemoryAccess (addr : BitVec 64) (len : Nat) (data : Option (List Byte)) (s : State) : Out :=
  if !lineOk addr.toNat len then .fault .badOperand
  else
    match data with
    | none =>
      if s.permitted permMEM_READ then .next (s.meshReadOp mDebug addr len) else .next s.secRefuse
    | some d =>
      if d.length ≠ len then .fault .badOperand
      else if !s.permitted permMEM_WRITE then .next s.secRefuse
      else
        match s.target mDebug addr with
        | .csr off =>
          if debugRefuses off then .next (s.refuseWrite ST_NOT_PERMITTED mDebug off)
          else .next (s.meshWriteOp mDebug addr d 0xFFFF 0)
        | _ => .next (s.meshWriteOp mDebug addr d 0xFFFF 0)

end Sys2Proof.Machine
end

