-- ==== Sys2Proof/Machine/LpExit.lean ====
section
/-! DEFINITION. Exit from LIGHT and STANDBY (R371). -/

namespace Sys2Proof.Machine

/-- LP_EXIT_COMPLETE (R371): domains and banks are back, the SCP's clock runs and it reloads the
resident operands; what was held is performed. -/
def execLpExitComplete (s : State) : Out :=
  match s.reset_.lp with
  | .exiting _ =>
    let doms := s.reset_.lpDoms
    let banks := s.reset_.lpBanks
    let s := { s.setF RCK_LP_STATE lpACTIVE with
      reset_ := { s.reset_ with lp := .none, lpDoms := [], lpBanks := [] }
      power := { s.power with other := [58, 61, 62, 63].foldl (fun m d => kput d false m) s.power.other } }
    let s := s.setF ⟨DDR_STAT, 1, 1⟩ 0
    let s := (s.each doms State.domReady).clockStart 64
    let s := s.each banks fun s b => s.setF (MM_STATUS_STATE b) bankON
    let s := (s.setProc 0 { s.proc 0 with kickAt := s.now }).reloadResident
    let s := s.lpEvent
    .next s.hostFree.takeGos
  | _ => .next s

end Sys2Proof.Machine
end

