-- ==== Sys2Proof/Machine/Dispatch.lean ====
section
/-! DEFINITION. One arm per command: the direct call of its meaning. -/

namespace Sys2Proof.Machine

/-- What a command does to everything but the queue. -/
def exec (i : Instr) (s : State) : Host.Outcome State Fault Refusal :=
  match i with
  | .csrWrite src off be v => Sys2Proof.Machine.execCsrWrite src off be v s
  | .rcRegisterRead src off upd => Sys2Proof.Machine.execRcRegisterRead src off upd s
  | .meshRead src addr len => Sys2Proof.Machine.execMeshRead src addr len s
  | .meshWrite src addr data win epoch => Sys2Proof.Machine.execMeshWrite src addr data win epoch s
  | .setAliasWrite src ofs data => Sys2Proof.Machine.execSetAliasWrite src ofs data s
  | .clearAliasWrite src ofs data => Sys2Proof.Machine.execClearAliasWrite src ofs data s
  | .meshCmpset src addr cmp new => Sys2Proof.Machine.execMeshCmpset src addr cmp new s
  | .meshCount src addr inc => Sys2Proof.Machine.execMeshCount src addr inc s
  | .hostBar2Read off len => Sys2Proof.Machine.execHostBar2Read off len s
  | .hostBar2Write off data => Sys2Proof.Machine.execHostBar2Write off data s
  | .pciBar2BaseHiWrite src v => Sys2Proof.Machine.execPciBar2BaseHiWrite src v s
  | .pcieLinkReset kind => Sys2Proof.Machine.execPcieLinkReset kind s
  | .submitDescriptor src f hi => Sys2Proof.Machine.execSubmitDescriptor src f hi s
  | .descriptorFetch f => Sys2Proof.Machine.execDescriptorFetch f s
  | .matmul f => Sys2Proof.Machine.execMatmul f s
  | .conv f => Sys2Proof.Machine.execConv f s
  | .pool f => Sys2Proof.Machine.execPool f s
  | .attn f => Sys2Proof.Machine.execAttn f s
  | .wcombine f => Sys2Proof.Machine.execWcombine f s
  | .facetCommandComplete f => Sys2Proof.Machine.execFacetCommandComplete f s
  | .preempt src f => Sys2Proof.Machine.execPreempt src f s
  | .kSegmentEnd f blocks => Sys2Proof.Machine.execKSegmentEnd f blocks s
  | .preemptSaveComplete f => Sys2Proof.Machine.execPreemptSaveComplete f s
  | .facUrgent src f hi => Sys2Proof.Machine.execFacUrgent src f hi s
  | .facetResume src f => Sys2Proof.Machine.execFacetResume src f s
  | .facetContextRestored f => Sys2Proof.Machine.execFacetContextRestored f s
  | .facetAbort src f => Sys2Proof.Machine.execFacetAbort src f s
  | .beadBaseInstruction n => Sys2Proof.Machine.execBeadBaseInstruction n s
  | .vadd n ty rd rs1 rs2 => Sys2Proof.Machine.execVadd n ty rd rs1 rs2 s
  | .vsub n ty rd rs1 rs2 => Sys2Proof.Machine.execVsub n ty rd rs1 rs2 s
  | .vmul n ty rd rs1 rs2 => Sys2Proof.Machine.execVmul n ty rd rs1 rs2 s
  | .vmac n ty rd rs1 rs2 => Sys2Proof.Machine.execVmac n ty rd rs1 rs2 s
  | .vmax n ty rd rs1 rs2 => Sys2Proof.Machine.execVmax n ty rd rs1 rs2 s
  | .vmin n ty rd rs1 rs2 => Sys2Proof.Machine.execVmin n ty rd rs1 rs2 s
  | .vcvt n ty rd rs1 rs2 => Sys2Proof.Machine.execVcvt n ty rd rs1 rs2 s
  | .vsplat n ty rd rs1 rs2 => Sys2Proof.Machine.execVsplat n ty rd rs1 rs2 s
  | .vext n ty rd rs1 rs2 => Sys2Proof.Machine.execVext n ty rd rs1 rs2 s
  | .wclr n ty rd rs1 rs2 => Sys2Proof.Machine.execWclr n ty rd rs1 rs2 s
  | .wdot n ty rd rs1 rs2 => Sys2Proof.Machine.execWdot n ty rd rs1 rs2 s
  | .wsum n ty rd rs1 rs2 => Sys2Proof.Machine.execWsum n ty rd rs1 rs2 s
  | .wadd n ty rd rs1 rs2 => Sys2Proof.Machine.execWadd n ty rd rs1 rs2 s
  | .wrnd n ty rd rs1 rs2 => Sys2Proof.Machine.execWrnd n ty rd rs1 rs2 s
  | .wld n ty rd rs1 rs2 => Sys2Proof.Machine.execWld n ty rd rs1 rs2 s
  | .wst n ty rd rs1 rs2 => Sys2Proof.Machine.execWst n ty rd rs1 rs2 s
  | .vld n ty rd rs1 rs2 => Sys2Proof.Machine.execVld n ty rd rs1 rs2 s
  | .vst n ty rd rs1 rs2 => Sys2Proof.Machine.execVst n ty rd rs1 rs2 s
  | .vgather n ty rd rs1 rs2 => Sys2Proof.Machine.execVgather n ty rd rs1 rs2 s
  | .vscatter n ty rd rs1 rs2 => Sys2Proof.Machine.execVscatter n ty rd rs1 rs2 s
  | .cmpset n ty rd rs1 rs2 => Sys2Proof.Machine.execCmpset n ty rd rs1 rs2 s
  | .count n ty rd rs1 rs2 => Sys2Proof.Machine.execCount n ty rd rs1 rs2 s
  | .yield n ty rd rs1 rs2 => Sys2Proof.Machine.execYield n ty rd rs1 rs2 s
  | .beadParked n => Sys2Proof.Machine.execBeadParked n s
  | .remoteLoadResponse n ext => Sys2Proof.Machine.execRemoteLoadResponse n ext s
  | .remoteStoreAck n => Sys2Proof.Machine.execRemoteStoreAck n s
  | .beadStart src n => Sys2Proof.Machine.execBeadStart src n s
  | .beadStop src n => Sys2Proof.Machine.execBeadStop src n s
  | .yieldReq src n => Sys2Proof.Machine.execYieldReq src n s
  | .beadResume src n => Sys2Proof.Machine.execBeadResume src n s
  | .yieldLimitExpired n => Sys2Proof.Machine.execYieldLimitExpired n s
  | .moverGo src n v => Sys2Proof.Machine.execMoverGo src n v s
  | .moverTransferEnd n => Sys2Proof.Machine.execMoverTransferEnd n s
  | .bankReqOn src b => Sys2Proof.Machine.execBankReqOn src b s
  | .bankReqRetention src b => Sys2Proof.Machine.execBankReqRetention src b s
  | .bankReqOff src b => Sys2Proof.Machine.execBankReqOff src b s
  | .bankDrained b => Sys2Proof.Machine.execBankDrained b s
  | .bankDrainTimeout b => Sys2Proof.Machine.execBankDrainTimeout b s
  | .bankTransitionComplete b => Sys2Proof.Machine.execBankTransitionComplete b s
  | .patrolScrub b word found => Sys2Proof.Machine.execPatrolScrub b word found s
  | .soAdd src n v => Sys2Proof.Machine.execSoAdd src n v s
  | .soSet src n v => Sys2Proof.Machine.execSoSet src n v s
  | .soRead src n => Sys2Proof.Machine.execSoRead src n s
  | .soWait src n req => Sys2Proof.Machine.execSoWait src n req s
  | .soWaitArm src n target => Sys2Proof.Machine.execSoWaitArm src n target s
  | .soWaitTimeout src => Sys2Proof.Machine.execSoWaitTimeout src s
  | .windowOpenRequest src w v => Sys2Proof.Machine.execWindowOpenRequest src w v s
  | .windowClose src w v => Sys2Proof.Machine.execWindowClose src w v s
  | .windowCloseDrained w => Sys2Proof.Machine.execWindowCloseDrained w s
  | .arbClassWrite src k v => Sys2Proof.Machine.execArbClassWrite src k v s
  | .claspOpen src addr beats => Sys2Proof.Machine.execClaspOpen src addr beats s
  | .claspTimeout src => Sys2Proof.Machine.execClaspTimeout src s
  | .pkgLoad via => Sys2Proof.Machine.execPkgLoad via s
  | .pkgActivate via => Sys2Proof.Machine.execPkgActivate via s
  | .fnStopModel via => Sys2Proof.Machine.execFnStopModel via s
  | .fnConfigModel via => Sys2Proof.Machine.execFnConfigModel via s
  | .fnStartModel via => Sys2Proof.Machine.execFnStartModel via s
  | .cycleBoundary => Sys2Proof.Machine.execCycleBoundary s
  | .windowInstanceOpen w => Sys2Proof.Machine.execWindowInstanceOpen w s
  | .windowDeadline w cyc => Sys2Proof.Machine.execWindowDeadline w cyc s
  | .taskDispatch w cyc t => Sys2Proof.Machine.execTaskDispatch w cyc t s
  | .shareDispatch e => Sys2Proof.Machine.execShareDispatch e s
  | .taskComplete w cyc t => Sys2Proof.Machine.execTaskComplete w cyc t s
  | .preemptForWindow w => Sys2Proof.Machine.execPreemptForWindow w s
  | .yieldForWindow w => Sys2Proof.Machine.execYieldForWindow w s
  | .csi2FrameStart c hdr pkt => Sys2Proof.Machine.execCsi2FrameStart c hdr pkt s
  | .csi2Line c hdr id crcOk data => Sys2Proof.Machine.execCsi2Line c hdr id crcOk data s
  | .csi2FrameEnd c hdr pkt => Sys2Proof.Machine.execCsi2FrameEnd c hdr pkt s
  | .csi2PacketDiscard c => Sys2Proof.Machine.execCsi2PacketDiscard c s
  | .frameTimeout c => Sys2Proof.Machine.execFrameTimeout c s
  | .jxsRtpPacket port seq data marker => Sys2Proof.Machine.execJxsRtpPacket port seq data marker s
  | .jxsDecodeStart => Sys2Proof.Machine.execJxsDecodeStart s
  | .jxsDecodeComplete c => Sys2Proof.Machine.execJxsDecodeComplete c s
  | .dataPutCam c via => Sys2Proof.Machine.execDataPutCam c via s
  | .dataGetCam c via => Sys2Proof.Machine.execDataGetCam c via s
  | .cutTask c => Sys2Proof.Machine.execCutTask c s
  | .cutTaskComplete c => Sys2Proof.Machine.execCutTaskComplete c s
  | .deferredBatchCut c => Sys2Proof.Machine.execDeferredBatchCut c s
  | .fnConfigCam c via => Sys2Proof.Machine.execFnConfigCam c via s
  | .fnStartCam c via => Sys2Proof.Machine.execFnStartCam c via s
  | .fnStopCam c via => Sys2Proof.Machine.execFnStopCam c via s
  | .fnConfigAxis a via => Sys2Proof.Machine.execFnConfigAxis a via s
  | .fnStartAxis a via => Sys2Proof.Machine.execFnStartAxis a via s
  | .fnStopAxis a via => Sys2Proof.Machine.execFnStopAxis a via s
  | .sdClkFault a khz => Sys2Proof.Machine.execSdClkFault a khz s
  | .ocTrip a ch sum => Sys2Proof.Machine.execOcTrip a ch sum s
  | .loopBoundary a sd highClks => Sys2Proof.Machine.execLoopBoundary a sd highClks s
  | .ssiReadComplete a raw err par => Sys2Proof.Machine.execSsiReadComplete a raw err par s
  | .abzTransition a la lb => Sys2Proof.Machine.execAbzTransition a la lb s
  | .abzZEdge a => Sys2Proof.Machine.execAbzZEdge a s
  | .currentLoopCompute a => Sys2Proof.Machine.execCurrentLoopCompute a s
  | .commandedGateEdge a j dev on k => Sys2Proof.Machine.execCommandedGateEdge a j dev on k s
  | .setpointCommit src a v => Sys2Proof.Machine.execSetpointCommit src a v s
  | .setpointTimeout a => Sys2Proof.Machine.execSetpointTimeout a s
  | .followingErrorLimit a => Sys2Proof.Machine.execFollowingErrorLimit a s
  | .ss1 src a => Sys2Proof.Machine.execSs1 src a s
  | .sto src a => Sys2Proof.Machine.execSto src a s
  | .stopTimeExpired a => Sys2Proof.Machine.execStopTimeExpired a s
  | .stoPathAssert p => Sys2Proof.Machine.execStoPathAssert p s
  | .stoPathRelease p => Sys2Proof.Machine.execStoPathRelease p s
  | .fnConfigHealth via => Sys2Proof.Machine.execFnConfigHealth via s
  | .fnStartHealth via => Sys2Proof.Machine.execFnStartHealth via s
  | .fnStopHealth via => Sys2Proof.Machine.execFnStopHealth via s
  | .feedbackEdge m rising t => Sys2Proof.Machine.execFeedbackEdge m rising t s
  | .edgeWindowClose m => Sys2Proof.Machine.execEdgeWindowClose m s
  | .tdcCalExchange m => Sys2Proof.Machine.execTdcCalExchange m s
  | .tdcCalComplete m ok => Sys2Proof.Machine.execTdcCalComplete m ok s
  | .gtlTrigger l dev => Sys2Proof.Machine.execGtlTrigger l dev s
  | .gtlFrame l bits codingOk => Sys2Proof.Machine.execGtlFrame l bits codingOk s
  | .gtlLinkTimeout l => Sys2Proof.Machine.execGtlLinkTimeout l s
  | .hltBindWrite src l v => Sys2Proof.Machine.execHltBindWrite src l v s
  | .bindingApplied l => Sys2Proof.Machine.execBindingApplied l s
  | .hltCommit src l v => Sys2Proof.Machine.execHltCommit src l v s
  | .resultTimeout l => Sys2Proof.Machine.execResultTimeout l s
  | .hallmarkVerdict net => Sys2Proof.Machine.execHallmarkVerdict net s
  | .triageDispatch net => Sys2Proof.Machine.execTriageDispatch net s
  | .triageCompare net => Sys2Proof.Machine.execTriageCompare net s
  | .faultLocalisation net => Sys2Proof.Machine.execFaultLocalisation net s
  | .agmLimitExpired e => Sys2Proof.Machine.execAgmLimitExpired e s
  | .selftestPartStart u => Sys2Proof.Machine.execSelftestPartStart u s
  | .selftestPartComplete u pass => Sys2Proof.Machine.execSelftestPartComplete u pass s
  | .selftestDeferred u => Sys2Proof.Machine.execSelftestDeferred u s
  | .selftestLate u => Sys2Proof.Machine.execSelftestLate u s
  | .hmkTest unequal equal => Sys2Proof.Machine.execHmkTest unequal equal s
  | .ss1TimerExpired => Sys2Proof.Machine.execSs1TimerExpired s
  | .safWdog src v => Sys2Proof.Machine.execSafWdog src v s
  | .sfpWd => Sys2Proof.Machine.execSfpWd s
  | .sfpLockstep ecc => Sys2Proof.Machine.execSfpLockstep ecc s
  | .safetyMessage => Sys2Proof.Machine.execSafetyMessage s
  | .safeAck lowUs => Sys2Proof.Machine.execSafeAck lowUs s
  | .ackMessage ch id data => Sys2Proof.Machine.execAckMessage ch id data s
  | .madderRestartComplete ok => Sys2Proof.Machine.execMadderRestartComplete ok s
  | .startChecksComplete ok => Sys2Proof.Machine.execStartChecksComplete ok s
  | .estopInputChange p level => Sys2Proof.Machine.execEstopInputChange p level s
  | .estopDisc => Sys2Proof.Machine.execEstopDisc s
  | .stoFb p level other => Sys2Proof.Machine.execStoFb p level other s
  | .ringDoorbell src r pi => Sys2Proof.Machine.execRingDoorbell src r pi s
  | .commandFetch r => Sys2Proof.Machine.execCommandFetch r s
  | .msixCoalesceExpired r => Sys2Proof.Machine.execMsixCoalesceExpired r s
  | .ringEnable src r v => Sys2Proof.Machine.execRingEnable src r v s
  | .ringDisable src r v => Sys2Proof.Machine.execRingDisable src r v s
  | .ringDrained r => Sys2Proof.Machine.execRingDrained r s
  | .mailboxGo src m v => Sys2Proof.Machine.execMailboxGo src m v s
  | .dataPutModel via => Sys2Proof.Machine.execDataPutModel via s
  | .dataGetModel via => Sys2Proof.Machine.execDataGetModel via s
  | .settingsStore via => Sys2Proof.Machine.execSettingsStore via s
  | .settingsCommit => Sys2Proof.Machine.execSettingsCommit s
  | .telemetry via => Sys2Proof.Machine.execTelemetry via s
  | .hostHeartbeat via => Sys2Proof.Machine.execHostHeartbeat via s
  | .mbxHb src v => Sys2Proof.Machine.execMbxHb src v s
  | .attach via => Sys2Proof.Machine.execAttach via s
  | .ifaceQuery via => Sys2Proof.Machine.execIfaceQuery via s
  | .hostLoss => Sys2Proof.Machine.execHostLoss s
  | .watchdogKick src p v => Sys2Proof.Machine.execWatchdogKick src p v s
  | .watchdogExpired p => Sys2Proof.Machine.execWatchdogExpired p s
  | .processorCrash p cause => Sys2Proof.Machine.execProcessorCrash p cause s
  | .processorRestartComplete p => Sys2Proof.Machine.execProcessorRestartComplete p s
  | .tbStep src n hi => Sys2Proof.Machine.execTbStep src n hi s
  | .tbRateWrite src n v => Sys2Proof.Machine.execTbRateWrite src n v s
  | .timSnap src => Sys2Proof.Machine.execTimSnap src s
  | .pulseArm src p v => Sys2Proof.Machine.execPulseArm src p v s
  | .pulseInstant p => Sys2Proof.Machine.execPulseInstant p s
  | .pulseEnd p => Sys2Proof.Machine.execPulseEnd p s
  | .captureEdge c rising => Sys2Proof.Machine.execCaptureEdge c rising s
  | .capturePop src c => Sys2Proof.Machine.execCapturePop src c s
  | .fnConfigTime via => Sys2Proof.Machine.execFnConfigTime via s
  | .fnStartTime via => Sys2Proof.Machine.execFnStartTime via s
  | .fnStopTime via => Sys2Proof.Machine.execFnStopTime via s
  | .ethFrameReceived p fr verdict => Sys2Proof.Machine.execEthFrameReceived p fr verdict s
  | .ethFrameTransmit p tc => Sys2Proof.Machine.execEthFrameTransmit p tc s
  | .gateControlEntry p => Sys2Proof.Machine.execGateControlEntry p s
  | .gclConfigChange p => Sys2Proof.Machine.execGclConfigChange p s
  | .fnConfigEth via => Sys2Proof.Machine.execFnConfigEth via s
  | .fnStartEth via => Sys2Proof.Machine.execFnStartEth via s
  | .fnStopEth via => Sys2Proof.Machine.execFnStopEth via s
  | .canTxreq src n v => Sys2Proof.Machine.execCanTxreq src n v s
  | .canTxabort src n v => Sys2Proof.Machine.execCanTxabort src n v s
  | .canFrameStart n => Sys2Proof.Machine.execCanFrameStart n s
  | .canFrameTransmitted n res => Sys2Proof.Machine.execCanFrameTransmitted n res s
  | .canFrameReceived n fr => Sys2Proof.Machine.execCanFrameReceived n fr s
  | .canBusOff n => Sys2Proof.Machine.execCanBusOff n s
  | .canBusOffRecovery n => Sys2Proof.Machine.execCanBusOffRecovery n s
  | .recover src n => Sys2Proof.Machine.execRecover src n s
  | .referenceMessage n => Sys2Proof.Machine.execReferenceMessage n s
  | .ttcLost n => Sys2Proof.Machine.execTtcLost n s
  | .fnConfigCan n via => Sys2Proof.Machine.execFnConfigCan n via s
  | .fnStartCan n via => Sys2Proof.Machine.execFnStartCan n via s
  | .fnStopCan n via => Sys2Proof.Machine.execFnStopCan n via s
  | .fnConfigPair via => Sys2Proof.Machine.execFnConfigPair via s
  | .fnStartPair via peers => Sys2Proof.Machine.execFnStartPair via peers s
  | .fnStopPair via => Sys2Proof.Machine.execFnStopPair via s
  | .pairLinkTrained ports => Sys2Proof.Machine.execPairLinkTrained ports s
  | .plkFlit k crcOk => Sys2Proof.Machine.execPlkFlit k crcOk s
  | .laneLockLoss k => Sys2Proof.Machine.execLaneLockLoss k s
  | .cycleHeartbeatSend => Sys2Proof.Machine.execCycleHeartbeatSend s
  | .cycleHeartbeatReceived chip cyc => Sys2Proof.Machine.execCycleHeartbeatReceived chip cyc s
  | .pairHeartbeatTimeout => Sys2Proof.Machine.execPairHeartbeatTimeout s
  | .crossCheckRecord net cyc sig => Sys2Proof.Machine.execCrossCheckRecord net cyc sig s
  | .partnerSafeState => Sys2Proof.Machine.execPartnerSafeState s
  | .powerInterval avs => Sys2Proof.Machine.execPowerInterval avs s
  | .pmbusPoll rails => Sys2Proof.Machine.execPmbusPoll rails s
  | .tempSample sensor temp => Sys2Proof.Machine.execTempSample sensor temp s
  | .shutdownPowerOff => Sys2Proof.Machine.execShutdownPowerOff s
  | .supplyFault rail => Sys2Proof.Machine.execSupplyFault rail s
  | .droop d => Sys2Proof.Machine.execDroop d s
  | .droopStretchEnd d => Sys2Proof.Machine.execDroopStretchEnd d s
  | .voltageConfirmed d => Sys2Proof.Machine.execVoltageConfirmed d s
  | .pwrDomCtlWrite src d v => Sys2Proof.Machine.execPwrDomCtlWrite src d v s
  | .domainOnComplete d => Sys2Proof.Machine.execDomainOnComplete d s
  | .fnConfigPower via => Sys2Proof.Machine.execFnConfigPower via s
  | .fnStartPower via => Sys2Proof.Machine.execFnStartPower via s
  | .fnStopPower via => Sys2Proof.Machine.execFnStopPower via s
  | .coldReset => Sys2Proof.Machine.execColdReset s
  | .coldResetRelease straps => Sys2Proof.Machine.execColdResetRelease straps s
  | .warmReset lowNs => Sys2Proof.Machine.execWarmReset lowNs s
  | .deviceReset src v => Sys2Proof.Machine.execDeviceReset src v s
  | .firmwareSetLoad => Sys2Proof.Machine.execFirmwareSetLoad s
  | .lpddr5xTrained => Sys2Proof.Machine.execLpddr5xTrained s
  | .bootReady => Sys2Proof.Machine.execBootReady s
  | .lpReqActive src v => Sys2Proof.Machine.execLpReqActive src v s
  | .lpReqLight src v => Sys2Proof.Machine.execLpReqLight src v s
  | .lpReqStandby src v => Sys2Proof.Machine.execLpReqStandby src v s
  | .lpReqHibernate src v => Sys2Proof.Machine.execLpReqHibernate src v s
  | .lpEntryComplete => Sys2Proof.Machine.execLpEntryComplete s
  | .lpExitComplete => Sys2Proof.Machine.execLpExitComplete s
  | .wakeN lowNs => Sys2Proof.Machine.execWakeN lowNs s
  | .wakeTime => Sys2Proof.Machine.execWakeTime s
  | .debugReset => Sys2Proof.Machine.execDebugReset s
  | .dbgChalRead => Sys2Proof.Machine.execDbgChalRead s
  | .authResponse perm r sig => Sys2Proof.Machine.execAuthResponse perm r sig s
  | .challengeExpired => Sys2Proof.Machine.execChallengeExpired s
  | .lockoutEnd => Sys2Proof.Machine.execLockoutEnd s
  | .lifecycleRequest target => Sys2Proof.Machine.execLifecycleRequest target s
  | .keyProvision slot x y => Sys2Proof.Machine.execKeyProvision slot x y s
  | .keyRevoke slot => Sys2Proof.Machine.execKeyRevoke slot s
  | .xspiAccess slotB content => Sys2Proof.Machine.execXspiAccess slotB content s
  | .boundaryScan ins => Sys2Proof.Machine.execBoundaryScan ins s
  | .debugHalt t => Sys2Proof.Machine.execDebugHalt t s
  | .breakpointHit t k => Sys2Proof.Machine.execBreakpointHit t k s
  | .debugStep t => Sys2Proof.Machine.execDebugStep t s
  | .debugResume t => Sys2Proof.Machine.execDebugResume t s
  | .debugMemoryAccess addr len data => Sys2Proof.Machine.execDebugMemoryAccess addr len data s
  | .lpddr5xPatrolScrub word found endOfPass => Sys2Proof.Machine.execLpddr5xPatrolScrub word found endOfPass s
  | .macAddressAgeing mac => Sys2Proof.Machine.execMacAddressAgeing mac s
  | .secPolicyWrite v => Sys2Proof.Machine.execSecPolicyWrite v s
  | .tdcCalibrationExpired m => Sys2Proof.Machine.execTdcCalibrationExpired m s
  | .pcieLinkUp link cfg => Sys2Proof.Machine.execPcieLinkUp link cfg s
  | .warmResetRelease => Sys2Proof.Machine.execWarmResetRelease s
  | .pairEqualisation d op => Sys2Proof.Machine.execPairEqualisation d op s

end Sys2Proof.Machine
end

