-- ==== Sys2Proof/Machine/Idle.lean ====
section
/-! DEFINITION. What a step does when no command waits: one clock of the time bases (R319,
R320). -/

namespace Sys2Proof.Machine

/-- The increment of time base `n` in one 250 MHz clock, in units of 2^−48 ns: 4 ns, and 2^10
units for each unit of RATE (R320). TB0 has no RATE. -/
def tbIncrement (s : State) (n : Nat) : Int :=
  4 * 2 ^ 48 + (if n = 0 then 0 else signedN 32 (s.rd (TIM_TB_RATE n)).toNat * 2 ^ 10)

/-- The time bases that run: none while the power-on reset is held, TB0 alone while a warm reset
is held and in HIBERNATE (R365, R366, R370), else all (R320). -/
def State.running (s : State) : List Nat :=
  if s.reset_.boot = .held then (if s.reset_.lastKind = 0 then [] else [0])
  else List.range 8

/-- One 250 MHz clock: every running time base advances (R319, R320). -/
def State.tick (s : State) : State :=
  { s with time := { s.time with
      tb := s.running.foldl (fun m n => kput n (s.tb n + BitVec.ofInt 96 (tbIncrement s n)) m) s.time.tb } }

end Sys2Proof.Machine
end

