-- ==== Sys2Proof/Safety.lean ====
section
/-! DEFINITION. What the model counts as a safe run, and the terms in which the statements
speak: completion of a command, and what it leaves unchanged. -/

namespace Sys2Proof

open Sys2Proof.Machine

/-- Both safe-torque-off paths are asserted and SAFE_N is low (R231, R269, R274). -/
def SafeOutputs (s : State) : Prop :=
  s.flag SAF_STATUS_STO_A = true ∧ s.flag SAF_STATUS_STO_B = true ∧ s.safety.safeN = false

/-- The memories are in canonical form. -/
def MemoriesWf (s : State) : Prop :=
  s.mems.map.wf ∧ s.mems.blm.wf ∧ s.mems.fom.wf ∧ s.mems.ddr.wf ∧ s.mems.nvm.wf ∧ s.mems.dmem.wf

/-- Command `c` runs in state `s` and the state after it has property `P`. -/
def Completes (c : Instr) (s : State) (P : State → Prop) : Prop := ∃ t, exec c s = .next t ∧ P t

/-- Where command `c` answers a next state, that state has property `P`. -/
def Leaves (c : Instr) (s : State) (P : State → Prop) : Prop := ∀ t, exec c s = .next t → P t

/-- A register of the error log (R400). -/
def elogReg (o : Nat) : Bool :=
  o == GLB_ELOG_WR || o == GLB_ELOG_LOST || (GLB_ELOG_ENT 0 0 ≤ o && o < GLB_ELOG_ENT 256 0)

/-- Every register outside the error log but those in `chg` reads as before. -/
def OnlyRegs (chg : Nat → Prop) (s t : State) : Prop := ∀ o, elogReg o = false → ¬ chg o → t.rd o = s.rd o

/-- Every byte of every memory reads as before. -/
def SameBytes (s t : State) : Prop := ∀ (sp : Space) (a : Nat), (t.mem sp).byte a = (s.mem sp).byte a

/-- Every byte but the `n` bytes from `lo` of memory `m` reads as before. -/
def SameBytesBut (m : Space) (lo n : Nat) (s t : State) : Prop :=
  ∀ (sp : Space) (a : Nat), ¬ (sp = m ∧ lo ≤ a ∧ a < lo + n) → (t.mem sp).byte a = (s.mem sp).byte a

/-- The engines, axes, streams and monitored legs are as before. -/
def SameUnits (s t : State) : Prop :=
  t.facets = s.facets ∧ t.beads = s.beads ∧ t.axes = s.axes ∧ t.cams = s.cams ∧ t.health = s.health

/-- A state without its registers, its memories, its host interface, and what the fabric keeps of
requests that wait and of grants. -/
def Machine.State.core (s : State) : State :=
  { s with
    csr := [], mems := {}, reply := {}, host := {}, elogLost := 0, free := 0
    fab := { s.fab with rr := [], raised := [] } }

/-- Every register below 0x10_0000 but the mailbox block reads as before: what the completion of a
host command or an event entry leaves alone. -/
def SameLow (s t : State) : Prop := ∀ o, o < 0x100000 → ¬ (0x10000 ≤ o ∧ o < 0x20000) → t.rd o = s.rd o

/-- The command that came by `via` has ended: it is in flight no more; its mailbox holds the
completion with status `st` (R298), its ring has one command fewer in flight (R295), the source of a
register write has `st`. -/
def Ended (via : Via) (st : St) (s t : State) : Prop :=
  match via with
  | .mbx m => t.cmdVia via = none ∧ t.fld (MBX_CTL_DONE m.val) = 1 ∧ t.fld (MBX_CTL_BUSY m.val) = 0 ∧
      (t.rd (MBX_DATA m.val 1)).toNat % 65536 = st.toNat
  | .ring r _ => t.cmdVia via = none ∧ (t.ring r.val).flight = (s.ring r.val).flight - 1
  | .reg _ => t.reply.st = st

/-- No request waits, in the fabric or at the PCIe endpoint, and no clasp is open (R153, R155, R279). -/
def FabricQuiet (s : State) : Prop := s.fab.clasps = [] ∧ s.fab.raised = [] ∧ s.reset_.heldHost = []

end Sys2Proof
end

