-- ==== Sys2Proof/WellFormed.lean ====
section
/-! DEFINITION. The checks on the operands of a command: what the spec says a request of its
kind can be. -/

namespace Sys2Proof

/-- A mesh request of `n` bytes at `addr`: 4–64 B within one aligned 64-byte line (R136). -/
def meshShape (addr : BitVec 64) (n : Nat) : Bool :=
  4 ≤ n && n ≤ 64 && addr.toNat % 64 + n ≤ 64

/-- An aligned 32-bit word access (R31, R127). -/
def wordShape (addr : BitVec 64) : Bool := addr.toNat % 4 == 0

/-- A master that opens clasps: a Bead node with its mover, or a firmware processor (R155, R156). -/
def claspShape (src : Nat) : Bool := src < 4096 || (4128 ≤ src && src ≤ 4130)

/-- The operands spell a command of the spec. -/
def Instr.wf : Instr → Bool
  | .csrWrite _ off _ _ => off % 4 == 0 && off < 0x4000000
  | .rcRegisterRead _ off _ => off % 4 == 0 && off < 0x4000000
  | .meshRead _ addr len => meshShape addr len
  | .meshWrite _ addr data _ _ => meshShape addr data.length
  | .setAliasWrite _ ofs data => meshShape (BitVec.ofNat 64 ofs) data.length && ofs + data.length ≤ 0x8000000
  | .clearAliasWrite _ ofs data => meshShape (BitVec.ofNat 64 ofs) data.length && ofs + data.length ≤ 0x8000000
  | .meshCmpset _ addr _ _ => wordShape addr
  | .meshCount _ addr _ => wordShape addr
  | .hostBar2Read off len => 1 ≤ len && len ≤ 4096 && off + len ≤ 0x100000000
  | .hostBar2Write off data => 1 ≤ data.length && data.length ≤ 512 && off + data.length ≤ 0x100000000
  | .claspOpen src _ beats => 1 ≤ beats && beats ≤ 16 && claspShape src
  | .pcieLinkUp l cfg => [1, 2, 4, 8].contains l.width.toNat && 1 ≤ l.rate.toNat && l.rate.toNat ≤ 5
    && [128, 256, 512].contains cfg.maxPayload
  | .debugMemoryAccess addr len data =>
    meshShape addr len && (match data with | none => true | some d => d.length == len)
  | _ => true

end Sys2Proof
end

