-- ==== Sys2Proof/Certificates/Slice0/Obligations.lean ====
section
/-! DEFINITION. The statements for the provers. -/

open Sys2Proof Sys2Proof.Machine

/-! ### The queue and reset -/

/-- A step runs the command at the front of the queue on the state with the queue's rest; on an
empty queue the time bases advance by one clock (log entry 1). -/
def Obligations.StepRunsFrontCommand : Prop :=
  ∀ (c : Instr) (cs : List Instr) (s : State),
    step { s with pending := c :: cs } = exec c { s with pending := cs } ∧
      (s.pending = [] → step s = .next s.tick)

/-- R33, R88, R133, R144, R206, R274, R318: reset column values of the registers of several blocks; from any
reset SAFE_N is low and both paths are asserted. -/
def Obligations.ResetState : Prop :=
  (State.reset.rd GLB_ARITH_SIG = 0x5A170B00 ∧
  (∀ f : Fin 32, State.reset.rd (FAC_STATUS f.val) = 5) ∧
  (∀ n : Fin 4096, State.reset.rd (BEAD_STATUS n.val) = 5 ∧ State.reset.rd (BEAD_WIN n.val) = 0x0000FFFF ∧
    State.reset.rd (BEAD_SAVE n.val) = 0x0000FD80 ∧ State.reset.rd (BEAD_YLIM n.val) = 5000) ∧
  (∀ w : Fin 4096, State.reset.rd (ARB_WIN_CTL w.val) = 0) ∧
  State.reset.pending = []) ∧
  (SafeOutputs State.reset ∧
  ∀ s : State, Completes .coldReset s SafeOutputs ∧
    (s.reset_.boot ≠ .held → Completes (.warmReset 10000) s SafeOutputs) ∧
    (axesAll.all (fun a => s.axState a != axRUNNING) = true →
      Completes (.deviceReset mHIP 0xD5E50001) s SafeOutputs))

/-- The memories are in canonical form at reset. -/
def Obligations.ResetMemoriesCanonical : Prop := MemoriesWf State.reset

/-- Every step keeps the memories in canonical form. -/
def Obligations.StepKeepsMemoriesCanonical : Prop :=
  ∀ s t : State, MemoriesWf s → step s = .next t → MemoriesWf t

/-! ### Registers -/

/-- R31–R33, R147, R400: a write with byte enables other than 0b1111 is not applied and its source receives
ST_BAD_FIELD, and the log takes an entry; a register that the HIP owns takes the word; a write to a word
of the sync-object window adds; a read of an RC register clears it and keeps an update of the same clock. -/
def Obligations.RegisterAccess : Prop :=
  (∀ (src off : Nat) (be : BitVec 4) (v hw : Word) (s : State),
    off < 0x4000000 → be ≠ 0xF → s.inStandby = false →
    Completes (.csrWrite src off be ⟨v, hw⟩) s fun t =>
      t.reply = { st := ST_BAD_FIELD } ∧ OnlyRegs (fun o => o = off ∧ hw ≠ 0) s t ∧ SameBytes s t ∧ SameUnits s t ∧
      (s.logFull = false → s.elogLost = 0 →
        t.rd GLB_ELOG_WR = BitVec.ofNat 32 ((s.rd GLB_ELOG_WR).toNat + 1))) ∧
  ((∀ (v hw : Word) (s : State), Completes (.csrWrite mHIP GLB_ELOG_RD 0xF ⟨v, hw⟩) s fun t =>
    t.rd GLB_ELOG_RD = v ∧ t.reply.st = ST_OK ∧ (∀ o, o ≠ GLB_ELOG_RD → t.rd o = s.rd o) ∧ SameBytes s t ∧
      SameUnits s t) ∧
  (∀ (n : Fin 16384) (v hw : Word) (s : State), s.soBad n.val = false →
    (s.fab.raised.any fun q => q.src = mSCP && q.op.isWrite) = false →
    Completes (.csrWrite mSCP (0x140000 + 4 * n.val) 0xF ⟨v, hw⟩) s fun t => t.so n.val = s.so n.val + v) ∧
  (∀ (src off : Nat) (v hw : Word) (r : RegRow) (p : Nat × Nat) (s : State), off < 0x4000000 →
    regAt off = some (r, p) →
    Completes (.csrWrite src off 0xF ⟨v, hw⟩) s fun t =>
      t.rd off &&& (hw &&& BitVec.ofNat 32 r.w1c) = hw &&& BitVec.ofNat 32 r.w1c) ∧
  (∀ (upd : Nat) (s : State), 0 < upd → upd < 2 ^ 32 →
    Completes (.rcRegisterRead mHIP GLB_ELOG_LOST upd) s fun t =>
      t.reply.data = leBytes 4 (s.rd GLB_ELOG_LOST).toNat ∧ t.rd GLB_ELOG_LOST = BitVec.ofNat 32 upd ∧
      (∀ o, o ≠ GLB_ELOG_LOST → t.rd o = s.rd o) ∧ SameBytes s t ∧ SameUnits s t))

/-! ### Requests on the mesh -/

/-- R21, R136, R139, R142: a read and a write of at most one line of an ON map bank in a quiet fabric; a write
through the set alias sets, and one through the clear alias clears, the bits that are 1 in the written data. -/
def Obligations.MapAccess : Prop :=
  ((∀ (src off n : Nat) (s : State), FabricQuiet s →
    (src = mPCIe ∨ src = mDebug → s.flag SEC_POLICY_SEAL = false) → off < 0x8000000 → lineOk off n = true → s.bankServes (off / 0x80000) = true → syncArea off n = false →
    Completes (.meshRead src (aliasAddr 0x10000000 off) n) s fun t =>
      t.reply.st = ST_OK ∧ t.reply.data = s.mems.map.bytes off n ∧ SameBytes s t ∧ SameUnits s t ∧
        OnlyRegs (fun o => o = MM_ECC (off / 0x80000)) s t) ∧
  (∀ (src off : Nat) (d : List Byte) (s : State), FabricQuiet s →
    off < 0x8000000 → lineOk off d.length = true → s.bankServes (off / 0x80000) = true →
    syncArea off d.length = false → s.mems.map.partBad 8 off d.length = false →
    Completes (.meshWrite src (aliasAddr 0x10000000 off) d 0xFFFF 0) s fun t =>
      t.reply.st = ST_OK ∧ t.mems.map.bytes off d.length = d ∧ SameBytesBut .map off d.length s t ∧ SameUnits s t ∧
        OnlyRegs (fun _ => False) s t)) ∧
  (∀ (src off : Nat) (d : List Byte) (s : State), FabricQuiet s →
    off < 0x8000000 → lineOk off d.length = true → s.bankServes (off / 0x80000) = true →
    syncArea off d.length = false → s.mems.map.anyBad 8 off d.length = false →
    Completes (.setAliasWrite src off d) s (fun t =>
      t.mems.map.bytes off d.length = List.zipWith (· ||| ·) (s.mems.map.bytes off d.length) d ∧
        SameBytesBut .map off d.length s t ∧ SameUnits s t ∧ OnlyRegs (fun _ => False) s t) ∧
    Completes (.clearAliasWrite src off d) s (fun t =>
      t.mems.map.bytes off d.length = List.zipWith (fun o x => o &&& ~~~x) (s.mems.map.bytes off d.length) d ∧
        SameBytesBut .map off d.length s t ∧ SameUnits s t ∧ OnlyRegs (fun _ => False) s t))

/-- R20, R22, R142: a request whose local address lies in no region is not applied, its source receives
ST_BAD_FIELD, and a read returns zeros; one at a bank in any state other than ON or DRAINING receives
ST_BANK_OFF and MM_REJ counts it; the NVM read window takes no write. -/
def Obligations.RequestRefusals : Prop :=
  (∀ (src : Nat) (addr : BitVec 64) (n : Nat) (d : List Byte) (s : State),
    s.target src addr = .none → FabricQuiet s →
    (lineOk addr.toNat n = true → (src = mPCIe ∨ src = mDebug → s.flag SEC_POLICY_SEAL = false) →
      Completes (.meshRead src addr n) s fun t =>
        t.reply.st = ST_BAD_FIELD ∧ t.reply.data = List.replicate n 0 ∧ SameBytes s t ∧ SameUnits s t ∧
          OnlyRegs (fun _ => False) s t) ∧
    (lineOk addr.toNat d.length = true → Completes (.meshWrite src addr d 0xFFFF 0) s fun t =>
      t.reply.st = ST_BAD_FIELD ∧ SameBytes s t ∧ SameUnits s t ∧ OnlyRegs (fun _ => False) s t)) ∧
  (∀ (src off : Nat) (n : Nat) (d : List Byte) (s : State),
    off < 0x8000000 → s.bankServes (off / 0x80000) = false → syncArea off n = false →
    syncArea off d.length = false → FabricQuiet s →
    let b := off / 0x80000
    (lineOk off n = true → (src = mPCIe ∨ src = mDebug → s.flag SEC_POLICY_SEAL = false) → Completes (.meshRead src (aliasAddr 0x10000000 off) n) s fun t =>
      t.reply.st = ST_BANK_OFF ∧ t.reply.data = List.replicate n 0 ∧ SameBytes s t ∧
        (t.rd (MM_REJ b)).toNat = min 0xFFFFFFFF ((s.rd (MM_REJ b)).toNat + 1)) ∧
    (lineOk off d.length = true → Completes (.meshWrite src (aliasAddr 0x10000000 off) d 0xFFFF 0) s fun t =>
      t.reply.st = ST_BANK_OFF ∧ SameBytes s t ∧ OnlyRegs (fun o => o = MM_REJ b) s t ∧
        (t.rd (MM_REJ b)).toNat = min 0xFFFFFFFF ((s.rd (MM_REJ b)).toNat + 1))) ∧
  (∀ (src off : Nat) (d : List Byte) (s : State), off < 0x400000 → lineOk off d.length = true →
    FabricQuiet s → Completes (.meshWrite src (aliasAddr 0x60000000 off) d 0xFFFF 0) s fun t =>
      t.reply.st = ST_NOT_PERMITTED ∧ SameBytes s t ∧ SameUnits s t)

/-! ### The host's windows -/

/-- R24, R25: the base written with PCI_BAR2_BASE_HI comes into force; a BAR2 read outside map
memory and LPDDR5X completes with Unsupported Request, and a write there is not applied but
logged; a read and a write inside reach map memory. -/
def Obligations.Bar2Window : Prop :=
  (∀ (v : Word) (s : State), s.inStandby = false → s.hostStalls mPCIe = false →
    Completes (.pciBar2BaseHiWrite mPCIe v) s fun t =>
    t.fab.bar2Hi = v ∧ t.fab.bar2Lo = s.rd PCI_BAR2_BASE_LO ∧ t.rd PCI_BAR2_BASE_HI = v ∧
      OnlyRegs (fun o => o = PCI_BAR2_BASE_HI) s t ∧ SameBytes s t ∧ SameUnits s t) ∧
  (∀ (off n : Nat) (s : State), s.inStandby = false → s.hostStalls mPCIe = false → bar2Ok maxRead off n = true →
    s.bar2Inside (s.bar2Addr off) = false →
    Completes (.hostBar2Read off n) s fun t => t.reply.ur = true ∧ t = { s with reply := t.reply }) ∧
  (∀ (off : Nat) (d : List Byte) (s : State), s.inStandby = false → s.hostStalls mPCIe = false →
    s.reset_.devInReset = false → bar2Ok maxWrite off d.length = true → s.bar2Inside (s.bar2Addr off) = false →
    Completes (.hostBar2Write off d) s fun t =>
      t.reply.st = ST_BAD_FIELD ∧ SameBytes s t ∧ SameUnits s t ∧ OnlyRegs (fun _ => False) s t) ∧
  (∀ (off n o : Nat) (s : State), s.inStandby = false → s.reset_.devInReset = false → FabricQuiet s →
    s.bar2Addr off = aliasAddr 0x10000000 o → o < 0x8000000 → lineOk o n = true → off + n ≤ 2 ^ 32 →
    s.bankServes (o / 0x80000) = true → syncArea o n = false → s.flag SEC_POLICY_SEAL = false →
    s.mems.map.anyBad 8 o n = false →
    Completes (.hostBar2Read off n) s fun t =>
      t.reply.ur = false ∧ t.reply.st = ST_OK ∧ t.reply.data = s.mems.map.bytes o n ∧ SameBytes s t) ∧
  (∀ (off o : Nat) (d : List Byte) (s : State), s.inStandby = false → s.reset_.devInReset = false →
    FabricQuiet s → s.bar2Addr off = aliasAddr 0x10000000 o → o < 0x8000000 → lineOk o d.length = true →
    off + d.length ≤ 2 ^ 32 → s.bankServes (o / 0x80000) = true → syncArea o d.length = false →
    s.mems.map.partBad 8 o d.length = false →
    Completes (.hostBar2Write off d) s fun t =>
      t.mems.map.bytes o d.length = d ∧ SameBytesBut .map o d.length s t ∧ SameUnits s t)

/-! ### Sync objects, windows, classes, clasps -/

/-- R146–R148: ADD, SET and READ act on one count and change no other; a WAIT whose condition holds is answered
at once, one whose condition does not is held, and a timeout of 0 makes it complete at once; a held WAIT
whose time has passed is answered with the current count; a write to ARB_SO_WAIT arms. -/
def Obligations.SyncObjects : Prop :=
  (∀ (src : Nat) (n : Fin 16384) (v : Word) (s : State), s.soBad n.val = false →
    s.hostStalls src = false →
    let others (t : State) : Prop := (∀ m : Fin 16384, m ≠ n → t.so m.val = s.so m.val) ∧
      SameBytesBut .map (soAddr n.val) 4 s t ∧ t.csr = s.csr ∧ SameUnits s t
    ((s.fab.raised.any fun q => q.src = src && q.op.isWrite) = false → Completes (.soAdd src n v) s fun t => t.so n.val = s.so n.val + v ∧ t.reply = { st := ST_OK } ∧ others t) ∧
    Completes (.soSet src n v) s (fun t => t.so n.val = v ∧ t.reply = { st := ST_OK } ∧ others t) ∧
    Completes (.soRead src n) s (fun t => t.reply = { st := ST_OK, data := leBytes 4 (s.so n.val).toNat } ∧
      t = { s with reply := t.reply })) ∧
  ((∀ (n : Fin 16384) (v : Word) (tmo : BitVec 16) (s : State), s.hostStalls mPCIe = false → s.soBad n.val = false →
    Completes (.soWait mPCIe n (some (v, tmo))) s fun t =>
      t.reply = { st := ST_OK, data := leBytes 4 (s.so n.val).toNat } ∧ t = { s with reply := t.reply }) ∧
  (∀ (src : Nat) (n : Fin 16384) (v : Word) (s : State), src ≠ mPCIe → s.soBad n.val = false →
    (s.fab.waits.any fun w => w.src = src) = false → s.armed src n.val = some v → soMet (s.so n.val) v = true →
    Completes (.soWait src n none) s fun t =>
      t.reply = { st := ST_OK, data := leBytes 4 (s.so n.val).toNat } ∧ t.armed src n.val = none ∧
      t.csr = s.csr ∧ SameBytes s t ∧ SameUnits s t) ∧
  ∀ (src : Nat) (n : Fin 16384) (v : Word) (tmo : BitVec 16) (s : State), src ≠ mPCIe → s.soBad n.val = false →
    (s.fab.waits.any fun w => w.src = src) = false →
    (soMet (s.so n.val) v = true → Completes (.soWait src n (some (v, tmo))) s fun t =>
      t.reply = { st := ST_OK, data := leBytes 4 (s.so n.val).toNat } ∧ t = { s with reply := t.reply }) ∧
    (soMet (s.so n.val) v = false → tmo = 0 → Completes (.soWait src n (some (v, tmo))) s fun t =>
      t.reply = { st := ST_WAIT_TIMEOUT, data := leBytes 4 (s.so n.val).toNat } ∧
      OnlyRegs (fun o => o = ARB_WAIT_TMO_CNT) s t ∧
      (t.rd ARB_WAIT_TMO_CNT).toNat = min 0xFFFFFFFF ((s.rd ARB_WAIT_TMO_CNT).toNat + 1)) ∧
    (soMet (s.so n.val) v = false → tmo ≠ 0 → Completes (.soWait src n (some (v, tmo))) s fun t =>
      t.fab.waits = s.fab.waits ++ [⟨src, n.val, v, tmo.toNat, s.now, false⟩] ∧ t.csr = s.csr ∧ SameBytes s t) ∧
    Completes (.soWaitArm src n v) s (fun t => t.armed src n.val = some v ∧
      (∀ m, m ≠ n.val → t.armed src m = s.armed src m) ∧ t.csr = s.csr ∧ SameBytes s t)) ∧
  (∀ (w : Wait) (s : State), s.fab.waits = [w] → w.tmoUs * 1000 ≤ sinceNs s.now w.since →
    s.model.pkg = none →
    Completes (.soWaitTimeout w.src) s fun t => t.fab.waits = [] ∧
      t.fab.answered = s.fab.answered ++ [(w.src,
        { st := if w.aliased then ST_OK else ST_WAIT_TIMEOUT, data := leBytes 4 (s.so w.so).toNat })] ∧
      (t.rd ARB_WAIT_TMO_CNT).toNat = min 0xFFFFFFFF ((s.rd ARB_WAIT_TMO_CNT).toNat + 1))

/-- R150–R152: OPEN increments EPOCH, CLOSE leaves the window CLOSED and BUSY, both together set ERR, and BUSY
ends when the accepted writes have been performed; a write that carries a window id has the status of the
first check it fails, is then not applied, and its window's counter advances. -/
def Obligations.Windows : Prop :=
  ((∀ (w : Fin 4096) (s : State), s.winFits w.val = true → Completes (.windowOpenRequest mSCP w 1) s fun t =>
    t.fld (ARB_WIN_CTL_STATE w.val) = 1 ∧
    t.fld (ARB_WIN_CTL_EPOCH w.val) = (s.fld (ARB_WIN_CTL_EPOCH w.val) + 1) % 65536 ∧
    t.reply.st = ST_OK ∧ OnlyRegs (fun o => o = ARB_WIN_CTL w.val) s t ∧ SameBytes s t ∧ SameUnits s t) ∧
  (∀ (w : Fin 4096) (s : State), s.flag (ARB_WIN_CTL_STATE w.val) = true →
    Completes (.windowClose mSCP w 2) s fun t =>
      t.fld (ARB_WIN_CTL_STATE w.val) = 0 ∧ t.fld (ARB_WIN_CTL_BUSY w.val) = 1 ∧
      t.fld (ARB_WIN_CTL_EPOCH w.val) = s.fld (ARB_WIN_CTL_EPOCH w.val) ∧
      OnlyRegs (fun o => o = ARB_WIN_CTL w.val) s t ∧ SameBytes s t ∧ SameUnits s t) ∧
  (∀ (w : Fin 4096) (s : State), Completes (.windowClose mSCP w 3) s fun t =>
    t.fld (ARB_WIN_CTL_ERR w.val) = 1 ∧
    t.fld (ARB_WIN_CTL_STATE w.val) = s.fld (ARB_WIN_CTL_STATE w.val) ∧
    t.fld (ARB_WIN_CTL_EPOCH w.val) = s.fld (ARB_WIN_CTL_EPOCH w.val) ∧
    OnlyRegs (fun o => o = ARB_WIN_CTL w.val) s t ∧ SameBytes s t ∧ SameUnits s t) ∧
  (∀ (w : Fin 4096) (s : State), kget false s.fab.closing w.val = true → s.fab.raised = [] →
    (∀ c ∈ s.fab.clasps, c.grace = []) → Completes (.windowCloseDrained w) s fun t =>
      t.fld (ARB_WIN_CTL_BUSY w.val) = 0 ∧ kget false t.fab.closing w.val = false ∧
      OnlyRegs (fun o => o = ARB_WIN_CTL w.val) s t ∧ SameBytes s t ∧ SameUnits s t)) ∧
  (∀ (src off : Nat) (d : List Byte) (w e : BitVec 16) (s : State), FabricQuiet s → off < 0x8000000 →
    lineOk off d.length = true → s.bankServes (off / 0x80000) = true → syncArea off d.length = false →
    s.mems.map.partBad 8 off d.length = false → w.toNat < 4096 →
    let owned : Bool := localUnit (s.winBase w.toNat) == .bank (off / 0x80000) && s.flag (ARB_WIN_CTL_STATE w.toNat)
    let right : Bool := s.fld (ARB_WIN_CTL_EPOCH w.toNat) == e.toNat
    let inside : Bool := s.winBase w.toNat ≤ 0x10000000 + off &&
      0x10000000 + off + d.length ≤ s.winBase w.toNat + s.winSize w.toNat
    let c : Instr := .meshWrite src (aliasAddr 0x10000000 off) d w e
    let refused (st : St) (t : State) : Prop := t.reply.st = st ∧ SameBytes s t ∧
      OnlyRegs (fun o => o = ARB_WIN_REJ w.toNat) s t ∧
      (t.rd (ARB_WIN_REJ w.toNat)).toNat = min 0xFFFFFFFF ((s.rd (ARB_WIN_REJ w.toNat)).toNat + 1)
    (owned = false → Completes c s (refused ST_WINDOW_CLOSED)) ∧
    (owned = true → right = false → Completes c s (refused ST_WINDOW_EPOCH)) ∧
    (owned = true → right = true → inside = false → Completes c s (refused ST_BAD_FIELD)) ∧
    (owned = true → right = true → inside = true → Completes c s fun t =>
      t.reply.st = ST_OK ∧ t.mems.map.bytes off d.length = d ∧ SameBytesBut .map off d.length s t ∧
        SameUnits s t ∧ OnlyRegs (fun _ => False) s t))

/-- R154, R155: the SCP writes a class word; a clasp opens for its beats, or waits for another
master's; a master that holds one and asks for another is refused; an idle clasp ends with ST_CLASP_TIMEOUT for every beat left. -/
def Obligations.ClassesAndClasps : Prop :=
  (∀ (k : Fin 260) (v : Word) (s : State), Completes (.arbClassWrite mSCP k v) s fun t =>
    t.rd (ARB_CLASS k.val) = v ∧ t.reply.st = ST_OK ∧ OnlyRegs (fun o => o = ARB_CLASS k.val) s t ∧
      SameBytes s t ∧ SameUnits s t) ∧
  (∀ (src off beats : Nat) (s : State), claspMaster src = true → 1 ≤ beats → beats ≤ 16 → off < 0x8000000 →
    s.bankServes (off / 0x80000) = true → s.fab.raised = [] →
    (s.fab.clasps = [] → Completes (.claspOpen src (aliasAddr 0x10000000 off) beats) s fun t =>
      t.fab.clasps = [⟨.bank (off / 0x80000), src, beats, aliasAddr 0x10000000 off, []⟩] ∧ t.reply.st = ST_OK ∧
        t.csr = s.csr ∧ SameBytes s t ∧ SameUnits s t) ∧
    (∀ c, s.fab.clasps = [c] → c.res = .bank (off / 0x80000) → c.owner ≠ src →
      Completes (.claspOpen src (aliasAddr 0x10000000 off) beats) s fun t => t.fab.clasps = [c] ∧
        t.fab.raised = [{ src := src, addr := aliasAddr 0x10000000 off, op := .clasp beats, unit := 0 }] ∧
        SameBytes s t ∧ SameUnits s t)) ∧
  (∀ (src : Nat) (addr : BitVec 64) (beats : Nat) (c : Clasp) (s : State), claspMaster src = true → 1 ≤ beats →
    beats ≤ 16 → c ∈ s.fab.clasps → c.owner = src →
    Completes (.claspOpen src addr beats) s fun t => t.reply.st = ST_BAD_STATE ∧ t = { s with reply := t.reply }) ∧
  (∀ (c : Clasp) (s : State), s.fab.clasps = [c] → s.fab.raised = [] → s.reset_.heldHost = [] →
    Completes (.claspTimeout c.owner) s fun t => t.fab.clasps = [] ∧
      t.fab.answered = s.fab.answered ++ List.replicate c.left (c.owner, { st := ST_CLASP_TIMEOUT }) ∧
      t.fld ARB_CLASP_STAT_MASTER = c.owner % 8192 ∧
      t.fld ARB_CLASP_STAT_COUNT = min 65535 (s.fld ARB_CLASP_STAT_COUNT + 1) ∧
      OnlyRegs (fun o => o = ARB_CLASP_STAT) s t ∧ SameBytes s t ∧ SameUnits s t)

/-! ### Map banks -/

/-- R138, R140, R141, R143: requests for the states of a bank that is not in motion; a drained bank enters its
state, one that cannot drain in 10 µs is ON again with ST_BANK_BUSY, an OFF bank loses its contents; the
patrol scrubber counts a corrected word and leaves an uncorrected one poisoned. -/
def Obligations.Banks : Prop :=
  (∀ (b : Fin 256) (s : State), b.val < 248 → s.bankMove b.val = .none →
    let frame (t : State) : Prop := t.fld (MM_STATUS_LAST_ST b.val) = ST_OK.toNat ∧ SameBytes s t ∧ SameUnits s t ∧
      OnlyRegs (fun o => o = MM_CTL b.val ∨ o = MM_STATUS b.val) s t
    (s.bankState b.val = bankON → Completes (.bankReqRetention mSCP b) s fun t =>
      t.bankState b.val = bankDRAIN ∧ t.bankMove b.val = .drain false s.now mSCP ∧ frame t) ∧
    (s.bankState b.val = bankON → Completes (.bankReqOff mSCP b) s fun t =>
      t.bankState b.val = bankDRAIN ∧ t.bankMove b.val = .drain true s.now mSCP ∧ frame t) ∧
    (s.bankState b.val = bankOFF → Completes (.bankReqOn mSCP b) s fun t =>
      t.bankState b.val = bankWAKE ∧ t.bankMove b.val = .waking ∧ frame t) ∧
    (s.bankState b.val = bankRET → Completes (.bankReqOn mSCP b) s fun t =>
      t.bankMove b.val = .toOn ∧ frame t)) ∧
  ((∀ (b : Fin 256) (off : Bool) (since src : Nat) (s : State),
    s.bankMove b.val = .drain off since src → s.bankEmpty b.val = true →
    Completes (.bankDrained b) s fun t =>
      t.bankState b.val = (if off then bankOFF else bankRET) ∧
      t.bankMove b.val = (if off then .toOff else .toRetention) ∧ OnlyRegs (fun o => o = MM_STATUS b.val) s t ∧
      SameBytes s t ∧ SameUnits s t) ∧
  (∀ (b : Fin 256) (off : Bool) (since src : Nat) (s : State),
    s.bankMove b.val = .drain off since src → s.bankEmpty b.val = false → 10000 ≤ sinceNs s.now since →
    Completes (.bankDrainTimeout b) s fun t =>
      t.bankState b.val = bankON ∧ t.bankMove b.val = .none ∧
      t.fld (MM_STATUS_LAST_ST b.val) = ST_BANK_BUSY.toNat ∧ OnlyRegs (fun o => o = MM_STATUS b.val) s t ∧
      SameBytes s t ∧ SameUnits s t) ∧
  (∀ (b : Fin 256) (m : BankMove) (s : State), s.bankMove b.val = m → m = .toOff ∨ m = .waking →
    s.mems.map.fresh = [] → Completes (.bankTransitionComplete b) s fun t =>
      t.bankState b.val = (if m = .toOff then bankOFF else bankON) ∧ t.bankMove b.val = .none ∧
      (∀ a, a / 0x80000 = b.val → t.mems.map.byte a = 0) ∧
      SameBytesBut .map (b.val * 0x80000) 0x80000 s t ∧ SameUnits s t) ∧
  (∀ (b : Fin 256) (m : BankMove) (s : State), s.bankMove b.val = m → m = .toOn ∨ m = .toRetention →
    Completes (.bankTransitionComplete b) s fun t =>
      t.bankState b.val = (if m = .toOn then bankON else s.bankState b.val) ∧ t.bankMove b.val = .none ∧
      OnlyRegs (fun o => o = MM_STATUS b.val) s t ∧ SameBytes s t ∧ SameUnits s t)) ∧
  (∀ (b : Fin 256) (word : Fin 65536) (s : State), s.bankState b.val = bankON →
    Completes (.patrolScrub b word .corrected) s (fun t =>
      (t.rd (MM_ECC b.val)).toNat = min 0xFFFFFFFF ((s.rd (MM_ECC b.val)).toNat + 1) ∧
      OnlyRegs (fun o => o = MM_ECC b.val) s t ∧ SameBytes s t ∧ SameUnits s t) ∧
    Completes (.patrolScrub b word .uncorrected) s (fun t =>
      t.mems.map.bad (b.val * 0x10000 + word.val) = true ∧
      (∀ k, k ≠ b.val * 0x10000 + word.val → t.mems.map.bad k = s.mems.map.bad k) ∧
      t.csr = s.csr ∧ SameBytes s t ∧ SameUnits s t))

/-! ### Facets -/

/-- R86, R88: the SCP's write queues a descriptor, a full queue refuses it with ST_BAD_STATE and
sets QOVF, another source is refused; an idle engine fetches the head and runs it. -/
def Obligations.FacetQueue : Prop :=
  (∀ (f : Fin 32) (hi : Word) (s : State), (s.facet f.val).queue.length < 4 →
    Completes (.submitDescriptor mSCP f hi) s fun t =>
      (t.facet f.val).queue = (s.facet f.val).queue ++
        [.at (BitVec.ofNat 64 (s.fld (FAC_DESC_LO_ADDR_LO f.val) * 64 + hi.toNat * 2 ^ 32))] ∧
      t.fld (FAC_STATUS_QDEPTH f.val) = (s.facet f.val).queue.length + 1 ∧ t.reply.st = ST_OK ∧
      (∀ g : Fin 32, g ≠ f → t.facet g.val = s.facet g.val) ∧ OnlyRegs (fun o => o = FAC_STATUS f.val) s t ∧
      SameBytes s t ∧ t.beads = s.beads) ∧
  (∀ (f : Fin 32) (hi : Word) (s : State), 4 ≤ (s.facet f.val).queue.length →
    Completes (.submitDescriptor mSCP f hi) s fun t =>
      t.fld (FAC_FLAGS_QOVF f.val) = 1 ∧ t.reply.st = ST_BAD_STATE ∧ t.facets = s.facets ∧
      OnlyRegs (fun o => o = FAC_FLAGS f.val) s t ∧ SameBytes s t) ∧
  (∀ (src : Nat) (f : Fin 32) (hi : Word) (s : State), src ≠ mSCP → s.inStandby = false →
    Completes (.submitDescriptor src f hi) s fun t =>
      t.reply.st = ST_NOT_PERMITTED ∧ SameUnits s t ∧ OnlyRegs (fun _ => False) s t ∧ SameBytes s t) ∧
  (∀ (f : Fin 32) (b : List Byte) (q : List QDesc) (s : State), (s.facet f.val).queue = .held b :: q →
    s.facState f.val = facIDLE → (s.facet f.val).cur = none →
    Completes (.descriptorFetch f) s fun t =>
      (t.facet f.val).queue = q ∧ (t.facet f.val).cur = some (freshCmd b false) ∧
      t.facState f.val = facRUNNING ∧ (∀ g : Fin 32, g ≠ f → t.facet g.val = s.facet g.val) ∧
      OnlyRegs (fun o => o = FAC_STATUS f.val) s t ∧ SameBytes s t ∧ t.beads = s.beads) ∧
  (∀ (f : Fin 32) (a : BitVec 64) (b : List Byte) (q : List QDesc) (s : State), (s.facet f.val).queue = .at a :: q →
    s.facState f.val = facIDLE → (s.facet f.val).cur = none → s.claspMeets (mFacet f.val) a.toNat 128 = false →
    ((s.setFacQueue f.val q).fetchDesc f.val (.at a)).1 = (ST_OK, b) →
    Completes (.descriptorFetch f) s fun t =>
      (t.facet f.val).queue = q ∧ (t.facet f.val).cur = some (freshCmd b false) ∧
      t.facState f.val = facRUNNING ∧ (∀ g : Fin 32, g ≠ f → t.facet g.val = s.facet g.val) ∧
      SameBytes s t ∧ t.beads = s.beads)

/-- R64, R83, R86, R91: each Facet command is checked once; one that fails ends with that status and has
written nothing. One that passes runs its work to the end, unless a pre-emption is pending or another
master's clasp is open at its operands: with the former it goes on to its next segment boundary. -/
def Obligations.FacetCommandsRun : Prop :=
  ∀ (f : Fin 32) (c : FacetCmd) (s : State), s.facActive f.val = some c →
    let ran (i : Instr) (op : Nat) : Prop := c.opcode = op →
      (c.checked = false → s.cmdCheck f.val c ≠ ST_OK → Completes i s fun t =>
        (t.facet f.val).cur = some { c with status := s.cmdCheck f.val c, refused := true, done := true } ∧
        SameBytes s t ∧ t.csr = s.csr ∧ t.beads = s.beads) ∧
      (c.checked = true ∨ s.cmdCheck f.val c = ST_OK → s.facHolds f.val c = false →
        (s.preempting f.val = false → c.tile ≤ c.tiles → Completes i s fun t =>
          ∃ c', (t.facet f.val).cur = some c' ∧ c'.done = true ∧ c'.refused = c.refused ∧ c'.desc = c.desc ∧
            c'.tile = c.tiles ∧ t.facState f.val = s.facState f.val ∧ t.beads = s.beads ∧
            ∀ g : Fin 32, g ≠ f → t.facet g.val = s.facet g.val) ∧
        (s.preempting f.val = true → Completes i s fun t =>
          t = s.segment f.val { c with checked := true } 128))
    ran (.matmul f) 1 ∧ ran (.conv f) 2 ∧ ran (.pool f) 3 ∧ ran (.attn f) 4 ∧ ran (.wcombine f) 5

/-- R77, R84, R86: a command that is done completes: FAC_LAST has its task, and the engine is idle, or
pre-empted where that was asked for or the command was urgent. With no statistics area FAC_LAST has its
status, DONE_SO advances, and ERR_SO before it where the command failed. ABORT ends a saved command with
ST_BAD_STATE. -/
def Obligations.FacetCompletion : Prop :=
  (∀ (f : Fin 32) (c : FacetCmd) (s : State), (s.facet f.val).cur = some c → c.done = true →
    s.statHolds f.val c = false → Completes (.facetCommandComplete f) s fun t =>
      t.facState f.val = (if s.facState f.val = facURGENT ∨ s.flag (FAC_CTL_PREEMPT f.val) = true then facPREEMPTED
        else facIDLE) ∧
      (t.facet f.val).cur = none ∧ (t.rd (FAC_LAST f.val)).toNat / 65536 = (facDesc c.desc).task ∧
      (∀ g : Fin 32, g ≠ f → t.facet g.val = s.facet g.val) ∧ t.beads = s.beads) ∧
  (∀ (f : Fin 32) (c : FacetCmd) (s : State), (s.facet f.val).cur = some c → c.done = true →
    (facDesc c.desc).stat = 0 → s.fab.raised = [] →
    let d := facDesc c.desc
    let good := c.final = ST_OK ∨ c.final = ST_OK_FLAGGED
    d.doneSo < 16384 → d.errSo < 16384 → d.errSo ≠ d.doneSo → s.soBad d.doneSo = false → s.soBad d.errSo = false →
    Completes (.facetCommandComplete f) s fun t =>
      (t.rd (FAC_LAST f.val)).toNat = d.task * 65536 + c.final.toNat ∧ t.so d.doneSo = s.so d.doneSo + 1 ∧
      (good → t.so d.errSo = s.so d.errSo ∧ SameBytesBut .map (soAddr d.doneSo) 4 s t) ∧
      (¬ good → t.so d.errSo = s.so d.errSo + 1)) ∧
  (∀ (f : Fin 32) (s : State), s.facState f.val = facPREEMPTED →
    ((s.facet f.val).ctx = none → Completes (.facetAbort mSCP f) s fun t =>
      t.facState f.val = facIDLE ∧ OnlyRegs (fun o => o = FAC_STATUS f.val) s t ∧ SameBytes s t ∧ t.beads = s.beads) ∧
    (∀ c, (s.facet f.val).ctx = some c → Completes (.facetAbort mSCP f) s fun t =>
      t.facState f.val = facIDLE ∧ (t.facet f.val).ctx = none ∧ t.fld (FAC_STATUS_CTX_VALID f.val) = 0 ∧
      (t.rd (FAC_LAST f.val)).toNat = (facDesc c.desc).task * 65536 + ST_BAD_STATE.toNat ∧ t.reply.st = ST_OK ∧
      (∀ g : Fin 32, g ≠ f → t.facet g.val = s.facet g.val) ∧ t.beads = s.beads))

/-- R82–R84, R88: a request to pre-empt waits for the segment's end and is ignored outside RUNNING; a segment
advances inside its tile, or completes it; the save fills the save area; RESUME brings the saved command back,
with the sums of the save area; FAC_URGENT takes a command in between. -/
def Obligations.FacetPreemption : Prop :=
  (∀ (f : Fin 32) (s : State), Completes (.preempt mSCP f) s fun t =>
    (s.facState f.val = facRUNNING → t.fld (FAC_CTL_PREEMPT f.val) = 1 ∧ OnlyRegs (fun o => o = FAC_CTL f.val) s t) ∧
    (s.facState f.val ≠ facRUNNING → t.csr = s.csr) ∧
    t.reply.st = ST_OK ∧ SameUnits s t ∧ SameBytes s t) ∧
  (∀ (f : Fin 32) (blocks : Nat) (c : FacetCmd) (s : State), s.facActive f.val = some c → c.checked = true →
    s.facHolds f.val c = false → c.opcode ≠ 4 →
    let left := s.tileBlocks f.val c - c.block
    let n := max 1 (min blocks (min (fieldN c.desc 6 2) left))
    (n < left → (facDesc c.desc).fl 6 = false → c.plan = none → Completes (.kSegmentEnd f blocks) s fun t =>
      (t.facet f.val).saving = s.preempting f.val ∧ t.facState f.val = s.facState f.val ∧
      (∃ c', (t.facet f.val).cur = some c' ∧ c'.tile = c.tile ∧ c'.done = false ∧ c'.block = c.block + n) ∧
      SameBytes s t ∧ t.beads = s.beads ∧ ∀ g : Fin 32, g ≠ f → t.facet g.val = s.facet g.val) ∧
    (left ≤ n → c.tile + 1 < c.tiles → Completes (.kSegmentEnd f blocks) s fun t =>
      t.facState f.val = (if s.preempting f.val = true then facPREEMPTED else s.facState f.val) ∧
      (∃ c', (if s.preempting f.val = true then (t.facet f.val).ctx else (t.facet f.val).cur) = some c' ∧
        c'.tile = c.tile + 1 ∧ c'.block = 0 ∧ c'.done = false) ∧
      t.beads = s.beads ∧ ∀ g : Fin 32, g ≠ f → t.facet g.val = s.facet g.val)) ∧
  (∀ (f : Fin 32) (c : FacetCmd) (s : State), (s.facet f.val).cur = some c → (s.facet f.val).saving = true →
    Completes (.preemptSaveComplete f) s fun t =>
      t.facState f.val = facPREEMPTED ∧ t.fld (FAC_STATUS_CTX_VALID f.val) = 1 ∧
      t.fld (FAC_CTL_PREEMPT f.val) = 0 ∧ (t.facet f.val).cur = none ∧ (t.facet f.val).ctx = some c ∧
      SameBytesBut .fom (s.physFacet f.val * 0x200000 + 0x1E0000) 131072 s t ∧ t.beads = s.beads ∧
      OnlyRegs (fun o => o = FAC_STATUS f.val ∨ o = FAC_CTL f.val) s t) ∧
  (∀ (f : Fin 32) (s : State), s.facState f.val = facPREEMPTED → Completes (.facetResume mSCP f) s fun t =>
    OnlyRegs (fun o => o = FAC_STATUS f.val) s t ∧ SameBytes s t ∧ t.beads = s.beads ∧ t.reply.st = ST_OK ∧
    ((s.facet f.val).ctx = none → t.facState f.val = facIDLE) ∧
    (∀ c, (s.facet f.val).ctx = some c → t.facState f.val = facRUNNING ∧ (t.facet f.val).cur = some c ∧
      (t.facet f.val).restoring = true)) ∧
  (∀ (f : Fin 32) (c : FacetCmd) (s : State), (s.facet f.val).cur = some c → (s.facet f.val).restoring = true →
    Completes (.facetContextRestored f) s fun t =>
      (t.facet f.val).cur = some (if c.block = 0 then c else c.reload (s.loadSums f.val c.tileCols c.tileRows)) ∧
      (t.facet f.val).ctx = none ∧ (t.facet f.val).restoring = false ∧
      t.fld (FAC_STATUS_CTX_VALID f.val) = 0 ∧ OnlyRegs (fun o => o = FAC_STATUS f.val) s t ∧ SameBytes s t) ∧
  (∀ (f : Fin 32) (hi : Word) (b : List Byte) (s : State), s.facState f.val = facPREEMPTED → (s.facet f.val).cur = none →
    let a : BitVec 64 := BitVec.ofNat 64 (s.fld (FAC_URGENT_LO_ADDR_LO f.val) * 64 + hi.toNat * 2 ^ 32)
    let u := (s.fetchDesc f.val (.at a)).2
    (s.fetchDesc f.val (.at a)).1 = (ST_OK, b) → fieldN b 0 2 ∈ [1, 2, 3, 5] → u.cmdCheck f.val (freshCmd b true) = ST_OK →
    (facDesc b).fl 6 = false → Completes (.facUrgent mSCP f hi) s fun t =>
      t.facState f.val = facURGENT ∧ (t.facet f.val).cur = some { freshCmd b true with checked := true } ∧
      (t.facet f.val).ctx = (s.facet f.val).ctx ∧ t.reply.st = ST_OK ∧ SameBytes s t ∧ t.beads = s.beads)

/-! ### Bead cores -/

/-- Everything of a core but its pc, its counters and what `f` sets is as before; the other nodes,
the Facets and the registers stay, but for the node's count of corrected errors (R123). The counters advance
unless mcountinhibit stops them. The energy model and the counter of free values move (R358). -/
def CoreFrame (s t : State) (n : Nat) (f : BeadSt → BeadSt) : Prop :=
  let b := f (s.bead n)
  (∃ k : BitVec 64, t.bead n = { b with
    pc := (t.bead n).pc, cycle := b.cycle + (if b.inhibits 0 then 0 else k), activeClk := b.activeClk + k
    instret := b.instret + (if b.inhibits 2 then 0 else 1) }) ∧
  (∀ m, m ≠ n → t.bead m = s.bead m) ∧ (∀ o, o ≠ BEAD_ECC n → t.rd o = s.rd o) ∧ t.facets = s.facets ∧ t.fab = s.fab ∧ t.reply = s.reply

/-- The word at the pc of node `n` is `w` and no word of it is poisoned. -/
def FetchesWord (s : State) (n : Nat) (i : Rv) (len : Nat) : Prop :=
  s.beadReady n = true ∧ s.beadFetch n = .op i len

/-- R110: integer, branch and jump instructions at the pc: the destination takes the result, the
pc goes on, and memory, registers and the other nodes stay. -/
def Obligations.BeadIntegerInstructions : Prop :=
  ∀ (n : Fin 4096) (s : State),
    let b := s.bead n.val
    let i : Instr := .beadBaseInstruction n
    (∀ op rd rs1 rs2 len, FetchesWord s n.val (.alu op rd rs1 rs2) len → Completes i s fun t =>
      CoreFrame s t n.val (fun b => b.setX rd (op.eval (b.xr rs1) (b.xr rs2))) ∧
      (t.bead n.val).pc = b.pc + BitVec.ofNat 32 len ∧ SameBytes s t) ∧
    (∀ op rd rs1 imm len, FetchesWord s n.val (.alui op rd rs1 imm) len → Completes i s fun t =>
      CoreFrame s t n.val (fun b => b.setX rd (op.eval (b.xr rs1) imm)) ∧
      (t.bead n.val).pc = b.pc + BitVec.ofNat 32 len ∧ SameBytes s t) ∧
    (∀ c rs1 rs2 imm len, FetchesWord s n.val (.branch c rs1 rs2 imm) len → Completes i s fun t =>
      CoreFrame s t n.val id ∧ SameBytes s t ∧
      (t.bead n.val).pc = (if c.holds (b.xr rs1) (b.xr rs2) then b.pc + imm else b.pc + BitVec.ofNat 32 len)) ∧
    (∀ rd imm len, FetchesWord s n.val (.jal rd imm) len → Completes i s fun t =>
      CoreFrame s t n.val (fun b => b.setX rd (b.pc + BitVec.ofNat 32 len)) ∧ SameBytes s t ∧
      (t.bead n.val).pc = b.pc + imm)

/-- R112, R113: what stops the core: ECALL, EBREAK, an illegal word, a pc outside the local memory,
and a misaligned or unmapped load. The cause and the pc are recorded, and nothing else changes. -/
def Obligations.BeadExceptions : Prop :=
  ∀ (n : Fin 4096) (s : State),
    let i : Instr := .beadBaseInstruction n
    let stops (cause : Nat) : Prop := Completes i s fun t =>
      t.beadState n.val = bdFAULT ∧ t.fld (BEAD_STATUS_CAUSE n.val) = cause ∧
      t.rd (BEAD_PC n.val) = (s.bead n.val).pc ∧ t.beads = s.beads ∧ SameBytes s t ∧
      OnlyRegs (fun o => o = BEAD_STATUS n.val ∨ o = BEAD_PC n.val) s t ∧ t.facets = s.facets
    (FetchesWord s n.val .ecall 4 → stops 11) ∧ (FetchesWord s n.val .ebreak 4 → stops 3) ∧
    (s.beadReady n.val = true → s.beadFetch n.val = .stop 2 → stops 2) ∧
    (s.beadReady n.val = true → (s.bead n.val).pc.toNat % 2 = 0 → 0x10000 ≤ (s.bead n.val).pc.toNat → stops 1) ∧
    (∀ len signed fp rd rs1 imm ilen, FetchesWord s n.val (.load len signed fp rd rs1 imm) ilen →
      ((s.bead n.val).xr rs1 + imm).toNat % len ≠ 0 → stops 4) ∧
    (∀ len signed fp rd rs1 imm ilen, FetchesWord s n.val (.load len signed fp rd rs1 imm) ilen →
      ((s.bead n.val).xr rs1 + imm).toNat % len = 0 → 0x10400 ≤ ((s.bead n.val).xr rs1 + imm).toNat →
      ((s.bead n.val).xr rs1 + imm).toNat < 0x80000000 → stops 5)

/-- R113, R123: an aligned load delivers the bytes of the node's own local memory, and an aligned
store writes them and no other byte. -/
def Obligations.BeadLocalAccess : Prop :=
  ∀ (n : Fin 4096) (s : State),
    let b := s.bead n.val
    let i : Instr := .beadBaseInstruction n
    (∀ len signed rd rs1 imm ilen, FetchesWord s n.val (.load len signed false rd rs1 imm) ilen →
      let a := (b.xr rs1 + imm).toNat
      a % len = 0 → a < 0x10000 → s.mems.blm.anyBad 4 (s.blmAt n.val a) len = false → Completes i s fun t =>
        CoreFrame s t n.val (fun b => b.setX rd (loadVal len signed (leNat (s.mems.blm.bytes (s.blmAt n.val a) len)))) ∧
        (t.bead n.val).pc = b.pc + BitVec.ofNat 32 ilen ∧ SameBytes s t) ∧
    (∀ len rs1 rs2 imm ilen, FetchesWord s n.val (.store len false rs1 rs2 imm) ilen →
      let a := (b.xr rs1 + imm).toNat
      a % len = 0 → a < 0x10000 → s.mems.blm.partBad 4 (s.blmAt n.val a) len = false → Completes i s fun t =>
        CoreFrame s t n.val id ∧ (t.bead n.val).pc = b.pc + BitVec.ofNat 32 ilen ∧
        t.mems.blm.bytes (s.blmAt n.val a) len = leBytes len (b.xr rs2).toNat ∧
        SameBytesBut .blm (s.blmAt n.val a) len s t)

/-- A legal vector instruction on a ready core. -/
def VecReady (s : State) (n : Nat) (regs : List (BitVec 5)) : Prop :=
  s.beadReady n = true ∧ regs.all (fun r => r.toNat < 8) = true

/-- R116, R117: VADD, VSUB, VMUL and VMAC on I16 lanes wrap modulo 2^16, VMAX and VMIN compare signed, and nothing
but the destination and the counters changes; a field bit that no register name uses, or a lane type that
the instruction does not accept, raises an illegal-instruction exception. -/
def Obligations.VectorInteger : Prop :=
  (∀ (n : Fin 4096) (rd rs1 rs2 : BitVec 5) (s : State), VecReady s n.val [rd, rs1, rs2] →
    let l (r : BitVec 5) : List Nat := lanesOf 16 ((s.bead n.val).vr r.toNat)
    let gives (i : Instr) (xs : List Nat) : Prop := Completes i s fun t =>
      CoreFrame s t n.val (fun b => b.setV rd.toNat (ofLanes 16 xs)) ∧
      (t.bead n.val).pc = (s.bead n.val).pc + 4 ∧ SameBytes s t
    gives (.vadd n 0 rd rs1 rs2) (List.zipWith (fun a b => (a + b) % 65536) (l rs1) (l rs2)) ∧
    gives (.vsub n 0 rd rs1 rs2) (List.zipWith (fun a b => (a + 65536 - b) % 65536) (l rs1) (l rs2)) ∧
    gives (.vmul n 0 rd rs1 rs2) (List.zipWith (fun a b => a * b % 65536) (l rs1) (l rs2)) ∧
    gives (.vmac n 0 rd rs1 rs2)
      (List.zipWith (fun d p => (d + p) % 65536) (l rd) (List.zipWith (fun a b => a * b) (l rs1) (l rs2))) ∧
    gives (.vmax n 0 rd rs1 rs2)
      (List.zipWith (fun a b => if signedN 16 b < signedN 16 a then a else b) (l rs1) (l rs2)) ∧
    gives (.vmin n 0 rd rs1 rs2)
      (List.zipWith (fun a b => if signedN 16 b < signedN 16 a then b else a) (l rs1) (l rs2))) ∧
  (∀ (n : Fin 4096) (ty : BitVec 2) (rd rs1 rs2 : BitVec 5) (s : State), s.beadReady n.val = true →
    let stops (i : Instr) : Prop := Completes i s fun t =>
      t.beadState n.val = bdFAULT ∧ t.fld (BEAD_STATUS_CAUSE n.val) = 2 ∧ t.beads = s.beads ∧ SameBytes s t ∧
      OnlyRegs (fun o => o = BEAD_STATUS n.val ∨ o = BEAD_PC n.val) s t
    (8 ≤ rd.toNat → stops (.vadd n ty rd rs1 rs2) ∧ stops (.vmac n ty rd rs1 rs2) ∧ stops (.vld n ty rd rs1 rs2)) ∧
    (8 ≤ rs2.toNat → stops (.vmax n ty rd rs1 rs2) ∧ stops (.wdot n ty rd rs1 rs2)) ∧
    (4 ≤ rd.toNat → stops (.wclr n ty rd rs1 rs2) ∧ stops (.wsum n ty rd rs1 rs2)) ∧
    (ty ≠ 0 → stops (.vst n ty rd rs1 rs2) ∧ stops (.wadd n ty rd rs1 rs2) ∧ stops (.cmpset n ty rd rs1 rs2) ∧
      stops (.yield n ty rd rs1 rs2)))

/-- R111, R117: floating lanes are rounded once under fcsr.frm, and their flags accrue; VCVT keeps
the lanes it does not select; VSPLAT fills every lane; VEXT extends one. -/
def Obligations.VectorFloat : Prop :=
  (∀ (n : Fin 4096) (ty : BitVec 2) (f : Bin) (rm : Rm) (rd rs1 rs2 : BitVec 5) (s : State),
    VecReady s n.val [rd, rs1, rs2] → tyFmt ty.toNat = some f → rmOf ((s.bead n.val).fcsr.toNat / 32) = some rm →
    let w := tyBits ty.toNat
    let rs := List.zipWith (fun a b => f.addV rm (f.read a) (f.read b)) (lanesOf w ((s.bead n.val).vr rs1.toNat))
      (lanesOf w ((s.bead n.val).vr rs2.toNat))
    Completes (.vadd n ty rd rs1 rs2) s fun t =>
      (t.bead n.val).vr rd.toNat = ofLanes w (rs.map FRes.code) ∧
      (t.bead n.val).fcsr = (s.bead n.val).fcsr ||| BitVec.ofNat 8 (rs.foldl (fun a r => a ||| r.fl) 0 % 32) ∧
      (∀ r, r ≠ rd.toNat → (t.bead n.val).vr r = (s.bead n.val).vr r) ∧ (t.bead n.val).x = (s.bead n.val).x ∧
      (∀ m, m ≠ n.val → t.bead m = s.bead m) ∧ SameBytes s t ∧ ∀ o, o ≠ BEAD_ECC n.val → t.rd o = s.rd o) ∧
  (∀ (n : Fin 4096) (rd rs1 : BitVec 5) (rm : Rm) (s : State), VecReady s n.val [rd, rs1] →
    rmOf ((s.bead n.val).fcsr.toNat / 32) = some rm → Completes (.vcvt n 3 rd rs1 6) s fun t =>
      (lanesOf 16 ((t.bead n.val).vr rd.toNat)).take 4 = (lanesOf 16 ((s.bead n.val).vr rd.toNat)).take 4 ∧
      (lanesOf 16 ((t.bead n.val).vr rd.toNat)).drop 4 =
        (lanesOf 32 ((s.bead n.val).vr rs1.toNat)).map (fun c => (fFP32.convert fFP16 rm c).code) ∧
      (∀ r, r ≠ rd.toNat → (t.bead n.val).vr r = (s.bead n.val).vr r) ∧ SameBytes s t ∧ ∀ o, o ≠ BEAD_ECC n.val → t.rd o = s.rd o) ∧
  (∀ (n : Fin 4096) (rd rs1 rs2 : BitVec 5) (s : State), VecReady s n.val [rd] →
    Completes (.vsplat n 3 rd rs1 rs2) s fun t =>
      lanesOf 32 ((t.bead n.val).vr rd.toNat) = List.replicate 4 ((s.bead n.val).xr rs1.toNat).toNat ∧
      (∀ r, r ≠ rd.toNat → (t.bead n.val).vr r = (s.bead n.val).vr r) ∧ SameBytes s t ∧ ∀ o, o ≠ BEAD_ECC n.val → t.rd o = s.rd o) ∧
  (∀ (n : Fin 4096) (rd rs1 rs2 : BitVec 5) (s : State), VecReady s n.val [rs1] → rs2.toNat < 8 → rd ≠ 0 →
    Completes (.vext n 0 rd rs1 rs2) s fun t =>
      ((t.bead n.val).xr rd.toNat).toInt =
        signedN 16 ((lanesOf 16 ((s.bead n.val).vr rs1.toNat)).getD rs2.toNat 0) ∧
      (t.bead n.val).v = (s.bead n.val).v ∧ SameBytes s t ∧ ∀ o, o ≠ BEAD_ECC n.val → t.rd o = s.rd o)

/-- R50, R120–R122: WCLR empties a wide sum; WADD combines equal anchors and otherwise leaves its destination and
sets the ANCHOR flag; WRND rounds W × 2^floor × f[rs2] once. A term below 2^(ANCHOR + 24) is cut at the
floor and added and raises COUNT by one; a larger one, or one past 32,768, sets SPECIAL to NAN and leaves W.
WDOT takes in every lane product and WSUM every lane, with RANGE set when one is out of range. -/
def Obligations.WideSums : Prop :=
  (∀ (n : Fin 4096) (rd rs1 rs2 : BitVec 5) (s : State), s.beadReady n.val = true →
    let b := s.bead n.val
    let others (t : State) : Prop := (∀ r, r ≠ rd.toNat → (t.bead n.val).wsr r = b.wsr r) ∧
      (t.bead n.val).x = b.x ∧ (t.bead n.val).v = b.v ∧ (t.bead n.val).pc = b.pc + 4 ∧
      (∀ m, m ≠ n.val → t.bead m = s.bead m) ∧ SameBytes s t
    (rd.toNat < 4 → Completes (.wclr n 0 rd rs1 rs2) s fun t =>
      (t.bead n.val).wsr rd.toNat = { w := 0, special := .none, anchor := (b.xr rs1.toNat).setWidth 16, count := 0 } ∧
      others t ∧ ∀ o, o ≠ BEAD_ECC n.val → t.rd o = s.rd o) ∧
    (rd.toNat < 4 → rs1.toNat < 4 → (b.wsr rd.toNat).canAdd (b.wsr rs1.toNat) = true →
      Completes (.wadd n 0 rd rs1 rs2) s fun t =>
        (t.bead n.val).wsr rd.toNat = (b.wsr rd.toNat).add (b.wsr rs1.toNat) ∧ others t ∧ ∀ o, o ≠ BEAD_ECC n.val → t.rd o = s.rd o) ∧
    (rd.toNat < 4 → rs1.toNat < 4 → (b.wsr rd.toNat).canAdd (b.wsr rs1.toNat) = false →
      Completes (.wadd n 0 rd rs1 rs2) s fun t => (t.bead n.val).ws = b.ws ∧ t.fld (BEAD_FLAGS_ANCHOR n.val) = 1 ∧
        others t ∧ OnlyRegs (fun o => o = BEAD_FLAGS n.val ∨ o = BEAD_ECC n.val) s t) ∧
    (rs1.toNat < 4 → Completes (.wrnd n 0 rd rs1 rs2) s fun t =>
      (t.bead n.val).fr rd.toNat =
        BitVec.ofNat 32 (fFP32.round false ((b.wsr rs1.toNat).val.mul (fp32Val (b.fr rs2.toNat).toNat))).1 ∧
      (t.bead n.val).ws = b.ws ∧ SameBytes s t ∧ ∀ o, o ≠ BEAD_ECC n.val → t.rd o = s.rd o)) ∧
  (∀ (x : WideSum) (q : Fr), q.d ≠ 0 →
    (x.count < 32768 → q.abs.lt (pow2 (x.anchor.toInt + 24)) = true →
      (x.term (.num q)).2 = false ∧ (x.term (.num q)).1.count = x.count + 1 ∧
      (x.term (.num q)).1.w = BitVec.ofInt 168 (x.w.toInt + cutAt (x.anchor.toInt - 128) q) ∧
      (x.term (.num q)).1.special = x.special) ∧
    ((32768 ≤ x.count ∨ (pow2 (x.anchor.toInt + 24)).le q.abs = true) →
      (x.term (.num q)).2 = true ∧ (x.term (.num q)).1.special = .nan ∧ (x.term (.num q)).1.w = x.w)) ∧
  (∀ (n : Fin 4096) (rd rs1 rs2 : BitVec 5) (s : State), s.beadReady n.val = true → rd.toNat < 4 →
    rs1.toNat < 8 → rs2.toNat < 8 →
    let b := s.bead n.val
    let l (r : BitVec 5) : List Nat := lanesOf 16 (b.vr r.toNat)
    let sum (ts : List Val) : WideSum := ts.foldl (fun x v => (x.term v).1) (b.wsr rd.toNat)
    let gives (i : Instr) (ts : List Val) : Prop := Completes i s fun t =>
      (t.bead n.val).wsr rd.toNat = sum ts ∧ (∀ r, r ≠ rd.toNat → (t.bead n.val).wsr r = b.wsr r) ∧
      (t.bead n.val).v = b.v ∧ (t.bead n.val).x = b.x ∧ SameBytes s t ∧
      OnlyRegs (fun o => o = BEAD_FLAGS n.val ∨ o = BEAD_ECC n.val) s t
    gives (.wdot n 0 rd rs1 rs2)
      (List.zipWith (fun x y => .num ((Fr.ofInt (signedN 16 x)).mul (.ofInt (signedN 16 y)))) (l rs1) (l rs2)) ∧
    gives (.wsum n 0 rd rs1 rs2) ((l rs1).map fun x => .num (.ofInt (signedN 16 x))))

/-- R118: aligned loads and stores of vectors and wide sums in the node's own local memory; gather and scatter of
16-bit lanes, where an address outside the local memory is an access fault and no lane is written. -/
def Obligations.VectorMemory : Prop :=
  (∀ (n : Fin 4096) (rd rs1 rs2 : BitVec 5) (s : State), s.beadReady n.val = true →
    let b := s.bead n.val
    let a := (b.xr rs1.toNat).toNat
    let at_ := s.blmAt n.val a
    a < 0x10000 →
    (rd.toNat < 8 → a % 16 = 0 → s.mems.blm.anyBad 4 at_ 16 = false → Completes (.vld n 0 rd rs1 rs2) s fun t =>
      CoreFrame s t n.val (fun b => b.setV rd.toNat (BitVec.ofNat 128 (leNat (s.mems.blm.bytes at_ 16)))) ∧
        SameBytes s t) ∧
    (rd.toNat < 8 → a % 16 = 0 → s.mems.blm.partBad 4 at_ 16 = false → Completes (.vst n 0 rd rs1 rs2) s fun t =>
      CoreFrame s t n.val id ∧ t.mems.blm.bytes at_ 16 = leBytes 16 (b.vr rd.toNat).toNat ∧
        SameBytesBut .blm at_ 16 s t) ∧
    (rd.toNat < 4 → a % 32 = 0 → s.mems.blm.anyBad 4 at_ 32 = false → Completes (.wld n 0 rd rs1 rs2) s fun t =>
      CoreFrame s t n.val (fun b => b.setWs rd.toNat (WideSum.ofBytes (s.mems.blm.bytes at_ 32))) ∧ SameBytes s t) ∧
    (rd.toNat < 4 → a % 32 = 0 → s.mems.blm.partBad 4 at_ 32 = false → Completes (.wst n 0 rd rs1 rs2) s fun t =>
      CoreFrame s t n.val id ∧ t.mems.blm.bytes at_ 32 = (b.wsr rd.toNat).bytes ∧
        SameBytesBut .blm at_ 32 s t)) ∧
  (∀ (n : Fin 4096) (rd rs1 rs2 : BitVec 5) (s : State), VecReady s n.val [rd, rs2] →
    let as := s.laneAddrs n.val 0 rs1.toNat rs2.toNat
    (as.all (fun a => a.toNat % 2 = 0 && a.toNat < 0x10000) = true → s.mems.blm.poison = [] →
      Completes (.vgather n 0 rd rs1 rs2) s fun t =>
        lanesOf 16 ((t.bead n.val).vr rd.toNat) =
          as.map (fun a => leNat (s.mems.blm.bytes (s.blmAt n.val a.toNat) 2)) ∧
        (∀ r, r ≠ rd.toNat → (t.bead n.val).vr r = (s.bead n.val).vr r) ∧ SameBytes s t ∧ ∀ o, o ≠ BEAD_ECC n.val → t.rd o = s.rd o) ∧
    (as.all (fun a => a.toNat % 2 = 0 && a.toNat < 0x10000) = true → s.mems.blm.poison = [] →
      Completes (.vscatter n 0 rd rs1 rs2) s fun t =>
        t.mems.blm.bytes (s.blmAt n.val (as.getD 7 0).toNat) 2 =
          leBytes 2 ((lanesOf 16 ((s.bead n.val).vr rd.toNat)).getD 7 0) ∧
        (t.bead n.val).v = (s.bead n.val).v ∧
        (∀ sp a, ¬ (sp = .blm ∧ a / 0x10000 = s.physBead n.val) → (t.mem sp).byte a = (s.mem sp).byte a)) ∧
    (as.all (fun a => a.toNat % 2 = 0) = true → as.any (fun a => 0x10000 ≤ a.toNat) = true →
      Completes (.vscatter n 0 rd rs1 rs2) s fun t =>
        t.beadState n.val = bdFAULT ∧ t.fld (BEAD_STATUS_CAUSE n.val) = 7 ∧ SameBytes s t ∧ t.beads = s.beads))

/-- R127: the two read-modify-writes on a Bead's local memory, of mesh requesters and of the core itself on an
aligned word of its own. -/
def Obligations.ReadModifyWrite : Prop :=
  (∀ (src : Nat) (n : Fin 4096) (off : Nat) (x y : Word) (s : State), FabricQuiet s →
    off < 0x10000 → off % 4 = 0 → s.mems.blm.bad ((s.physBead n.val * 0x10000 + off) / 4) = false →
    let a := s.physBead n.val * 0x10000 + off
    let old : Word := BitVec.ofNat 32 (leNat (s.mems.blm.bytes a 4))
    let word (t : State) : Word := BitVec.ofNat 32 (leNat (t.mems.blm.bytes a 4))
    Completes (.meshCmpset src (aliasAddr 0x40000000 (n.val * 0x10000 + off)) x y) s (fun t =>
      t.reply.st = ST_OK ∧ t.reply.data = leBytes 4 old.toNat ∧ word t = (if old = x then y else old) ∧
        SameBytesBut .blm a 4 s t ∧ SameUnits s t ∧ OnlyRegs (fun _ => False) s t) ∧
    Completes (.meshCount src (aliasAddr 0x40000000 (n.val * 0x10000 + off)) x) s (fun t =>
      t.reply.st = ST_OK ∧ t.reply.data = leBytes 4 old.toNat ∧ word t = old + x ∧ SameBytesBut .blm a 4 s t ∧
        SameUnits s t ∧ OnlyRegs (fun _ => False) s t)) ∧
  (∀ (n : Fin 4096) (rd rs1 rs2 : BitVec 5) (s : State), s.beadReady n.val = true →
    let b := s.bead n.val
    let a := (b.xr rs1.toNat).toNat
    let at_ := s.blmAt n.val a
    let old : Word := BitVec.ofNat 32 (leNat (s.mems.blm.bytes at_ 4))
    let word (t : State) : Word := BitVec.ofNat 32 (leNat (t.mems.blm.bytes at_ 4))
    a < 0x10000 → a % 4 = 0 → s.mems.blm.anyBad 4 at_ 4 = false →
    Completes (.cmpset n 0 rd rs1 rs2) s (fun t =>
      word t = (if old = b.xr rd.toNat then b.xr rs2.toNat else old) ∧
      CoreFrame s t n.val (fun b => b.setX rd.toNat old) ∧ SameBytesBut .blm at_ 4 s t) ∧
    Completes (.count n 0 rd rs1 rs2) s (fun t =>
      word t = old + b.xr rs2.toNat ∧ CoreFrame s t n.val (fun b => b.setX rd.toNat old) ∧
      SameBytesBut .blm at_ 4 s t))

/-- R129, R130, R133: START, YIELD_REQ, YIELD, parking, RESUME, STOP and the yield limit. -/
def Obligations.BeadControl : Prop :=
  ∀ (n : Fin 4096) (s : State),
    let b := s.bead n.val
    let others (t : State) : Prop := (∀ m, m ≠ n.val → t.bead m = s.bead m) ∧ t.facets = s.facets ∧
      OnlyRegs (fun o => o = BEAD_STATUS n.val ∨ o = BEAD_CTL n.val ∨ o = BEAD_PC n.val ∨ o = BEAD_ECC n.val) s t
    (s.beadState n.val = bdIDLE → Completes (.beadStart mSCP n) s fun t =>
      t.beadState n.val = bdRUNNING ∧ (t.bead n.val).pc = s.rd (BEAD_ENTRY n.val) ∧
      (t.bead n.val).xr 10 = s.rd (BEAD_ARG n.val) ∧
      (∀ r, r ≠ 10 → (t.bead n.val).xr r = b.xr r) ∧ others t ∧ SameBytes s t) ∧
    Completes (.yieldReq mSCP n) s (fun t =>
      t.fld (BEAD_CTL_YIELD_REQ n.val) = 1 ∧ t.fld (BEAD_STATUS_YPEND n.val) = 1 ∧ others t ∧ SameBytes s t) ∧
    (s.beadReady n.val = true → s.flag (BEAD_STATUS_YPEND n.val) = false → Completes (.yield n 0 0 0 0) s fun t =>
      CoreFrame s t n.val id ∧ (t.bead n.val).pc = b.pc + 4 ∧ SameBytes s t) ∧
    (s.beadReady n.val = true → s.flag (BEAD_STATUS_YPEND n.val) = true → Completes (.yield n 0 0 0 0) s fun t =>
      (t.bead n.val).parking = true ∧ (t.bead n.val).pc = b.pc + 4 ∧ others t ∧ SameBytes s t) ∧
    (b.parking = true → b.posted = [] → s.beadState n.val = bdRUNNING → Completes (.beadParked n) s fun t =>
      t.beadState n.val = bdPARKED ∧ t.rd (BEAD_PC n.val) = b.pc ∧
      (t.bead n.val).saved = some ⟨b.pc, b.x, b.f, b.fcsr, b.v, b.ws⟩ ∧ t.fld (BEAD_CTL_YIELD_REQ n.val) = 0 ∧
      others t) ∧
    (∀ c, s.beadState n.val = bdPARKED → b.saved = some c → Completes (.beadResume mSCP n) s fun t =>
      t.beadState n.val = bdRUNNING ∧ (t.bead n.val).pc = c.pc ∧ (t.bead n.val).x = c.x ∧ (t.bead n.val).f = c.f ∧
      (t.bead n.val).fcsr = c.fcsr ∧ (t.bead n.val).v = c.v ∧ (t.bead n.val).ws = c.ws ∧ others t ∧
      SameBytes s t) ∧
    (s.beadState n.val = bdRUNNING → Completes (.beadStop mSCP n) s fun t =>
      t.beadState n.val = bdIDLE ∧ others t ∧ SameBytes s t) ∧
    (∀ t0, b.ylimFrom = some t0 → (s.rd (BEAD_YLIM n.val)).toNat < sinceNs s.now t0 →
      Completes (.yieldLimitExpired n) s fun t => t.fld (BEAD_FLAGS_YLATE n.val) = 1 ∧ t.beads = s.beads ∧
        OnlyRegs (fun o => o = BEAD_FLAGS n.val) s t ∧ SameBytes s t)

/-- R114: a failed remote load stops the core with cause 0x19, a failed posted store sets
REMOTE_ERR and increments the object of BEAD_ERR_SO, and a good one does neither. -/
def Obligations.RemoteAccess : Prop :=
  ∀ (n : Fin 4096) (s : State),
    (∀ (q : RemoteLoad) (ext : RemoteReply) (c : Nat), (s.bead n.val).stall = some q → q.waiting = false →
      s.target n.val q.addr = .remote c → s.routeUp c = true →
      (ext.poison = false → ext.st = ST_OK → q.fp = false → Completes (.remoteLoadResponse n ext) s fun t =>
        (t.bead n.val).xr q.rd = (if q.rd = 0 then 0 else loadVal q.len q.signed ext.data.toNat) ∧
        (t.bead n.val).stall = none ∧ (t.bead n.val).pc = (s.bead n.val).pc + BitVec.ofNat 32 q.ilen ∧
        SameBytes s t ∧ ∀ o, o ≠ BEAD_ECC n.val → t.rd o = s.rd o) ∧
      (ext.poison = false → ext.st ≠ ST_OK → ext.st ≠ ST_ECC_UNCORRECTED →
        Completes (.remoteLoadResponse n ext) s fun t =>
          t.beadState n.val = bdFAULT ∧ t.fld (BEAD_STATUS_CAUSE n.val) = 0x19 ∧
          (t.bead n.val).x = (s.bead n.val).x ∧ SameBytes s t)) ∧
    (∀ (q : RemoteLoad) (ext : RemoteReply) (o : Nat), (s.bead n.val).stall = some q → q.waiting = false → q.unit = 0 →
      q.op = .read q.len → q.fp = false → FabricQuiet s → q.addr = aliasAddr 0x10000000 o → o < 0x8000000 →
      q.len ∈ [1, 2, 4] → o % q.len = 0 → s.bankServes (o / 0x80000) = true → syncArea o q.len = false →
      s.mems.map.anyBad 8 o q.len = false → Completes (.remoteLoadResponse n ext) s fun t =>
        (t.bead n.val).xr q.rd =
          (if q.rd = 0 then 0 else loadVal q.len q.signed (leNat (s.mems.map.bytes o q.len))) ∧
        (t.bead n.val).stall = none ∧ (t.bead n.val).pc = (s.bead n.val).pc + BitVec.ofNat 32 q.ilen ∧ SameBytes s t) ∧
    (∀ rest, (s.bead n.val).posted = some ST_OK :: rest → (s.bead n.val).fencing = false →
      Completes (.remoteStoreAck n) s fun t => (t.bead n.val).posted = rest ∧ t.csr = s.csr ∧ SameBytes s t) ∧
    (∀ st rest, (s.bead n.val).posted = some st :: rest → st ≠ ST_OK → (s.bead n.val).fencing = false →
      s.soBad ((s.rd (BEAD_ERR_SO n.val)).toNat % 16384) = false → s.fab.raised = [] →
      Completes (.remoteStoreAck n) s fun t => (t.bead n.val).posted = rest ∧
        t.fld (BEAD_FLAGS_REMOTE_ERR n.val) = 1 ∧
        t.so ((s.rd (BEAD_ERR_SO n.val)).toNat % 16384) = s.so ((s.rd (BEAD_ERR_SO n.val)).toNat % 16384) + 1 ∧
        SameBytesBut .map (soAddr ((s.rd (BEAD_ERR_SO n.val)).toNat % 16384)) 4 s t) ∧
    ((s.bead n.val).posted = [some ST_OK] → (s.bead n.val).fencing = true →
      Completes (.remoteStoreAck n) s fun t => (t.bead n.val).fencing = false ∧
        (t.bead n.val).pc = (s.bead n.val).pc + 4)

/-- R131, R132: GO queues a transfer, a third one sets MOV_ERR and is not queued; a transfer whose
length is none of R131's fails with ERR_SO before DONE_SO and writes nothing else. -/
def Obligations.NodeMover : Prop :=
  (∀ (n : Fin 4096) (v : Word) (s : State), v.getLsbD 31 = true → (s.bead n.val).movers.length < 2 →
    Completes (.moverGo mSCP n v) s fun t =>
      (∃ m, (t.bead n.val).movers = (s.bead n.val).movers ++ [m] ∧
        m.src = s.rd64 (BEAD_MOV_SRC_LO n.val) (BEAD_MOV_SRC_HI n.val) ∧
        m.dst = s.rd64 (BEAD_MOV_DST_LO n.val) (BEAD_MOV_DST_HI n.val) ∧
        m.len = (s.rd (BEAD_MOV_LEN n.val)).toNat ∧ m.doneSo = v.toNat % 16384 ∧ m.errSo = v.toNat / 16384 % 16384) ∧
      t.fld (BEAD_MOV_STAT_QDEPTH n.val) = (s.bead n.val).movers.length + 1 ∧
      OnlyRegs (fun o => o = BEAD_MOV_CTL n.val ∨ o = BEAD_MOV_STAT n.val) s t ∧ SameBytes s t) ∧
  (∀ (n : Fin 4096) (v : Word) (s : State), v.getLsbD 31 = true → 2 ≤ (s.bead n.val).movers.length →
    Completes (.moverGo mSCP n v) s fun t => t.fld (BEAD_FLAGS_MOV_ERR n.val) = 1 ∧ t.beads = s.beads ∧
      OnlyRegs (fun o => o = BEAD_FLAGS n.val) s t ∧ SameBytes s t) ∧
  (∀ (n : Fin 4096) (m : Mover) (rest : List Mover) (s : State), (s.bead n.val).movers = m :: rest → m.ok = false →
    FabricQuiet s → m.doneSo < 16384 → m.errSo < 16384 → m.doneSo ≠ m.errSo → s.soBad m.doneSo = false →
    s.soBad m.errSo = false → Completes (.moverTransferEnd n) s fun t => (t.bead n.val).movers = rest ∧
      t.fld (BEAD_MOV_STAT_ST n.val) = ST_BAD_FIELD.toNat ∧ t.fld (BEAD_FLAGS_MOV_ERR n.val) = 1 ∧
      t.so m.errSo = s.so m.errSo + 1 ∧ t.so m.doneSo = s.so m.doneSo + 1) ∧
  (∀ (n : Fin 4096) (m : Mover) (rest : List Mover) (a b : Nat) (s : State), (s.bead n.val).movers = m :: rest →
    FabricQuiet s → m.src = aliasAddr 0x10000000 a → m.dst = aliasAddr 0x10000000 b → m.len = 4 → m.win = 0xFFFF →
    a % 4 = 0 → b % 4 = 0 → a < 0x7C00000 → b < 0x7C00000 → s.bankServes (a / 0x80000) = true →
    s.bankServes (b / 0x80000) = true → s.mems.map.poison = [] → m.doneSo < 16384 →
    Completes (.moverTransferEnd n) s fun t => (t.bead n.val).movers = rest ∧
      t.fld (BEAD_MOV_STAT_ST n.val) = 0 ∧ t.mems.map.bytes b 4 = s.mems.map.bytes a 4 ∧
      t.so m.doneSo = s.so m.doneSo + 1)

/-! ### Host interface -/

/-- No ring has been used and the command came through a mailbox: no event and no completion entry
is written to memory. -/
def Quiet (s : State) (via : Via) : Prop := s.host.rings = [] ∧ ∃ m, via = .mbx m

/-- R291–R293, R296: a ring is enabled where R292's conditions hold and refused with CAUSE 1
elsewhere; a disable drains it; its doorbell takes the index or, past the ring's size, puts the
ring in ERROR; its coalesced interrupt is sent, or pends while it is masked, when COAL has passed. -/
def Obligations.RingControl : Prop :=
  (∀ (src : Nat) (r : Fin 8192) (v : Word) (s : State), src = mHIP ∨ src = mPCIe → s.inStandby = false → s.hostStalls src = false →
    s.ringState r.val = rngDISABLED →
    (s.enableOk r.val = true → Completes (.ringEnable src r v) s fun t =>
      t.ringState r.val = rngACTIVE ∧ t.fld (RNG_CTL_CAUSE r.val) = 0 ∧ t.fld (RNG_CTL_ENABLE r.val) = 1 ∧
      t.fld (RNG_CTL_COAL r.val) = v.toNat / 65536 ∧ t.ring r.val = {} ∧ t.reply.st = ST_OK ∧
      (∀ q, q ≠ r.val → t.ring q = s.ring q) ∧ OnlyRegs (fun o => o = RNG_CTL r.val) s t ∧ t.mems = s.mems ∧
      t.core = s.core) ∧
    (s.enableOk r.val = false → Completes (.ringEnable src r v) s fun t =>
      t.fld (RNG_CTL_CAUSE r.val) = 1 ∧ t.ringState r.val = rngDISABLED ∧ t.host = s.host ∧
      OnlyRegs (fun o => o = RNG_CTL r.val) s t ∧ t.mems = s.mems ∧ t.core = s.core)) ∧
  (∀ (src : Nat) (r : Fin 8192) (v : Word) (s : State), src = mHIP ∨ src = mPCIe → s.inStandby = false → s.hostStalls src = false →
    s.ringState r.val = rngACTIVE ∨ s.ringState r.val = rngFROZEN ∨ s.ringState r.val = rngERROR →
    v.getLsbD 3 = s.flag (RNG_CTL_EVENTS r.val) →
    (s.flag (RNG_CFG_DIR r.val) = true ∧ s.isPeer r.val = true → Completes (.ringDisable src r v) s fun t =>
      t.fld (RNG_CTL_CAUSE r.val) = 1 ∧ t.ringState r.val = s.ringState r.val ∧ t.host = s.host ∧
      OnlyRegs (fun o => o = RNG_CTL r.val) s t) ∧
    (s.flag (RNG_CFG_DIR r.val) = false ∨ s.isPeer r.val = false → Completes (.ringDisable src r v) s fun t =>
      t.ringState r.val = rngDRAINING ∧ t.fld (RNG_CTL_ENABLE r.val) = 0 ∧ t.host = s.host ∧
      OnlyRegs (fun o => o = RNG_CTL r.val) s t ∧ t.mems = s.mems ∧ t.core = s.core)) ∧
  (∀ (r : Fin 8192) (s : State), s.ringState r.val = rngDRAINING → (s.ring r.val).flight = 0 →
    Completes (.ringDrained r) s fun t =>
      t.ringState r.val = rngDISABLED ∧ (∀ o, o ≠ RNG_CTL r.val → t.rd o = s.rd o) ∧ t.mems = s.mems ∧
      t.host = s.host ∧ t.core = s.core) ∧
  (∀ (r : Fin 8192) (v : Word) (s : State), s.inStandby = false → s.hostStalls mPCIe = false →
    s.ringState r.val ≠ rngDISABLED →
    s.flag (RNG_CFG_DIR r.val) = false →
    ((v.toNat + 2 ^ 32 - (s.rd (RNG_CI r.val)).toNat) % 2 ^ 32 ≤ s.ringLines r.val →
      Completes (.ringDoorbell mPCIe r v) s fun t =>
        t.rd (RNG_PI r.val) = v ∧ t.reply.st = ST_OK ∧ (∀ o, o ≠ RNG_PI r.val → t.rd o = s.rd o) ∧
        t.mems = s.mems ∧ t.host = s.host ∧ t.core = s.core) ∧
    (s.ringLines r.val < (v.toNat + 2 ^ 32 - (s.rd (RNG_CI r.val)).toNat) % 2 ^ 32 →
      Completes (.ringDoorbell mPCIe r v) s fun t =>
        t.ringState r.val = rngERROR ∧ t.fld (RNG_CTL_CAUSE r.val) = 2 ∧ t.rd (RNG_PI r.val) = s.rd (RNG_PI r.val) ∧
        t.host = s.host ∧ t.core = s.core)) ∧
  (∀ (r : Fin 8192) (t0 : Nat) (s : State), (s.ring r.val).unsent = some t0 →
    s.fld (RNG_CTL_COAL r.val) * 1000 ≤ sinceNs s.now t0 → s.flag (RNG_LINK_IRQ_EN r.val) = true →
    let v := s.fld (RNG_LINK_VECTOR r.val)
    let sent : Bool := s.host.pci.msixOn && !s.host.pci.maskAll && s.host.pci.unmasked.contains v
    Completes (.msixCoalesceExpired r) s fun t =>
      (sent = true → t.host.msix = s.host.msix ++ [v] ∧ t.host.msixPending = s.host.msixPending) ∧
      (sent = false → t.host.msix = s.host.msix ∧ v ∈ t.host.msixPending) ∧ (t.ring r.val).unsent = none ∧
      t.csr = s.csr ∧ t.mems = s.mems ∧ t.core = s.core)

/-- R284, R285, R293–R295, R298, R299: a command that passes checks 1–5 is taken from its ring,
whose CI, command number and count in flight advance; a GO is held while Woad does not run, else
the mailbox's command is taken. -/
def Obligations.CommandsTaken : Prop :=
  (∀ (r : Fin 8192) (s : State) (hd : List Byte), s.serving = true → s.fetchTurn = some r.val →
    hd = s.ringHead r.val → fieldN hd 8 4 ≤ 65536 → s.tooLarge r.val hd = false →
    (s.ringRead r.val (s.rd (RNG_CI r.val)).toNat (cmdLines hd)).1.st = ST_OK →
    (s.ringRead r.val (s.rd (RNG_CI r.val)).toNat (cmdLines hd)).1.bad = false →
    s.hostCheck (some (s.fld (RNG_CFG_FUNC r.val))) (fieldN hd 0 2) (fieldN hd 2 1) (fieldN hd 12 2) = ST_OK →
    s.fld (RNG_LINK_PEER r.val) ≠ r.val → s.claspMeets mHIP (s.ringBase r.val) (64 * s.ringLines r.val) = false →
    Completes (.commandFetch r) s fun t =>
      (∃ c, t.host.inflight = s.host.inflight ++ [c] ∧ c.via = .ring r (s.ring r.val).seq ∧
        c.opcode = fieldN hd 0 2 ∧ c.func = fieldN hd 2 1 ∧ c.tag.toNat = fieldN hd 4 4 ∧
        c.room = entryLines (largestResult hd) ∧ c.applied = false) ∧
      (t.rd (RNG_CI r.val)).toNat = ((s.rd (RNG_CI r.val)).toNat + cmdLines hd) % 2 ^ 32 ∧
      (t.ring r.val).seq = (s.ring r.val).seq + 1 ∧ (t.ring r.val).flight = (s.ring r.val).flight + 1 ∧
      (t.ring (s.fld (RNG_LINK_PEER r.val))).reserved =
        (s.ring (s.fld (RNG_LINK_PEER r.val))).reserved + entryLines (largestResult hd) ∧
      t.mems = s.mems) ∧
  (∀ (src : Nat) (m : Fin 16) (v : Word) (s : State), src = mHIP ∨ src = mPCIe → s.inStandby = false → s.hostStalls src = false →
    s.flag (MBX_CTL_BUSY m.val) = false →
    (s.fld MBX_FW_STAGE = 0 ∨ s.fld MBX_FW_STAGE = 2 → Completes (.mailboxGo src m v) s fun t =>
      t.host = { s.host with goOrder := s.host.goOrder ++ [m] } ∧ t.fld (MBX_CTL_BUSY m.val) = 1 ∧
      t.fld (MBX_CTL_GO m.val) = 0 ∧ OnlyRegs (fun o => o = MBX_CTL m.val) s t ∧ t.mems = s.mems ∧ t.core = s.core) ∧
    (s.serving = true → s.host.goOrder = [] →
      s.hostCheck none (s.mbxCmd m).opcode (s.mbxCmd m).func (s.mbxCmd m).version = ST_OK →
      (s.mbxCmd m).needsActive = false →
      Completes (.mailboxGo src m v) s fun t =>
        t.host = { s.host with inflight := s.host.inflight ++ [s.mbxCmd m] } ∧ t.fld (MBX_CTL_BUSY m.val) = 1 ∧
        t.reply.st = ST_OK ∧ OnlyRegs (fun o => o = MBX_CTL m.val) s t ∧ t.mems = s.mems ∧ t.core = s.core)) ∧
  (∀ (width rate : BitVec 4) (cfg : PciCfg) (s : State), s.reset_.boot ≠ .held → linkOk ⟨width, rate⟩ cfg = true →
    Completes (.pcieLinkUp ⟨width, rate⟩ cfg) s fun t =>
    (t.rd PCI_LINK_STAT).toNat = 256 + width.toNat * 16 + rate.toNat ∧ t.host.pci.unmasked = cfg.unmasked ∧
    t.host.pci.msixOn = cfg.msixOn ∧ t.host.pci.maskAll = cfg.maskAll ∧ (∀ o, o ≠ PCI_LINK_STAT → t.rd o = s.rd o) ∧ t.mems = s.mems ∧ t.core = s.core)

/-- The command in flight that came by `via`, with opcode, function and its arguments at hand. -/
def Ready (s : State) (via : Via) (op func : Nat) (c : HostCmd) : Prop :=
  s.cmdOf via op func = some c ∧ c.bad = false

/-- R280, R300, R301: ATTACH starts a session, heartbeats restart its timer, and the host is lost
3 × PERIOD ms after the last one or at a reset of the link; a heartbeat after the loss fails. -/
def Obligations.HostSession : Prop :=
  (∀ (m : Fin 16) (c : HostCmd) (s : State), Ready s (.mbx m) opATTACH fDEVICE c →
    1 ≤ fieldN c.arg 0 2 → fieldN c.arg 0 2 ≤ 1000 → fieldN c.arg 2 1 ≤ 2 ∨ fieldN c.arg 2 1 = 0xFF → fieldN c.arg 3 1 ≤ 1 →
    (c.arg.drop 4).all (· == 0) = true → c.payload = [] →
    Completes (.attach (.mbx m)) s fun t =>
      t.fld MBX_HOST_SESSION = (s.fld MBX_HOST_SESSION + 1) % 65536 ∧ t.fld MBX_HOST_PERIOD = fieldN c.arg 0 2 ∧
      t.fld MBX_HOST_POLICY = (if fieldN c.arg 2 1 = 0xFF then s.fld MBX_HOST_POLICY else fieldN c.arg 2 1) ∧ t.fld MBX_HOST_ATTACHED = 1 ∧ t.fld MBX_HOST_LOST = 0 ∧
      t.host.policyOn = false ∧ t.host.hbLast = s.now ∧ Ended (.mbx m) ST_OK s t ∧
      (∀ r ∈ s.host.rings.map Prod.fst, s.ringState r = rngFROZEN → t.ringState r = rngACTIVE) ∧
      (∀ r ∈ s.host.rings.map Prod.fst, s.ringState r = rngERROR → t.ringState r = rngERROR) ∧
      t.mems = s.mems ∧ t.core = s.core) ∧
  (∀ (via : Via) (c : HostCmd) (s : State), Ready s via opHOST_HEARTBEAT fDEVICE c → c.noArgs = true →
    (s.flag MBX_HOST_LOST = false → Completes (.hostHeartbeat via) s fun t =>
      t.host.hbLast = s.now ∧ Ended via ST_OK s t ∧ t.core = s.core) ∧
    (s.flag MBX_HOST_LOST = true → Completes (.hostHeartbeat via) s fun t =>
      t.host.hbLast = s.host.hbLast ∧ Ended via ST_BAD_STATE s t ∧ t.core = s.core)) ∧
  (∀ (src : Nat) (v : Word) (s : State), src = mHIP ∨ src = mPCIe → s.inStandby = false → s.hostStalls src = false →
    Completes (.mbxHb src v) s fun t =>
      t.host = { s.host with hbLast := s.now } ∧ t.csr = s.csr ∧ t.mems = s.mems ∧ t.core = s.core) ∧
  (∀ s : State, s.hipUp = true → s.flag MBX_HOST_ATTACHED = true → s.flag MBX_HOST_LOST = false →
    s.fld MBX_HOST_PERIOD * 3000000 ≤ sinceNs s.now s.host.hbLast → s.fld MBX_HOST_POLICY = 0 →
    s.eventRing fDEVICE = none → Completes .hostLoss s fun t =>
      t.fld MBX_HOST_LOST = 1 ∧ t.host.policyOn = true ∧
      (∀ r ∈ s.host.rings.map Prod.fst, s.ringState r = rngACTIVE → t.ringState r = rngFROZEN) ∧
      t.mems = s.mems ∧ t.core = s.core) ∧
  (∀ (kind : LinkReset) (s : State), s.flag MBX_HOST_ATTACHED = false →
    Completes (.pcieLinkReset kind) s fun t =>
      t.rd PCI_BAR2_BASE_LO = 0 ∧ t.rd PCI_BAR2_BASE_HI = 0xFFFF0010 ∧ t.fab.bar2Lo = 0 ∧ t.fab.bar2Hi = 0xFFFF0010 ∧
      (kind = .linkLoss → t.fld PCI_LINK_STAT_UP = 0) ∧ t.host = { s.host with pci := {}, msixPending := [] } ∧ t.mems = s.mems ∧
      (∀ o, o ≠ PCI_BAR2_BASE_LO → o ≠ PCI_BAR2_BASE_HI → o ≠ PCI_LINK_STAT → t.rd o = s.rd o)) ∧
  (∀ (kind : LinkReset) (s : State), s.flag MBX_HOST_ATTACHED = true → s.flag MBX_HOST_LOST = false →
    s.fld MBX_HOST_POLICY = 0 → s.eventRing fDEVICE = none →
    Completes (.pcieLinkReset kind) s fun t =>
      t.fld MBX_HOST_LOST = 1 ∧ t.host.policyOn = true ∧ t.host.pci = {} ∧ t.fab.bar2Hi = 0xFFFF0010 ∧ t.mems = s.mems) ∧
  (∀ (m : Fin 16) (c : HostCmd) (s : State), Ready s (.mbx m) opIFACE_QUERY fDEVICE c → c.noArgs = true →
    Completes (.ifaceQuery (.mbx m)) s fun t =>
      Ended (.mbx m) ST_OK s t ∧ t.rd (MBX_DATA m.val 6) = 16 ∧
      (t.rd (MBX_DATA m.val 8)).toNat = s.host.verMin % 65536 + s.host.verMax % 65536 * 65536 ∧
      t.rd (MBX_DATA m.val 9) = s.rd (GLB_FW_VER 0) ∧ t.rd (MBX_DATA m.val 10) = s.rd (GLB_FW_VER 1) ∧
      t.rd (MBX_DATA m.val 11) = s.rd (GLB_FW_VER 2) ∧ t.mems = s.mems ∧ t.core = s.core)

/-- R285, R287–R289, R376: DATA_PUT writes its payload through the fabric as the HIP and then
advances its sync object; DATA_GET and TELEMETRY change no memory and no unit and end with their
status; a store writes the records and takes effect by its commit entry. -/
def Obligations.DataAndSettings : Prop :=
  (∀ (m : Fin 16) (c : HostCmd) (off : Nat) (s : State), Ready s (.mbx m) opDATA_PUT fMODEL c → s.modelBar = none →
    c.payload ≠ [] → c.payload.length ≤ 64 → c.payload.length % 4 = 0 → off % 64 = 0 → off < 0x7C00000 →
    fieldN c.arg 0 8 = 0xFFFF000010000000 + off → fieldN c.arg 8 2 = 0xFFFF → FabricQuiet s →
    let so := fieldN c.arg 12 2
    so = 0xFFFF ∨ (so < 16384 ∧ s.soBad so = false) → (c.arg.drop 14).all (· == 0) = true → s.bankServes (off / 0x80000) = true →
    s.mems.map.partBad 8 off c.payload.length = false →
    Completes (.dataPutModel (.mbx m)) s fun t =>
      t.mems.map.bytes off c.payload.length = c.payload ∧ (so < 16384 → t.so so = s.so so + 1) ∧
      (so = 0xFFFF → SameBytesBut .map off c.payload.length s t ∧ t.core = s.core) ∧
      Ended (.mbx m) ST_OK s t ∧ t.rd (MBX_DATA m.val 7) = BitVec.ofNat 32 c.payload.length) ∧
  (∀ (m : Fin 16) (c : HostCmd) (off len : Nat) (s : State), Ready s (.mbx m) opDATA_GET fMODEL c → s.modelBar = none →
    FabricQuiet s → c.payload = [] → 4 ≤ len → len ≤ 64 → len % 4 = 0 → off % 64 = 0 → off < 0x7C00000 →
    fieldN c.arg 0 8 = 0xFFFF000010000000 + off → fieldN c.arg 8 4 = len →
    (c.arg.drop 12).all (· == 0) = true → s.bankServes (off / 0x80000) = true →
    s.isSealed (BitVec.ofNat 64 (0xFFFF000010000000 + off)) len = false → s.mems.map.anyBad 8 off len = false →
    Completes (.dataGetModel (.mbx m)) s fun t =>
      Ended (.mbx m) ST_OK s t ∧ t.rd (MBX_DATA m.val 6) = BitVec.ofNat 32 len ∧ t.rd (MBX_DATA m.val 7) = 0xFFFFFFFF ∧
      (t.rd (MBX_DATA m.val 8)).toNat = leNat (s.mems.map.bytes off 4) ∧ t.mems = s.mems ∧ t.core = s.core) ∧
  (∀ (via : Via) (c : HostCmd) (s : State), Ready s via opTELEMETRY c.func c →
    (c.func = fMODEL → s.modelBar = none) → c.payload = [] → 64 ≤ fieldN c.arg 0 4 → fieldN c.arg 0 4 ≤ 65536 →
    (c.arg.drop 4).all (· == 0) = true →
    c.isMbx = false ∨ ((s.records c.func).1.take (fieldN c.arg 0 4)).length ≤ 224 →
    Completes (.telemetry via) s fun t => Ended via ST_OK s t ∧ t.core = s.core ∧ (c.isMbx = true → t.mems = s.mems)) ∧
  (∀ (via : Via) (c : HostCmd) (s : State), Ready s via opSETTINGS_STORE c.func c → s.storeTurn c = true →
    c.noArgs = true → c.func ≠ fMODEL → s.wearOk (s.storeWrites c.func (((s.rd NVM_GEN).toNat + 1) % 2 ^ 32))
      (((s.rd NVM_GEN).toNat + 1) % 2 ^ 32) = true →
    Completes (.settingsStore via) s fun t =>
      (∃ x, t.host.store = some x ∧ x.via = via ∧ x.func = c.func ∧ x.gen = s.rd NVM_GEN + 1) ∧
      t.fld ⟨NVM_STAT, 0, 1⟩ = 1 ∧ t.rd NVM_GEN = s.rd NVM_GEN ∧ t.host.inflight = s.host.inflight ∧
      t.mems.map = s.mems.map ∧ t.mems.ddr = s.mems.ddr ∧ t.mems.blm = s.mems.blm ∧ t.mems.fom = s.mems.fom ∧
      (∀ a, a < 0x130000 → t.mems.nvm.byte a = s.mems.nvm.byte a)) ∧
  (∀ (x : StoreSt) (c : HostCmd) (s : State), s.host.store = some x → s.hipUp = true → s.cmdVia x.via = some c → (∀ k, x.via ≠ .reg k) →
    Completes .settingsCommit s fun t =>
      t.rd NVM_GEN = x.gen ∧ t.rd NVM_STAT = 0 ∧ t.host.store = none ∧ Ended x.via ST_OK s t ∧
      ((∃ m, x.via = .mbx m) → t.mems.nvm.bytes (commitAddr x.gen.toNat) 64 =
        commitEntry x.gen.toNat x.func (s.storeMap x.func)))

/-! ### Functions -/

/-- The other input streams are as before. -/
def SameCams (c : Nat) (s t : State) : Prop := ∀ d, d ≠ c → t.cam d = s.cam d

/-- The command carries one FN_CONFIG item, value `v` for offset `o` (R286). -/
def OneItem (c : HostCmd) (o : Nat) (v : Word) : Prop :=
  c.arg.all (· == 0) = true ∧ c.payload.length = 8 ∧ fieldN c.payload 0 4 = o ∧ BitVec.ofNat 32 (fieldN c.payload 4 4) = v

/-- A command of a function that ended: its completion, and every register outside the host interface
but those in `chg`; a mailbox command without event rings changes no memory. -/
def HostFrame (via : Via) (chg : Nat → Prop) (s t : State) : Prop :=
  (∀ o, o < 0x100000 → ¬ (0x10000 ≤ o ∧ o < 0x20000) → ¬ chg o → t.rd o = s.rd o) ∧ (Quiet s via → t.mems = s.mems)

/-- R205, R208, R233, R286, R321, R332, R339, R364: FN_CONFIG with one valid item gives the register
its value and enters CONFIG; FN_START enters RUNNING from CONFIG; FN_STOP enters STOPPED, an axis
only when its controlled stop has ended. -/
def Obligations.FunctionCommands : Prop :=
  (∀ (via : Via) (c : HostCmd) (o : Nat) (v : Word) (s : State), Ready s via opFN_CONFIG c.func c → OneItem c o v →
    (∀ k : Fin 4, c.func = fCAM k.val → s.camState k.val = camSTOPPED ∨ s.camState k.val = camCONFIG →
      camItemOk k.val o v = true → (s.plainWrite (ifeBase k.val + o) v).camChecks k.val = true →
      Completes (.fnConfigCam k via) s fun t =>
        t.camState k.val = camCONFIG ∧ Ended via ST_OK s t ∧ t.core = s.core ∧
        HostFrame via (fun x => x = ifeBase k.val + o ∨ x = IFE_STAT k.val) s t) ∧
    (∀ a : Fin 16, c.func = fAXIS a.val → s.axState a.val = axSTOPPED ∨ s.axState a.val = axCONFIG →
      axItemOk o v = true → (s.wr (sleBase a.val + o) v).axChecks a.val = true →
      Completes (.fnConfigAxis a via) s fun t =>
        t.axState a.val = axCONFIG ∧ t.rd (sleBase a.val + o) = v ∧ Ended via ST_OK s t ∧ t.core = s.core ∧
        HostFrame via (fun x => x = sleBase a.val + o ∨ x = SLE_STATUS a.val) s t) ∧
    (c.func = fHEALTH → s.hltState = hltSTOPPED ∨ s.hltState = hltCONFIG → hltItemOk o v = true →
      Completes (.fnConfigHealth via) s fun t =>
        t.hltState = hltCONFIG ∧ t.rd (hltBase + o) = v ∧ Ended via ST_OK s t ∧ t.core = s.core ∧
        HostFrame via (fun x => x = hltBase + o ∨ x = HLT_STAT) s t) ∧
    (c.func = fTIME → s.time.fn = .stopped ∨ s.time.fn = .config → timItemOk o v = true →
      (s.timApply o v).timCheck = true → Completes (.fnConfigTime via) s fun t =>
        t.time.fn = .config ∧ Ended via ST_OK s t ∧ SameUnits s t ∧ (Quiet s via → t.mems = s.mems)) ∧
    (c.func = fETH → s.eth.fn = .stopped ∨ s.eth.fn = .config → ethItemOk o v = true →
      Completes (.fnConfigEth via) s fun t =>
        t.eth = { s.eth with fn := .config } ∧ Ended via ST_OK s t ∧ SameUnits s t ∧
        HostFrame via (fun x => x = ethBase + o) s t) ∧
    (∀ n : Fin 8, c.func = fCAN n.val → (s.can n.val).fn = .stopped ∨ (s.can n.val).fn = .config →
      canItemOk n.val o v = true → s.filtKept n.val (canBase n.val + o) = false → Completes (.fnConfigCan n via) s fun t =>
        t.can n.val = { s.can n.val with fn := .config } ∧ Ended via ST_OK s t ∧ SameUnits s t ∧
        HostFrame via (fun x => x = canBase n.val + o) s t) ∧
    (c.func = fPAIR → s.pair.fn = .stopped ∨ s.pair.fn = .config → pairItemOk o v = true →
      Completes (.fnConfigPair via) s fun t =>
        t.pair = { s.pair with fn := .config } ∧ Ended via ST_OK s t ∧ SameUnits s t ∧
        HostFrame via (fun x => x = PLK_CFG ∨ x = plkSTATE.off) s t) ∧
    (c.func = fPOWER → pwrItemOk o v = true →
      (s.power.fn ≠ .running → Completes (.fnConfigPower via) s fun t =>
        t.rd PWR_CFG = v ∧ t.power.fn ≠ .stopped ∧ Ended via ST_OK s t ∧ SameUnits s t) ∧
      (s.power.fn = .running → s.pwrOther o v = true → Completes (.fnConfigPower via) s fun t =>
        t.rd PWR_CFG = s.rd PWR_CFG ∧ t.power = s.power ∧ Ended via ST_BAD_STATE s t ∧ SameUnits s t))) ∧
  (∀ (via : Via) (c : HostCmd) (s : State), Ready s via opFN_START c.func c → c.noArgs = true →
    (∀ k : Fin 4, c.func = fCAM k.val → s.camState k.val = camCONFIG → s.soBad (s.frameSo k.val) = false →
      s.soBad (s.freeSo k.val) = false → Completes (.fnStartCam k via) s fun t =>
        t.camState k.val = camRUNNING ∧ (t.cam k.val).next = 0 ∧ (t.cam k.val).frame = none ∧
        (t.cam k.val).waitFs = true ∧ Ended via ST_OK s t ∧
        (s.frameSo k.val ≠ s.freeSo k.val → Quiet s via → t.so (s.frameSo k.val) = 0 ∧ t.so (s.freeSo k.val) = 1) ∧
        t.facets = s.facets ∧ t.beads = s.beads ∧ t.axes = s.axes ∧ t.health = s.health) ∧
    (∀ a : Fin 16, c.func = fAXIS a.val → (∀ x, via ≠ .reg x) → s.axStartSt a.val = ST_OK →
      Completes (.fnStartAxis a via) s fun t =>
        t.axState a.val = axRUNNING ∧ t.rd (SLE_LOOP_CNT a.val) = 0 ∧ (t.axis a.val).startVia = some via ∧
        (t.axis a.val).firstLoop = true ∧ (t.axis a.val).idInt = 0 ∧ (t.axis a.val).iqInt = 0 ∧
        t.cmdVia via = some c ∧ (∀ b, b ≠ a.val → t.axis b = s.axis b) ∧ t.facets = s.facets ∧ t.beads = s.beads ∧
        HostFrame via (fun x => x = SLE_LOOP_CNT a.val ∨ x = SLE_STATUS a.val) s t) ∧
    (c.func = fHEALTH → s.hltState = hltCONFIG → Completes (.fnStartHealth via) s fun t =>
      t.hltState = hltRUNNING ∧ (∀ m < 96, (t.edgeIn m).cal = [false, true] ∧ (t.edgeIn m).win = none) ∧
      (∀ l < 48, (t.leg l).lastGood = s.now) ∧ Ended via ST_OK s t ∧ t.facets = s.facets ∧ t.axes = s.axes) ∧
    (c.func = fTIME → s.time.fn = .config → Completes (.fnStartTime via) s fun t =>
      t.time.fn = .running ∧ Ended via ST_OK s t ∧ SameUnits s t) ∧
    (c.func = fETH → s.eth.fn = .config → Completes (.fnStartEth via) s fun t =>
      t.eth.fn = .running ∧ (∀ p < 7, (t.port p).up = true) ∧ Ended via ST_OK s t ∧ SameUnits s t ∧
      HostFrame via (fun _ => False) s t) ∧
    (∀ n : Fin 8, c.func = fCAN n.val → (s.can n.val).fn = .config → Completes (.fnStartCan n via) s fun t =>
      (t.can n.val).fn = .running ∧ (t.can n.val).synced = true ∧ (∀ m, m ≠ n.val → t.can m = s.can m) ∧
      Ended via ST_OK s t ∧ SameUnits s t ∧ HostFrame via (fun _ => False) s t) ∧
    (c.func = fPAIR → s.pair.fn = .config → s.plkMode = 0 → s.pair.startVia = none →
      Completes (.fnStartPair via []) s fun t =>
        t.pair.fn = .running ∧ Ended via ST_OK s t ∧ SameUnits s t) ∧
    (c.func = fPOWER → s.power.fn = .config → Completes (.fnStartPower via) s fun t =>
      t.power = { s.power with fn := .running } ∧ Ended via ST_OK s t ∧ SameUnits s t ∧ HostFrame via (fun _ => False) s t)) ∧
  (∀ (via : Via) (c : HostCmd) (s : State), Ready s via opFN_STOP c.func c → c.noArgs = true →
    (∀ k : Fin 4, c.func = fCAM k.val → (∀ x, via ≠ .reg x) → s.camState k.val = camRUNNING ∨ s.camState k.val = camFAULT →
      (s.cam k.val).frame = none → (s.cam k.val).cbuf = [] → (∀ j ∈ s.jxsCur.toList ++ s.jxs, j.cam ≠ k) →
      ((s.cam k.val).cuts = [] → Completes (.fnStopCam k via) s fun t =>
        t.camState k.val = camSTOPPED ∧ Ended via ST_OK s t ∧ SameCams k.val s t ∧
        HostFrame via (fun x => x = IFE_STAT k.val) s t) ∧
      ((s.cam k.val).cuts ≠ [] → Completes (.fnStopCam k via) s fun t =>
        t.camState k.val = s.camState k.val ∧ (t.cam k.val).stopVia = some via ∧ (t.cam k.val).cuts = (s.cam k.val).cuts ∧
        SameCams k.val s t ∧ t.csr = s.csr ∧ t.mems = s.mems ∧ t.host = s.host)) ∧
    (∀ a : Fin 16, c.func = fAXIS a.val → (∀ x, via ≠ .reg x) →
      (s.axState a.val = axRUNNING → (s.axis a.val).stop = none → Completes (.fnStopAxis a via) s fun t =>
        t.axState a.val = axRUNNING ∧ t.fld (SLE_STATUS_STOPPING a.val) = 1 ∧
        (∃ x, (t.axis a.val).stop = some x ∧ x.vias = [via] ∧ x.toFault = false ∧ x.periods = 0 ∧
          x.vt = (s.axis a.val).vel * 65536) ∧
        (∀ b, b ≠ a.val → t.axis b = s.axis b) ∧ t.host = s.host ∧ t.mems = s.mems ∧
        (∀ o, o ≠ SLE_STATUS a.val → t.rd o = s.rd o)) ∧
      (s.axState a.val = axFAULT → Completes (.fnStopAxis a via) s fun t =>
        t.axState a.val = axSTOPPED ∧ Ended via ST_OK s t ∧ t.core = s.core ∧
        HostFrame via (fun x => x = SLE_STATUS a.val) s t)) ∧
    (c.func = fHEALTH → s.hltState = hltRUNNING ∨ s.hltState = hltFAULT → Completes (.fnStopHealth via) s fun t =>
      t.hltState = hltSTOPPED ∧ (∀ m < 96, (t.edgeIn m).win = none) ∧ Ended via ST_OK s t ∧ t.facets = s.facets ∧
      t.axes = s.axes ∧ HostFrame via (fun x => x = HLT_STAT) s t) ∧
    (c.func = fTIME → s.time.fn = .running ∨ s.time.fn = .fault → Completes (.fnStopTime via) s fun t =>
      t.time.fn = .stopped ∧ (∀ p < 8, t.flag (TIM_PO_CFG_ARM p) = false ∧ (t.pulse p).active = false) ∧
      (∀ k < 4, t.flag (TIM_CAP_CFG_ENABLE k) = false) ∧ Ended via ST_OK s t ∧ SameUnits s t) ∧
    (c.func = fETH → s.eth.fn = .running ∨ s.eth.fn = .fault →
      (s.safety.params.msgCh ≠ 8 → Completes (.fnStopEth via) s fun t =>
        t.eth.fn = .stopped ∧ (∀ p < 7, (t.port p).up = false) ∧ Ended via ST_OK s t ∧ SameUnits s t ∧
        HostFrame via (fun _ => False) s t) ∧
      (s.safety.params.msgCh = 8 → Completes (.fnStopEth via) s fun t =>
        t.eth = s.eth ∧ Ended via ST_NOT_PERMITTED s t ∧ t.core = s.core ∧ HostFrame via (fun _ => False) s t)) ∧
    (∀ n : Fin 8, c.func = fCAN n.val → (s.can n.val).fn = .running ∨ (s.can n.val).fn = .fault →
      s.safety.params.msgCh ≠ n.val → Completes (.fnStopCan n via) s fun t =>
        (t.can n.val).fn = .stopped ∧ (t.can n.val).inFrame = false ∧ (∀ m, m ≠ n.val → t.can m = s.can m) ∧
        Ended via ST_OK s t ∧ SameUnits s t ∧ HostFrame via (fun _ => False) s t) ∧
    (c.func = fPAIR → s.pair.fn = .running ∨ s.pair.fn = .fault → s.model.pkg = none →
      Completes (.fnStopPair via) s fun t =>
        t.pair = { s.pair with fn := .stopped } ∧ t.fld (plkUp 0) = 0 ∧ t.fld (plkUp 1) = 0 ∧ Ended via ST_OK s t ∧
        SameUnits s t) ∧
    (c.func = fPOWER → s.power.fn = .running ∨ s.power.fn = .fault → Completes (.fnStopPower via) s fun t =>
      t.power = { s.power with fn := .stopped } ∧ Ended via ST_OK s t ∧ SameUnits s t ∧
      HostFrame via (fun _ => False) s t))

/-! ### Packages and the cycle table -/

/-- R166, R187, R188: a chunk at offset 0 that its check accepts starts a package; PKG_ACTIVATE with
every step in order makes the checked package resident and MODEL enters CONFIG, a step that fails
leaves FAULT, no package and its status; the resident package takes a share weight; FN_START waits for
the boundary; FN_STOP outside RUNNING ends in STOPPED. -/
def Obligations.PackageCommands : Prop :=
  ∀ (via : Via) (c : HostCmd) (s : State), s.modelBar = none →
    (Ready s via opPKG_LOAD fMODEL c → c.plenOk = true → c.arg.all (· == 0) = true →
      (c.payload.length < 16 → Completes (.pkgLoad via) s fun t =>
        Ended via ST_BAD_FIELD s t ∧ t.core = s.core) ∧
      (16 ≤ c.payload.length → fieldN c.payload 0 8 = 0 → 256 ≤ fieldN c.payload 8 8 →
        fieldN c.payload 8 8 ≤ 2 ^ 31 → fieldN c.payload 8 8 ≤ s.stageLen →
        (c.payload.drop 16).length < fieldN c.payload 8 8 →
        (({ s with model := { s.model with stagedLen := fieldN c.payload 8 8, staged := 0, checked := none } }).writeLong
          mHIP (BitVec.ofNat 64 (0xFFFF * 2 ^ 48 + 0x1000000000 + s.stageBase)) (c.payload.drop 16)).1.1 = ST_OK →
        Completes (.pkgLoad via) s fun t =>
          t.model.stagedLen = fieldN c.payload 8 8 ∧ t.model.staged = (c.payload.drop 16).length ∧
          t.model.checked = none ∧ t.model.pkg = s.model.pkg ∧ t.model.fn = s.model.fn ∧ Ended via ST_OK s t)) ∧
    (∀ p, Ready s via opPKG_ACTIVATE fMODEL c → c.noArgs = true → s.model.fn = .stopped → s.model.checked = some p →
      p.pair = false → s.mems.ddr.anyBad 8 s.stageBase s.model.stagedLen = false →
      ((s.release.unstage.place5 p).1 = ST_OK → Completes (.pkgActivate via) s fun t =>
        t.model.pkg = some p ∧ t.model.fn = .config ∧ t.model.checked = none ∧ t.model.accG = [] ∧ t.model.accW = [] ∧
        t.model.insts = [] ∧ Ended via ST_OK s t) ∧
      ((s.release.unstage.place5 p).1 ≠ ST_OK → Completes (.pkgActivate via) s fun t =>
        t.model.pkg = none ∧ t.model.fn = .fault ∧ Ended via (s.release.unstage.place5 p).1 s t)) ∧
    (∀ (p : Package) (g v : Nat), Ready s via opFN_CONFIG fMODEL c → s.model.pkg = some p →
      s.model.fn = .stopped ∨ s.model.fn = .config → c.plenOk = true → c.arg.all (· == 0) = true → g < 64 →
      1 ≤ v → v ≤ 1024 → c.payload = leBytes 4 (0x01000000 + g) ++ leBytes 4 v →
      Completes (.fnConfigModel via) s fun t =>
        t.model = { s.model with pkg := some { p with groups := p.groups.set g (v, (p.groups.getD g (1, 0)).2) } } ∧
        Ended via ST_OK s t) ∧
    (Ready s via opFN_START fMODEL c → c.noArgs = true → s.model.fn = .config → s.model.startVia = none →
      Completes (.fnStartModel via) s fun t => t = { s with model := { s.model with startVia := some via } }) ∧
    (Ready s via opFN_STOP fMODEL c → c.noArgs = true → s.model.fn = .config ∨ s.model.fn = .fault →
      s.model.stopVia = none → (s.pkgAxes.all fun a => s.axState a = axSTOPPED) = true →
      s.cmdVia via = some c → Completes (.fnStopModel via) s fun t =>
        t.model.fn = .stopped ∧ t.model.tableOn = false ∧ t.safety.agmArmed = false ∧ SameUnits s t ∧
        ((∀ k, via ≠ .reg k) → Ended via ST_OK s t))

/-- R172–R174, R187: the boundary advances the cycle number and starts the table that FN_START has
asked for; the oldest instance that has not opened opens at START, also one held past its cycle; at DEADLINE an instance that has not completed is counted. -/
def Obligations.CycleTable : Prop :=
  (∀ s : State, s.major ≤ sinceNs (s.tbNs 7) s.model.cycleStart → s.model.pkg = none →
    Completes .cycleBoundary s fun t =>
      t.model.cycle = s.model.cycle + 1 ∧ t.model.cycleStart = (s.model.cycleStart + s.major) % 2 ^ 48) ∧
  (∀ (m : Fin 16) (c : HostCmd) (p : Package) (s : State), s.major ≤ sinceNs (s.tbNs 7) s.model.cycleStart →
    s.model.pkg = some p → p.annex = none → s.model.stopping = false → s.scpUp = true → s.hipUp = true →
    s.model.startVia = some (.mbx m) → s.cmdVia (.mbx m) = some c → Completes .cycleBoundary s fun t =>
      t.model.cycle = s.model.cycle + 1 ∧ t.model.fn = .running ∧ t.model.tableOn = true ∧
      t.model.firstCycle = s.model.cycle + 1 ∧ Ended (.mbx m) ST_OK s t ∧ t.model.insts = []) ∧
  (∀ (w : Fin 64) (cyc : Word) (p : Package) (x : Window) (s : State), s.model.pkg = some p → p.annex = none →
    p.window w.val = some x → s.nextOpen x w.val = some cyc →
    (cyc = s.model.cycle → x.start ≤ sinceNs (s.tbNs 7) s.model.cycleStart) →
    s.model.tableOn = true → s.model.fn = .running → s.model.heldByScp = false → s.scpUp = true →
    s.hbHeld p cyc = true → (∀ i ∈ s.model.insts, i.win ≠ w.val) →
    (s.model.insts.all fun i => p.isTT i.win || i.running.isEmpty) = true → Completes (.windowInstanceOpen w) s fun t =>
      t.model.insts = s.model.insts ++ [{
        win := w.val, cyc := cyc
        boundary := (s.model.cycleStart + 2 ^ 48 - (s.model.cycle - cyc).toNat * s.major % 2 ^ 48) % 2 ^ 48 }] ∧
      kget none t.model.opened w.val = some cyc ∧ t.model.cycle = s.model.cycle ∧ SameUnits s t) ∧
  (∀ (w : Fin 64) (cyc : Word) (p : Package) (x : Window) (i : Inst) (s : State), s.model.pkg = some p →
    p.window w.val = some x → s.inst? w.val cyc = some i → i.late = false → s.scpUp = true →
    x.deadline ≤ sinceNs (s.tbNs 7) i.boundary → i.complete p = false → Completes (.windowDeadline w cyc) s fun t =>
      (t.winAcc w.val).winovr = (s.winAcc w.val).winovr + 1 ∧
      (∃ j, t.inst? w.val cyc = some j ∧ j.late = true ∧ j.running = i.running ∧ j.done = i.done) ∧ SameUnits s t)

/-- R174, R176, R177, R179, R431: a time-triggered task whose conditions hold is handed to its
engine, a Facet's template with CYCLE filled in; the chosen share task is placed; a task whose
increments are made is done; share work is asked to give way before a time-triggered window. -/
def Obligations.TaskScheduling : Prop :=
  (∀ (w : Fin 64) (cyc : Word) (p : Package) (u : Task) (i : Inst) (s : State), s.model.pkg = some p →
    s.inst? w.val cyc = some i → (p.tasksOf w.val).find? (fun v => v.id = u.id) = some u → s.dispatching = true →
    p.isTT w.val = true → i.isDone u.id = false → i.running.find? (fun r => r.task = u.id) = none →
    u.deps.all (s.depDone p cyc) = true → s.earlierWork p w.val cyc u = false → s.enginesFree p u = true →
    s.handoverBar p u cyc = ST_OK → Completes (.taskDispatch w cyc u.id) s fun t =>
      (∃ j, t.inst? w.val cyc = some j ∧ ∃ r ∈ j.running, r.task = u.id ∧ r.since = s.now) ∧
      (u.kind = 0 → u.ndesc = 1 → u.cand < 32 → s.facState u.cand ≠ facPREEMPTED → (s.facet u.cand).queue = [] →
        (t.facet u.cand).queue = [.held (fill4 (tmplOf p.graph u 0) 0x74 cyc.toNat)] ∧
        (∀ g, g ≠ u.cand → t.facet g = s.facet g) ∧ SameBytes s t ∧ t.beads = s.beads)) ∧
  (∀ (e : Engine) (k c : Nat) (p : Package) (i : Inst) (u : Task) (s s' : State), s.model.pkg = some p →
    s.dispatching = true → k = (match e with | .facet f => f.val | .bead n => 100 + n.val) →
    s' = s.liftGroups p (((s.readyShares p).map fun x => x.2.group).eraseDups) → s'.shareOn k = none →
    s'.pickShare p k = some (i, u) → s'.place p i.cyc u = some c → s'.inst? i.win i.cyc = some i →
    s'.handoverBar p u i.cyc = ST_OK →
    Completes (.shareDispatch e) s fun t =>
      ∃ j, t.inst? i.win i.cyc = some j ∧ ∃ r ∈ j.running, r.task = u.id ∧ r.cand = c) ∧
  (∀ (w : Fin 64) (cyc : Word) (p : Package) (u : Task) (i : Inst) (r : RunTask) (s : State), s.model.pkg = some p →
    s.inst? w.val cyc = some i → p.task u.id = some u → i.running.find? (fun x => x.task = u.id) = some r →
    s.scpUp = true → s.faultedNode p u r = none → r.sent = u.ndesc → s.runDone r = true → s.judging p u cyc = false →
    i.late = false → s.model.stopping = false → Completes (.taskComplete w cyc u.id) s fun t =>
      ∃ j, t.inst? w.val cyc = some j ∧ j.isDone u.id = true ∧ ∀ x ∈ j.running, x.task ≠ u.id) ∧
  (∀ (w : Fin 64) (p : Package) (x : Window) (s : State), s.model.pkg = some p → p.window w.val = some x →
    s.dispatching = true → s.comesUp p w.val 3000 = true → Completes (.preemptForWindow w) s fun t =>
      (∀ f : Fin 32, x.facets.getLsbD f.val = true → (s.shareOn f.val).isSome = true → s.facState f.val = facRUNNING →
        t.fld (FAC_CTL_PREEMPT f.val) = 1) ∧ SameUnits s t ∧ SameBytes s t ∧ t.model = s.model) ∧
  (∀ (w : Fin 64) (p : Package) (x : Window) (i : Inst) (r : RunTask) (u : Task) (n : Fin 4096) (s : State),
    s.model.pkg = some p → p.window w.val = some x → s.dispatching = true → s.comesUp p w.val 5000 = true →
    i ∈ s.model.insts → p.isTT i.win = false → r ∈ i.running → p.task r.task = some u → u.kind = 2 →
    100 + n.val ∈ p.keys u r.cand → x.regions.getLsbD (beadRegion n.val) = true → s.beadState n.val = bdRUNNING →
    Completes (.yieldForWindow w) s fun t =>
      t.fld (BEAD_CTL_YIELD_REQ n.val) = 1 ∧ t.fld (BEAD_STATUS_YPEND n.val) = 1 ∧ t.facets = s.facets ∧
      SameBytes s t ∧ t.model = s.model)

/-! ### Input front end -/

/-- R192, R193, R196, R199–R201, R203, R204: a frame start opens the next slot with the entry and the
region-of-interest choice in force; a line that passes its checks is taken, one that fails gives the
frame its cause; the frame end seals the sample and the batch is handed over, or leaves VOID; a
packet that the stream does not take is counted; a missing frame takes a VOID slot. -/
def Obligations.CameraFrames : Prop :=
  (∀ (c vc : Fin 4) (num : BitVec 16) (s : State), s.csiLive c.val = true →
    (s.ownVc c.val vc = true → (s.cam c.val).frame = none → Completes (.csi2FrameStart c .ok ⟨vc, num⟩) s fun t =>
      (∃ f, (t.cam c.val).frame = some f ∧ f.idx = (s.cam c.val).next ∧ f.num = num ∧ f.lines = 0 ∧
        f.entry = s.dscPick c.val ∧ f.cause = (if s.dscPick c.val = none then 11 else 0) ∧
        f.refresh = (s.roiSelect c.val (s.cam c.val).next).1.isNone ∧ f.tStart = s.tb64 7) ∧
      (t.cam c.val).next = (s.cam c.val).next + 1 ∧ SameCams c.val s t ∧
      (s.flag (IFE_CUT_ROI_EN c.val) = false → t.csr = s.csr ∧ t.mems = s.mems)) ∧
    (s.ownVc c.val vc = false → Completes (.csi2FrameStart c .ok ⟨vc, num⟩) s fun t =>
      (t.rd (IFE_DISCARD c.val)).toNat = min 0xFFFFFFFF ((s.rd (IFE_DISCARD c.val)).toNat + 1) ∧ t.cams = s.cams)) ∧
  (∀ (c vc : Fin 4) (dt : BitVec 6) (crcOk : Bool) (data : List Byte) (f : Frame) (s : State), s.csiLive c.val = true →
    (s.cam c.val).frame = some f → f.cause = 0 →
    (Completes (.csi2Line c .bad ⟨vc, dt⟩ crcOk data) s fun t =>
      (t.cam c.val).frame = some { f with cause := 1 } ∧ t.csr = s.csr ∧ t.mems = s.mems) ∧
    (s.ownVc c.val vc = false ∨ s.fld (IFE_CTL_DT c.val) ≠ dt.toNat → Completes (.csi2Line c .ok ⟨vc, dt⟩ crcOk data) s fun t =>
      (t.rd (IFE_DISCARD c.val)).toNat = min 0xFFFFFFFF ((s.rd (IFE_DISCARD c.val)).toNat + 1) ∧ t.cams = s.cams ∧
      t.mems = s.mems) ∧
    (s.ownVc c.val vc = true → s.fld (IFE_CTL_DT c.val) = dt.toNat →
      (data.length ≠ s.camW c.val * s.camDepth c.val / 8 → Completes (.csi2Line c .ok ⟨vc, dt⟩ crcOk data) s fun t =>
        (t.cam c.val).frame = some { f with cause := 3 } ∧ t.csr = s.csr ∧ t.mems = s.mems) ∧
      (data.length = s.camW c.val * s.camDepth c.val / 8 → Completes (.csi2Line c .ok ⟨vc, dt⟩ false data) s fun t =>
        (t.cam c.val).frame = some { f with cause := 2 } ∧ t.csr = s.csr ∧ t.mems = s.mems) ∧
      (∀ v, v = (List.range (s.camW c.val)).map (s.linePixel c.val data) →
        data.length = s.camW c.val * s.camDepth c.val / 8 → f.lines < s.camH c.val →
        (s.putRow c.val f f.lines v).1.1 = ST_OK → Completes (.csi2Line c .ok ⟨vc, dt⟩ true data) s fun t =>
          (t.cam c.val).frame = some { f with lines := f.lines + 1 } ∧ SameCams c.val s t ∧
          t.mems = (s.putRow c.val f f.lines v).2.mems))) ∧
  (∀ (c vc : Fin 4) (num : BitVec 16) (f : Frame) (s : State), s.csiLive c.val = true → s.ownVc c.val vc = true →
    (s.cam c.val).frame = some f → s.batchLen c.val = 1 → f.deferred = false → (s.cam c.val).deferredBatch = [] →
    s.soBad (s.frameSo c.val) = false →
    (f.cause = 0 ∧ num = f.num ∧ f.lines = s.camH c.val → Completes (.csi2FrameEnd c .ok ⟨vc, num⟩) s fun t =>
      (t.cam c.val).frame = none ∧ (t.cam c.val).lastEnd = s.tbNs 7 ∧
      (t.camState c.val ≠ camFAULT → t.rd (IFE_LAST_IDX c.val) = f.idx ∧
        t.so (s.frameSo c.val) = s.so (s.frameSo c.val) + 1 ∧
        (s.dscBase c.val % 64 = 0 → (t.cam c.val).lastVoid = (s.cam c.val).lastVoid))) ∧
    (f.cause ≠ 0 ∨ num ≠ f.num ∨ f.lines ≠ s.camH c.val → Completes (.csi2FrameEnd c .ok ⟨vc, num⟩) s fun t =>
      (t.cam c.val).frame = none ∧ (t.cam c.val).lastEnd = s.tbNs 7 ∧
      (f.idx + 1 = (s.cam c.val).next → (t.cam c.val).lastVoid = true) ∧
      (t.camState c.val ≠ camFAULT → t.rd (IFE_LAST_IDX c.val) = f.idx ∧
        t.so (s.frameSo c.val) = s.so (s.frameSo c.val) + 1))) ∧
  (∀ (c : Fin 4) (s : State), s.csiLive c.val = true → Completes (.csi2PacketDiscard c) s fun t =>
    (t.rd (IFE_DISCARD c.val)).toNat = min 0xFFFFFFFF ((s.rd (IFE_DISCARD c.val)).toNat + 1) ∧
    (∀ o, o ≠ IFE_DISCARD c.val → t.rd o = s.rd o) ∧ t.cams = s.cams ∧ t.mems = s.mems ∧ t.core = s.core) ∧
  (∀ (c : Fin 4) (s : State), s.timesOut c.val = true → s.camState c.val = camRUNNING → (s.cam c.val).frame = none →
    (s.cam c.val).cbuf = [] → Completes (.frameTimeout c) s fun t =>
      (t.cam c.val).next = (s.cam c.val).next + 1 ∧ (t.cam c.val).lastVoid = true ∧
      (t.cam c.val).lastEnd = s.tbNs 7 ∧
      (t.camState c.val ≠ camFAULT → t.rd (IFE_LAST_IDX c.val) = (s.cam c.val).next))

/-- R191, R194–R196, R200–R203, R288: an RTP packet's data enters the compressed buffer; the decoder
takes the oldest complete codestream, and its sample is sealed, or VOID on a decoding error; a
replayed sample takes its slot and DATA_GET delivers a sample's bytes; the oldest cut task runs and
its end is told; a deferred batch is cut and handed over. -/
def Obligations.CodestreamsAndCuts : Prop :=
  (∀ (c : Fin 4) (port seq : BitVec 16) (data : List Byte) (s : State), s.camLive c.val = true →
    s.fld (IFE_CTL_SOURCE c.val) = srcJXS → bitsN (s.rd (IFE_UDP_PORT c.val)).toNat 0 16 = port.toNat → port ≠ 0 →
    (s.cam c.val).skip = false → Completes (.jxsRtpPacket port seq data false) s fun t =>
      (t.cam c.val).cbuf = (s.cam c.val).cbuf ++ data ∧ (t.cam c.val).rtpSeq = some seq ∧
      ((s.cam c.val).rtpSeq = some (seq - 1) → (t.cam c.val).seqGap = (s.cam c.val).seqGap) ∧
      t.csr = s.csr ∧ t.mems = s.mems ∧ t.jxs = s.jxs) ∧
  (∀ (j : Codestream) (js : List Codestream) (s : State), s.jxsCur = none → s.jxs = j :: js →
    Completes .jxsDecodeStart s fun t => t = { s with jxsCur := some j, jxs := js }) ∧
  (∀ (j : Codestream) (s : State), s.jxsCur = some j → Completes (.jxsDecodeComplete j.cam) s fun t =>
    t.jxsCur = none ∧
    (Config.jxsDecoded j.data = none →
      (j.frame.idx + 1 = (s.cam j.cam.val).next → (t.cam j.cam.val).lastVoid = true) ∧
      (t.camState j.cam.val ≠ camFAULT → t.rd (IFE_LAST_IDX j.cam.val) = j.frame.idx)) ∧
    (∀ l, Config.jxsDecoded j.data = some l →
      (({ s with jxsCur := none }).putRows j.cam.val j.frame (l.map BitVec.toNat)).1.1 = ST_OK →
      t.camState j.cam.val ≠ camFAULT → t.rd (IFE_LAST_IDX j.cam.val) = j.frame.idx ∧
        (s.camState j.cam.val = camRUNNING → s.dscBase j.cam.val % 64 = 0 →
          (t.cam j.cam.val).lastVoid = (s.cam j.cam.val).lastVoid))) ∧
  (∀ (c : Fin 4) (via : Via) (cmd : HostCmd) (s : State), Ready s via opDATA_PUT (fCAM c.val) cmd →
    s.camLive c.val = true → s.fld (IFE_CTL_SOURCE c.val) = srcREPLAY → cmd.arg.all (· == 0) = true →
    cmd.plenOk = true → 4 ≤ cmd.payload.length → fieldN cmd.payload 0 4 = (s.cam c.val).next.toNat →
    cmd.payload.length ≠ 4 + s.u16Bytes c.val → Completes (.dataPutCam c via) s fun t =>
      (t.cam c.val).next = (s.cam c.val).next + 1 ∧ (t.cam c.val).lastVoid = true ∧
      (t.camState c.val ≠ camFAULT → t.rd (IFE_LAST_IDX c.val) = (s.cam c.val).next) ∧
      Ended via ST_SAMPLE_CORRUPT s t) ∧
  (∀ (c : Fin 4) (via : Via) (cmd : HostCmd) (f : Frame) (s s1 : State), Ready s via opDATA_PUT (fCAM c.val) cmd →
    s.camLive c.val = true → s.fld (IFE_CTL_SOURCE c.val) = srcREPLAY → cmd.arg.all (· == 0) = true →
    cmd.plenOk = true → fieldN cmd.payload 0 4 = (s.cam c.val).next.toNat →
    cmd.payload.length = 4 + s.u16Bytes c.val → s.openFrame c.val 0 0 = (f, s1) → f.cause = 0 →
    ((s1.setCam c.val { s1.cam c.val with lastEnd := s1.tbNs 7 }).putRows c.val f
      ((List.range (s.camH c.val)).flatMap fun y => (List.range (s.camW c.val * s.camNc c.val)).map fun i =>
        fieldN cmd.payload (4 + y * s.camRowBytes c.val + 2 * i) 2)).1.1 = ST_OK →
    Completes (.dataPutCam c via) s fun t =>
      (t.cam c.val).next = (s.cam c.val).next + 1 ∧ Ended via ST_OK s t ∧
      (t.camState c.val ≠ camFAULT → t.rd (IFE_LAST_IDX c.val) = (s.cam c.val).next ∧
        (s.dscBase c.val % 64 = 0 → (t.cam c.val).lastVoid = false))) ∧
  (∀ (c : Fin 4) (via : Via) (cmd : HostCmd) (e : Nat) (s : State), Ready s via opDATA_GET (fCAM c.val) cmd →
    cmd.argTail 12 = true → cmd.payload = [] → 1 ≤ fieldN cmd.arg 8 4 → fieldN cmd.arg 8 4 ≤ 224 →
    fieldN cmd.arg 4 4 + fieldN cmd.arg 8 4 ≤ s.u16Bytes c.val →
    s.dscOf c.val (BitVec.ofNat 32 (fieldN cmd.arg 0 4)) = some e →
    s.cutWaits c.val (BitVec.ofNat 32 (fieldN cmd.arg 0 4)) = false →
    (s.readClean (s.dscAddr c.val e + fieldN cmd.arg 4 4) (fieldN cmd.arg 8 4)).2 = none →
    Completes (.dataGetCam c via) s fun t => Ended via ST_OK s t ∧ t.core = s.core ∧ (cmd.isMbx = true → t.mems = s.mems)) ∧
  (∀ (c : Fin 4) (d : List Byte) (ds : List (List Byte)) (s : State), (s.cam c.val).cuts = d :: ds →
    ((s.cam c.val).cutDone = none → s.cutWaits c.val (BitVec.ofNat 32 (fieldN d 4 4)) = false → Completes (.cutTask c) s fun t =>
      (t.cam c.val).cutDone = some (s.cut c.val d).1 ∧ (t.cam c.val).cuts = d :: ds ∧ SameCams c.val s t ∧
      t.mems = (s.cut c.val d).2.mems ∧ t.facets = s.facets ∧ t.beads = s.beads ∧ t.axes = s.axes) ∧
    ((s.cam c.val).cutDone = some ST_OK → (s.cam c.val).stopVia = none → fieldN d 0x16 2 < 16384 →
      s.soBad (fieldN d 0x16 2) = false → Completes (.cutTaskComplete c) s fun t =>
        (t.cam c.val).cuts = ds ∧ (t.cam c.val).cutDone = none ∧ t.so (fieldN d 0x16 2) = s.so (fieldN d 0x16 2) + 1 ∧
        SameBytesBut .map (soAddr (fieldN d 0x16 2)) 4 s t ∧ SameCams c.val s t)) ∧
  (∀ (c : Fin 4) (first : Word) (rest : List Word) (s : State), (s.cam c.val).deferredBatch = first :: rest →
    s.camState c.val = camRUNNING ∨ s.camState c.val = camFAULT → (s.cam c.val).stopVia = none →
    s.batchLen c.val ≤ (s.batchHeld c.val (s.batchOf c.val first)).length →
    s.credit c.val (s.batchOf c.val first + 1) = true →
    (∀ x ∈ s.batchHeld c.val (s.batchOf c.val first), s.cutWaits c.val x.idx = false) →
    Completes (.deferredBatchCut c) s fun t =>
      (t.cam c.val).deferredBatch = rest ∧
      (t.camState c.val ≠ camFAULT →
        (∀ x ∈ (t.cam c.val).held, s.batchOf c.val x.idx ≠ s.batchOf c.val first) ∧
        (s.soBad (s.frameSo c.val) = false → t.so (s.frameSo c.val) = s.so (s.frameSo c.val) + 1)))

/-! ### Servo loop engines -/

/-- The other axes are as before. -/
def SameAxes (a : Nat) (s t : State) : Prop := ∀ b, b ≠ a → t.axis b = s.axis b

/-- Axis `a` has taken fault `bit` with torque off (R230). -/
def TorqueOff (a bit : Nat) (s t : State) : Prop :=
  t.axState a = axFAULT ∧ t.fld ⟨SLE_FAULT a, bit, 1⟩ = 1 ∧
  t.fld (SLE_FAULT_FIRST a) = (if s.fld (SLE_FAULT_FIRST a) = 0x1F then bit else s.fld (SLE_FAULT_FIRST a)) ∧
  t.fld (SLE_STATUS_OUT_EN a) = 0 ∧ t.fld (SLE_STATUS_STOPPING a) = 0 ∧ (t.axis a).pwmH = [] ∧ (t.axis a).pwmL = [] ∧
  (t.axis a).stop = none ∧ SameAxes a s t ∧ t.facets = s.facets ∧ t.beads = s.beads ∧ t.cams = s.cams ∧
  t.health = s.health

/-- R209–R218, R221–R223, R226, R230: a bad modulator clock or an over-current turns torque off; a
loop boundary latches the filter values, makes the pending setpoint and the computed command active;
a position frame moves POS by its change or, where it fails, by the last good change; quadrature
transitions count; the computation gives Id and Iq, and a bus voltage outside its limits turns torque
off; a gate edge drives its output, one shorter than MINP is counted. -/
def Obligations.ServoLoop : Prop :=
  (∀ (a : Fin 16) (khz : Nat) (s : State), s.axState a.val = axRUNNING → s.safety.ss1From = none →
    s.fld (SLE_SD_CFG_CLK_SRC a.val) = 1 → khz < 4500 ∨ 27500 < khz →
    Completes (.sdClkFault a khz) s fun t => TorqueOff a.val fltSD_CLK s t) ∧
  (∀ (a : Fin 16) (ch : Fin 3) (sum lim : Nat) (s : State), s.axState a.val = axRUNNING → s.safety.ss1From = none →
    lim = bitsN (s.rd (SLE_OC_CFG a.val)).toNat 0 16 * 256 →
    let x := sincQ sum (bitsN (s.rd (SLE_OC_CFG a.val)).toNat 16 6) 2
    (lim < x.natAbs → bitsN (s.rd (SLE_OC_CFG a.val)).toNat 22 2 ≤ kget 0 (s.axis a.val).oc ch.val →
      Completes (.ocTrip a ch sum) s fun t => TorqueOff a.val fltOC s t) ∧
    (x.natAbs ≤ lim → Completes (.ocTrip a ch sum) s fun t =>
      kget 0 (t.axis a.val).oc ch.val = 0 ∧ SameAxes a.val s t ∧ t.csr = s.csr ∧ t.mems = s.mems ∧ t.host = s.host)) ∧
  (∀ (a : Fin 16) (sd : SdSums) (highClks : Nat) (s : State), s.axState a.val = axRUNNING → s.safety.ss1From = none →
    s.ssiMode a.val = true → (s.axis a.val).stop = none →
    tickReached s.tb7Tick (s.loopTick a.val (s.nextLoop a.val)) = true →
    (s.axis a.val).firstLoop = true ∧ (∃ m c, (s.axis a.val).startVia = some (.mbx m) ∧ s.cmdVia (.mbx m) = some c) ∧
        s.hipUp = true ∨ (s.axis a.val).firstLoop = false →
    Completes (.loopBoundary a sd highClks) s fun t =>
      (t.rd (SLE_LOOP_CNT a.val)).toNat = s.nextLoop a.val % 2 ^ 32 ∧
      (t.axis a.val).ia = s.sdValue a.val 0 sd.ia ∧ (t.axis a.val).ib = s.sdValue a.val 1 sd.ib ∧
      (t.axis a.val).ic = s.sdValue a.val 2 sd.ic ∧ (t.axis a.val).vdc = s.sdValue a.val 3 sd.vdc ∧
      (t.rd (SLE_SD_AGE a.val)).toNat = (if s.flag (SLE_SD_CFG_ALIGN a.val) then 0 else sd.ageNs % 2 ^ 32) ∧ (t.axis a.val).posB = (s.axis a.val).pos ∧
      (t.axis a.val).loops = s.nextLoop a.val ∧ (t.axis a.val).ssiFail = decide (highClks = 0 ∨ highClks < s.recovery a.val) ∧
      (t.axis a.val).firstLoop = false ∧ (t.axis a.val).computed = false ∧ (t.axis a.val).posReady = false ∧
      (∀ p, (s.axis a.val).pending = some p → (t.axis a.val).active = some p ∧ (t.axis a.val).pending = none ∧
        (t.axis a.val).spAge = 0 ∧ (t.rd (SLE_SP_SEQ a.val)).toNat = p.seq.toNat) ∧
      ((s.axis a.val).pending = none → (t.axis a.val).active = (s.axis a.val).active) ∧
      (∀ c, (s.axis a.val).shadow = some c → (t.axis a.val).cmp = some c ∧ t.fld (SLE_STATUS_OUT_EN a.val) = 1) ∧
      (∀ m, (s.axis a.val).firstLoop = true → (s.axis a.val).startVia = some (.mbx m) → Ended (.mbx m) ST_OK s t) ∧
      t.axState a.val = axRUNNING ∧ SameAxes a.val s t ∧ t.mems = s.mems) ∧
  (∀ (a : Fin 16) (raw : BitVec 40) (err : BitVec 4) (par : Bool) (v : Nat) (change : Int) (s : State),
    s.axState a.val = axRUNNING → s.safety.ss1From = none → s.ssiMode a.val = true →
    (s.axis a.val).firstLoop = false → (s.axis a.val).posReady = false → (s.axis a.val).haveRaw = true →
    tickReached s.tb7Tick (s.loopTick a.val (s.axis a.val).loops + s.ssiTicks a.val) = true →
    s.flag (SLE_ENC_CFG_GRAY a.val) = false → v = raw.toNat % 2 ^ s.fld (SLE_ENC_CFG_NBITS a.val) →
    change = signedN (s.fld (SLE_ENC_CFG_NBITS a.val)) (v + 2 ^ s.fld (SLE_ENC_CFG_NBITS a.val) -
      (s.axis a.val).pos.toNat % 2 ^ s.fld (SLE_ENC_CFG_NBITS a.val)) →
    ((s.axis a.val).ssiFail = false → s.fld (SLE_ENC_CFG_PAR a.val) = 0 →
      err.toNat % 2 ^ s.fld (SLE_ENC_CFG_EBITS a.val) = 0 → change.natAbs ≤ (s.rd (SLE_ENC_MAXD a.val)).toNat →
      Completes (.ssiReadComplete a raw err par) s fun t =>
        (t.axis a.val).pos = (s.axis a.val).pos + BitVec.ofInt 48 change ∧ (t.axis a.val).missed = 0 ∧
        (t.axis a.val).posReady = true ∧ (t.axis a.val).lastChange = change ∧
        t.fld (SLE_STATUS_ENC_EXTRAP a.val) = 0 ∧ SameAxes a.val s t ∧
        (∀ o, o ≠ SLE_STATUS a.val → t.rd o = s.rd o) ∧ t.mems = s.mems) ∧
    ((s.axis a.val).ssiFail = true → (s.axis a.val).missed < s.fld (SLE_ENC_CFG_ENC_MISS a.val) →
      Completes (.ssiReadComplete a raw err par) s fun t =>
        (t.axis a.val).pos = (s.axis a.val).prevPos + BitVec.ofInt 48 (s.axis a.val).lastChange ∧
        (t.axis a.val).missed = (s.axis a.val).missed + 1 ∧ (t.axis a.val).posReady = true ∧
        (t.rd (SLE_ENC_ERR a.val)).toNat = min 0xFFFFFFFF ((s.rd (SLE_ENC_ERR a.val)).toNat + 1) ∧
        t.fld (SLE_STATUS_ENC_EXTRAP a.val) = 1 ∧ t.axState a.val = axRUNNING ∧ SameAxes a.val s t ∧ t.mems = s.mems) ∧
    ((s.axis a.val).ssiFail = true → s.fld (SLE_ENC_CFG_ENC_MISS a.val) ≤ (s.axis a.val).missed →
      Completes (.ssiReadComplete a raw err par) s fun t => TorqueOff a.val fltENC s t)) ∧
  (∀ (a : Fin 16) (la lb : Bool) (d : Nat) (s : State), s.axState a.val = axRUNNING → s.ssiMode a.val = false →
    d = (quadPos la lb + 4 - quadPos (s.axis a.val).abzA (s.axis a.val).abzB) % 4 →
    Completes (.abzTransition a la lb) s fun t =>
      (t.axis a.val).pos = (if d = 1 then (s.axis a.val).pos + 1 else if d = 3 then (s.axis a.val).pos - 1
        else (s.axis a.val).pos) ∧
      (t.axis a.val).abzBad = ((s.axis a.val).abzBad || d == 2) ∧ (t.axis a.val).abzA = la ∧ (t.axis a.val).abzB = lb ∧
      SameAxes a.val s t ∧ t.csr = s.csr ∧ t.mems = s.mems) ∧
  (∀ (a : Fin 16) (s : State), s.ssiMode a.val = false → Completes (.abzZEdge a) s fun t =>
    (t.rd (SLE_ZCAP_LO a.val)).toNat + (t.rd (SLE_ZCAP_HI a.val)).toNat * 2 ^ 32 = (s.axis a.val).pos.toNat ∧
    (∀ o, o ≠ SLE_ZCAP_LO a.val → o ≠ SLE_ZCAP_HI a.val → t.rd o = s.rd o) ∧ t.mems = s.mems ∧ t.core = s.core) ∧
  (∀ (a : Fin 16) (x : AxisSt) (s : State), x = s.axis a.val → s.axState a.val = axRUNNING → s.safety.ss1From = none →
    x.firstLoop = false → x.posReady = true → x.computed = false → x.stop = none →
    bitsN (s.rd (SLE_PWM_CFG a.val)).toNat 8 1 = 0 →
    let lo := signedN 16 (bitsN (s.rd (SLE_VDC_LIM a.val)).toNat 0 16) * 256
    let hi := signedN 16 (bitsN (s.rd (SLE_VDC_LIM a.val)).toNat 16 16) * 256
    let ic := satS 24 (-x.ia - x.ib)
    let al := satS 24 (rhu (2 * x.ia - x.ib - ic) 3)
    let be := satS 24 (rhuDivSqrt3 (x.ib - ic) 1)
    let th := s.elecAngle a.val
    (lo ≤ x.vdc → x.vdc ≤ hi → Completes (.currentLoopCompute a) s fun t =>
      (t.axis a.val).computed = true ∧ (t.axis a.val).shadow.isSome = true ∧
      (t.rd (SLE_IDQ a.val)).toNat =
        wrapN 16 (satS 16 (rhu (satS 24 (rhu (al * cosQ th + be * sinQ th) (2 ^ 22))) 256)) +
        wrapN 16 (satS 16 (rhu (satS 24 (rhu (-al * sinQ th + be * cosQ th) (2 ^ 22))) 256)) * 65536 ∧
      t.axState a.val = axRUNNING ∧ SameAxes a.val s t ∧
      (∀ o, o ≠ SLE_IDQ a.val → o ≠ SLE_FE a.val → t.rd o = s.rd o) ∧ t.mems = s.mems ∧ t.host = s.host) ∧
    (x.vdc < lo ∨ hi < x.vdc → Completes (.currentLoopCompute a) s fun t => TorqueOff a.val fltVDC s t)) ∧
  (∀ (a : Fin 16) (j : Fin 3) (dev : Device) (on : Bool) (k : Nat) (e : Nat × Int) (s : State),
    (s.axis a.val).cmp.isSome = true → s.axState a.val = axRUNNING → s.gateEdge a.val j.val k dev on = some e →
    tickReached s.tb7Tick e.1 = true → s.gate a.val j.val dev = !on →
    (on = true → s.gate a.val j.val (otherDev dev) = false) →
    (on = false ∨ (0 < e.2 ∧ (bitsN (s.rd (SLE_MINP a.val)).toNat 0 16 : Int) ≤ e.2) →
      Completes (.commandedGateEdge a j dev on k) s fun t =>
        t.gate a.val j.val dev = on ∧ t.gate a.val j.val (otherDev dev) = s.gate a.val j.val (otherDev dev) ∧
        SameAxes a.val s t ∧ t.axState a.val = axRUNNING ∧
        (s.capturing = false → t.csr = s.csr ∧ t.mems = s.mems ∧ t.health = s.health) ∧
        (s.capturing = true → ∃ w, (t.edgeIn (2 * (3 * a.val + j.val) + devNo dev)).win = some w ∧
          w.tCmd = e.1 ∧ w.on = on ∧ w.iph = s.phaseCur (3 * a.val + j.val) ∧
          w.closeAt = e.1 + bitsN (s.rd (HLT_WIN (3 * a.val + j.val))).toNat 0 20)) ∧
    (on = true → e.2 < (bitsN (s.rd (SLE_MINP a.val)).toNat 0 16 : Int) →
      Completes (.commandedGateEdge a j dev on k) s fun t =>
        (t.rd (SLE_MINP_CNT a.val)).toNat = min 0xFFFFFFFF ((s.rd (SLE_MINP_CNT a.val)).toNat + 1) ∧
        t.axes = s.axes ∧ t.health = s.health ∧ (∀ o, o ≠ SLE_MINP_CNT a.val → t.rd o = s.rd o) ∧ t.mems = s.mems))

/-- Axis `a` has begun a controlled stop that ends in FAULT or in STOPPED (R229, R230). -/
def StopBegun (a : Nat) (toFault : Bool) (s t : State) : Prop :=
  t.axState a = axRUNNING ∧ t.fld (SLE_STATUS_STOPPING a) = 1 ∧
  (∃ x, (t.axis a).stop = some x ∧ x.toFault = toFault ∧ x.periods = 0 ∧ x.vt = (s.axis a).vel * 65536) ∧
  SameAxes a s t ∧ t.facets = s.facets ∧ t.beads = s.beads ∧ t.mems = s.mems

/-- R225–R231: a commit makes the staging set the pending setpoint, from its owner and of a RUNNING
axis only; a late setpoint freezes the reference; a following error warns, stops or turns torque off;
SS1 and STO act for the sources named; a stop that takes too long turns torque off; an asserted path
brings every gate output low and every RUNNING axis into FAULT, a release starts no axis. What refuses the
commit of a node while Indigo is down is the model's choice (log entry 126). -/
def Obligations.AxisStops : Prop :=
  (∀ (src : Nat) (a : Fin 16) (v : Word) (s : State),
    (s.spWriter src a.val = true → s.axState a.val = axRUNNING → src < 4096 → s.handoverHeld ≠ ST_OK →
      Completes (.setpointCommit src a v) s fun t =>
        t.axes = s.axes ∧ t.reply.st = s.handoverHeld ∧ t.mems = s.mems) ∧
    (s.spWriter src a.val = true → s.axState a.val = axRUNNING → (src < 4096 → s.handoverHeld = ST_OK) →
      Completes (.setpointCommit src a v) s fun t =>
      (t.axis a.val) = { s.axis a.val with pending := some (s.staged a.val (v.setWidth 16)) } ∧
      ((s.axis a.val).pending.isSome = true →
        (t.rd (SLE_SP_OVR a.val)).toNat = min 0xFFFFFFFF ((s.rd (SLE_SP_OVR a.val)).toNat + 1)) ∧
      ((s.axis a.val).pending = none → t.csr = s.csr) ∧ t.reply.st = ST_OK ∧ SameAxes a.val s t ∧
      (∀ o, o ≠ SLE_SP_OVR a.val → t.rd o = s.rd o) ∧ t.mems = s.mems) ∧
    (s.spWriter src a.val = true → s.axState a.val ≠ axRUNNING → Completes (.setpointCommit src a v) s fun t =>
      t.axes = s.axes ∧ t.reply.st = ST_BAD_STATE ∧ t.mems = s.mems) ∧
    (s.spWriter src a.val = false → Completes (.setpointCommit src a v) s fun t =>
      t.axes = s.axes ∧ t.reply.st = ST_NOT_PERMITTED ∧ t.mems = s.mems)) ∧
  (∀ (a : Fin 16) (s : State), s.axState a.val = axRUNNING → bitsN (s.rd (SLE_SP_TMO a.val)).toNat 0 16 ≠ 0 →
    bitsN (s.rd (SLE_SP_TMO a.val)).toNat 0 16 ≤ (s.axis a.val).spAge → s.fld (SLE_STATUS_SP_LATE a.val) = 0 →
    Completes (.setpointTimeout a) s fun t =>
      t.axis a.val = { s.axis a.val with frozen := true, holdPos := (s.axis a.val).reference } ∧
      t.fld (SLE_STATUS_SP_LATE a.val) = 1 ∧ t.axState a.val = axRUNNING ∧ SameAxes a.val s t ∧
      OnlyRegs (fun o => o = SLE_STATUS a.val) s t ∧ t.mems = s.mems) ∧
  (∀ (a : Fin 16) (cfg : Nat) (s : State), s.axState a.val = axRUNNING → (s.axis a.val).stop = none →
    cfg = (s.rd (SLE_FE_CFG a.val)).toNat → bitsN cfg 0 16 ≤ (s.axis a.val).feCnt → (s.axis a.val).feCnt ≠ 0 →
    s.safety.ss1From = none →
    (bitsN cfg 16 2 = 0 → s.fld (SLE_FAULT_FE_WARN a.val) = 0 → Completes (.followingErrorLimit a) s fun t =>
      t.fld (SLE_FAULT_FE_WARN a.val) = 1 ∧ t.axes = s.axes ∧ t.axState a.val = axRUNNING ∧
      OnlyRegs (fun o => o = SLE_FAULT a.val) s t ∧ t.mems = s.mems) ∧
    (bitsN cfg 16 2 = 1 → Completes (.followingErrorLimit a) s fun t =>
      StopBegun a.val true s t ∧ t.fld ⟨SLE_FAULT a.val, fltFE, 1⟩ = 1) ∧
    (2 ≤ bitsN cfg 16 2 → Completes (.followingErrorLimit a) s fun t => TorqueOff a.val fltFE s t)) ∧
  (∀ (src : Nat) (a : Fin 16) (s : State),
    (src = mSFP ∨ src = mHIP → s.axState a.val = axRUNNING → (s.axis a.val).stop = none → Completes (.ss1 src a) s fun t =>
      StopBegun a.val false s t ∧ t.rd (SLE_FAULT a.val) = s.rd (SLE_FAULT a.val) ∧ t.reply.st = ST_OK) ∧
    (src = mSLE → s.axState a.val = axRUNNING → (s.axis a.val).stop = none → Completes (.ss1 src a) s fun t =>
      StopBegun a.val true s t ∧ t.fld ⟨SLE_FAULT a.val, fltHEALTH, 1⟩ = 1) ∧
    (src ≠ mSFP → src ≠ mHIP → src ≠ mSLE → Completes (.ss1 src a) s fun t =>
      t.reply.st = ST_NOT_PERMITTED ∧ t.axes = s.axes ∧ t.mems = s.mems) ∧
    (src = mSFP → s.axState a.val = axRUNNING → s.safety.ss1From = none → Completes (.sto src a) s fun t =>
      TorqueOff a.val fltSTO_FN s t ∧ t.reply.st = ST_OK) ∧
    (src ≠ mSFP → Completes (.sto src a) s fun t =>
      t.reply.st = ST_NOT_PERMITTED ∧ t.axes = s.axes ∧ t.mems = s.mems)) ∧
  (∀ (a : Fin 16) (x : StopSt) (s : State), s.axState a.val = axRUNNING → (s.axis a.val).stop = some x →
    s.safety.ss1From = none → bitsN (s.rd (SLE_STOP_TMAX a.val)).toNat 0 24 ≤ x.periods →
    Completes (.stopTimeExpired a) s fun t => TorqueOff a.val fltSTOP_TIME s t) ∧
  (∀ (p : StoPath) (s : State), Completes (.stoPathAssert p) s fun t =>
    (match p with | .a => t.flag SAF_STATUS_STO_A = true | .b => t.flag SAF_STATUS_STO_B = true) ∧
    (∀ a < 16, t.flag (SLE_STATUS_GATED a) = true ∧ (t.axis a).pwmH = [] ∧ (t.axis a).pwmL = [] ∧
      (s.axState a = axRUNNING → t.axState a = axFAULT ∧ t.fld ⟨SLE_FAULT a, fltSTO_EXT, 1⟩ = 1) ∧
      (s.axState a ≠ axRUNNING → t.axState a = s.axState a)) ∧
    t.fld SAF_STATUS_STATE = s.fld SAF_STATUS_STATE ∧ t.facets = s.facets ∧ t.beads = s.beads) ∧
  (∀ (p : StoPath) (s : State), s.fld SAF_STATUS_STATE = safNORMAL → s.safety.estopA = true → s.safety.estopB = true →
    s.safety.ss1From = none → s.procState 1 = procRUN →
    (match p with | .a => s.safety.safeHoldB = false ∧ s.safety.estopHoldB = false
                  | .b => s.safety.safeHoldA = false ∧ s.safety.estopHoldA = false) →
    Completes (.stoPathRelease p) s fun t =>
      t.flag SAF_STATUS_STO_A = false ∧ t.flag SAF_STATUS_STO_B = false ∧
      (∀ a < 16, t.flag (SLE_STATUS_GATED a) = false ∧ t.axState a = s.axState a) ∧ t.axes = s.axes ∧ t.mems = s.mems ∧
      t.fld SAF_STATUS_STATE = safNORMAL)

/-! ### Functional safety -/

/-- The safe state has been entered on `cause` (R268, R269). -/
def EntersSafe (cause : Nat) (s t : State) : Prop :=
  t.fld SAF_STATUS_STATE = safSAFE ∧ t.fld SAF_FIRST_CAUSE_CAUSE = cause ∧ t.rd SAF_CAUSE_CYCLE = s.model.cycle ∧
  t.safety.safeN = false ∧ t.safety.outInvalid = true ∧
  (byLogic cause = true ∨ s.safety.params.ssReaction = 0 → SafeOutputs t ∧ ∀ a < 16, t.flag (SLE_STATUS_GATED a) = true) ∧
  t.facets = s.facets ∧ t.beads = s.beads

/-- The safe state has been left, with the paths asserted that an e-stop holds (R271). -/
def LeavesSafe (holdA holdB : Bool) (s t : State) : Prop :=
  t.fld SAF_STATUS_STATE = safNORMAL ∧ t.fld SAF_FIRST_CAUSE_CAUSE = 0 ∧ t.safety.safeN = true ∧
  t.flag SAF_STATUS_STO_A = holdA ∧ t.flag SAF_STATUS_STO_B = holdB ∧
  t.safety.outInvalid = false ∧ t.safety.validFrom = some (s.model.cycle + 1) ∧
  (∀ n ∈ t.safety.nets, n.2.consec = 0 ∧ n.2.bad = []) ∧ t.facets = s.facets ∧ t.beads = s.beads

/-- R231, R268, R269, R275, R312, R316: the watchdog of the SFP takes its key from the SFP alone; a key that
does not alternate, a late one, a lockstep error, a discrepancy of the e-stop channels or a readback that has
differed from its path for 1 ms enters the safe state; the SS1 timer asserts path B. -/
def Obligations.SafeStateCauses : Prop :=
  (∀ (t0 : Nat) (s : State), s.safety.ss1From = some t0 → s.safety.params.ss1TmaxUs * 1000 ≤ sinceNs s.now t0 →
    s.safety.ss1Safe = true ∨ s.safety.ss1Estop = true → Completes .ss1TimerExpired s fun t =>
      t.flag SAF_STATUS_STO_B = true ∧ t.fld SAF_STATUS_SS1_TIMER = 0 ∧ t.safety.ss1From = none ∧
      (∀ a < 16, (t.axis a).pwmH = [] ∧ (t.axis a).pwmL = [] ∧ t.axState a ≠ axRUNNING) ∧
      t.fld SAF_STATUS_STATE = s.fld SAF_STATUS_STATE) ∧
  (∀ (v : Word) (s : State), v = 0x5A5A5A5A ∨ v = 0xA5A5A5A5 → (s.proc 1).key ≠ some v →
    Completes (.safWdog mSFP v) s fun t =>
      t.proc 1 = { s.proc 1 with key := some v, kickAt := s.now } ∧ t.csr = s.csr ∧ t.mems = s.mems ∧ t.reply.st = ST_OK) ∧
  (∀ (src : Nat) (v : Word) (s : State), src ≠ mSFP → Completes (.safWdog src v) s fun t =>
    t.procs = s.procs ∧ t.reply.st = ST_NOT_PERMITTED ∧ t.mems = s.mems) ∧
  (∀ s : State, s.procState 1 = procRUN → s.fld SAF_STATUS_STATE = safNORMAL ∨ s.fld SAF_STATUS_STATE = safINIT →
    (∀ v, (v ≠ 0x5A5A5A5A ∧ v ≠ 0xA5A5A5A5) ∨ (s.proc 1).key = some v → Completes (.safWdog mSFP v) s fun t =>
      EntersSafe cSFP_WD s t ∧ t.procState 1 = procRESTART ∧ t.fld (GLB_PROC_STAT_CAUSE 1) = 1) ∧
    (100000 ≤ sinceNs s.now (s.proc 1).kickAt → Completes .sfpWd s fun t =>
      EntersSafe cSFP_WD s t ∧ t.procState 1 = procRESTART ∧ t.fld (GLB_PROC_STAT_CAUSE 1) = 1) ∧
    (∀ ecc, Completes (.sfpLockstep ecc) s fun t =>
      EntersSafe cSFP_LOCKSTEP s t ∧ t.procState 1 = procRESTART ∧ t.fld (GLB_PROC_STAT_CAUSE 1) = if ecc then 2 else 4)) ∧
  (∀ s : State, s.procState 1 = procRUN → s.fld SAF_STATUS_STATE = safNORMAL →
    (∀ t0, s.safety.discSince = some t0 → s.safety.params.estopDiscMs * 1000000 ≤ sinceNs s.now t0 →
      Completes .estopDisc s fun t => EntersSafe cESTOP_DISC s t ∧ t.procState 1 = procRUN) ∧
    (∀ t0, s.safety.fbDiffA = some t0 → 1000000 ≤ sinceNs s.now t0 →
      ∀ b, Completes (.stoFb .a (s.flag SAF_STATUS_STO_A) b) s fun t =>
        EntersSafe cSTO_FB s t ∧ t.safety.fbA = s.flag SAF_STATUS_STO_A ∧ t.safety.fbB = b) ∧
    (∀ t0, s.safety.fbDiffB = some t0 → 1000000 ≤ sinceNs s.now t0 →
      ∀ b, Completes (.stoFb .b (s.flag SAF_STATUS_STO_B) b) s fun t =>
        EntersSafe cSTO_FB s t ∧ t.safety.fbB = s.flag SAF_STATUS_STO_B ∧ t.safety.fbA = b)) ∧
  (∀ (b : Bool) (s : State),
    Completes (.stoFb .a (!(s.flag SAF_STATUS_STO_A)) b) s (fun t =>
      t.safety.fbA = !(s.flag SAF_STATUS_STO_A) ∧ t.safety.fbDiffA = none ∧ t.csr = s.csr ∧ t.mems = s.mems ∧ t.axes = s.axes) ∧
    Completes (.stoFb .b (!(s.flag SAF_STATUS_STO_B)) b) s (fun t =>
      t.safety.fbB = !(s.flag SAF_STATUS_STO_B) ∧ t.safety.fbDiffB = none ∧ t.csr = s.csr ∧ t.mems = s.mems ∧ t.axes = s.axes))

/-- R270–R274: Madder sends the safety message each period, as a CAN FD frame or into the switch; an
acknowledgement of the right length, or message, leaves the safe state when its cause has gone, or restarts
Madder after a cause of its own, whose completed restart leaves it. -/
def Obligations.SafeStateExit : Prop :=
  (∀ s : State, s.procState 1 = procRUN → s.safety.params.msgPerMs * 1000000 ≤ sinceNs s.now s.safety.msgLast →
    Completes .safetyMessage s fun t =>
      t.safety.msgOut = s.safety.msgOut ++ [s.safetyMsg] ∧ t.safety.msgSeq = s.safety.msgSeq + 1 ∧ t.safety.msgLast = s.now ∧
      t.axes = s.axes ∧ t.mems = s.mems ∧ t.fld SAF_STATUS_STATE = s.fld SAF_STATUS_STATE ∧
      (∀ n : Fin 8, s.safety.params.msgCh = n.val → (s.can n.val).current ≠ some 2 →
        t.fld (canPend n.val 2) = 1 ∧ (t.rd (CAN_TXB_HDR n.val 2)).toNat = (2 ^ 31 + s.safety.params.msgId) % 2 ^ 32 ∧
        (t.rd (CAN_TXB_DLC n.val 2)).toNat = 10 ∧ t.safety.msgWait = none) ∧
      (∀ n : Fin 8, s.safety.params.msgCh = n.val → (s.can n.val).current = some 2 →
        t.safety.msgWait = some s.safetyMsg ∧ t.csr = s.csr) ∧
      (8 ≤ s.safety.params.msgCh → (s.port 6).up = true →
        t.eth = (s.ethForward 6 (safetyFrame s.safety.params.msgId s.safetyMsg)).eth)) ∧
  (∀ s : State, s.fld SAF_STATUS_STATE = safSAFE → s.causeMet = true →
    (s.fld SAF_FIRST_CAUSE_CAUSE ≠ cSFP_WD → s.fld SAF_FIRST_CAUSE_CAUSE ≠ cSFP_LOCKSTEP → s.procState 1 = procRUN →
      (∀ low, 10000 ≤ low → low ≤ 100000 →
        Completes (.safeAck low) s (LeavesSafe s.safety.estopHoldA s.safety.estopHoldB s)) ∧
      (∀ (d : List Byte) (ds : List (List Byte)), s.safety.ackIn = d :: ds → s.safety.params.ackMsg = true →
        s.ackOk d = true → Completes (.ackMessage s.safety.params.msgCh s.safety.params.ackId d) s fun t =>
          LeavesSafe s.safety.estopHoldA s.safety.estopHoldB s t ∧ t.safety.ackIn = ds ∧
          t.safety.ackSeq = some (BitVec.ofNat 16 (fieldN d 0 2)))) ∧
    (s.fld SAF_FIRST_CAUSE_CAUSE = cSFP_WD ∨ s.fld SAF_FIRST_CAUSE_CAUSE = cSFP_LOCKSTEP →
      ∀ low, 10000 ≤ low → low ≤ 100000 → Completes (.safeAck low) s fun t =>
        t.fld SAF_STATUS_STATE = safRESTART ∧ t.safety = { s.safety with ackHeld := true } ∧
        t.fld SAF_FIRST_CAUSE_CAUSE = s.fld SAF_FIRST_CAUSE_CAUSE ∧ t.axes = s.axes ∧ t.mems = s.mems)) ∧
  (∀ (d : List Byte) (ds : List (List Byte)) (s : State), s.procState 1 = procRUN → s.safety.ackIn = d :: ds →
    s.safety.params.ackMsg = false ∨ s.ackOk d = false → Completes (.ackMessage s.safety.params.msgCh s.safety.params.ackId d) s fun t =>
      t.safety = { s.safety with ackIn := ds } ∧ t.fld SAF_STATUS_STATE = s.fld SAF_STATUS_STATE ∧ t.axes = s.axes ∧
      t.mems = s.mems ∧ OnlyRegs (fun _ => False) s t) ∧
  (∀ (low : Nat) (s : State), low < 10000 ∨ 100000 < low ∨ s.causeMet = false ∨ s.fld SAF_STATUS_STATE ≠ safSAFE →
    Completes (.safeAck low) s fun t => t = s) ∧
  (∀ s : State, s.fld SAF_STATUS_STATE = safRESTART →
    Completes (.madderRestartComplete true) s (fun t =>
      LeavesSafe (!s.safety.estopA) (!s.safety.estopB) s t ∧ t.procState 1 = procRUN) ∧
    Completes (.madderRestartComplete false) s (fun t =>
      t.fld SAF_STATUS_STATE = safSAFE ∧ t.procState 1 = s.procState 1 ∧ t.safety = s.safety ∧ t.mems = s.mems))

/-- R274–R276, R384: start checks that pass lead to NORMAL, with the path of each requesting e-stop channel
asserted, and raise MIN_MSEQ; in NORMAL a channel that goes low asserts its path without the safe state, or
stops every axis first; both inputs high lift the e-stop. -/
def Obligations.StartChecksAndEstop : Prop :=
  (∀ s : State, s.fld SAF_STATUS_STATE = safINIT → s.procState 1 = procRUN →
    Completes (.startChecksComplete true) s (fun t =>
      t.fld SAF_STATUS_STATE = safNORMAL ∧ t.safety.safeN = true ∧ t.flag SAF_STATUS_STO_A = !s.safety.estopA ∧
      t.flag SAF_STATUS_STO_B = !s.safety.estopB ∧ t.safety.msgSeq = s.safety.msgSeq + 1 ∧
      (t.rd SEC_MIN_MSEQ).toNat = max (s.rd SEC_MIN_MSEQ).toNat (s.fld GLB_FW_SET_MSEQ)) ∧
    Completes (.startChecksComplete false) s (fun t => t = s)) ∧
  (∀ s : State, s.fld SAF_STATUS_STATE = safNORMAL → s.safety.params.estopReact = 0 →
    Completes (.estopInputChange .a false) s (fun t =>
      t.safety.estopA = false ∧ t.fld SAF_STATUS_ESTOP_A = 1 ∧ t.flag SAF_STATUS_STO_A = true ∧
      t.safety.safeN = s.safety.safeN ∧ t.fld SAF_STATUS_STATE = safNORMAL ∧
      (∀ a < 16, t.flag (SLE_STATUS_GATED a) = true ∧ t.axState a ≠ axRUNNING)) ∧
    Completes (.estopInputChange .b false) s (fun t =>
      t.safety.estopB = false ∧ t.fld SAF_STATUS_ESTOP_B = 1 ∧ t.flag SAF_STATUS_STO_B = true ∧
      t.safety.safeN = s.safety.safeN ∧ t.fld SAF_STATUS_STATE = safNORMAL ∧
      (∀ a < 16, t.flag (SLE_STATUS_GATED a) = true ∧ t.axState a ≠ axRUNNING))) ∧
  (∀ (p : StoPath) (s : State), s.fld SAF_STATUS_STATE = safNORMAL → s.safety.params.estopReact = 1 →
    (s.allStill = false → Completes (.estopInputChange p false) s fun t =>
      t.safety.ss1From = some (s.safety.ss1From.getD s.now) ∧ t.safety.ss1Estop = true ∧ t.fld SAF_STATUS_SS1_TIMER = 1 ∧
      (∀ a < 16, s.axState a = axRUNNING → (t.axis a).stop.isSome = true ∧ t.axState a = axRUNNING) ∧
      t.fld SAF_STATUS_STATE = safNORMAL) ∧
    (s.allStill = true → Completes (.estopInputChange p false) s fun t =>
      t.flag SAF_STATUS_STO_B = true ∧ t.safety.estopHoldB = true ∧ t.safety.ss1From = none ∧
      t.fld SAF_STATUS_STATE = safNORMAL)) ∧
  (∀ s : State, s.fld SAF_STATUS_STATE = safNORMAL → s.procState 1 = procRUN → s.safety.safeHoldA = false →
    s.safety.safeHoldB = false →
    (s.safety.estopB = true → Completes (.estopInputChange .a true) s fun t =>
      t.safety.estopA = true ∧ t.fld SAF_STATUS_ESTOP_A = 0 ∧ t.flag SAF_STATUS_STO_A = false ∧
      t.flag SAF_STATUS_STO_B = false ∧ t.axes = s.axes) ∧
    (s.safety.estopA = true → Completes (.estopInputChange .b true) s fun t =>
      t.safety.estopB = true ∧ t.fld SAF_STATUS_ESTOP_B = 0 ∧ t.flag SAF_STATUS_STO_A = false ∧
      t.flag SAF_STATUS_STO_B = false ∧ t.axes = s.axes))

/-- HMK_LAST shows a verdict (R258). -/
def LastVerdict (net v : Nat) (cyc : Word) (t : State) : Prop :=
  t.fld HMK_LAST_NET = net ∧ t.fld HMK_LAST_VERDICT = v ∧ t.fld HMK_LAST_CYCLE = cyc.toNat % 65536

/-- R257, R258, R260–R262, R264: equal signatures give EQUAL and others, or a failed read, MISMATCH;
triage that does not fit is NOT_RUN and puts the engines of A and B at the head of the self-test order,
one that fits runs execution C, whose signature names the faulty execution; the engine found faulty is
replaced by a spare, or the safe state follows; at the age limit a result that has not come is counted. -/
def Obligations.HallmarkAndTriage : Prop :=
  (∀ (net : Fin 64) (j : HmkJob) (n : Net) (a b : Option (BitVec 64)) (s s1 s2 : State),
    s.safety.jobs.find? (fun j => j.net = net.val && j.verdict.isNone) = some j → s.netOf net.val = some n →
    s.signature n 1 j.cyc = (a, s1) → s1.signature n 2 j.cyc = (b, s2) →
    (a.isSome = true → a = b → s.pairChecked = false → Completes (.hallmarkVerdict net) s fun t =>
      LastVerdict net.val 0 j.cyc t ∧
      (∃ x ∈ t.safety.jobs, x.net = net.val ∧ x.cyc = j.cyc ∧ x.verdict = some 0 ∧ x.sigA = a ∧ x.triage = .none) ∧
      t.axes = s.axes ∧ t.facets = s.facets ∧ t.beads = s.beads) ∧
    (a = none ∨ a ≠ b → Completes (.hallmarkVerdict net) s fun t =>
      LastVerdict net.val 1 j.cyc t ∧
      (∃ x ∈ t.safety.jobs, x.net = net.val ∧ x.cyc = j.cyc ∧ x.verdict = some 1 ∧ x.triage = .waiting) ∧
      (t.rd HMK_MISMATCH_CNT).toNat = min 0xFFFFFFFF ((s.rd HMK_MISMATCH_CNT).toNat + 1) ∧
      t.facets = s.facets ∧ t.beads = s.beads)) ∧
  (∀ (net : Fin 64) (j : HmkJob) (n : Net) (p : Package) (s : State), s.triageJob net.val = some j →
    s.netOf net.val = some n → s.model.pkg = some p → n.net = net.val → s.scpUp = true →
    s.triageTurn net.val j.cyc = true → j.triage = .waiting →
    (s.model.cycle ≠ j.at_ ∨ s.triageFits p n = false → Completes (.triageDispatch net) s fun t =>
      LastVerdict net.val 5 j.cyc t ∧
      (s.execUnits n 1 ++ s.execUnits n 2).eraseDups <+: t.safety.testOrder ∧ SameUnits s t ∧
      (∀ o, o ≠ HMK_LAST → t.rd o = s.rd o) ∧ t.mems = s.mems) ∧
    (s.model.cycle = j.at_ → s.triageFits p n = true →
      (((p.execC n).flatMap fun t => p.keys t t.cand).any fun k => s.ttOn k || s.inTest k) = false →
      Completes (.triageDispatch net) s fun t =>
        ∃ x ∈ t.safety.jobs, x.net = j.net ∧ x.cyc = j.cyc ∧ x.triage = .running ∧ x.sigA = j.sigA)) ∧
  (∀ (net : Fin 64) (j : HmkJob) (n : Net) (p : Package) (i : Inst) (c : Option (BitVec 64)) (s s1 : State),
    s.triageJob net.val = some j → s.netOf net.val = some n → s.model.pkg = some p → n.net = net.val →
    s.inst? (64 + net.val) j.cyc = some i → j.triage = .running → i.complete p = true →
    (i.done.any fun d => d.2 = ST_PROC_RESTART) = false → s.signature n 3 j.cyc = (c, s1) →
    (c.isSome = true → c = j.sigB → c ≠ j.sigA → Completes (.triageCompare net) s fun t =>
      LastVerdict net.val 2 j.cyc t ∧ ∃ x ∈ t.safety.jobs, x.net = net.val ∧ x.triage = .localise ∧ x.faulty = 1) ∧
    (c.isSome = true → c = j.sigA → c ≠ j.sigB → Completes (.triageCompare net) s fun t =>
      LastVerdict net.val 3 j.cyc t ∧ ∃ x ∈ t.safety.jobs, x.net = net.val ∧ x.triage = .localise ∧ x.faulty = 2) ∧
    (c = none ∨ (c ≠ j.sigA ∧ c ≠ j.sigB) → Completes (.triageCompare net) s fun t =>
      LastVerdict net.val 4 j.cyc t ∧ SameUnits s t)) ∧
  (∀ (net : Fin 64) (j : HmkJob) (n : Net) (p : Package) (k : Nat) (f : Fin 32) (l : List Nat) (s s1 s2 : State),
    s.triageJob net.val = some j → s.netOf net.val = some n → j.triage = .localise → s.scpUp = true →
    s.badCheckpoint n j.faulty = (k, s1) → s1.badUnits n j.faulty k = (l, s2) → l.eraseDups = [f.val] →
    s2.model.pkg = some p → s2.shareOn f.val = none →
    let sp := (s2.setTest (s2.physFacet f.val)
      { s2.test (s2.physFacet f.val) with unusable := true, running := false, parts := 0 }).pickSpare f.val
    (∀ u, sp = some u → Completes (.faultLocalisation net) s fun t =>
      t.physFacet f.val = u ∧ t.fld (ARB_FAC_MAP_REMAPPED f.val) = 1 ∧
      t.rd ARB_REMAP_GEN = s2.rd ARB_REMAP_GEN + 1 ∧
      (t.rd HMK_QUAR_CNT).toNat = min 0xFFFFFFFF ((s2.rd HMK_QUAR_CNT).toNat + 1) ∧
      (∀ g, g ≠ f.val → g < 32 → t.physFacet g = s2.physFacet g)) ∧
    (sp = none → s2.fld SAF_STATUS_STATE = safNORMAL → s2.procState 1 = procRUN → Completes (.faultLocalisation net) s fun t =>
      EntersSafe cSPARES s2 t ∧ t.physFacet f.val = s2.physFacet f.val)) ∧
  (∀ (e : Fin 256) (i : AgmInst) (s : State), s.agmNext e.val = some i →
    (i.stale = true → Completes (.agmLimitExpired e) s fun t =>
      (t.rd AGM_STALE_CNT).toNat = min 0xFFFFFFFF ((s.rd AGM_STALE_CNT).toNat + 1) ∧
      t.safety.agmInsts = s.safety.agmInsts.erase i ∧ t.facets = s.facets ∧ t.beads = s.beads) ∧
    (i.stale = false → Completes (.agmLimitExpired e) s fun t =>
      t.rd AGM_STALE_CNT = s.rd AGM_STALE_CNT ∧ t.safety.agmInsts = s.safety.agmInsts.erase i ∧
      t.facets = s.facets ∧ t.beads = s.beads) ∧
    (i.stale = false → i.live = false → Completes (.agmLimitExpired e) s fun t =>
      t = { s with safety := { s.safety with agmInsts := s.safety.agmInsts.erase i } }))

/-- R85, R266–R268: a self-test part takes an idle engine that time-triggered work leaves open and gives
it back its state; the last part that passes starts a new interval, a failed part of a spare makes it
unusable; an engine without a passed slice for DTI heads the order, and after 2 × DTI, or on a wrong
Hallmark verdict, the safe state follows. -/
def Obligations.SelfTest : Prop :=
  (∀ (u : PhysUnit) (s : State), (s.test (unitNo u)).running = false → (s.test (unitNo u)).unusable = false →
    (∀ f, f < 32 → s.logicalOf (unitNo u) = some f → s.testOpen f = true → s.facState f = facIDLE → (s.facet f).cur = none →
      Completes (.selftestPartStart u) s fun t =>
        t.facState f = facSELFTEST ∧ (t.facet f).beforeTest = facIDLE ∧ (t.test (unitNo u)).running = true ∧
        (∀ g, g ≠ f → t.facet g = s.facet g) ∧ (∀ o, o ≠ FAC_STATUS f → t.rd o = s.rd o) ∧ t.mems = s.mems) ∧
    (∀ b, b < 4096 → s.logicalOf (unitNo u) = some (100 + b) → s.testOpen (100 + b) = true →
      s.beadState b = bdIDLE ∨ s.beadState b = bdPARKED → Completes (.selftestPartStart u) s fun t =>
        t.beadState b = bdSELFTEST ∧ (t.bead b).beforeTest = s.beadState b ∧ (t.test (unitNo u)).running = true ∧
        (∀ g, g ≠ b → t.bead g = s.bead g) ∧ (∀ o, o ≠ BEAD_STATUS b → t.rd o = s.rd o) ∧ t.mems = s.mems) ∧
    (s.logicalOf (unitNo u) = none → Completes (.selftestPartStart u) s fun t =>
      (t.test (unitNo u)).running = true ∧ t.csr = s.csr ∧ t.mems = s.mems ∧ SameUnits s t)) ∧
  (∀ (u : PhysUnit) (s : State), (s.test (unitNo u)).running = true →
    (∀ f, f < 32 → s.logicalOf (unitNo u) = some f → s.facState f = facSELFTEST → (s.facet f).beforeTest = facIDLE →
      (s.test (unitNo u)).parts < 15 → unitNo u < 64 → Completes (.selftestPartComplete u true) s fun t =>
        t.facState f = facIDLE ∧ (t.test (unitNo u)).parts = (s.test (unitNo u)).parts + 1 ∧
        (t.test (unitNo u)).running = false ∧ (∀ o, o ≠ FAC_STATUS f → t.rd o = s.rd o) ∧ t.mems = s.mems) ∧
    (s.logicalOf (unitNo u) = none → (if unitNo u < 64 then 16 else 8) ≤ (s.test (unitNo u)).parts + 1 →
      Completes (.selftestPartComplete u true) s fun t =>
        (t.test (unitNo u)).lastPass = s.now ∧ (t.test (unitNo u)).parts = 0 ∧ (t.test (unitNo u)).overdue = false ∧
        (∀ x ∈ t.safety.testOrder, x ≠ unitNo u) ∧ (∀ o, o ≠ SAF_ST_OVERDUE → t.rd o = s.rd o) ∧ t.mems = s.mems) ∧
    (s.logicalOf (unitNo u) = none → Completes (.selftestPartComplete u false) s fun t =>
      (t.test (unitNo u)).unusable = true ∧ (t.test (unitNo u)).running = false ∧
      (∀ o, o ≠ SAF_ST_OVERDUE → t.rd o = s.rd o) ∧ t.mems = s.mems ∧ SameUnits s t)) ∧
  (∀ (u : PhysUnit) (s : State), s.fld SAF_STATUS_STATE = safNORMAL → (s.test (unitNo u)).unusable = false →
    ((s.test (unitNo u)).overdue = false → s.dtiNs ≤ sinceNs s.now (s.test (unitNo u)).lastPass →
      Completes (.selftestDeferred u) s fun t =>
        (t.test (unitNo u)).overdue = true ∧ t.safety.testOrder.head? = some (unitNo u) ∧
        t.fld SAF_STATUS_STATE = safNORMAL ∧ OnlyRegs (fun o => o = SAF_ST_OVERDUE) s t ∧ t.mems = s.mems ∧ SameUnits s t) ∧
    (s.procState 1 = procRUN → 2 * s.dtiNs ≤ sinceNs s.now (s.test (unitNo u)).lastPass →
      Completes (.selftestLate u) s (EntersSafe cSELFTEST_LATE s))) ∧
  (∀ (unequal equal : Bool) (s : State),
    (unequal = true ∧ equal = true → Completes (.hmkTest unequal equal) s fun t => t = s) ∧
    (unequal = false ∨ equal = false → s.fld SAF_STATUS_STATE = safNORMAL → s.procState 1 = procRUN →
      Completes (.hmkTest unequal equal) s (EntersSafe cHMK_TEST s)))

/-! ### Power-stage health -/

/-- A record ring of leg `l` in the memory of its node: ring offset `base` with `n` records of 16 B,
record number `seq` next, the consumer at `rd` of `wr`, room in it (R242, R243). -/
def RingRoom (l base n : Nat) (wr rd : Word) (s : State) : Prop :=
  (s.leg l).node < 4096 ∧ base % 64 = 0 ∧ base + 64 + 16 * n ≤ 65536 ∧ 0 < n ∧ recFull wr.toNat rd.toNat n = false ∧ FabricQuiet s

/-- The record `body` and the new WR lie in the ring, and nothing else in memory has changed. -/
def RecordPut (l base n : Nat) (seq wr : Word) (body : List Byte) (s t : State) : Prop :=
  let ring := s.physBead (s.leg l).node * 0x10000 + base
  let at_ := ring + 64 + 16 * (seq.toNat % n)
  t.mems.blm.bytes at_ 16 = body ∧ t.mems.blm.bytes ring 4 = leBytes 4 (wr + 1).toNat ∧
  ∀ (sp : Space) (a : Nat), ¬ (sp = .blm ∧ (at_ ≤ a ∧ a < at_ + 16 ∨ ring ≤ a ∧ a < ring + 4)) →
    (t.mem sp).byte a = (s.mem sp).byte a

/-- Edge record `r` of leg `l` has been written (R236, R242). -/
def EdgePut (l : Nat) (r : EdgeRec) (s t : State) : Prop :=
  RecordPut l (s.leg l).base (s.eSize l) (s.leg l).eseq (s.leg l).ewr
    (leBytes 4 (s.leg l).eseq.toNat ++ leBytes 4 (r.t / 100) ++ leBytes 4 r.delay ++ leBytes 1 (r.t % 100) ++
      leBytes 1 r.kind ++ leBytes 2 (wrapN 16 r.iph)) s t ∧
  (t.leg l).eseq = (s.leg l).eseq + 1 ∧ (t.leg l).ewr = (s.leg l).ewr + 1

/-- The leg's edge ring takes the next record at once. -/
def EdgeReady (l : Nat) (s : State) : Prop :=
  RingRoom l (s.leg l).base (s.eSize l) (s.leg l).ewr (s.rd (HLT_EDGE_RD l)) s ∧ (s.leg l).recs = [] ∧ (s.leg l).egap = false

/-- R234–R239, R241–R244: a matched edge writes its delay record, an edge without a window a SPURIOUS
one, a window that closes a MISSING one; a ring that is full drops the record and counts it; TDCs
exchange roles and take their calibration's result; triggers are counted as sent; a good frame is
recorded and brings the link up, a silent link goes down. -/
def Obligations.HealthRecords : Prop :=
  (∀ (m : Fin 96) (l : Nat) (rising : Bool) (t0 : Nat) (s : State), l = m.val / 2 → s.capturing = true → EdgeReady l s →
    (∀ w, (s.edgeIn m.val).win = some w → s.axState (l / 3) = axRUNNING → w.on = rising → tickReached t0 w.tCmd = true →
      tickReached w.closeAt t0 = true → (∀ k, k / 2 = l → k ≠ m.val → (s.edgeIn k).win = none) →
      Completes (.feedbackEdge m rising t0) s fun t =>
        EdgePut l ⟨w.tCmd, wrapN 32 (tickDiff t0 w.tCmd - s.skew m.val),
          edgeKind (m.val % 2) w.on false false (s.edgeIn m.val).uncal w.trig, w.iph⟩ s t ∧
        (t.edgeIn m.val).win = none ∧ t.csr = s.csr ∧ t.axes = s.axes ∧ t.facets = s.facets ∧ t.beads = s.beads) ∧
    ((∀ k, k / 2 = l → (s.edgeIn k).win = none) → Completes (.feedbackEdge m rising t0) s fun t =>
      EdgePut l ⟨t0, 0, edgeKind (m.val % 2) rising false true (s.edgeIn m.val).uncal false, s.phaseCur l⟩ s t ∧
      (t.rd (ETU_SPUR l)).toNat = min 0xFFFFFFFF ((s.rd (ETU_SPUR l)).toNat + 1) ∧
      (∀ o, o ≠ ETU_SPUR l → t.rd o = s.rd o) ∧ t.axes = s.axes) ∧
    (∀ w, (s.edgeIn m.val).win = some w → tickReached s.tb7Tick w.closeAt = true →
      (∀ k, k / 2 = l → k ≠ m.val → (s.edgeIn k).win = none) → Completes (.edgeWindowClose m) s fun t =>
        EdgePut l ⟨w.tCmd, 0x80000000, edgeKind (m.val % 2) w.on true false (s.edgeIn m.val).uncal w.trig, w.iph⟩ s t ∧
        (t.edgeIn m.val).win = none ∧ t.csr = s.csr ∧ t.axes = s.axes)) ∧
  (∀ (m : Fin 96) (l : Nat) (w : EdgeWin) (s : State), l = m.val / 2 → (s.edgeIn m.val).win = some w →
    tickReached s.tb7Tick w.closeAt = true → (s.leg l).node < 4096 → (s.leg l).recs = [] →
    (∀ k, k / 2 = l → k ≠ m.val → (s.edgeIn k).win = none) →
    recFull (s.leg l).ewr.toNat (s.rd (HLT_EDGE_RD l)).toNat (s.eSize l) = true →
    Completes (.edgeWindowClose m) s fun t =>
      (t.rd (ETU_DROP l)).toNat = min 0xFFFFFFFF ((s.rd (ETU_DROP l)).toNat + 1) ∧ (t.leg l).eseq = (s.leg l).eseq + 1 ∧
      (t.leg l).ewr = (s.leg l).ewr ∧ (t.leg l).egap = true ∧ t.mems = s.mems) ∧
  (∀ (m : Fin 96) (x : EdgeIn) (s : State), x = s.edgeIn m.val → s.capturing = true →
    (x.win = none → x.cal = [] → s.calNs ≤ sinceNs s.now x.lastXchg → x.bad0 = false → x.bad1 = false →
      Completes (.tdcCalExchange m) s fun t =>
        (t.edgeIn m.val) = { x with lastXchg := s.now, inService := !x.inService, cal := [x.inService] } ∧
        t.csr = s.csr ∧ t.mems = s.mems ∧ t.axes = s.axes) ∧
    (∀ ts, x.cal = false :: ts → Completes (.tdcCalComplete m true) s fun t =>
      t.edgeIn m.val = { x with cal := ts, cal0At := s.now, bad0 := false, uncal := false, inService := x.inService && !x.bad1 } ∧ t.fld (uncalBit m.val) = 0 ∧
      (∀ o, o ≠ HLT_LSTAT (m.val / 2) → t.rd o = s.rd o) ∧ t.mems = s.mems) ∧
    (∀ ts, x.cal = false :: ts → x.bad1 = true → s.hltState = hltRUNNING → Completes (.tdcCalComplete m false) s fun t =>
      t.hltState = hltFAULT ∧ (t.edgeIn m.val).uncal = true ∧ (t.edgeIn m.val).bad0 = true ∧ t.axes = s.axes) ∧
    (2 * s.calNs < sinceNs s.now (if x.inService then x.cal1At else x.cal0At) →
      Completes (.tdcCalibrationExpired m) s fun t =>
        t.edgeIn m.val = { x with uncal := true } ∧ t.fld (uncalBit m.val) = 1 ∧
        (∀ o, o ≠ HLT_LSTAT (m.val / 2) → t.rd o = s.rd o) ∧ t.mems = s.mems)) ∧
  (∀ (l : Fin 48) (dev : Device) (at_ : Nat) (s : State), s.capturing = true →
    (s.leg l.val).trigAt = some (decide (dev = .low), at_) → tickReached s.tb7Tick at_ = true →
    Completes (.gtlTrigger l dev) s fun t =>
      t.leg l.val = { s.leg l.val with
        trigAt := none, trigL := if dev = .low then ((s.leg l.val).trigL + 1) % 8 else (s.leg l.val).trigL
        trigH := if dev = .low then (s.leg l.val).trigH else ((s.leg l.val).trigH + 1) % 8 } ∧
      t.csr = s.csr ∧ t.mems = s.mems ∧ t.axes = s.axes) ∧
  (∀ (l : Fin 48) (bits : BitVec 64) (s : State), s.capturing = true →
    (∀ ok, ok = false ∨ bitsN bits.toNat 60 4 ≠ 1 → Completes (.gtlFrame l bits ok) s fun t =>
      (t.rd (GTL_CRC_ERR l.val)).toNat = min 0xFFFFFFFF ((s.rd (GTL_CRC_ERR l.val)).toNat + 1) ∧
      t.health = s.health ∧ (∀ o, o ≠ GTL_CRC_ERR l.val → t.rd o = s.rd o) ∧ t.mems = s.mems) ∧
    (bitsN bits.toNat 60 4 = 1 → (crc8 (leBytes 7 (bits.toNat / 256)).reverse).toNat = bitsN bits.toNat 0 8 →
      RingRoom l.val ((s.leg l.val).base + 64 + 16 * s.eSize l.val) (s.gSize l.val) (s.leg l.val).gwr
        (s.rd (HLT_GTL_RD l.val)) s → (s.leg l.val).ggap = false →
      Completes (.gtlFrame l bits true) s fun t =>
        RecordPut l.val ((s.leg l.val).base + 64 + 16 * s.eSize l.val) (s.gSize l.val) (s.leg l.val).gseq (s.leg l.val).gwr
          (leBytes 4 (s.leg l.val).gseq.toNat ++ leBytes 4 (s.tbNs 7) ++ leBytes 7 (bits.toNat / 256) ++
            leBytes 1 (if bitsN bits.toNat 56 3 ≠ (if bitsN bits.toNat 59 1 = 0 then (s.leg l.val).trigH
              else (s.leg l.val).trigL) then 4 else 0)) s t ∧
        t.fld (HLT_LSTAT_LINK_DOWN l.val) = 0 ∧ (t.leg l.val).lastGood = s.now ∧
        (t.leg l.val).gseq = (s.leg l.val).gseq + 1 ∧ (∀ o, o ≠ HLT_LSTAT l.val → t.rd o = s.rd o) ∧ t.axes = s.axes)) ∧
  (∀ (l : Fin 48) (s : State), s.capturing = true → s.fld (HLT_LSTAT_LINK_DOWN l.val) = 0 →
    bitsN (s.rd HLT_GTL_TMO).toNat 0 16 * 1000 ≤ sinceNs s.now (s.leg l.val).lastGood →
    Completes (.gtlLinkTimeout l) s fun t =>
      t.fld (HLT_LSTAT_LINK_DOWN l.val) = 1 ∧ t.health = s.health ∧ OnlyRegs (fun o => o = HLT_LSTAT l.val) s t ∧
      t.mems = s.mems ∧ t.axes = s.axes)

/-- R233, R244, R247–R249: a binding of the SCP takes effect at once or at the axis's next carrier
boundary, one that does not fit is refused; consecutive commits are counted and the last of them stops
the leg's running axis; a leg without commits is late. -/
def Obligations.HealthActions : Prop :=
  (∀ (l : Fin 48) (v : Word) (s : State),
    bitsN v.toNat 16 13 = 0x1FFF ∨ (bitsN v.toNat 16 13 < 4096 ∧
      bitsN v.toNat 6 10 * 64 + 128 + 16 * s.eSize l.val + 16 * s.gSize l.val ≤ 65536) →
    (s.axState (l.val / 3) ≠ axRUNNING → Completes (.hltBindWrite mSCP l v) s fun t =>
      (t.leg l.val).node = bitsN v.toNat 16 13 ∧ (t.leg l.val).base = bitsN v.toNat 6 10 * 64 ∧
      (t.leg l.val).egap = true ∧ (t.leg l.val).ggap = true ∧ t.reply.st = ST_OK ∧
      (∀ o, o ≠ HLT_BIND l.val → t.rd o = s.rd o) ∧ t.mems = s.mems ∧ t.axes = s.axes) ∧
    (s.axState (l.val / 3) = axRUNNING → Completes (.hltBindWrite mSCP l v) s fun t =>
      t.leg l.val = { s.leg l.val with bindAt := some (s.nextCarrier (l.val / 3)) } ∧
      t.fld (HLT_BIND_NODE l.val) = bitsN v.toNat 16 13 ∧ t.fld (HLT_BIND_BASE l.val) = bitsN v.toNat 6 10 ∧
      t.reply.st = ST_OK ∧ (∀ o, o ≠ HLT_BIND l.val → t.rd o = s.rd o) ∧ t.mems = s.mems)) ∧
  (∀ (src : Nat) (l : Fin 48) (v : Word) (s : State),
    (src ≠ mSCP → Completes (.hltBindWrite src l v) s fun t =>
      t.reply.st = ST_NOT_PERMITTED ∧ t.health = s.health ∧ t.mems = s.mems) ∧
    (bitsN v.toNat 16 13 ≠ 0x1FFF → 65536 < bitsN v.toNat 6 10 * 64 + 128 + 16 * s.eSize l.val + 16 * s.gSize l.val →
      Completes (.hltBindWrite mSCP l v) s fun t =>
        t.reply.st = ST_BAD_FIELD ∧ t.health = s.health ∧ t.rd (HLT_BIND l.val) = s.rd (HLT_BIND l.val) ∧ t.mems = s.mems)) ∧
  (∀ (l : Fin 48) (at_ : Nat) (s : State), (s.leg l.val).bindAt = some at_ →
    tickReached s.tb7Tick at_ = true ∨ s.axState (l.val / 3) ≠ axRUNNING → Completes (.bindingApplied l) s fun t =>
      (t.leg l.val).node = s.fld (HLT_BIND_NODE l.val) ∧ (t.leg l.val).base = s.fld (HLT_BIND_BASE l.val) * 64 ∧
      (t.leg l.val).bindAt = none ∧ (t.leg l.val).egap = true ∧ (t.leg l.val).ggap = true ∧ t.csr = s.csr ∧
      t.mems = s.mems ∧ t.axes = s.axes) ∧
  (∀ (src : Nat) (l : Fin 48) (v : Word) (s : State),
    let good := bitsN v.toNat 0 1 = 1 ∧ bitsN v.toNat 1 2 = 0 ∧ bitsN v.toNat 3 1 = 1 ∧
      bitsN (s.rd (HLT_CONF l.val)).toNat 0 16 ≤ bitsN v.toNat 16 16
    (s.legWriter src l.val = false → Completes (.hltCommit src l v) s fun t =>
      t.reply.st = ST_NOT_PERMITTED ∧ t.health = s.health ∧ t.axes = s.axes ∧ t.mems = s.mems) ∧
    (s.legWriter src l.val = true → ¬ good → Completes (.hltCommit src l v) s fun t =>
      t.fld (HLT_LSTAT_IMM_CNT l.val) = 0 ∧ t.fld (HLT_LSTAT_RES_LATE l.val) = 0 ∧ (t.leg l.val).lastCommit = s.tbNs 7 ∧
      t.axes = s.axes ∧ (∀ o, o ≠ HLT_LSTAT l.val → t.rd o = s.rd o) ∧ t.mems = s.mems ∧ t.reply.st = ST_OK) ∧
    (s.legWriter src l.val = true → good → s.fld (HLT_LSTAT_IMM_CNT l.val) < s.fld (HLT_LCFG_IMM_N l.val) →
      Completes (.hltCommit src l v) s fun t =>
        t.fld (HLT_LSTAT_IMM_CNT l.val) = s.fld (HLT_LSTAT_IMM_CNT l.val) + 1 ∧ t.axes = s.axes ∧
        (∀ o, o ≠ HLT_LSTAT l.val → t.rd o = s.rd o) ∧ t.mems = s.mems ∧ t.reply.st = ST_OK) ∧
    (s.legWriter src l.val = true → good → s.fld (HLT_LSTAT_IMM_CNT l.val) = s.fld (HLT_LCFG_IMM_N l.val) →
      s.fld (HLT_LCFG_ACT_EN l.val) = 1 → s.capturing = true → s.axState (l.val / 3) = axRUNNING →
      s.fld (SLE_STATUS_STOPPING (l.val / 3)) = 0 → s.fld (SLE_STATUS_GATED (l.val / 3)) = 0 →
      (s.axis (l.val / 3)).stop = none → Completes (.hltCommit src l v) s fun t =>
        StopBegun (l.val / 3) true s t ∧ t.fld ⟨SLE_FAULT (l.val / 3), fltHEALTH, 1⟩ = 1 ∧
        t.fld (HLT_LSTAT_ACTED l.val) = 1)) ∧
  (∀ (l : Fin 48) (s : State), s.capturing = true → (s.leg l.val).node < 4096 → s.fld (HLT_LSTAT_RES_LATE l.val) = 0 →
    passedNs (bitsN (s.rd (HLT_CONF l.val)).toNat 16 16 * 1000) (s.tbNs 7) (s.leg l.val).lastCommit = true →
    Completes (.resultTimeout l) s fun t =>
      t.fld (HLT_LSTAT_RES_LATE l.val) = 1 ∧ t.health = s.health ∧ OnlyRegs (fun o => o = HLT_LSTAT l.val) s t ∧
      t.mems = s.mems ∧ t.axes = s.axes)

/-! ### Firmware processors -/

/-- Processor `p` has crashed with CAUSE code `code` and restarts (R313). -/
def Crashed (p : Proc) (code : Nat) (s t : State) : Prop :=
  t.procState (procNo p) = procRESTART ∧ t.fld (GLB_PROC_STAT_CAUSE (procNo p)) = code ∧
  (∀ a, procNo p * 0x80000 ≤ a → a < procNo p * 0x80000 + 0x80000 → t.mems.dmem.byte a = 0) ∧
  (∀ a, ¬ (procNo p * 0x80000 ≤ a ∧ a < procNo p * 0x80000 + 0x80000) → t.mems.dmem.byte a = s.mems.dmem.byte a) ∧
  (∀ sp, sp ≠ .dmem → t.mem sp = s.mem sp) ∧ (∀ n < 3, n ≠ procNo p → t.procState n = s.procState n) ∧ SameUnits s t ∧
  (p = .hip → t.fld MBX_FW_STAGE = 4) ∧ (p = .scp → s.model.fn = .running → t.model.heldByScp = true) ∧
  t.model.fn = s.model.fn

/-- R302, R312–R317: a processor's own alternating keys feed its watchdog; a wrong key, a late write or
an error crashes it, its data memory is cleared and it restarts; the third crash of the SCP or the HIP
within a second leaves it FAILED; the SCP's restart resumes the table at the next boundary, the HIP's
completes every command in flight, the SFP's after a halt keeps the safe state. -/
def Obligations.Processors : Prop :=
  (∀ (p : Proc) (v : Word) (s : State), v = 0x5A5A5A5A ∨ v = 0xA5A5A5A5 → (s.proc (procNo p)).key ≠ some v →
    Completes (.watchdogKick (mSCP + procNo p) p v) s fun t =>
      t.proc (procNo p) = { s.proc (procNo p) with key := some v, kickAt := s.now } ∧ t.csr = s.csr ∧ t.mems = s.mems ∧
      t.reply.st = ST_OK ∧ (∀ n, n ≠ procNo p → t.proc n = s.proc n)) ∧
  (∀ (src : Nat) (p : Proc) (v : Word) (s : State), src ≠ mSCP + procNo p → Completes (.watchdogKick src p v) s fun t =>
    t.reply.st = ST_NOT_PERMITTED ∧ t.procs = s.procs ∧ t.mems = s.mems) ∧
  (∀ (p : Proc) (s : State), p ≠ .sfp → s.procState (procNo p) = procRUN →
    ((s.proc (procNo p)).crashes.filter fun t => sinceNs s.now t < 1000000000).length < 2 →
    (wdogNs p ≤ sinceNs s.now (s.proc (procNo p)).kickAt → (p = .scp → s.lpState = lpACTIVE) →
      Completes (.watchdogExpired p) s (Crashed p 1 s)) ∧
    (∀ v, (v ≠ 0x5A5A5A5A ∧ v ≠ 0xA5A5A5A5) ∨ (s.proc (procNo p)).key = some v →
      Completes (.watchdogKick (mSCP + procNo p) p v) s (Crashed p 1 s)) ∧
    (∀ c, c ≠ .lockstep → Completes (.processorCrash p c) s (Crashed p (crashCode c) s))) ∧
  (∀ (p : Proc) (c : CrashCause) (s : State), p ≠ .sfp → c ≠ .lockstep → s.procState (procNo p) = procRUN →
    2 ≤ ((s.proc (procNo p)).crashes.filter fun t => sinceNs s.now t < 1000000000).length →
    Completes (.processorCrash p c) s fun t =>
      t.procState (procNo p) = procFAILED ∧ (p = .scp → t.model.fn = .fault) ∧
      (p = .hip → ∀ r ∈ s.host.rings.map Prod.fst, s.ringState r = rngACTIVE → t.ringState r = rngFROZEN) ∧
      t.axes = s.axes) ∧
  (∀ s : State,
    (s.procState 0 = procRESTART → Completes (.processorRestartComplete .scp) s fun t =>
      t.procState 0 = procRUN ∧ t.fld (GLB_PROC_STAT_RESTARTS 0) = min 255 (s.fld (GLB_PROC_STAT_RESTARTS 0) + 1) ∧
      (t.proc 0).kickAt = s.now ∧ (t.proc 0).key = none ∧ (t.proc 0).core = coreReset 0 ∧
      (s.model.pkg.isSome = true → s.model.fn = .running → t.model.resumeAt = true)) ∧
    (s.procState 2 = procRESTART → s.reset_.boot = .ready → s.host.goOrder = [] →
      Completes (.processorRestartComplete .hip) s fun t =>
        t.procState 2 = procRUN ∧ t.fld MBX_FW_STAGE = 3 ∧ t.host.inflight = [] ∧ t.host.store = none ∧
        t.host.hbLast = s.now ∧ SameUnits s t) ∧
    (s.procState 1 = procRESTART → (s.proc 1).crashRestart = false → s.fld SAF_STATUS_STATE = safSAFE →
      Completes (.processorRestartComplete .sfp) s fun t =>
        t.procState 1 = procRUN ∧ t.fld SAF_STATUS_STATE = safSAFE ∧ t.facets = s.facets ∧ t.beads = s.beads))

/-! ### Time bases -/

/-- R319–R326, R339: a permitted step moves its base alone and counts, another is refused; a RATE is
saturated and copied under FOLLOW; a snapshot holds the eight bases of one instant; an armed pulse fires
at its instants, passing over those that lie behind; a capture edge is stamped, merged or lost; a read
pops the head record. -/
def Obligations.TimeBases : Prop :=
  (∀ (n : Fin 8) (hi : Word) (s : State),
    (s.stepOk n.val = true → Completes (.tbStep mHIP n hi) s fun t =>
      t.tb n.val = s.tb n.val +
        ((BitVec.ofNat 64 ((s.rd (TIM_TB_STEP_LO n.val)).toNat + hi.toNat * 2 ^ 32)).setWidth 96 <<< 32) ∧
      (∀ k, k ≠ n.val → t.tb k = s.tb k) ∧
      t.fld (TIM_TB_CFG_STEPS n.val) = (s.fld (TIM_TB_CFG_STEPS n.val) + 1) % 65536 ∧
      (∀ o, o ≠ TIM_TB_CFG n.val → t.rd o = s.rd o) ∧ t.reply.st = ST_OK ∧ t.mems = s.mems ∧ SameUnits s t) ∧
    (s.stepOk n.val = false → Completes (.tbStep mHIP n hi) s fun t =>
      t.fld (TIM_TB_CFG_STEP_REF n.val) = 1 ∧ t.time = s.time ∧ t.reply.st = ST_NOT_PERMITTED ∧
      OnlyRegs (fun o => o = TIM_TB_CFG n.val) s t ∧ t.mems = s.mems) ∧
    (∀ src, src ≠ mHIP → Completes (.tbStep src n hi) s fun t =>
      t.fld (TIM_TB_CFG_STEP_REF n.val) = 1 ∧ t.time = s.time ∧ t.reply.st = ST_NOT_PERMITTED ∧ t.mems = s.mems)) ∧
  (∀ (n : Fin 8) (v : Word) (s : State),
    (n.val ≠ 0 → s.time.fn ≠ .stopped → (n.val = 7 → s.fld (TIM_TB_CFG_FOLLOW 7) = 0) →
      Completes (.tbRateWrite mHIP n v) s fun t =>
        (t.rd (TIM_TB_RATE n.val)).toInt = max (-549755814) (min v.toInt 549755814) ∧
        (n.val ≠ 7 → s.fld (TIM_TB_CFG_FOLLOW 7) = n.val → t.rd (TIM_TB_RATE 7) = t.rd (TIM_TB_RATE n.val)) ∧
        (∀ o, o ≠ TIM_TB_RATE n.val → o ≠ TIM_TB_RATE 7 → t.rd o = s.rd o) ∧ t.time = s.time ∧ t.mems = s.mems ∧
        t.reply.st = ST_OK) ∧
    (∀ src, src ≠ mHIP ∨ n.val = 0 ∨ s.time.fn = .stopped → Completes (.tbRateWrite src n v) s fun t =>
      t.reply.st = ST_NOT_PERMITTED ∧ t.time = s.time ∧ t.rd (TIM_TB_RATE n.val) = s.rd (TIM_TB_RATE n.val) ∧ t.mems = s.mems)) ∧
  (∀ (src : Nat) (s : State), Completes (.timSnap src) s fun t =>
    (∀ n < 8, (t.rd (TIM_SNAP_LO n)).toNat + (t.rd (TIM_SNAP_HI n)).toNat * 2 ^ 32 = (s.tb64 n).toNat) ∧
    (∀ o, o < TIM_SNAP_LO 0 ∨ TIM_SNAP_LO 8 ≤ o → t.rd o = s.rd o) ∧ t.time = s.time ∧ t.mems = s.mems) ∧
  (∀ (p : Fin 8) (v : Word) (s : State), s.time.fn = .running →
    (v.getLsbD 8 = true → s.fld (TIM_PO_CFG_ARM p.val) = 0 → s.pulsePeriod p.val ≠ 0 → Completes (.pulseArm mHIP p v) s fun t =>
      t.fld (TIM_PO_CFG_ARM p.val) = 1 ∧
      t.pulse p.val = { k := 0, active := false, endAt := 0, level := s.pulseIdle p.val } ∧ t.reply.st = ST_OK ∧
      (∀ o, o ≠ TIM_PO_CFG p.val → t.rd o = s.rd o) ∧ t.mems = s.mems) ∧
    (v.getLsbD 8 = false → Completes (.pulseArm mHIP p v) s fun t =>
      t.fld (TIM_PO_CFG_ARM p.val) = 0 ∧ (t.pulse p.val).active = false ∧ (t.pulse p.val).level = s.pulseIdle p.val ∧
      (∀ o, o ≠ TIM_PO_CFG p.val → t.rd o = s.rd o) ∧ t.mems = s.mems) ∧
    (s.fld (TIM_PO_CFG_ARM p.val) = 1 → reached 64 (s.pulseNow p.val) (s.pulseAt p.val (s.pulse p.val).k) = true →
      ((s.pulsePeriod p.val = 0 ∧ (s.pulse p.val).k = 0) ∨ (s.pulsePeriod p.val ≠ 0 ∧
          diffC 64 (s.pulseNow p.val) (s.pulseAt p.val ((s.pulse p.val).k + 1)) ≤ 0) →
        Completes (.pulseInstant p) s fun t =>
          t.pulse p.val = { k := (s.pulse p.val).k + 1, active := true, level := !s.pulseIdle p.val
                            endAt := (s.pulseAt p.val (s.pulse p.val).k + s.pulseWidth p.val) % 2 ^ 64 } ∧
          t.csr = s.csr ∧ t.mems = s.mems) ∧
      (∀ k, s.pulsePeriod p.val ≠ 0 → 0 < diffC 64 (s.pulseNow p.val) (s.pulseAt p.val ((s.pulse p.val).k + 1)) →
        k = (s.pulseNow p.val + 2 ^ 64 - s.pulseStart p.val) % 2 ^ 64 / s.pulsePeriod p.val + 1 →
        Completes (.pulseInstant p) s fun t =>
          (t.pulse p.val).k = k ∧ (t.pulse p.val).active = true ∧
          (t.rd (TIM_PO_MISSED p.val)).toNat =
            min 0xFFFFFFFF ((s.rd (TIM_PO_MISSED p.val)).toNat + (k - (s.pulse p.val).k - 1)) ∧
          (∀ o, o ≠ TIM_PO_MISSED p.val → t.rd o = s.rd o) ∧ t.mems = s.mems))) ∧
  (∀ (p : Fin 8) (s : State), (s.pulse p.val).active = true → reached 64 (s.pulseNow p.val) (s.pulse p.val).endAt = true →
    Completes (.pulseEnd p) s fun t =>
      t.pulse p.val = { s.pulse p.val with active := false, level := s.pulseIdle p.val } ∧ t.csr = s.csr ∧ t.mems = s.mems) ∧
  (∀ (c : Fin 4) (rising : Bool) (x : CaptureSt) (s : State), x = s.capture c.val → s.time.fn = .running →
    s.fld (TIM_CAP_CFG_ENABLE c.val) = 1 →
    s.fld (TIM_CAP_CFG_EDGE c.val) = 2 ∨ s.fld (TIM_CAP_CFG_EDGE c.val) = (if rising then 0 else 1) →
    ((∀ t0, x.last = some t0 → 20 ≤ sinceNs s.now t0) → x.fifo.length < 16 → Completes (.captureEdge c rising) s fun t =>
      (t.capture c.val).fifo = x.fifo ++ [⟨s.stampNs (s.fld (TIM_CAP_CFG_TB c.val)), s.stampNs 0, x.gap⟩] ∧
      (t.capture c.val).gap = false ∧ (t.capture c.val).last = some s.now ∧
      t.fld (TIM_CAP_CFG_LEVEL c.val) = x.fifo.length + 1 ∧ (∀ o, o ≠ TIM_CAP_CFG c.val → t.rd o = s.rd o) ∧ t.mems = s.mems) ∧
    ((∀ t0, x.last = some t0 → 20 ≤ sinceNs s.now t0) → 16 ≤ x.fifo.length → Completes (.captureEdge c rising) s fun t =>
      t.capture c.val = { x with gap := true, last := some s.now } ∧
      t.fld (capOVF c.val) = min 65535 (s.fld (capOVF c.val) + 1) ∧
      (∀ o, o ≠ TIM_CAP_STAT c.val → t.rd o = s.rd o) ∧ t.mems = s.mems) ∧
    (∀ t0, x.last = some t0 → sinceNs s.now t0 < 20 → Completes (.captureEdge c rising) s fun t =>
      t.time = s.time ∧ t.fld (capMERGED c.val) = min 255 (s.fld (capMERGED c.val) + 1) ∧
      (∀ o, o ≠ TIM_CAP_STAT c.val → t.rd o = s.rd o) ∧ t.mems = s.mems)) ∧
  (∀ (src : Nat) (c : Fin 4) (s : State),
    (∀ r rest, (s.capture c.val).fifo = r :: rest → rest.length < 16 → Completes (.capturePop src c) s fun t =>
      t.reply.data = leBytes 4 (r.tb.toNat % 2 ^ 32) ∧ (t.rd (TIM_CAP_HI c.val)).toNat = r.tb.toNat / 2 ^ 32 ∧
      (t.rd (TIM_CAP_TB0_LO c.val)).toNat + (t.rd (TIM_CAP_TB0_HI c.val)).toNat * 2 ^ 32 = r.tb0.toNat ∧
      (t.capture c.val).fifo = rest ∧ t.fld (TIM_CAP_CFG_LEVEL c.val) = rest.length ∧
      t.fld (capGAP c.val) = (if r.gap then 1 else 0) ∧ t.mems = s.mems ∧ SameUnits s t) ∧
    ((s.capture c.val).fifo = [] → Completes (.capturePop src c) s fun t =>
      t.reply.data = leBytes 4 (Config.freeWord s.free).toNat ∧ t.csr = s.csr ∧ t.time = s.time ∧ t.mems = s.mems))

/-! ### Ethernet switch -/

/-- Port `p` of the switch is as before but for its queue, which is `q`. -/
def QueueNow (p : Nat) (q : List QFrame) (s t : State) : Prop := t.port p = { s.port p with queue := q }

/-- R327–R332: a bad frame is counted under its reason, a good one learned, stamped and queued at every
port that the table names; strict priority sends the first class that can start, with the residence time
added to its correction; a gate list walks entry by entry and changes at its instant; an aged address
leaves the table. -/
def Obligations.EthernetSwitch : Prop :=
  (∀ (p : Fin 7) (fr : EthFrame) (v : Option (Fin 8)) (s : State),
    ((s.port p.val).up = false → Completes (.ethFrameReceived p fr v) s fun t => t = s) ∧
    ((s.port p.val).up = true → ∀ r : Nat,
      (fr.fcsOk = false ∧ r = 0) ∨ (fr.fcsOk = true ∧ (fr.vlan = 0 ∨ 4094 < fr.vlan) ∧ r = 2) ∨
        (fr.fcsOk = true ∧ 1 ≤ fr.vlan ∧ fr.vlan ≤ 4094 ∧ ∃ x, v = some x ∧ r = x.val) →
      Completes (.ethFrameReceived p fr v) s fun t =>
        (t.rd (ETH_DROP p.val r)).toNat = min 0xFFFFFFFF ((s.rd (ETH_DROP p.val r)).toNat + 1) ∧
        (∀ o, o ≠ ETH_DROP p.val r → t.rd o = s.rd o) ∧ t.eth = s.eth ∧ t.mems = s.mems ∧ SameUnits s t)) ∧
  (∀ (p : Fin 7) (fr : EthFrame) (s : State), (s.port p.val).up = true → fr.fcsOk = true → 1 ≤ fr.vlan → fr.vlan ≤ 4094 →
    fr.udpPort.any s.jxsPort = false → s.ackDatagram fr = false → reservedMac fr.dst = false → fr.dst ≠ Config.macAddress → ptpEvent fr = none →
    let q : QFrame := { tc := fr.tc.val, ingress := p.val, fr := fr, stamp0 := s.tb64 0, stamp := none, held := false,
                        left := fr.timeNs }
    (unicast fr.dst = false → (∃ k < 7, k ≠ p.val ∧ (s.port k).up = true) → Completes (.ethFrameReceived p fr none) s fun t =>
      (∀ k < 7, QueueNow k (if k ≠ p.val ∧ (s.port k).up = true then (s.port k).queue ++ [q] else (s.port k).queue) s t) ∧
      t.eth.stamps = s.eth.stamps ∧ t.csr = s.csr ∧ t.mems = s.mems ∧
      (unicast fr.src = true → (s.eth.mac.filter fun e => !(e.1 = fr.src && e.2.1 = fr.vlan)).length < 4096 →
        (fr.src, fr.vlan, p.val) ∈ t.eth.mac)) ∧
    (∀ e, unicast fr.dst = true → fr.src ≠ fr.dst → (s.eth.mac.find? fun e => e.1 = fr.dst && e.2.1 = fr.vlan) = some e →
      e.2.2 < 7 → e.2.2 ≠ p.val → (s.port e.2.2).up = true → Completes (.ethFrameReceived p fr none) s fun t =>
        (∀ k < 7, QueueNow k (if k = e.2.2 then (s.port k).queue ++ [q] else (s.port k).queue) s t) ∧
        t.csr = s.csr ∧ t.mems = s.mems)) ∧
  (∀ (p : Fin 7) (fr : EthFrame) (i : PtpInfo) (s : State), (s.port p.val).up = true → fr.fcsOk = true → 1 ≤ fr.vlan →
    fr.vlan ≤ 4094 → ptpEvent fr = some i → Completes (.ethFrameReceived p fr none) s fun t =>
      t.eth.stamps = s.eth.stamps ++ [{ port := p.val, egress := false, tb0 := s.tb64 0, dom := (s.domBase i.domain).map s.tb64 }] ∧
      t.mems = s.mems) ∧
  (∀ (p : Fin 7) (tc : Fin 8) (s : State),
    ((∃ c < 8, tc.val < c ∧ s.canStart p.val c ≠ .none) ∨ s.canStart p.val tc.val = .none →
      Completes (.ethFrameTransmit p tc) s fun t => t = s) ∧
    (∀ q, (∀ c < 8, tc.val < c → s.canStart p.val c = .none) → ((s.port p.val).queue.find? fun x => x.tc = tc.val) = some q →
      (s.canStart p.val tc.val = .whole → Completes (.ethFrameTransmit p tc) s fun t =>
        QueueNow p.val ((s.port p.val).queue.erase q) s t ∧
        t.eth.sent = s.eth.sent ++ [(p.val, if q.held then q.fr else s.ptpCorrect q)] ∧
        (q.held = false → ∀ i, ptpEvent q.fr = some i → ∀ inn, q.stamp = some inn → ∀ b, s.domBase i.domain = some b → s.ptpMode b = 1 →
          t.eth.sent = s.eth.sent ++
            [(p.val, ({ q.fr with ptp := some { i with correction := i.correction + (s.tb64 b - inn) } } : EthFrame))]) ∧
        (∀ k, k ≠ p.val → t.port k = s.port k) ∧ t.mems = s.mems ∧ (∀ o, o ≠ ETH_PTP_UNCORR → t.rd o = s.rd o)) ∧
      (s.canStart p.val tc.val = .fragment → q.held = true → Completes (.ethFrameTransmit p tc) s fun t =>
        QueueNow p.val ((s.port p.val).queue.replace q { q with left := q.left - q.fr.fragNs }) s t ∧
        t.eth.sent = s.eth.sent ∧ (∀ k, k ≠ p.val → t.port k = s.port k) ∧ t.csr = s.csr ∧ t.mems = s.mems))) ∧
  (∀ (p : Fin 7) (x : PortSt) (e : Nat × Nat × Nat) (s : State), x = s.port p.val →
    (x.oper[(x.gclIdx + 1) % x.oper.length]? = some e → passedNs 0 (s.tbNs (gateBaseOf p.val)) x.gateClose = true →
      Completes (.gateControlEntry p) s fun t =>
        t.port p.val = { x with gclIdx := (x.gclIdx + 1) % x.oper.length, gates := BitVec.ofNat 8 e.1
                                gateClose := (x.gateClose + e.2.2) % 2 ^ 48
                                hold := if e.2.1 = 1 then true else if e.2.1 = 2 then false else x.hold } ∧
        (∀ k, k ≠ p.val → t.port k = s.port k) ∧ t.csr = s.csr ∧ t.mems = s.mems) ∧
    (x.waiting = true → passedNs 0 (s.tbNs (gateBaseOf p.val)) x.configAt = true → (s.gclAdmin p.val)[0]? = some e →
      Completes (.gclConfigChange p) s fun t =>
        t.port p.val = { x with oper := s.gclAdmin p.val, waiting := false, gclIdx := 0, gates := BitVec.ofNat 8 e.1
                                gateClose := (x.configAt + e.2.2) % 2 ^ 48
                                hold := if e.2.1 = 1 then true else if e.2.1 = 2 then false else x.hold } ∧
        (∀ k, k ≠ p.val → t.port k = s.port k) ∧ t.csr = s.csr ∧ t.mems = s.mems)) ∧
  (∀ (mac : BitVec 48) (s : State), Completes (.macAddressAgeing mac) s fun t =>
    (∀ e, e ∈ t.eth.mac ↔ e ∈ s.eth.mac ∧ e.1 ≠ mac) ∧ t.eth.ports = s.eth.ports ∧ t.csr = s.csr ∧ t.mems = s.mems)

/-! ### CAN channels -/

/-- The record ring of channel `n` lies at offset `off` of the map, in one bank that serves requests, and
has room (R242, R243, R336). -/
def CanRoom (n off : Nat) (s : State) : Prop :=
  let size := 2 ^ bitsN (s.rd (CAN_RING_CFG n)).toNat 0 4
  (s.rd64 (CAN_RING_LO n) (CAN_RING_HI n)).toNat = 0xFFFF000010000000 + off ∧ off % 64 = 0 ∧ off < 0x7C00000 ∧
  off / 0x80000 = (off + 63 + 96 * size) / 0x80000 ∧ s.bankServes (off / 0x80000) = true ∧ s.mems.map.bad (off / 8) = false ∧
  recFull (s.can n).wr.toNat (s.rd (CAN_RING_RD n)).toNat size = false ∧ FabricQuiet s

/-- The record `body` and the new WR lie in the channel's ring; no other byte has changed. -/
def CanPut (n off : Nat) (body : List Byte) (s t : State) : Prop :=
  let at_ := off + 64 + 96 * ((s.can n).seq.toNat % 2 ^ bitsN (s.rd (CAN_RING_CFG n)).toNat 0 4)
  t.mems.map.bytes at_ 96 = body ∧ t.mems.map.bytes off 4 = leBytes 4 ((s.can n).wr + 1).toNat ∧
  (∀ (sp : Space) (a : Nat), ¬ (sp = .map ∧ (at_ ≤ a ∧ a < at_ + 96 ∨ off ≤ a ∧ a < off + 4)) →
    (t.mem sp).byte a = (s.mem sp).byte a) ∧
  (t.can n).seq = (s.can n).seq + 1 ∧ (t.can n).wr = (s.can n).wr + 1

/-- R335–R338: requests are set and cleared, but TXB2 of the message channel is the SFP's; at a start of
frame the buffer of the rule is chosen and the stamps taken; every frame sent or accepted yields its
record; the error counters, bus-off and its recovery keep the requests; a safety message that waits enters TXB2 when it is free; a reference message carries the
cycle count and restarts the cycle time. -/
def Obligations.CanChannels : Prop :=
  (∀ (src : Nat) (n : Fin 8) (v : Word) (s : State),
    (v.getLsbD 2 = false ∨ s.txb2Closed src n.val = false →
      Completes (.canTxreq src n v) s (fun t =>
        t.rd (CAN_TXREQ n.val) = s.rd (CAN_TXREQ n.val) ||| (v &&& 7) ∧ (∀ o, o ≠ CAN_TXREQ n.val → t.rd o = s.rd o) ∧
        t.reply.st = ST_OK ∧ t.cans = s.cans ∧ t.mems = s.mems) ∧
      Completes (.canTxabort src n v) s fun t =>
        (∀ b < 3, t.flag (canPend n.val b) =
            (s.flag (canPend n.val b) && !(v.getLsbD b && decide ((s.can n.val).current ≠ some b))) ∧
          t.flag (canAbort n.val b) = (s.flag (canAbort n.val b) ||
            (v.getLsbD b && s.flag (canPend n.val b) && decide ((s.can n.val).current = some b)))) ∧
        (∀ o, o ≠ CAN_TXREQ n.val → o ≠ CAN_TXABORT n.val → t.rd o = s.rd o) ∧
        t.reply.st = ST_OK ∧ t.cans = s.cans ∧ t.mems = s.mems) ∧
    (v.getLsbD 2 = true → src ≠ mSFP → s.safety.params.msgCh = n.val →
      Completes (.canTxreq src n v) s (fun t =>
        t.reply.st = ST_NOT_PERMITTED ∧ OnlyRegs (fun _ => False) s t ∧ t.cans = s.cans ∧ t.mems = s.mems) ∧
      Completes (.canTxabort src n v) s fun t =>
        t.reply.st = ST_NOT_PERMITTED ∧ OnlyRegs (fun _ => False) s t ∧ t.cans = s.cans ∧ t.mems = s.mems)) ∧
  (∀ (n : Fin 8) (s : State), s.canOn n.val = true → (s.can n.val).inFrame = false →
    Completes (.canFrameStart n) s fun t =>
      t.can n.val = { s.can n.val with
        sof0 := s.tb64 0, sof5 := if n.val < 2 then s.tb64 5 else 0, inFrame := true, current := s.canChoose n.val } ∧
      (∀ b, s.canChoose n.val = some b → b < 3 ∧ s.flag (canPend n.val b) = true ∧
        ∀ a < 3, s.flag (canPend n.val a) = true →
          (s.flag (canTXPRIO n.val) = true → b ≤ a) ∧
          (s.flag (canTXPRIO n.val) = false → prioId (s.txFrame n.val b) ≤ prioId (s.txFrame n.val a) ∧
            (prioId (s.txFrame n.val a) = prioId (s.txFrame n.val b) → b ≤ a))) ∧
      (s.canChoose n.val = none → ∀ a < 3, s.flag (canPend n.val a) = false) ∧
      (∀ m, m ≠ n.val → t.can m = s.can m) ∧ t.csr = s.csr ∧ t.mems = s.mems) ∧
  (∀ (n : Fin 8) (res : CanTxResult) (s : State), (s.can n.val).current = some 2 → s.safety.params.msgCh = n.val →
    s.safety.msgWait.isSome = true → Completes (.canFrameTransmitted n res) s fun t =>
      t.flag (canPend n.val 2) = true ∧ t.safety.msgWait = none ∧ (t.can n.val).current = none ∧
      (t.rd (CAN_TXB_HDR n.val 2)).toNat = (2 ^ 31 + s.safety.params.msgId) % 2 ^ 32) ∧
  (∀ (n : Fin 8) (b : Nat) (s : State), (s.can n.val).current = some b → b < 3 →
    (b = 2 → s.safety.params.msgCh = n.val → s.safety.msgWait = none) →
    (∀ off, CanRoom n.val off s → Completes (.canFrameTransmitted n .sent) s fun t =>
      CanPut n.val off (canRecord (s.can n.val).seq (canFlags (s.txFrame n.val b) true (s.can n.val).gap false b)
        (s.txFrame n.val b).dlc.toNat 0xFF (s.txFrame n.val b).id.toNat (s.can n.val).sof0.toNat
        (if n.val < 2 then (s.can n.val).sof5.toNat else 0) (s.txFrame n.val b).data) s t ∧
      (t.can n.val).sent = (s.can n.val).sent ++ [s.txFrame n.val b] ∧ (t.can n.val).current = none ∧
      (t.can n.val).inFrame = false ∧ t.flag (canPend n.val b) = false ∧
      (∀ a, a < 3 → a ≠ b → t.flag (canPend n.val a) = s.flag (canPend n.val a)) ∧
      t.fld (canTEC n.val) = s.fld (canTEC n.val) - 1 ∧ t.fld (canREC n.val) = s.fld (canREC n.val) ∧
      (∀ o, o ≠ CAN_TXREQ n.val → o ≠ CAN_TXABORT n.val → o ≠ CAN_STAT n.val → t.rd o = s.rd o)) ∧
    Completes (.canFrameTransmitted n .lostArbitration) s (fun t =>
      (t.can n.val) = { s.can n.val with current := none } ∧
      t.flag (canPend n.val b) = (s.flag (canPend n.val b) && !s.flag (canONESHOT n.val) && !s.flag (canAbort n.val b)) ∧
      (∀ o, o ≠ CAN_TXREQ n.val → o ≠ CAN_TXABORT n.val → t.rd o = s.rd o) ∧ t.mems = s.mems) ∧
    Completes (.canFrameTransmitted n .failed) s (fun t =>
      (t.can n.val) = { s.can n.val with current := none, inFrame := false } ∧
      t.flag (canPend n.val b) = (s.flag (canPend n.val b) && !s.flag (canONESHOT n.val) && !s.flag (canAbort n.val b)) ∧
      t.fld (canTEC n.val) = min 65535 (s.fld (canTEC n.val) + 8) ∧
      (s.fld (canERRST n.val) ≠ canBusOff →
        t.fld (canERRST n.val) = if 128 ≤ t.fld (canTEC n.val) ∨ 128 ≤ s.fld (canREC n.val) then canPassive else canActive) ∧
      (∀ o, o ≠ CAN_TXREQ n.val → o ≠ CAN_TXABORT n.val → o ≠ CAN_STAT n.val → t.rd o = s.rd o) ∧ t.mems = s.mems)) ∧
  (∀ (n : Fin 8) (fr : CanFrame) (s : State), s.canOn n.val = true → (s.can n.val).inFrame = true →
    (s.can n.val).current = none → s.fld (canREC n.val) ≤ 127 →
    (s.isRef n.val fr = false → s.canFilter n.val fr.id = none → Completes (.canFrameReceived n fr) s fun t =>
      t.can n.val = { s.can n.val with inFrame := false } ∧ t.fld (canREC n.val) = s.fld (canREC n.val) - 1 ∧
      (∀ o, o ≠ CAN_STAT n.val → t.rd o = s.rd o) ∧ t.mems = s.mems) ∧
    (∀ off, CanRoom n.val off s → s.isRef n.val fr = true ∨ (s.canFilter n.val fr.id).isSome = true →
      Completes (.canFrameReceived n fr) s fun t =>
        CanPut n.val off (canRecord (s.can n.val).seq (canFlags fr false (s.can n.val).gap (s.isRef n.val fr) 0) fr.dlc.toNat
          ((s.canFilter n.val fr.id).getD 0xFF) fr.id.toNat (s.can n.val).sof0.toNat
          (if n.val < 2 then (s.can n.val).sof5.toNat else 0) fr.data) s t ∧
        (t.can n.val).inFrame = false ∧ t.fld (canREC n.val) = s.fld (canREC n.val) - 1 ∧
        (s.isRef n.val fr = true → t.fld (ttcLOST n.val) = 0 ∧ (t.can n.val).refAt = (s.can n.val).sof5.toNat / 65536 ∧
          (t.can n.val).cycCnt = ((fr.data.headD 0).toNat % 64 + 1) % 64 ∧
          (s.fld (ttcMODE n.val) = 2 → (t.can n.val).masterQuiet = true)) ∧
        (∀ o, o ≠ CAN_STAT n.val → o ≠ CAN_TTC n.val → t.rd o = s.rd o))) ∧
  (∀ (n : Fin 8) (s : State),
    ((s.can n.val).fn = .running → s.fld (canERRST n.val) ≠ canBusOff → Completes (.canBusOff n) s fun t =>
      t.fld (canERRST n.val) = canBusOff ∧
      (t.rd (CAN_BUSOFF_CNT n.val)).toNat = min 0xFFFFFFFF ((s.rd (CAN_BUSOFF_CNT n.val)).toNat + 1) ∧
      (∀ b < 3, t.flag (canPend n.val b) = (s.flag (canPend n.val b) && !s.flag (canAbort n.val b))) ∧
      t.can n.val = { s.can n.val with current := none, inFrame := false, recover := false } ∧ t.mems = s.mems) ∧
    (s.fld (canERRST n.val) = canBusOff →
      (s.flag (canAUTO_REC n.val) = true ∨ (s.can n.val).recover = true → Completes (.canBusOffRecovery n) s fun t =>
        t.fld (canERRST n.val) = canActive ∧ t.fld (canTEC n.val) = 0 ∧ t.fld (canREC n.val) = 0 ∧
        t.rd (CAN_TXREQ n.val) = s.rd (CAN_TXREQ n.val) ∧
        (∀ o, o ≠ CAN_STAT n.val → o ≠ CAN_CTL n.val → t.rd o = s.rd o) ∧ t.mems = s.mems) ∧
      (s.flag (canAUTO_REC n.val) = false → (s.can n.val).recover = false →
        Completes (.canBusOffRecovery n) s (fun t => t = s) ∧
        Completes (.recover mHIP n) s fun t =>
          t.can n.val = { s.can n.val with recover := true } ∧ t.reply.st = ST_OK ∧
          (∀ o, o ≠ CAN_CTL n.val → t.rd o = s.rd o) ∧ t.mems = s.mems)) ∧
    (∀ src, src ≠ mHIP → Completes (.recover src n) s fun t =>
      t.reply.st = ST_NOT_PERMITTED ∧ t.cans = s.cans ∧ OnlyRegs (fun _ => False) s t ∧ t.mems = s.mems)) ∧
  (∀ (n : Fin 2) (s : State),
    (s.refDue n.val = true → Completes (.referenceMessage n) s fun t =>
      (t.can n.val).sent = (s.can n.val).sent ++ [s.refFrame n.val] ∧
      (s.refFrame n.val).id.toNat = s.fld (ttcREF_ID n.val) ∧
      (s.refFrame n.val).data.head? = some (BitVec.ofNat 8 ((s.can n.val).cycCnt % 64)) ∧
      (s.flag (ttcGT_EN n.val) = true → (s.refFrame n.val).data.drop 1 =
        0 :: leBytes 6 ((s.can n.val).lastRef.toNat / 65536)) ∧
      (t.can n.val).lastRef = s.tb64 5 ∧ (t.can n.val).cycCnt = ((s.can n.val).cycCnt + 1) % 64 ∧
      (t.can n.val).masterQuiet = false ∧ (t.can n.val).seq = (s.can n.val).seq + 1 ∧
      (∀ off, CanRoom n.val off s → ∃ buf < 4, CanPut n.val off (canRecord (s.can n.val).seq
        (canFlags (s.refFrame n.val) true (s.can n.val).gap true buf) (s.refFrame n.val).dlc.toNat 0xFF
        (s.refFrame n.val).id.toNat (s.tb64 0).toNat (s.tb64 5).toNat (s.refFrame n.val).data) s t)) ∧
    ((s.can n.val).fn = .running → s.fld (ttcMODE n.val) = 1 →
      passedNs (3 * s.fld (ttcCYC_PER n.val) * 1000) (s.tbNs 5) (s.can n.val).refAt = true → Completes (.ttcLost n) s fun t =>
        t.fld (ttcLOST n.val) = 1 ∧ (∀ o, o ≠ CAN_TTC n.val → t.rd o = s.rd o) ∧ t.cans = s.cans ∧ t.mems = s.mems))

/-! ### Pair link -/

/-- A pair package is resident and runs on the two chips of a pair (R344). -/
def PairRuns (p : Package) (s : State) : Prop :=
  s.model.pkg = some p ∧ p.pair = true ∧ s.plkMode = 1 ∧ s.pair.fn = .running ∧ s.model.fn = .running

/-- R340–R348: trained links let PAIR run, the primary keeping its time; bad flits are replayed and
counted; a port that goes down hands its traffic to the other, the loss of both brings a safety package
into the safe state; heartbeats are sent and received with their lag, a missing one acts as a loss;
the partner's record validates an EQUAL result, its safe state brings the own; an equalised point
is a ceiling. -/
def Obligations.PairLink : Prop :=
  (∀ (ports : BitVec 2) (s : State),
    (s.pair.startVia = none → Completes (.pairLinkTrained ports) s fun t => t = s) ∧
    (∀ v c, s.pair.startVia = some v → (∀ x, v ≠ .reg x) → s.hipUp = true → s.cmdVia v = some c → s.plkMode = 1 →
      s.ownChip = 0 → (ports.getLsbD 0 = true ∨ ports.getLsbD 1 = true) →
      s.flag (plkUp 0) = false → s.flag (plkUp 1) = false → Completes (.pairLinkTrained ports) s fun t =>
        t.pair.fn = .running ∧ t.pair.startVia = none ∧ t.flag (plkUp 0) = ports.getLsbD 0 ∧
        t.flag (plkUp 1) = ports.getLsbD 1 ∧ t.fld plkInUse = (if ports.getLsbD 0 then 0 else 1) ∧
        t.fld plkPrimary = 1 ∧ t.time = s.time ∧ t.model = s.model ∧ Ended v ST_OK s t ∧ SameUnits s t ∧
        HostFrame v (fun o => o = PLK_STAT) s t) ∧
    (∀ v, s.pair.startVia = some v → s.plkMode = 1 → ports = 0 → s.flag (plkUp 0) = false → s.flag (plkUp 1) = false →
      Completes (.pairLinkTrained ports) s fun t => t = s)) ∧
  (∀ (k : Fin 2) (s : State), s.flag (plkUp k.val) = true →
    Completes (.plkFlit k true) s (fun t =>
      kget 0 t.pair.replays k.val = 0 ∧ t.csr = s.csr ∧ t.mems = s.mems ∧ SameUnits s t) ∧
    (kget 0 s.pair.replays k.val < 16 → Completes (.plkFlit k false) s fun t =>
      kget 0 t.pair.replays k.val = kget 0 s.pair.replays k.val + 1 ∧
      (t.rd (PLK_REPLAY k.val)).toNat = min 0xFFFFFFFF ((s.rd (PLK_REPLAY k.val)).toNat + 1) ∧
      (∀ o, o ≠ PLK_REPLAY k.val → t.rd o = s.rd o) ∧ t.mems = s.mems ∧ SameUnits s t) ∧
    (16 ≤ kget 0 s.pair.replays k.val → Completes (.plkFlit k false) s fun t =>
      t.flag (plkUp k.val) = false ∧ (t.rd (PLK_REPLAY k.val)).toNat = min 0xFFFFFFFF ((s.rd (PLK_REPLAY k.val)).toNat + 1))) ∧
  (∀ (k : Fin 2) (s : State), s.flag (plkUp k.val) = true → s.plkMode = 1 → s.flag (plkUp (1 - k.val)) = true →
    ((∀ n, (s.bead n).stall = none) → Completes (.laneLockLoss k) s fun t =>
      t.flag (plkUp k.val) = false ∧ t.flag (plkUp (1 - k.val)) = true ∧
      t.fld plkInUse = (if s.fld plkInUse = k.val then 1 - k.val else s.fld plkInUse) ∧
      OnlyRegs (fun o => o = PLK_STAT) s t ∧ t.model = s.model ∧ t.mems = s.mems ∧ SameUnits s t) ∧
    (∀ (n : Fin 4096) (b : BeadSt) (r : RemoteLoad) (c : Nat), s.beads = [(n.val, b)] → b.stall = some r →
      s.target n.val r.addr = .remote c → s.fld plkInUse = k.val → Completes (.laneLockLoss k) s fun t =>
        t.beadState n.val = bdFAULT ∧ t.fld (BEAD_STATUS_CAUSE n.val) = 0x19 ∧ (t.bead n.val).stall = none ∧
        t.fld plkInUse = 1 - k.val ∧ t.mems = s.mems ∧ t.model = s.model)) ∧
  (∀ (k : Fin 2) (p : Package) (s : State), PairRuns p s → p.safety = true → s.flag (plkUp k.val) = true →
    s.flag (plkUp (1 - k.val)) = false → (∀ n, (s.bead n).stall = none) → s.fld SAF_STATUS_STATE = safNORMAL →
    s.procState 1 = procRUN → Completes (.laneLockLoss k) s (EntersSafe cPAIR s)) ∧
  (∀ (p : Package) (s : State), PairRuns p s → s.scpUp = true →
    let c := s.hbNext
    (reached 32 s.model.cycle.toNat c.toNat = true → s.cycleDone p (c - 1) = true → Completes .cycleHeartbeatSend s fun t =>
      t.pair = { s.pair with hbSent := some c, sent := s.pair.sent ++ [leBytes 4 c.toNat] } ∧
      t.csr = s.csr ∧ t.mems = s.mems ∧ t.model = s.model ∧ SameUnits s t) ∧
    (reached 32 s.model.cycle.toNat c.toNat = false ∨ s.cycleDone p (c - 1) = false →
      Completes .cycleHeartbeatSend s fun t => t = s)) ∧
  (∀ (chip : Fin 16) (cyc : Word) (p : Package) (lag : Nat) (s : State), PairRuns p s → p.nchips = 2 → chip.val < 2 →
    s.ownChip < 2 → chip.val ≠ s.ownChip → (chip.val, cyc) ∉ s.pair.hbFrom →
    lag = (if reached 32 s.model.cycle.toNat cyc.toNat = true then s.sinceBoundary cyc else 0) → lag < 2 ^ 32 →
    Completes (.cycleHeartbeatReceived chip cyc) s fun t =>
      (chip.val, cyc) ∈ t.pair.hbFrom ∧ t.hbHeld p cyc = true ∧ (t.rd PLK_LAG).toNat = lag ∧
      (t.rd PLK_LAG_MAX).toNat = max lag (s.rd PLK_LAG_MAX).toNat ∧
      (t.rd PLK_LAG_CNT).toNat = (if lag ≤ s.safety.params.skewUs * 1000 then (s.rd PLK_LAG_CNT).toNat
        else min 0xFFFFFFFF ((s.rd PLK_LAG_CNT).toNat + 1)) ∧
      OnlyRegs (fun o => o = PLK_LAG ∨ o = PLK_LAG_MAX ∨ o = PLK_LAG_CNT) s t ∧ t.mems = s.mems ∧ t.model = s.model ∧
      SameUnits s t) ∧
  (∀ (p : Package) (s : State), PairRuns p s → s.model.stopping = false →
    (p.safety = true → s.fld SAF_STATUS_STATE = safNORMAL → s.procState 1 = procRUN →
      s.linked = false ∨ (∃ j, j < 32 ∧
        reached 32 (s.model.cycle - 1 - BitVec.ofNat 32 j).toNat s.model.firstCycle.toNat = true ∧
        s.hbHeld p (s.model.cycle - 1 - BitVec.ofNat 32 j) = false ∧
        s.major + s.safety.params.skewUs * 1000 ≤ s.sinceBoundary (s.model.cycle - 1 - BitVec.ofNat 32 j)) →
      Completes .pairHeartbeatTimeout s (EntersSafe cPAIR s)) ∧
    (s.linked = true → (∀ j, j < 32 →
        reached 32 (s.model.cycle - 1 - BitVec.ofNat 32 j).toNat s.model.firstCycle.toNat = true →
        s.hbHeld p (s.model.cycle - 1 - BitVec.ofNat 32 j) = true) →
      Completes .pairHeartbeatTimeout s fun t => t = s)) ∧
  (∀ (net : Fin 64) (cyc : Word) (sig : BitVec 64) (n : Net) (s : State), s.netOf net.val = some n → s.pairChecked = true →
    s.pair.fn = .running →
    ((s.safety.jobs.find? fun j => j.net = n.net && j.cyc = cyc && j.verdict = some 0) = none →
      Completes (.crossCheckRecord net cyc sig) s fun t =>
        (net.val, cyc, sig) ∈ t.safety.cross ∧ t.csr = s.csr ∧ t.mems = s.mems ∧ t.model = s.model ∧ SameUnits s t) ∧
    (∀ j, (s.safety.jobs.find? fun j => j.net = n.net && j.cyc = cyc && j.verdict = some 0) = some j → j.sigA = some sig →
      n.net = net.val → Completes (.crossCheckRecord net cyc sig) s fun t =>
        (∀ o ∈ s.netOuts n, (t.outSt o cyc).cross = true) ∧ t.axes = s.axes ∧ t.facets = s.facets ∧ t.beads = s.beads)) ∧
  (∀ s : State,
    (s.plkMode = 0 ∨ s.pair.fn ≠ .running → Completes .partnerSafeState s fun t => t = s) ∧
    (s.plkMode ≠ 0 → s.pair.fn = .running → s.fld SAF_STATUS_STATE = safNORMAL → s.procState 1 = procRUN →
      Completes .partnerSafeState s (EntersSafe cPAIR s))) ∧
  (∀ (d : Fin 50) (op : Option (Fin 8)) (dom : Nat) (s : State), s.plkMode ≠ 0 → s.pair.fn = .running →
    s.flag PLK_CFG_EQUALISE = true → dom < 50 →
    (d.val < 32 ∧ dom = s.physFacet d.val) ∨ (34 ≤ d.val ∧ dom = d.val) → Completes (.pairEqualisation d op) s fun t =>
      t.fld (PWR_DOM_STAT_PAIR_CEIL dom) = (op.map Fin.val).getD 7 ∧
      t.fld (PWR_DOM_STAT_GRANTED dom) ≤ (op.map Fin.val).getD 7 ∧
      (∀ o, o ≠ PWR_LIMIT_STAT → (∀ e < 50, o ≠ PWR_DOM_STAT e) → t.rd o = s.rd o) ∧ t.mems = s.mems ∧ SameUnits s t)

/-! ### Power, temperature and supply -/

/-- Every register but those of the domains and PWR_LIMIT_STAT reads as before. -/
def DomRegsOnly (chg : Nat → Prop) (s t : State) : Prop :=
  OnlyRegs (fun o => chg o ∨ o = PWR_LIMIT_STAT ∨ ∃ d < 50, o = PWR_DOM_STAT d) s t

/-- R349–R358, R360–R362, R364: an interval enters its readings, lowers or raises one SW_CEIL for the cap
and the HW_CEILs for the limits, charges the energy and grants the lowest of the five; a hot sensor
clamps its domain, a hotter one and a supply fault bring the safe state; a droop halves the clock; a
higher grant waits for the voltage; a domain goes off with its contents and comes on idle. -/
def Obligations.PowerControl : Prop :=
  (∀ (f b c : Nat × Nat) (uw mw : Nat) (s : State), s.host.rings = [] → f.1 < 2 ^ 32 → f.2 < 2 ^ 32 → b.1 < 2 ^ 32 → b.2 < 2 ^ 32 →
    c.1 < 2 ^ 32 → c.2 < 2 ^ 32 →
    uw = f.1 * f.2 + b.1 * b.2 + c.1 * c.2 +
      (((List.range 6).map fun i => (s.rd (PWR_RAIL_MV (3 + i))).toNat * (s.rd (PWR_RAIL_MA (3 + i))).toNat).sum) →
    mw = uw / 1000 → mw < 2 ^ 32 →
    Completes (.powerInterval ⟨some f, some b, some c⟩) s fun t =>
      ((t.rd (PWR_RAIL_MV 0)).toNat = f.1 ∧ (t.rd (PWR_RAIL_MA 0)).toNat = f.2 ∧ (t.rd (PWR_RAIL_MV 1)).toNat = b.1 ∧
        (t.rd (PWR_RAIL_MA 1)).toNat = b.2 ∧ (t.rd (PWR_RAIL_MV 2)).toNat = c.1 ∧ (t.rd (PWR_RAIL_MA 2)).toNat = c.2) ∧
      (t.rd PWR_CHIP_MW).toNat = mw ∧ t.power.hist = (mw :: s.power.hist).take 200 ∧
      (t.rd PWR_MEAN_1MS).toNat = ((mw :: s.power.hist).take 20).sum / 20 % 2 ^ 32 ∧
      t.power.energyNj = s.power.energyNj + uw * 50 / 1000 ∧ t.power.acts = [] ∧
      (s.power.acts = [] → t.power.pool = s.power.pool + (uw * 50 / 1000 : Nat)) ∧
      (∀ d, s.fld PWR_CFG_CAP * 1000 < ((mw :: s.power.hist).take 20).sum / 20 →
        (s.capOrder.find? fun d => (s.dom d).swNext ≠ 0) = some d →
        (t.dom d).swNext = (s.dom d).swNext - 1 ∧
        ((s.dom d).work = 0 → t.fld (PWR_DOM_STAT_SW_CEIL d) = ((s.dom d).swNext - 1) % 8) ∧
        (∀ e, e ≠ d → (t.dom e).swNext = (s.dom e).swNext)) ∧
      (180000 < mw → t.flag ⟨PWR_LIMIT_STAT, limSHORT, 1⟩ = true ∧ ∀ d < 34, (t.dom d).short = (s.dom d).short - 2) ∧
      (∀ d < 50, t.fld (PWR_DOM_STAT_HW_CEIL d) = (t.dom d).hw % 8 ∧ t.fld (PWR_DOM_STAT_GRANTED d) ≤ t.grantOf d) ∧
      t.mems = s.mems ∧ SameUnits s t) ∧
  (∀ (rails : List (Nat × Nat)) (s : State), rails.length = 6 → (∀ x ∈ rails, x.1 < 2 ^ 32 ∧ x.2 < 2 ^ 32) →
    Completes (.pmbusPoll rails) s fun t =>
      (∀ i x, rails[i]? = some x → (t.rd (PWR_RAIL_MV (3 + i))).toNat = x.1 ∧ (t.rd (PWR_RAIL_MA (3 + i))).toNat = x.2) ∧
      (∀ o, (∀ i < 6, o ≠ PWR_RAIL_MV (3 + i) ∧ o ≠ PWR_RAIL_MA (3 + i)) → t.rd o = s.rd o) ∧ t.mems = s.mems ∧ t.core = s.core) ∧
  (∀ (n : Fin 56) (temp : Int) (s : State), kget false s.power.sensors n.val = false →
    (-128 ≤ temp → temp ≤ 127 → temp < (if Config.gradeXT then 130 else 115) → Completes (.tempSample n temp) s fun t =>
      (t.rd (MON_TEMP n.val)).toNat = wrapN 8 temp ∧ t.power.sensors = s.power.sensors ∧
      DomRegsOnly (fun o => o = MON_TEMP n.val ∨ o = MON_TEMP_MAX) s t ∧ t.mems = s.mems ∧ SameUnits s t) ∧
    (s.host.rings = [] → (if Config.gradeXT then 130 else 115) ≤ temp → temp < (if Config.gradeXT then 140 else 125) →
      Completes (.tempSample n temp) s fun t =>
        kget false t.power.sensors n.val = true ∧ t.flag ⟨PWR_LIMIT_STAT, limTEMP, 1⟩ = true ∧
        (∀ d ∈ sensorDoms n.val, (t.dom d).temp = 1 ∧ t.fld (PWR_DOM_STAT_GRANTED d) ≤ 1) ∧ t.mems = s.mems ∧ SameUnits s t)) ∧
  (∀ (n : Fin 56) (temp : Int) (t0 : Nat) (s : State), s.power.sensors = [(n.val, true)] → -128 ≤ temp →
    temp < (if Config.gradeXT then 125 else 110) → s.power.cool.lookup n.val = some t0 → 1000000 ≤ sinceNs s.now t0 →
    Completes (.tempSample n temp) s fun t =>
      t.power.sensors = [] ∧ (∀ d < 50, (t.dom d).temp = 7) ∧ t.mems = s.mems ∧ SameUnits s t) ∧
  (∀ (n : Fin 56) (temp : Int) (s : State), (if Config.gradeXT then 140 else 125) ≤ temp →
    s.power.shutdown = none → s.fld SAF_STATUS_STATE = safNORMAL → Completes (.tempSample n temp) s fun t =>
      EntersSafe cSUPPLY s t ∧ t.power.shutdown = some s.now) ∧
  (∀ (rail : Fin 9) (s : State), s.fld SAF_STATUS_STATE = safNORMAL → Completes (.supplyFault rail) s fun t =>
    EntersSafe cSUPPLY s t ∧ t.flag ⟨PWR_LIMIT_STAT, limSUPPLY, 1⟩ = true) ∧
  (∀ (t0 : Nat) (s : State), s.power.shutdown = some t0 → s.power.offAll = false → 100000 ≤ sinceNs s.now t0 →
    Completes .shutdownPowerOff s fun t =>
      t.power.offAll = true ∧ (∀ d < 50, t.fld (PWR_DOM_STAT_PSTATE d) = 0) ∧ t.power.shutdown = some t0 ∧ t.axes = s.axes) ∧
  (∀ (d : Fin 50) (s : State),
    (s.host.rings = [] → Completes (.droop d) s fun t =>
      t.dom d.val = { s.dom d.val with halved := true } ∧
      (t.rd (MON_DROOP_CNT d.val)).toNat = min 0xFFFFFFFF ((s.rd (MON_DROOP_CNT d.val)).toNat + 1) ∧
      t.flag ⟨PWR_LIMIT_STAT, limDROOP, 1⟩ = true ∧
      OnlyRegs (fun o => o = MON_DROOP_CNT d.val ∨ o = PWR_LIMIT_STAT) s t ∧ t.mems = s.mems ∧ SameUnits s t) ∧
    Completes (.droopStretchEnd d) s (fun t =>
      t.dom d.val = { s.dom d.val with halved := false } ∧ (∀ e, e ≠ d.val → t.dom e = s.dom e) ∧ t.csr = s.csr ∧
      t.mems = s.mems ∧ SameUnits s t) ∧
    ((s.dom d.val).raising = true → Completes (.voltageConfirmed d) s fun t =>
      t.fld (PWR_DOM_STAT_GRANTED d.val) = s.grantOf d.val ∧ (t.dom d.val).raising = false ∧
      (∀ o, o ≠ PWR_DOM_STAT d.val → t.rd o = s.rd o) ∧ t.mems = s.mems ∧ SameUnits s t) ∧
    ((s.dom d.val).raising = false → Completes (.voltageConfirmed d) s fun t => t = s)) ∧
  (∀ (src : Nat) (d : Fin 50) (v : Word) (s : State),
    (src = mSCP ∨ src = mHIP →
      (v.getLsbD 0 = true → s.fld (PWR_DOM_STAT_PSTATE d.val) = 0 → Completes (.pwrDomCtlWrite src d v) s fun t =>
        t.fld (PWR_DOM_STAT_PSTATE d.val) = 2 ∧ (t.rd (PWR_DOM_CTL d.val)).toNat = 1 ∧ t.reply.st = ST_OK ∧
        (∀ o, o ≠ PWR_DOM_STAT d.val → o ≠ PWR_DOM_CTL d.val → t.rd o = s.rd o) ∧ t.mems = s.mems ∧ SameUnits s t) ∧
      (v.getLsbD 0 = false → s.fld (PWR_DOM_STAT_PSTATE d.val) ≠ 0 →
        (d.val < 34 → (∀ f, f < 32 → s.physFacet f ≠ d.val) → Completes (.pwrDomCtlWrite src d v) s fun t =>
          t.fld (PWR_DOM_STAT_PSTATE d.val) = 0 ∧ (t.rd (PWR_DOM_CTL d.val)).toNat = 0 ∧ t.reply.st = ST_OK ∧
          (∀ i, d.val * 0x200000 ≤ i → i < (d.val + 1) * 0x200000 → t.mems.fom.byte i = 0) ∧
          SameBytesBut .fom (d.val * 0x200000) 0x200000 s t ∧ SameUnits s t) ∧
        (34 ≤ d.val → Completes (.pwrDomCtlWrite src d v) s fun t =>
          t.fld (PWR_DOM_STAT_PSTATE d.val) = 0 ∧ t.reply.st = ST_OK ∧
          (∀ n, 256 * (d.val - 34) ≤ n → n < 256 * (d.val - 34) + 256 → t.beadState n = bdOFF) ∧
          SameBytesBut .blm (260 * (d.val - 34) * 0x10000) (260 * 0x10000) s t ∧ t.facets = s.facets ∧ t.axes = s.axes))) ∧
    (src ≠ mSCP → src ≠ mHIP → Completes (.pwrDomCtlWrite src d v) s fun t =>
      t.reply.st = ST_NOT_PERMITTED ∧ OnlyRegs (fun _ => False) s t ∧ t.mems = s.mems ∧ t.power = s.power)) ∧
  (∀ (d : Fin 50) (s : State),
    (s.fld (PWR_DOM_STAT_PSTATE d.val) = 2 → Completes (.domainOnComplete d) s fun t =>
      t.fld (PWR_DOM_STAT_PSTATE d.val) = 1 ∧
      (d.val < 34 → ∀ f < 32, s.physFacet f = d.val → s.facState f = facOFF → t.facState f = facIDLE) ∧
      (34 ≤ d.val → ∀ n, 256 * (d.val - 34) ≤ n → n < 256 * (d.val - 34) + 256 → s.beadState n = bdOFF →
        t.beadState n = bdIDLE) ∧ t.mems = s.mems) ∧
    (s.fld (PWR_DOM_STAT_PSTATE d.val) ≠ 2 → Completes (.domainOnComplete d) s fun t => t = s))

/-! ### Resets and boot -/

/-- Every register that is not kept has its reset value; no package and no unit state is left, and of the
host's session `h` alone (R366, R373). -/
def ResetDone (keep : Nat → Bool) (h : HostSt) (s t : State) : Prop :=
  SafeOutputs t ∧ (∀ o, keep o = false → t.rd o = csrReset o) ∧ t.model.pkg = none ∧ t.host = h ∧ t.facets = [] ∧
  t.beads = [] ∧ t.axes = [] ∧ t.cams = [] ∧ t.pending = s.pending ∧ t.mems.fom = {} ∧ t.mems.blm = {} ∧
  t.mems.nvm = s.mems.nvm ∧ t.sec = s.sec ∧ (∀ n, n ≠ 0 → t.tb n = 0)

/-- A register that a warm reset, a device reset or HIBERNATE may leave at another value than reset's. -/
def warmKeeps (o : Nat) : Bool :=
  keptCold o || keptWarm o || o == PCI_LINK_STAT || (List.range 3).any fun p => o == GLB_PROC_STAT p

/-- R162, R308, R309, R365–R369, R373, R384: what each reset keeps and what it clears, with every output
low; a device reset is refused while an axis runs outside the safe state; the boot goes through the NVM
step, the firmware set (accepted, or FIRMWARE_HOLD), LPDDR5X and READY; the scrubber counts what it finds. -/
def Obligations.ResetsAndBoot : Prop :=
  (∀ s : State, Completes .coldReset s fun t =>
    ResetDone keptCold {} s t ∧ t.tb 0 = 0 ∧ t.mems.map = {} ∧ t.reset_.boot = .held) ∧
  (∀ (straps : BitVec 4) (s : State),
    (s.reset_.boot = .held → s.reset_.lastKind = 0 → Completes (.coldResetRelease straps) s fun t =>
      t.reset_.boot = .nvm ∧ (t.rd GLB_CHIP_ID).toNat = straps.toNat ∧
      (t.rd SEC_LC).toNat % 16 = (if bitsN (s.rd SEC_LC).toNat 8 4 = 0 then s.lifecycle else bitsN (s.rd SEC_LC).toNat 8 4) ∧
      (∀ o, o ≠ GLB_CHIP_ID → o ≠ SEC_LC → t.rd o = s.rd o) ∧ t.mems = s.mems) ∧
    (s.reset_.boot ≠ .held → Completes (.coldResetRelease straps) s fun t => t = s)) ∧
  (∀ (low : Nat) (s : State), ¬ (s.reset_.boot = .held ∧ s.reset_.lastKind = 0) →
    (10000 ≤ low → Completes (.warmReset low) s fun t =>
      ResetDone warmKeeps {} s t ∧ t.tb 0 = s.tb 0 ∧ t.reset_.boot = .held ∧ t.reset_.lastKind = 1 ∧
      t.rd GLB_ELOG_WR = s.rd GLB_ELOG_WR ∧ (t.rd RCK_CAUSE).toNat % 4 = 1 ∧
      (∀ b < 256, ∀ a, b * 0x80000 ≤ a → a < (b + 1) * 0x80000 →
        t.mems.map.byte a = if s.bankHolds b then s.mems.map.byte a else 0)) ∧
    (low < 1000 → Completes (.warmReset low) s fun t => t = s)) ∧
  (∀ s : State, s.reset_.boot = .held → s.reset_.lastKind = 1 → Completes .warmResetRelease s fun t =>
    t.reset_.boot = .nvm ∧ t.csr = s.csr ∧ t.mems = s.mems) ∧
  (∀ (src : Nat) (v : Word) (s : State), src = mPCIe ∨ src = mHIP → s.inStandby = false → s.hostStalls src = false →
    s.reset_.boot ≠ .held →
    (v.toNat / 65536 = 0xD5E5 → v.getLsbD 0 = true →
      ((∀ a < 16, s.axState a ≠ axRUNNING) ∨ s.fld SAF_STATUS_STATE = safSAFE → Completes (.deviceReset src v) s fun t =>
        ResetDone warmKeeps { pci := s.host.pci, aer := s.host.aer } s t ∧ t.tb 0 = s.tb 0 ∧ t.reset_.boot = .nvm ∧ t.reset_.devInReset = true ∧
        t.mems.ddr = s.mems.ddr ∧ t.rd PCI_LINK_STAT = s.rd PCI_LINK_STAT ∧ (t.rd RCK_CAUSE).toNat % 4 = 2) ∧
      ((∃ a < 16, s.axState a = axRUNNING) → s.fld SAF_STATUS_STATE ≠ safSAFE → Completes (.deviceReset src v) s fun t =>
        t.fld ⟨RCK_CAUSE, 16, 16⟩ = ST_BAD_STATE.toNat ∧ OnlyRegs (fun o => o = RCK_CAUSE) s t ∧ t.mems = s.mems ∧
        SameUnits s t ∧ t.reset_ = s.reset_)) ∧
    (v.toNat / 65536 ≠ 0xD5E5 → Completes (.deviceReset src v) s fun t =>
      t.csr = s.csr ∧ t.mems = s.mems ∧ SameUnits s t ∧ t.reset_ = s.reset_)) ∧
  (∀ s : State, s.reset_.boot = .nvm → s.host.goOrder = [] → Completes .firmwareSetLoad s fun t =>
    (s.loadDevice.bootSlot = none → t.fld MBX_FW_STAGE = 1 ∧ t.reset_.boot = .hold ∧
      (∀ p, t.procState p = s.loadDevice.procState p) ∧ t.mems.imem = s.mems.imem) ∧
    (∀ k x n a b c, s.loadDevice.bootSlot = some (k, x, false, some n) → x.images = [a, b, c] →
      t.fld MBX_FW_STAGE = 2 ∧ t.reset_.boot = .starting ∧ (∀ p < 3, t.procState p = procRUN) ∧
      kget [] t.mems.imem 0 = a.body ∧ kget [] t.mems.imem 1 = b.body ∧ kget [] t.mems.imem 2 = c.body ∧
      t.fld GLB_FW_SET_OVERRIDE = 0) ∧
    (s.lifecycle = lcSCRAPPED → t.fld MBX_FW_STAGE = 1)) ∧
  (∀ (s : State), s.reset_.boot = .starting →
    (s.reset_.ddrTrained = false → Completes .lpddr5xTrained s fun t =>
      t.reset_ = { s.reset_ with ddrTrained := true } ∧
      ((t.rd DDR_SIZE).toNat, (t.rd DDR_STAGE).toNat) =
        ([(3072, 512), (6144, 1024), (12288, 2048), (26624, 2048)].getD ((s.rd DDR_POP).toNat % 4) (0, 0)) ∧
      (∀ o, o ≠ DDR_SIZE → o ≠ DDR_STAGE → o ≠ DDR_STAT → t.rd o = s.rd o) ∧ t.mems = s.mems) ∧
    (s.reset_.ddrTrained = true → s.reset_.checksDone = true → s.hipUp = true → s.commitInForce = none →
      s.reset_.badRecords = [] → s.host.goOrder = [] → Completes .bootReady s fun t =>
        t.fld MBX_FW_STAGE = 3 ∧ t.reset_.boot = .ready ∧ t.power.fn = .running ∧ t.time = s.time ∧ t.eth = s.eth ∧
        t.cans = s.cans ∧ t.model = s.model ∧ t.mems = s.mems ∧ SameUnits s t)) ∧
  (∀ (word : Nat) (fin : Bool) (s : State), s.reset_.ddrTrained = true →
    8 * word < ((s.rd DDR_SIZE).toNat + (s.rd DDR_STAGE).toNat) * 2 ^ 20 → s.mems.ddr.bad word = false →
    Completes (.lpddr5xPatrolScrub word .corrected fin) s (fun t =>
      (t.rd DDR_ECC_CORR).toNat = min 0xFFFFFFFF ((s.rd DDR_ECC_CORR).toNat + 1) ∧
      (t.rd DDR_SCRUB_PASS).toNat = (if fin then min 0xFFFFFFFF ((s.rd DDR_SCRUB_PASS).toNat + 1) else (s.rd DDR_SCRUB_PASS).toNat) ∧
      t.mems = s.mems ∧ SameUnits s t) ∧
    Completes (.lpddr5xPatrolScrub word .uncorrected fin) s fun t =>
      t.mems.ddr.bad word = true ∧ (t.rd DDR_ECC_UNCORR).toNat = min 0xFFFFFFFF ((s.rd DDR_ECC_UNCORR).toNat + 1) ∧
      SameBytes s t ∧ SameUnits s t)

/-! ### Low-power states -/

/-- The request for state `req` has been taken: entry is under way (R370). -/
def LpEntering (req : Nat) (v : Word) (s t : State) : Prop :=
  t.lpState = lpENTERING ∧ t.reset_ = { s.reset_ with lp := .entering req } ∧ t.fld RCK_LP_LAST_ST = 0 ∧
  t.fld RCK_LP_WAKE_PIN = bitsN v.toNat 3 1 ∧ t.fld RCK_LP_WAKE_TIME = bitsN v.toNat 2 1 ∧
  (∀ o, o ≠ RCK_LP → t.rd o = s.rd o) ∧ t.mems = s.mems ∧ SameUnits s t

/-- A request that is not applied: LAST_ST alone tells it (R370, R371). -/
def LpRefused (s t : State) : Prop :=
  t.fld RCK_LP_LAST_ST = ST_BAD_STATE.toNat ∧ t.lpState = s.lpState ∧ t.reset_ = s.reset_ ∧
  (∀ o, o ≠ RCK_LP → t.rd o = s.rd o) ∧ t.mems = s.mems ∧ SameUnits s t

/-- Exit from LIGHT or STANDBY has begun (R371). -/
def LpExiting (s t : State) : Prop :=
  t.lpState = lpEXITING ∧ t.reset_ = { s.reset_ with lp := .exiting s.lpState } ∧ t.mems = s.mems ∧ SameUnits s t ∧
  (∀ o, o ≠ RCK_LP → t.rd o = s.rd o)

/-- R370, R371, R373: a request enters a low-power state where its conditions hold and is refused
elsewhere; at entry the domains go off and the banks into RETENTION, HIBERNATE leaves the always-on
domain; a wake event, if enabled, starts the exit, at whose end domains and banks are back. -/
def Obligations.LowPowerStates : Prop :=
  (∀ (src : Nat) (v : Word) (s : State), s.lpState = lpACTIVE → s.inStandby = false → s.hostStalls src = false →
    (s.lpAllowed 1 = true → Completes (.lpReqLight src v) s (LpEntering 1 v s)) ∧
    (s.lpAllowed 1 = false → Completes (.lpReqLight src v) s (LpRefused s)) ∧
    (s.lpAllowed 2 = true → Completes (.lpReqStandby src v) s (LpEntering 2 v s)) ∧
    (s.lpAllowed 2 = false → Completes (.lpReqStandby src v) s (LpRefused s)) ∧
    (s.lpAllowed 3 = true → Completes (.lpReqHibernate src v) s (LpEntering 3 v s)) ∧
    (s.lpAllowed 3 = false → Completes (.lpReqHibernate src v) s (LpRefused s))) ∧
  (∀ (src : Nat) (v : Word) (s : State), src ≠ mPCIe →
    (s.lpState = lpENTERING ∨ s.lpState = lpEXITING →
      Completes (.lpReqActive src v) s (LpRefused s) ∧ Completes (.lpReqLight src v) s (LpRefused s)) ∧
    (s.lpState = lpLIGHT ∨ s.lpState = lpSTANDBY → Completes (.lpReqActive src v) s (LpExiting s))) ∧
  (∀ (req : Nat) (s : State), req = lpLIGHT ∨ req = lpSTANDBY → s.reset_.lp = .entering req → s.reset_.wakeHeld = false →
    Completes .lpEntryComplete s fun t =>
      t.lpState = req ∧ t.reset_.lp = .none ∧ (∀ d < 50, t.fld (PWR_DOM_STAT_PSTATE d) = 0) ∧
      (∀ b < 248, s.bankState b = bankON → t.bankState b = bankRET) ∧
      (∀ b, 248 ≤ b → b < 256 → t.bankState b = s.bankState b) ∧ t.axes = s.axes ∧ t.time.tb = s.time.tb) ∧
  (∀ s : State, s.reset_.lp = .entering 3 → s.reset_.wakeHeld = false → Completes .lpEntryComplete s fun t =>
    ResetDone warmKeeps {} s t ∧ t.reset_.lp = .hibernate ∧ t.reset_.boot = .held ∧ t.tb 0 = s.tb 0 ∧ t.mems.map = {}) ∧
  (∀ (st : Nat) (s : State), s.reset_.lp = .exiting st → s.reset_.heldHost = [] →
    s.host.goOrder = [] → s.model.pkg = none → (∀ d ∈ s.reset_.lpDoms, d < 50) → (∀ b ∈ s.reset_.lpBanks, b < 256) →
    Completes .lpExitComplete s fun t =>
      t.lpState = lpACTIVE ∧ t.reset_.lp = .none ∧ (∀ d ∈ s.reset_.lpDoms, t.fld (PWR_DOM_STAT_PSTATE d) = 1) ∧
      (∀ b ∈ s.reset_.lpBanks, t.bankState b = bankON) ∧ t.axes = s.axes ∧ t.beads = s.beads) ∧
  (∀ (low : Nat) (s : State),
    (1000 ≤ low → s.flag RCK_LP_WAKE_PIN = true →
      (s.reset_.lp ≠ .hibernate → s.lpState = lpLIGHT ∨ s.lpState = lpSTANDBY → Completes (.wakeN low) s (LpExiting s)) ∧
      (s.reset_.lp = .hibernate → Completes (.wakeN low) s fun t =>
        t.reset_.boot = .nvm ∧ (t.rd RCK_CAUSE).toNat % 4 = 3 ∧ (∀ o, o ≠ RCK_CAUSE → t.rd o = s.rd o) ∧ t.mems = s.mems)) ∧
    (low < 1000 ∨ s.flag RCK_LP_WAKE_PIN = false → Completes (.wakeN low) s fun t => t = s)) ∧
  (∀ s : State,
    (s.flag RCK_LP_WAKE_TIME = true → reached 64 (s.tb64 0).toNat (s.rd64 RCK_WAKE_T_LO RCK_WAKE_T_HI).toNat = true →
      (s.reset_.lp ≠ .hibernate → s.lpState = lpLIGHT ∨ s.lpState = lpSTANDBY → Completes .wakeTime s (LpExiting s)) ∧
      (s.reset_.lp = .hibernate → Completes .wakeTime s fun t => t.reset_.boot = .nvm ∧ t.mems = s.mems)) ∧
    (s.flag RCK_LP_WAKE_TIME = false → Completes .wakeTime s fun t => t = s))

/-! ### Security and debug -/

/-- A request of the debug port that is not applied: the log alone takes note (R381, R388). -/
def PortRefused (s t : State) : Prop :=
  t.reply.st = ST_NOT_PERMITTED ∧ OnlyRegs (fun _ => False) s t ∧ t.sec = s.sec ∧ t.dport = s.dport ∧ t.mems = s.mems ∧
  SameUnits s t

/-- R310, R380–R384, R387–R390: a challenge serves one response, a verified response grants its
permissions, the third failure in a row locks AUTH for 60 s; lifecycle steps run forward and wait for a
cold reset; a key slot is written once and a revocation never cleared; the running flash slot and, outside
INIT and SAFE, the pins are closed to the port. -/
def Obligations.SecurityPort : Prop :=
  (∀ s : State,
    (s.authOpen = true → Completes .dbgChalRead s fun t =>
      t.dport = { s.dport with chal := some (Config.challenge s.dport.chalGen), chalAt := s.now, chalGen := s.dport.chalGen + 1 } ∧
      t.reply = { st := ST_OK, data := leBytes 32 (Config.challenge s.dport.chalGen).toNat } ∧ t.csr = s.csr ∧ t.mems = s.mems) ∧
    (s.authOpen = false → Completes .dbgChalRead s (PortRefused s))) ∧
  (∀ (perm : Word) (r s' : BitVec 384) (s : State), s.authOpen = true → Completes (.authResponse perm r s') s fun t =>
    t.dport.chal = none ∧ t.mems = s.mems ∧ SameUnits s t ∧
    (∀ c, s.dport.chal = some c → perm.toNat < 512 → s.flag ⟨SEC_KEY_STAT, 16, 1⟩ = true →
      ecdsaVerify s.sec.dbgX s.sec.dbgY (sha384 (s.authBytes c perm)) r s' = true →
      t.fld authPERM = perm.toNat ∧ t.fld authFAILS = 0 ∧ t.reply.st = ST_OK) ∧
    (s.dport.chal = none ∨ 512 ≤ perm.toNat ∨ s.flag ⟨SEC_KEY_STAT, 16, 1⟩ = false →
      t.fld authFAILS = min 3 (s.fld authFAILS + 1) ∧ t.fld authPERM = s.fld authPERM ∧ t.reply.st = ST_NOT_PERMITTED ∧
      (t.rd DBG_AUTH_FAIL_CNT).toNat = min 0xFFFFFFFF ((s.rd DBG_AUTH_FAIL_CNT).toNat + 1) ∧
      (2 ≤ s.fld authFAILS → t.flag authLOCKOUT = true ∧ t.dport.lockAt = some s.now))) ∧
  (∀ s : State,
    (s.dport.chal.isSome = true → 10000000000 ≤ sinceNs s.now s.dport.chalAt → Completes .challengeExpired s fun t =>
      t = { s with dport := { s.dport with chal := none } }) ∧
    (sinceNs s.now s.dport.chalAt < 10000000000 → Completes .challengeExpired s fun t => t = s) ∧
    (∀ t0, s.dport.lockAt = some t0 →
      (60000000000 ≤ sinceNs s.now t0 → Completes .lockoutEnd s fun t =>
        t.flag authLOCKOUT = false ∧ t.fld authFAILS = 0 ∧ t.dport = { s.dport with lockAt := none } ∧
        (∀ o, o ≠ DBG_AUTH_STAT → t.rd o = s.rd o) ∧ t.mems = s.mems) ∧
      (sinceNs s.now t0 < 60000000000 → Completes .lockoutEnd s fun t => t = s))) ∧
  (∀ (b : BitVec 4) (s : State),
    (s.permitted permLIFECYCLE = true → lcStep s.fuseState b.toNat = true → s.host.store = none →
      (b.toNat = lcPRODUCTION → s.flag ⟨SEC_KEY_STAT, 0, 1⟩ = true ∧ s.flag ⟨SEC_KEY_STAT, 16, 1⟩ = true) →
      Completes (.lifecycleRequest b) s fun t =>
        t.fld ⟨SEC_LC, 8, 4⟩ = b.toNat ∧ t.lifecycle = s.lifecycle ∧ t.reply.st = ST_OK ∧
        (b.toNat = lcRMA → t.sec.aes = [] ∧ t.sec.wrapped = false ∧ t.fld ⟨SEC_KEY_STAT, 8, 4⟩ = 0) ∧
        (b.toNat ≠ lcRMA → t.sec = s.sec) ∧ OnlyRegs (fun o => o = SEC_LC ∨ o = SEC_KEY_STAT) s t ∧ t.mems = s.mems) ∧
    (s.permitted permLIFECYCLE = false ∨ lcStep s.fuseState b.toNat = false ∨ s.host.store.isSome = true →
      Completes (.lifecycleRequest b) s (PortRefused s))) ∧
  (∀ (slot : KeySlot) (x y : BitVec 384) (s : State),
    (s.permitted permKEYS = true → s.flag ⟨SEC_KEY_STAT, keyBit slot, 1⟩ = false → Completes (.keyProvision slot x y) s fun t =>
      t.flag ⟨SEC_KEY_STAT, keyBit slot, 1⟩ = true ∧ t.reply.st = ST_OK ∧
      (match slot with
        | .pub k => kget 0 t.sec.pubX k.val = x ∧ kget 0 t.sec.pubY k.val = y
        | .aes k => kget 0 t.sec.aes k.val = x
        | .dbg => t.sec.dbgX = x ∧ t.sec.dbgY = y) ∧ (∀ o, o ≠ SEC_KEY_STAT → t.rd o = s.rd o) ∧ t.mems = s.mems) ∧
    (s.permitted permKEYS = false ∨ s.flag ⟨SEC_KEY_STAT, keyBit slot, 1⟩ = true →
      Completes (.keyProvision slot x y) s (PortRefused s)) ∧
    (∀ k, slot = .pub k →
      (s.permitted permKEYS = true → s.otherPub k.val = true → Completes (.keyRevoke slot) s fun t =>
        t.flag ⟨SEC_KEY_STAT, 4 + k.val, 1⟩ = true ∧ t.reply.st = ST_OK ∧ t.sec = s.sec ∧
        (∀ o, o ≠ SEC_KEY_STAT → t.rd o = s.rd o) ∧ t.mems = s.mems) ∧
      (s.otherPub k.val = false → Completes (.keyRevoke slot) s (PortRefused s))) ∧
    (∀ k, slot = .aes k → s.permitted permKEYS = true → Completes (.keyRevoke slot) s fun t =>
      t.flag ⟨SEC_KEY_STAT, 12 + k.val, 1⟩ = true ∧ t.reply.st = ST_OK ∧ (∀ o, o ≠ SEC_KEY_STAT → t.rd o = s.rd o) ∧
      t.mems = s.mems)) ∧
  (∀ (v : Word) (s : State),
    (s.permitted permLIFECYCLE = true ∨ s.permitted permKEYS = true → Completes (.secPolicyWrite v) s fun t =>
      t.rd SEC_POLICY = v &&& 7 ∧ t.reply.st = ST_OK ∧ (∀ o, o ≠ SEC_POLICY → t.rd o = s.rd o) ∧ t.mems = s.mems) ∧
    (s.permitted permLIFECYCLE = false → s.permitted permKEYS = false → Completes (.secPolicyWrite v) s (PortRefused s))) ∧
  (∀ (slotB : Bool) (x : FlashSlot) (s : State),
    ((s.reset_.boot = .held ∧ s.reset_.lastKind = 0) ∨ (s.permitted permFLASH = true ∧ s.flag GLB_FW_SET_SLOT ≠ slotB) →
      Completes (.xspiAccess slotB x) s fun t =>
        t.sec = (if slotB then { s.sec with slotB := some x } else { s.sec with slotA := some x }) ∧ t.reply.st = ST_OK ∧
        t.csr = s.csr ∧ t.mems = s.mems) ∧
    (s.reset_.boot ≠ .held → s.permitted permFLASH = false ∨ s.flag GLB_FW_SET_SLOT = slotB →
      Completes (.xspiAccess slotB x) s (PortRefused s))) ∧
  (∀ (i : ScanInstr) (s : State),
    (s.permitted permBSCAN = true → s.fld SAF_STATUS_STATE = safINIT ∨ s.fld SAF_STATUS_STATE = safSAFE →
      Completes (.boundaryScan i) s fun t => t.dport = { s.dport with ir := some i } ∧ t.csr = s.csr ∧ t.mems = s.mems ∧ SameUnits s t) ∧
    (s.permitted permBSCAN = false ∨ (s.fld SAF_STATUS_STATE ≠ safINIT ∧ s.fld SAF_STATUS_STATE ≠ safSAFE) →
      Completes (.boundaryScan i) s fun t =>
        t.dport = { s.dport with ir := none } ∧ t.reply.st = ST_NOT_PERMITTED ∧ t.csr = s.csr ∧ t.mems = s.mems ∧ SameUnits s t))

/-- The effect of a halt on target `g` (R391). -/
def Halted (g : DebugTarget) (s t : State) : Prop :=
  match g with
  | .bead n => t.beadState n.val = bdHALTED ∧ (∀ o, o ≠ BEAD_STATUS n.val → t.rd o = s.rd o) ∧ t.beads = s.beads ∧ t.mems = s.mems
  | .proc p => t.procState (procNo p) = procHALTED ∧ (∀ q, q ≠ procNo p → t.proc q = s.proc q) ∧ t.facets = s.facets ∧
      t.beads = s.beads ∧ (∀ a, a < procNo p * 0x80000 ∨ procNo p * 0x80000 + 0x80000 ≤ a → t.mems.dmem.byte a = s.mems.dmem.byte a) ∧
      (∀ sp, sp ≠ .dmem → t.mem sp = s.mem sp) ∧ (p ≠ .sfp → t.axes = s.axes)

/-- The target runs, and may be halted now: the SFP in INIT or SAFE alone (R391). -/
def MayHalt (g : DebugTarget) (s : State) : Prop :=
  match g with
  | .bead n => s.beadState n.val = bdRUNNING
  | .proc p => s.procState (procNo p) = procRUN ∧
      (p = .sfp → s.fld SAF_STATUS_STATE = safINIT ∨ s.fld SAF_STATUS_STATE = safSAFE)

/-- R391–R393: a halt and a breakpoint stop a running target, the SFP in INIT or SAFE alone; a halted target
executes one instruction and halts again; resume lets a Bead continue and restarts a processor; a debug
reset ends every grant and halt; debug accesses are requests of the port with their permission, and the
protected blocks take no write from it. -/
def Obligations.DebugFunctions : Prop :=
  (∀ (g : DebugTarget) (k : Fin 6) (s : State),
    (s.permitted (haltPerm g) = true → MayHalt g s →
      Completes (.debugHalt g) s (Halted g s) ∧ (k.val < pointCount g → Completes (.breakpointHit g k) s (Halted g s))) ∧
    (s.permitted (haltPerm g) = false → Completes (.debugHalt g) s (PortRefused s) ∧
      Completes (.breakpointHit g k) s fun t => t = s) ∧
    (pointCount g ≤ k.val → Completes (.breakpointHit g k) s fun t => t = s) ∧
    (g = .proc .sfp → s.permitted permHALT_SFP = true → s.procState 1 = procRUN → s.fld SAF_STATUS_STATE = safNORMAL →
      Completes (.debugHalt g) s (PortRefused s))) ∧
  (∀ (n : Fin 4096) (s : State), s.permitted permHALT_BEAD = true →
    (s.beadState n.val ≠ bdHALTED → Completes (.debugStep (.bead n)) s fun t => t = s.answer ST_OK) ∧
    (∀ u, s.beadState n.val = bdHALTED → (∀ w l, (s.setBeadState n.val bdRUNNING).beadFetch n.val ≠ .op (.custom w) l) →
      exec (.beadBaseInstruction n) (s.setBeadState n.val bdRUNNING) = .next u → u.beadState n.val = bdRUNNING →
      Completes (.debugStep (.bead n)) s fun t => t = (u.setBeadState n.val bdHALTED).answer ST_OK) ∧
    (s.beadState n.val = bdHALTED → Completes (.debugResume (.bead n)) s fun t =>
      t.beadState n.val = bdRUNNING ∧ (∀ o, o ≠ BEAD_STATUS n.val → t.rd o = s.rd o) ∧ t.beads = s.beads ∧ t.mems = s.mems)) ∧
  (∀ (p : Proc) (s : State), s.permitted (haltPerm (.proc p)) = true →
    (s.procState (procNo p) ≠ procHALTED → Completes (.debugStep (.proc p)) s fun t => t = s.answer ST_OK) ∧
    (∀ u, u = (s.setF (GLB_PROC_STAT_STATE (procNo p)) procRUN).coreStep (procNo p) → u.procState (procNo p) = procRUN →
      s.procState (procNo p) = procHALTED → Completes (.debugStep (.proc p)) s fun t =>
        t = (u.setF (GLB_PROC_STAT_STATE (procNo p)) procHALTED).answer ST_OK)) ∧
  (∀ (p : Proc) (s : State), s.permitted (haltPerm (.proc p)) = true → s.procState (procNo p) = procHALTED →
    Completes (.debugResume (.proc p)) s fun t =>
      t.procState (procNo p) = procRESTART ∧ t.fld (GLB_PROC_STAT_CAUSE (procNo p)) = s.fld (GLB_PROC_STAT_CAUSE (procNo p)) ∧
      (t.proc (procNo p)).crashes = (s.proc (procNo p)).crashes ∧
      (∀ a, procNo p * 0x80000 ≤ a → a < procNo p * 0x80000 + 0x80000 → t.mems.dmem.byte a = 0) ∧
      (∀ sp, sp ≠ .dmem → t.mem sp = s.mem sp) ∧ SameUnits s t) ∧
  (∀ s : State, Completes .debugReset s fun t =>
    t.rd DBG_AUTH_STAT = csrReset DBG_AUTH_STAT ∧ t.dport.chal = none ∧ t.dport.ir = none ∧
    (∀ n < 4096, t.beadState n = if s.beadState n = bdHALTED then bdRUNNING else s.beadState n) ∧
    (∀ n, n = 0 ∨ n = 2 → t.procState n = if s.procState n = procHALTED then procRESTART else s.procState n) ∧
    (s.safety.ackHeld = false → t.procState 1 = s.procState 1) ∧ t.beads = s.beads ∧ t.facets = s.facets) ∧
  (∀ (off n : Nat) (s : State), FabricQuiet s → off < 0x8000000 → lineOk off n = true → s.bankServes (off / 0x80000) = true →
    syncArea off n = false →
    (s.permitted permMEM_READ = true → s.isSealed (aliasAddr 0x10000000 off) n = false →
      Completes (.debugMemoryAccess (aliasAddr 0x10000000 off) n none) s fun t =>
        t.reply.st = ST_OK ∧ t.reply.data = s.mems.map.bytes off n ∧ SameBytes s t ∧ SameUnits s t) ∧
    (s.permitted permMEM_READ = true → s.isSealed (aliasAddr 0x10000000 off) n = true →
      Completes (.debugMemoryAccess (aliasAddr 0x10000000 off) n none) s fun t =>
        t.reply.st = ST_NOT_PERMITTED ∧ t.reply.data = List.replicate n 0 ∧ SameBytes s t ∧ SameUnits s t) ∧
    (s.permitted permMEM_READ = false → Completes (.debugMemoryAccess (aliasAddr 0x10000000 off) n none) s (PortRefused s)) ∧
    (∀ d, d.length = n →
      (s.permitted permMEM_WRITE = true → s.mems.map.partBad 8 off n = false →
        Completes (.debugMemoryAccess (aliasAddr 0x10000000 off) n (some d)) s fun t =>
          t.reply.st = ST_OK ∧ t.mems.map.bytes off n = d ∧ SameBytesBut .map off n s t ∧ SameUnits s t) ∧
      (s.permitted permMEM_WRITE = false →
        Completes (.debugMemoryAccess (aliasAddr 0x10000000 off) n (some d)) s (PortRefused s)))) ∧
  (∀ (off : Nat) (d : List Byte) (s : State), debugRefuses off = true → off % 4 = 0 → d.length = 4 →
    s.permitted permMEM_WRITE = true → Completes (.debugMemoryAccess (aliasAddr 0 off) 4 (some d)) s fun t =>
      t.reply.st = ST_NOT_PERMITTED ∧ OnlyRegs (fun _ => False) s t ∧ t.mems = s.mems ∧ SameUnits s t)

/-! ### Rules stated whole -/

/-- R8: counter `a` of width `w` is later than counter `b` when their difference modulo 2^w, read as a
two's-complement value, is greater than zero; they are equal when it is zero, a window epoch (16 bits) as
well. A wait on a sync object and the wake time on a time base compare so. -/
def Obligations.WrappingCounters : Prop :=
  (∀ w a b : Nat, 0 < w → a < 2 ^ w → b < 2 ^ w →
    (0 < diffC w a b ↔ ∃ d, 0 < d ∧ d < 2 ^ (w - 1) ∧ a = (b + d) % 2 ^ w) ∧
    (diffC w a b = 0 ↔ a = b) ∧ (reached w a b = true ↔ a = b ∨ 0 < diffC w a b)) ∧
  (∀ (src : Nat) (n : Fin 16384) (v : Word) (s : State), src ≠ mPCIe → s.soBad n.val = false →
    (s.fab.waits.any fun w => w.src = src) = false →
    Completes (.soWait src n (some (v, 0))) s fun t =>
      t.reply.st = if (∃ d, d < 2 ^ 31 ∧ (s.so n.val).toNat = (v.toNat + d) % 2 ^ 32) then ST_OK else ST_WAIT_TIMEOUT) ∧
  (∀ s : State, s.reset_.lp ≠ .hibernate → s.lpState = lpLIGHT → s.flag RCK_LP_WAKE_TIME = true →
    let later := ∃ d, d < 2 ^ 63 ∧
      (s.tb64 0).toNat = ((s.rd64 RCK_WAKE_T_LO RCK_WAKE_T_HI).toNat + d) % 2 ^ 64
    (later → Completes .wakeTime s fun t => t.lpState = lpEXITING ∧ t.mems = s.mems) ∧
    (¬ later → Completes .wakeTime s fun t => t = s))

/-- A write that is not applied: its source has ST_NOT_PERMITTED, and the log an entry if it has room. -/
def WriteRefused (s t : State) : Prop :=
  t.reply = { st := ST_NOT_PERMITTED } ∧ OnlyRegs (fun _ => False) s t ∧ t.mems = s.mems ∧ t.fab = s.fab ∧ SameUnits s t ∧
  (s.logFull = false → s.elogLost = 0 → t.rd GLB_ELOG_WR = BitVec.ofNat 32 ((s.rd GLB_ELOG_WR).toNat + 1))

/-- R144: MM_CTL takes writes of the SCP and of the HIP; a write of any other source is not applied and
logged, and its source receives ST_NOT_PERMITTED. -/
def Obligations.MapControlWriters : Prop :=
  ∀ (src : Nat) (b : Fin 256) (v : Word) (s : State),
    (src = mSCP ∨ src = mHIP → ∀ c : Instr,
      c = .csrWrite src (MM_CTL b.val) 0xF ⟨v, 0⟩ ∨ c = .bankReqOn src b ∨ c = .bankReqRetention src b ∨ c = .bankReqOff src b →
      Completes c s fun t => t.reply = { st := ST_OK } ∧ SameUnits s t) ∧
    (src ≠ mSCP → src ≠ mHIP → s.inStandby = false → s.hostStalls src = false → ∀ c : Instr,
      c = .csrWrite src (MM_CTL b.val) 0xF ⟨v, 0⟩ ∨ c = .bankReqOn src b ∨ c = .bankReqRetention src b ∨ c = .bankReqOff src b →
      Completes c s (WriteRefused s))

/-- R133: BEAD_CTL, BEAD_ENTRY, BEAD_ARG, BEAD_SAVE and BEAD_YLIM take writes of the SCP alone, the other
registers of the block also of the node's own core; a write of any other source is not applied and
logged, and its source receives ST_NOT_PERMITTED. -/
def Obligations.BeadRegisterWriters : Prop :=
  (∀ (src off : Nat) (n : Fin 4096) (v : Word) (s : State), 0x400000 + 0x400 * n.val ≤ off →
    off < 0x400400 + 0x400 * n.val → off % 4 = 0 → (regAt off).isSome = true → s.inStandby = false → s.hostStalls src = false →
    (src = mSCP ∨ (src = n.val ∧ beadScpOnly n.val off = false) → Completes (.csrWrite src off 0xF ⟨v, 0⟩) s fun t =>
      t.reply = { st := ST_OK }) ∧
    (src ≠ mSCP → src ≠ n.val ∨ beadScpOnly n.val off = true → Completes (.csrWrite src off 0xF ⟨v, 0⟩) s (WriteRefused s))) ∧
  (∀ (src : Nat) (n : Fin 4096) (s : State), src ≠ mSCP → s.inStandby = false → ∀ c : Instr,
    c = .beadStart src n ∨ c = .beadStop src n ∨ c = .yieldReq src n ∨ c = .beadResume src n →
    Completes c s (WriteRefused s)) ∧
  (∀ n : Nat, ∀ off, beadScpOnly n off = true ↔
    off = BEAD_CTL n ∨ off = BEAD_ENTRY n ∨ off = BEAD_ARG n ∨ off = BEAD_SAVE n ∨ off = BEAD_YLIM n)

/-- A command whose operands are well formed always ends in a next state: the model refuses none. -/
def Obligations.WellFormedCommandsComplete : Prop :=
  ∀ (c : Instr) (s : State), c.wf = true → ∃ t, exec c s = .next t
end

