-- ==== Sys2Proof/Laws/Maps.lean ====
section
/-! SUPPORT. Laws of sparse maps, bit fields, registers and little-endian bytes. -/

namespace Sys2Proof.Machine

/-! ### Sparse maps -/

theorem kget_kput {α : Type} (d : α) (k : Nat) (v : α) (m : KMap α) (j : Nat) :
    kget d (kput k v m) j = if k = j then v else kget d m j := by
  fun_induction kput k v m <;> simp only [kget] <;> split_ifs <;> simp_all

@[simp] theorem kget_kput_same {α : Type} (d : α) (k : Nat) (v : α) (m : KMap α) :
    kget d (kput k v m) k = v := by simp [kget_kput]

theorem kget_kput_ne {α : Type} (d : α) {k j : Nat} (v : α) (m : KMap α) (h : k ≠ j) :
    kget d (kput k v m) j = kget d m j := by simp [kget_kput, h]

theorem kget_kdel {α : Type} (d : α) (k : Nat) (m : KMap α) (j : Nat) :
    kget d (kdel k m) j = if k = j then d else kget d m j := by
  unfold kdel
  induction m with
  | nil => simp [kget]
  | cons p m ih => by_cases hp : p.1 = k <;> simp [hp, kget] <;> grind

/-! ### Fields -/

theorem bitsN_lt (w lo len : Nat) : bitsN w lo len < 2 ^ len := Nat.mod_lt _ (by positivity)

theorem bitsN_eq (w lo len : Nat) : bitsN w lo len = (w >>> lo) % 2 ^ len := by
  simp [bitsN, Nat.shiftRight_eq_div_pow]

theorem testBit_bitsN (w lo len i : Nat) :
    (bitsN w lo len).testBit i = (decide (i < len) && w.testBit (lo + i)) := by
  rw [bitsN_eq, Nat.testBit_mod_two_pow, Nat.testBit_shiftRight]

/-- A field reads back as it was set, cut to its width. -/
theorem Fld.get_set_same (F : Fld) (v : Nat) (w : Word) (h : F.lo + F.len ≤ 32) :
    F.get (F.set v w) = v % 2 ^ F.len := by
  apply Nat.eq_of_testBit_eq
  intro i
  simp only [Fld.get, Fld.set, testBit_bitsN, BitVec.testBit_toNat, BitVec.getLsbD_or, BitVec.getLsbD_and,
    BitVec.getLsbD_not, BitVec.getLsbD_ofNat, Nat.testBit_mul_two_pow, Nat.testBit_two_pow_sub_one,
    Nat.testBit_mod_two_pow]
  by_cases hi : i < F.len
  · have h2 : F.lo + i < 32 := by omega
    simp [hi, h2]
  · simp [hi]

/-- A field keeps its value when another field, below or above it, is set. -/
theorem Fld.get_set_other (F G : Fld) (v : Nat) (w : Word)
    (h : F.lo + F.len ≤ G.lo ∨ G.lo + G.len ≤ F.lo) :
    F.get (G.set v w) = F.get w := by
  apply Nat.eq_of_testBit_eq
  intro i
  simp only [Fld.get, Fld.set, testBit_bitsN, BitVec.testBit_toNat, BitVec.getLsbD_or, BitVec.getLsbD_and,
    BitVec.getLsbD_not, BitVec.getLsbD_ofNat, Nat.testBit_mul_two_pow, Nat.testBit_two_pow_sub_one,
    Nat.testBit_mod_two_pow]
  by_cases hi : i < F.len
  · by_cases h32 : F.lo + i < 32
    · have hz : (decide (G.lo ≤ F.lo + i) && decide (F.lo + i - G.lo < G.len)) = false := by
        rcases h with h | h <;> simp <;> omega
      by_cases hg : G.lo ≤ F.lo + i
      · have hl : ¬ F.lo + i - G.lo < G.len := by simpa [hg] using hz
        simp [hi, h32, hl]
      · simp [hi, h32, hg]
    · simp [hi, h32]
      exact BitVec.getLsbD_of_ge w _ (by omega)
  · simp [hi]

/-! ### Registers -/

@[simp] theorem State.rd_wr (s : State) (o : Nat) (v : Word) (p : Nat) :
    (s.wr o v).rd p = if o = p then v else s.rd p := by
  simp [State.rd, State.wr, kget_kput]

theorem State.rd_wr_same (s : State) (o : Nat) (v : Word) : (s.wr o v).rd o = v := by simp

theorem State.rd_setF (s : State) (F : Fld) (v p : Nat) :
    (s.setF F v).rd p = if F.off = p then F.set v (s.rd F.off) else s.rd p := by
  simp [State.setF]

/-- A register field reads back as it was set. -/
theorem State.fld_setF_same (s : State) (F : Fld) (v : Nat) (h : F.lo + F.len ≤ 32) :
    (s.setF F v).fld F = v % 2 ^ F.len := by
  simp [State.fld, State.setF, Fld.get_set_same F v _ h]

/-- A register field keeps its value when a field of another register is set. -/
theorem State.fld_setF_off (s : State) (F G : Fld) (v : Nat) (h : G.off ≠ F.off) :
    (s.setF G v).fld F = s.fld F := by
  simp [State.fld, State.setF, h]

/-- A register field keeps its value when another field of its register is set. -/
theorem State.fld_setF_other (s : State) (F G : Fld) (v : Nat)
    (h : F.lo + F.len ≤ G.lo ∨ G.lo + G.len ≤ F.lo) : (s.setF G v).fld F = s.fld F := by
  by_cases e : G.off = F.off
  · simp [State.fld, State.setF, e, Fld.get_set_other F G v _ h]
  · exact s.fld_setF_off F G v e

theorem State.fld_wr_off (s : State) (F : Fld) (o : Nat) (v : Word) (h : o ≠ F.off) :
    (s.wr o v).fld F = s.fld F := by
  simp [State.fld, h]

/-! ### Bytes -/

@[simp] theorem leBytes_length (n v : Nat) : (leBytes n v).length = n := by
  induction n generalizing v with
  | zero => rfl
  | succ n ih => simp [leBytes, ih]

theorem leNat_leBytes (n v : Nat) : leNat (leBytes n v) = v % 256 ^ n := by
  induction n generalizing v with
  | zero => simp [leBytes, leNat, Nat.mod_one]
  | succ n ih =>
    simp only [leBytes, leNat, ih, BitVec.toNat_ofNat]
    rw [show (256 : Nat) ^ (n + 1) = 256 * 256 ^ n from Nat.pow_succ', Nat.mod_mul]

end Sys2Proof.Machine
end

