-- ==== Sys2Proof/Laws/State.lean ====
section
/-! SUPPORT. What each update of a state leaves as it was: one lemma per field and update. -/

namespace Sys2Proof.Machine

section Updates

variable (s : State) (o n k : Nat) (v : Word) (F : Fld) (st : St) (d : List Byte)
  (f : FacetSt) (b : BeadSt) (c : CamSt) (a : AxisSt) (x : CanSt) (p : ProcSt)

/-! #### `pending` -/

@[simp] theorem State.wr_pending : (s.wr o v).pending = s.pending := rfl
@[simp] theorem State.inc_pending : (s.inc o).pending = s.pending := rfl
@[simp] theorem State.setFacet_pending : (s.setFacet k f).pending = s.pending := rfl
@[simp] theorem State.setF_pending : (s.setF F n).pending = s.pending := rfl
@[simp] theorem State.setBead_pending : (s.setBead k b).pending = s.pending := rfl
@[simp] theorem State.incN_pending : (s.incN o n).pending = s.pending := rfl
@[simp] theorem State.setCam_pending : (s.setCam k c).pending = s.pending := rfl
@[simp] theorem State.answer_pending : (s.answer st d).pending = s.pending := rfl
@[simp] theorem State.wrN_pending : (s.wrN o n).pending = s.pending := rfl
@[simp] theorem State.setAxis_pending : (s.setAxis k a).pending = s.pending := rfl
@[simp] theorem State.incF_pending : (s.incF F n).pending = s.pending := rfl
@[simp] theorem State.setCan_pending : (s.setCan k x).pending = s.pending := rfl
@[simp] theorem State.setProc_pending : (s.setProc k p).pending = s.pending := rfl

/-! #### `mems` -/

@[simp] theorem State.wr_mems : (s.wr o v).mems = s.mems := rfl
@[simp] theorem State.inc_mems : (s.inc o).mems = s.mems := rfl
@[simp] theorem State.setFacet_mems : (s.setFacet k f).mems = s.mems := rfl
@[simp] theorem State.setF_mems : (s.setF F n).mems = s.mems := rfl
@[simp] theorem State.setBead_mems : (s.setBead k b).mems = s.mems := rfl
@[simp] theorem State.incN_mems : (s.incN o n).mems = s.mems := rfl
@[simp] theorem State.setCam_mems : (s.setCam k c).mems = s.mems := rfl
@[simp] theorem State.answer_mems : (s.answer st d).mems = s.mems := rfl
@[simp] theorem State.wrN_mems : (s.wrN o n).mems = s.mems := rfl
@[simp] theorem State.setAxis_mems : (s.setAxis k a).mems = s.mems := rfl
@[simp] theorem State.incF_mems : (s.incF F n).mems = s.mems := rfl
@[simp] theorem State.setCan_mems : (s.setCan k x).mems = s.mems := rfl
@[simp] theorem State.setProc_mems : (s.setProc k p).mems = s.mems := rfl

/-! #### `reply` -/

@[simp] theorem State.wr_reply : (s.wr o v).reply = s.reply := rfl
@[simp] theorem State.inc_reply : (s.inc o).reply = s.reply := rfl
@[simp] theorem State.setFacet_reply : (s.setFacet k f).reply = s.reply := rfl
@[simp] theorem State.setF_reply : (s.setF F n).reply = s.reply := rfl
@[simp] theorem State.setBead_reply : (s.setBead k b).reply = s.reply := rfl
@[simp] theorem State.incN_reply : (s.incN o n).reply = s.reply := rfl
@[simp] theorem State.setCam_reply : (s.setCam k c).reply = s.reply := rfl
@[simp] theorem State.wrN_reply : (s.wrN o n).reply = s.reply := rfl
@[simp] theorem State.setAxis_reply : (s.setAxis k a).reply = s.reply := rfl
@[simp] theorem State.incF_reply : (s.incF F n).reply = s.reply := rfl
@[simp] theorem State.setCan_reply : (s.setCan k x).reply = s.reply := rfl
@[simp] theorem State.setProc_reply : (s.setProc k p).reply = s.reply := rfl

/-! #### `facets` -/

@[simp] theorem State.wr_facets : (s.wr o v).facets = s.facets := rfl
@[simp] theorem State.inc_facets : (s.inc o).facets = s.facets := rfl
@[simp] theorem State.setF_facets : (s.setF F n).facets = s.facets := rfl
@[simp] theorem State.setBead_facets : (s.setBead k b).facets = s.facets := rfl
@[simp] theorem State.incN_facets : (s.incN o n).facets = s.facets := rfl
@[simp] theorem State.setCam_facets : (s.setCam k c).facets = s.facets := rfl
@[simp] theorem State.answer_facets : (s.answer st d).facets = s.facets := rfl
@[simp] theorem State.wrN_facets : (s.wrN o n).facets = s.facets := rfl
@[simp] theorem State.setAxis_facets : (s.setAxis k a).facets = s.facets := rfl
@[simp] theorem State.incF_facets : (s.incF F n).facets = s.facets := rfl
@[simp] theorem State.setCan_facets : (s.setCan k x).facets = s.facets := rfl
@[simp] theorem State.setProc_facets : (s.setProc k p).facets = s.facets := rfl

/-! #### `beads` -/

@[simp] theorem State.wr_beads : (s.wr o v).beads = s.beads := rfl
@[simp] theorem State.inc_beads : (s.inc o).beads = s.beads := rfl
@[simp] theorem State.setFacet_beads : (s.setFacet k f).beads = s.beads := rfl
@[simp] theorem State.setF_beads : (s.setF F n).beads = s.beads := rfl
@[simp] theorem State.incN_beads : (s.incN o n).beads = s.beads := rfl
@[simp] theorem State.setCam_beads : (s.setCam k c).beads = s.beads := rfl
@[simp] theorem State.answer_beads : (s.answer st d).beads = s.beads := rfl
@[simp] theorem State.wrN_beads : (s.wrN o n).beads = s.beads := rfl
@[simp] theorem State.setAxis_beads : (s.setAxis k a).beads = s.beads := rfl
@[simp] theorem State.incF_beads : (s.incF F n).beads = s.beads := rfl
@[simp] theorem State.setCan_beads : (s.setCan k x).beads = s.beads := rfl
@[simp] theorem State.setProc_beads : (s.setProc k p).beads = s.beads := rfl

/-! #### `fab` -/

@[simp] theorem State.wr_fab : (s.wr o v).fab = s.fab := rfl
@[simp] theorem State.inc_fab : (s.inc o).fab = s.fab := rfl
@[simp] theorem State.setFacet_fab : (s.setFacet k f).fab = s.fab := rfl
@[simp] theorem State.setF_fab : (s.setF F n).fab = s.fab := rfl
@[simp] theorem State.setBead_fab : (s.setBead k b).fab = s.fab := rfl
@[simp] theorem State.incN_fab : (s.incN o n).fab = s.fab := rfl
@[simp] theorem State.setCam_fab : (s.setCam k c).fab = s.fab := rfl
@[simp] theorem State.answer_fab : (s.answer st d).fab = s.fab := rfl
@[simp] theorem State.wrN_fab : (s.wrN o n).fab = s.fab := rfl
@[simp] theorem State.setAxis_fab : (s.setAxis k a).fab = s.fab := rfl
@[simp] theorem State.incF_fab : (s.incF F n).fab = s.fab := rfl
@[simp] theorem State.setCan_fab : (s.setCan k x).fab = s.fab := rfl
@[simp] theorem State.setProc_fab : (s.setProc k p).fab = s.fab := rfl

/-! #### `model` -/

@[simp] theorem State.wr_model : (s.wr o v).model = s.model := rfl
@[simp] theorem State.inc_model : (s.inc o).model = s.model := rfl
@[simp] theorem State.setFacet_model : (s.setFacet k f).model = s.model := rfl
@[simp] theorem State.setF_model : (s.setF F n).model = s.model := rfl
@[simp] theorem State.setBead_model : (s.setBead k b).model = s.model := rfl
@[simp] theorem State.incN_model : (s.incN o n).model = s.model := rfl
@[simp] theorem State.setCam_model : (s.setCam k c).model = s.model := rfl
@[simp] theorem State.answer_model : (s.answer st d).model = s.model := rfl
@[simp] theorem State.wrN_model : (s.wrN o n).model = s.model := rfl
@[simp] theorem State.setAxis_model : (s.setAxis k a).model = s.model := rfl
@[simp] theorem State.incF_model : (s.incF F n).model = s.model := rfl
@[simp] theorem State.setCan_model : (s.setCan k x).model = s.model := rfl
@[simp] theorem State.setProc_model : (s.setProc k p).model = s.model := rfl

/-! #### `cams` -/

@[simp] theorem State.wr_cams : (s.wr o v).cams = s.cams := rfl
@[simp] theorem State.inc_cams : (s.inc o).cams = s.cams := rfl
@[simp] theorem State.setFacet_cams : (s.setFacet k f).cams = s.cams := rfl
@[simp] theorem State.setF_cams : (s.setF F n).cams = s.cams := rfl
@[simp] theorem State.setBead_cams : (s.setBead k b).cams = s.cams := rfl
@[simp] theorem State.incN_cams : (s.incN o n).cams = s.cams := rfl
@[simp] theorem State.answer_cams : (s.answer st d).cams = s.cams := rfl
@[simp] theorem State.wrN_cams : (s.wrN o n).cams = s.cams := rfl
@[simp] theorem State.setAxis_cams : (s.setAxis k a).cams = s.cams := rfl
@[simp] theorem State.incF_cams : (s.incF F n).cams = s.cams := rfl
@[simp] theorem State.setCan_cams : (s.setCan k x).cams = s.cams := rfl
@[simp] theorem State.setProc_cams : (s.setProc k p).cams = s.cams := rfl

/-! #### `jxs` -/

@[simp] theorem State.wr_jxs : (s.wr o v).jxs = s.jxs := rfl
@[simp] theorem State.inc_jxs : (s.inc o).jxs = s.jxs := rfl
@[simp] theorem State.setFacet_jxs : (s.setFacet k f).jxs = s.jxs := rfl
@[simp] theorem State.setF_jxs : (s.setF F n).jxs = s.jxs := rfl
@[simp] theorem State.setBead_jxs : (s.setBead k b).jxs = s.jxs := rfl
@[simp] theorem State.incN_jxs : (s.incN o n).jxs = s.jxs := rfl
@[simp] theorem State.setCam_jxs : (s.setCam k c).jxs = s.jxs := rfl
@[simp] theorem State.answer_jxs : (s.answer st d).jxs = s.jxs := rfl
@[simp] theorem State.wrN_jxs : (s.wrN o n).jxs = s.jxs := rfl
@[simp] theorem State.setAxis_jxs : (s.setAxis k a).jxs = s.jxs := rfl
@[simp] theorem State.incF_jxs : (s.incF F n).jxs = s.jxs := rfl
@[simp] theorem State.setCan_jxs : (s.setCan k x).jxs = s.jxs := rfl
@[simp] theorem State.setProc_jxs : (s.setProc k p).jxs = s.jxs := rfl

/-! #### `jxsCur` -/

@[simp] theorem State.wr_jxsCur : (s.wr o v).jxsCur = s.jxsCur := rfl
@[simp] theorem State.inc_jxsCur : (s.inc o).jxsCur = s.jxsCur := rfl
@[simp] theorem State.setFacet_jxsCur : (s.setFacet k f).jxsCur = s.jxsCur := rfl
@[simp] theorem State.setF_jxsCur : (s.setF F n).jxsCur = s.jxsCur := rfl
@[simp] theorem State.setBead_jxsCur : (s.setBead k b).jxsCur = s.jxsCur := rfl
@[simp] theorem State.incN_jxsCur : (s.incN o n).jxsCur = s.jxsCur := rfl
@[simp] theorem State.setCam_jxsCur : (s.setCam k c).jxsCur = s.jxsCur := rfl
@[simp] theorem State.answer_jxsCur : (s.answer st d).jxsCur = s.jxsCur := rfl
@[simp] theorem State.wrN_jxsCur : (s.wrN o n).jxsCur = s.jxsCur := rfl
@[simp] theorem State.setAxis_jxsCur : (s.setAxis k a).jxsCur = s.jxsCur := rfl
@[simp] theorem State.incF_jxsCur : (s.incF F n).jxsCur = s.jxsCur := rfl
@[simp] theorem State.setCan_jxsCur : (s.setCan k x).jxsCur = s.jxsCur := rfl
@[simp] theorem State.setProc_jxsCur : (s.setProc k p).jxsCur = s.jxsCur := rfl

/-! #### `axes` -/

@[simp] theorem State.wr_axes : (s.wr o v).axes = s.axes := rfl
@[simp] theorem State.inc_axes : (s.inc o).axes = s.axes := rfl
@[simp] theorem State.setFacet_axes : (s.setFacet k f).axes = s.axes := rfl
@[simp] theorem State.setF_axes : (s.setF F n).axes = s.axes := rfl
@[simp] theorem State.setBead_axes : (s.setBead k b).axes = s.axes := rfl
@[simp] theorem State.incN_axes : (s.incN o n).axes = s.axes := rfl
@[simp] theorem State.setCam_axes : (s.setCam k c).axes = s.axes := rfl
@[simp] theorem State.answer_axes : (s.answer st d).axes = s.axes := rfl
@[simp] theorem State.wrN_axes : (s.wrN o n).axes = s.axes := rfl
@[simp] theorem State.incF_axes : (s.incF F n).axes = s.axes := rfl
@[simp] theorem State.setCan_axes : (s.setCan k x).axes = s.axes := rfl
@[simp] theorem State.setProc_axes : (s.setProc k p).axes = s.axes := rfl

/-! #### `health` -/

@[simp] theorem State.wr_health : (s.wr o v).health = s.health := rfl
@[simp] theorem State.inc_health : (s.inc o).health = s.health := rfl
@[simp] theorem State.setFacet_health : (s.setFacet k f).health = s.health := rfl
@[simp] theorem State.setF_health : (s.setF F n).health = s.health := rfl
@[simp] theorem State.setBead_health : (s.setBead k b).health = s.health := rfl
@[simp] theorem State.incN_health : (s.incN o n).health = s.health := rfl
@[simp] theorem State.setCam_health : (s.setCam k c).health = s.health := rfl
@[simp] theorem State.answer_health : (s.answer st d).health = s.health := rfl
@[simp] theorem State.wrN_health : (s.wrN o n).health = s.health := rfl
@[simp] theorem State.setAxis_health : (s.setAxis k a).health = s.health := rfl
@[simp] theorem State.incF_health : (s.incF F n).health = s.health := rfl
@[simp] theorem State.setCan_health : (s.setCan k x).health = s.health := rfl
@[simp] theorem State.setProc_health : (s.setProc k p).health = s.health := rfl

/-! #### `safety` -/

@[simp] theorem State.wr_safety : (s.wr o v).safety = s.safety := rfl
@[simp] theorem State.inc_safety : (s.inc o).safety = s.safety := rfl
@[simp] theorem State.setFacet_safety : (s.setFacet k f).safety = s.safety := rfl
@[simp] theorem State.setF_safety : (s.setF F n).safety = s.safety := rfl
@[simp] theorem State.setBead_safety : (s.setBead k b).safety = s.safety := rfl
@[simp] theorem State.incN_safety : (s.incN o n).safety = s.safety := rfl
@[simp] theorem State.setCam_safety : (s.setCam k c).safety = s.safety := rfl
@[simp] theorem State.answer_safety : (s.answer st d).safety = s.safety := rfl
@[simp] theorem State.wrN_safety : (s.wrN o n).safety = s.safety := rfl
@[simp] theorem State.setAxis_safety : (s.setAxis k a).safety = s.safety := rfl
@[simp] theorem State.incF_safety : (s.incF F n).safety = s.safety := rfl
@[simp] theorem State.setCan_safety : (s.setCan k x).safety = s.safety := rfl
@[simp] theorem State.setProc_safety : (s.setProc k p).safety = s.safety := rfl

/-! #### `host` -/

@[simp] theorem State.wr_host : (s.wr o v).host = s.host := rfl
@[simp] theorem State.inc_host : (s.inc o).host = s.host := rfl
@[simp] theorem State.setFacet_host : (s.setFacet k f).host = s.host := rfl
@[simp] theorem State.setF_host : (s.setF F n).host = s.host := rfl
@[simp] theorem State.setBead_host : (s.setBead k b).host = s.host := rfl
@[simp] theorem State.incN_host : (s.incN o n).host = s.host := rfl
@[simp] theorem State.setCam_host : (s.setCam k c).host = s.host := rfl
@[simp] theorem State.answer_host : (s.answer st d).host = s.host := rfl
@[simp] theorem State.wrN_host : (s.wrN o n).host = s.host := rfl
@[simp] theorem State.setAxis_host : (s.setAxis k a).host = s.host := rfl
@[simp] theorem State.incF_host : (s.incF F n).host = s.host := rfl
@[simp] theorem State.setCan_host : (s.setCan k x).host = s.host := rfl
@[simp] theorem State.setProc_host : (s.setProc k p).host = s.host := rfl

/-! #### `procs` -/

@[simp] theorem State.wr_procs : (s.wr o v).procs = s.procs := rfl
@[simp] theorem State.inc_procs : (s.inc o).procs = s.procs := rfl
@[simp] theorem State.setFacet_procs : (s.setFacet k f).procs = s.procs := rfl
@[simp] theorem State.setF_procs : (s.setF F n).procs = s.procs := rfl
@[simp] theorem State.setBead_procs : (s.setBead k b).procs = s.procs := rfl
@[simp] theorem State.incN_procs : (s.incN o n).procs = s.procs := rfl
@[simp] theorem State.setCam_procs : (s.setCam k c).procs = s.procs := rfl
@[simp] theorem State.answer_procs : (s.answer st d).procs = s.procs := rfl
@[simp] theorem State.wrN_procs : (s.wrN o n).procs = s.procs := rfl
@[simp] theorem State.setAxis_procs : (s.setAxis k a).procs = s.procs := rfl
@[simp] theorem State.incF_procs : (s.incF F n).procs = s.procs := rfl
@[simp] theorem State.setCan_procs : (s.setCan k x).procs = s.procs := rfl

/-! #### `time` -/

@[simp] theorem State.wr_time : (s.wr o v).time = s.time := rfl
@[simp] theorem State.inc_time : (s.inc o).time = s.time := rfl
@[simp] theorem State.setFacet_time : (s.setFacet k f).time = s.time := rfl
@[simp] theorem State.setF_time : (s.setF F n).time = s.time := rfl
@[simp] theorem State.setBead_time : (s.setBead k b).time = s.time := rfl
@[simp] theorem State.incN_time : (s.incN o n).time = s.time := rfl
@[simp] theorem State.setCam_time : (s.setCam k c).time = s.time := rfl
@[simp] theorem State.answer_time : (s.answer st d).time = s.time := rfl
@[simp] theorem State.wrN_time : (s.wrN o n).time = s.time := rfl
@[simp] theorem State.setAxis_time : (s.setAxis k a).time = s.time := rfl
@[simp] theorem State.incF_time : (s.incF F n).time = s.time := rfl
@[simp] theorem State.setCan_time : (s.setCan k x).time = s.time := rfl
@[simp] theorem State.setProc_time : (s.setProc k p).time = s.time := rfl

/-! #### `eth` -/

@[simp] theorem State.wr_eth : (s.wr o v).eth = s.eth := rfl
@[simp] theorem State.inc_eth : (s.inc o).eth = s.eth := rfl
@[simp] theorem State.setFacet_eth : (s.setFacet k f).eth = s.eth := rfl
@[simp] theorem State.setF_eth : (s.setF F n).eth = s.eth := rfl
@[simp] theorem State.setBead_eth : (s.setBead k b).eth = s.eth := rfl
@[simp] theorem State.incN_eth : (s.incN o n).eth = s.eth := rfl
@[simp] theorem State.setCam_eth : (s.setCam k c).eth = s.eth := rfl
@[simp] theorem State.answer_eth : (s.answer st d).eth = s.eth := rfl
@[simp] theorem State.wrN_eth : (s.wrN o n).eth = s.eth := rfl
@[simp] theorem State.setAxis_eth : (s.setAxis k a).eth = s.eth := rfl
@[simp] theorem State.incF_eth : (s.incF F n).eth = s.eth := rfl
@[simp] theorem State.setCan_eth : (s.setCan k x).eth = s.eth := rfl
@[simp] theorem State.setProc_eth : (s.setProc k p).eth = s.eth := rfl

/-! #### `cans` -/

@[simp] theorem State.wr_cans : (s.wr o v).cans = s.cans := rfl
@[simp] theorem State.inc_cans : (s.inc o).cans = s.cans := rfl
@[simp] theorem State.setFacet_cans : (s.setFacet k f).cans = s.cans := rfl
@[simp] theorem State.setF_cans : (s.setF F n).cans = s.cans := rfl
@[simp] theorem State.setBead_cans : (s.setBead k b).cans = s.cans := rfl
@[simp] theorem State.incN_cans : (s.incN o n).cans = s.cans := rfl
@[simp] theorem State.setCam_cans : (s.setCam k c).cans = s.cans := rfl
@[simp] theorem State.answer_cans : (s.answer st d).cans = s.cans := rfl
@[simp] theorem State.wrN_cans : (s.wrN o n).cans = s.cans := rfl
@[simp] theorem State.setAxis_cans : (s.setAxis k a).cans = s.cans := rfl
@[simp] theorem State.incF_cans : (s.incF F n).cans = s.cans := rfl
@[simp] theorem State.setProc_cans : (s.setProc k p).cans = s.cans := rfl

/-! #### `pair` -/

@[simp] theorem State.wr_pair : (s.wr o v).pair = s.pair := rfl
@[simp] theorem State.inc_pair : (s.inc o).pair = s.pair := rfl
@[simp] theorem State.setFacet_pair : (s.setFacet k f).pair = s.pair := rfl
@[simp] theorem State.setF_pair : (s.setF F n).pair = s.pair := rfl
@[simp] theorem State.setBead_pair : (s.setBead k b).pair = s.pair := rfl
@[simp] theorem State.incN_pair : (s.incN o n).pair = s.pair := rfl
@[simp] theorem State.setCam_pair : (s.setCam k c).pair = s.pair := rfl
@[simp] theorem State.answer_pair : (s.answer st d).pair = s.pair := rfl
@[simp] theorem State.wrN_pair : (s.wrN o n).pair = s.pair := rfl
@[simp] theorem State.setAxis_pair : (s.setAxis k a).pair = s.pair := rfl
@[simp] theorem State.incF_pair : (s.incF F n).pair = s.pair := rfl
@[simp] theorem State.setCan_pair : (s.setCan k x).pair = s.pair := rfl
@[simp] theorem State.setProc_pair : (s.setProc k p).pair = s.pair := rfl

/-! #### `power` -/

@[simp] theorem State.wr_power : (s.wr o v).power = s.power := rfl
@[simp] theorem State.inc_power : (s.inc o).power = s.power := rfl
@[simp] theorem State.setFacet_power : (s.setFacet k f).power = s.power := rfl
@[simp] theorem State.setF_power : (s.setF F n).power = s.power := rfl
@[simp] theorem State.setBead_power : (s.setBead k b).power = s.power := rfl
@[simp] theorem State.incN_power : (s.incN o n).power = s.power := rfl
@[simp] theorem State.setCam_power : (s.setCam k c).power = s.power := rfl
@[simp] theorem State.answer_power : (s.answer st d).power = s.power := rfl
@[simp] theorem State.wrN_power : (s.wrN o n).power = s.power := rfl
@[simp] theorem State.setAxis_power : (s.setAxis k a).power = s.power := rfl
@[simp] theorem State.incF_power : (s.incF F n).power = s.power := rfl
@[simp] theorem State.setCan_power : (s.setCan k x).power = s.power := rfl
@[simp] theorem State.setProc_power : (s.setProc k p).power = s.power := rfl

/-! #### `reset_` -/

@[simp] theorem State.wr_reset : (s.wr o v).reset_ = s.reset_ := rfl
@[simp] theorem State.inc_reset : (s.inc o).reset_ = s.reset_ := rfl
@[simp] theorem State.setFacet_reset : (s.setFacet k f).reset_ = s.reset_ := rfl
@[simp] theorem State.setF_reset : (s.setF F n).reset_ = s.reset_ := rfl
@[simp] theorem State.setBead_reset : (s.setBead k b).reset_ = s.reset_ := rfl
@[simp] theorem State.incN_reset : (s.incN o n).reset_ = s.reset_ := rfl
@[simp] theorem State.setCam_reset : (s.setCam k c).reset_ = s.reset_ := rfl
@[simp] theorem State.answer_reset : (s.answer st d).reset_ = s.reset_ := rfl
@[simp] theorem State.wrN_reset : (s.wrN o n).reset_ = s.reset_ := rfl
@[simp] theorem State.setAxis_reset : (s.setAxis k a).reset_ = s.reset_ := rfl
@[simp] theorem State.incF_reset : (s.incF F n).reset_ = s.reset_ := rfl
@[simp] theorem State.setCan_reset : (s.setCan k x).reset_ = s.reset_ := rfl
@[simp] theorem State.setProc_reset : (s.setProc k p).reset_ = s.reset_ := rfl

/-! #### `dport` -/

@[simp] theorem State.wr_dport : (s.wr o v).dport = s.dport := rfl
@[simp] theorem State.inc_dport : (s.inc o).dport = s.dport := rfl
@[simp] theorem State.setFacet_dport : (s.setFacet k f).dport = s.dport := rfl
@[simp] theorem State.setF_dport : (s.setF F n).dport = s.dport := rfl
@[simp] theorem State.setBead_dport : (s.setBead k b).dport = s.dport := rfl
@[simp] theorem State.incN_dport : (s.incN o n).dport = s.dport := rfl
@[simp] theorem State.setCam_dport : (s.setCam k c).dport = s.dport := rfl
@[simp] theorem State.answer_dport : (s.answer st d).dport = s.dport := rfl
@[simp] theorem State.wrN_dport : (s.wrN o n).dport = s.dport := rfl
@[simp] theorem State.setAxis_dport : (s.setAxis k a).dport = s.dport := rfl
@[simp] theorem State.incF_dport : (s.incF F n).dport = s.dport := rfl
@[simp] theorem State.setCan_dport : (s.setCan k x).dport = s.dport := rfl
@[simp] theorem State.setProc_dport : (s.setProc k p).dport = s.dport := rfl

/-! #### `sec` -/

@[simp] theorem State.wr_sec : (s.wr o v).sec = s.sec := rfl
@[simp] theorem State.inc_sec : (s.inc o).sec = s.sec := rfl
@[simp] theorem State.setFacet_sec : (s.setFacet k f).sec = s.sec := rfl
@[simp] theorem State.setF_sec : (s.setF F n).sec = s.sec := rfl
@[simp] theorem State.setBead_sec : (s.setBead k b).sec = s.sec := rfl
@[simp] theorem State.incN_sec : (s.incN o n).sec = s.sec := rfl
@[simp] theorem State.setCam_sec : (s.setCam k c).sec = s.sec := rfl
@[simp] theorem State.answer_sec : (s.answer st d).sec = s.sec := rfl
@[simp] theorem State.wrN_sec : (s.wrN o n).sec = s.sec := rfl
@[simp] theorem State.setAxis_sec : (s.setAxis k a).sec = s.sec := rfl
@[simp] theorem State.incF_sec : (s.incF F n).sec = s.sec := rfl
@[simp] theorem State.setCan_sec : (s.setCan k x).sec = s.sec := rfl
@[simp] theorem State.setProc_sec : (s.setProc k p).sec = s.sec := rfl

/-! #### `elogLost` -/

@[simp] theorem State.wr_elogLost : (s.wr o v).elogLost = s.elogLost := rfl
@[simp] theorem State.inc_elogLost : (s.inc o).elogLost = s.elogLost := rfl
@[simp] theorem State.setFacet_elogLost : (s.setFacet k f).elogLost = s.elogLost := rfl
@[simp] theorem State.setF_elogLost : (s.setF F n).elogLost = s.elogLost := rfl
@[simp] theorem State.setBead_elogLost : (s.setBead k b).elogLost = s.elogLost := rfl
@[simp] theorem State.incN_elogLost : (s.incN o n).elogLost = s.elogLost := rfl
@[simp] theorem State.setCam_elogLost : (s.setCam k c).elogLost = s.elogLost := rfl
@[simp] theorem State.answer_elogLost : (s.answer st d).elogLost = s.elogLost := rfl
@[simp] theorem State.wrN_elogLost : (s.wrN o n).elogLost = s.elogLost := rfl
@[simp] theorem State.setAxis_elogLost : (s.setAxis k a).elogLost = s.elogLost := rfl
@[simp] theorem State.incF_elogLost : (s.incF F n).elogLost = s.elogLost := rfl
@[simp] theorem State.setCan_elogLost : (s.setCan k x).elogLost = s.elogLost := rfl
@[simp] theorem State.setProc_elogLost : (s.setProc k p).elogLost = s.elogLost := rfl

/-! #### `free` -/

@[simp] theorem State.wr_free : (s.wr o v).free = s.free := rfl
@[simp] theorem State.inc_free : (s.inc o).free = s.free := rfl
@[simp] theorem State.setFacet_free : (s.setFacet k f).free = s.free := rfl
@[simp] theorem State.setF_free : (s.setF F n).free = s.free := rfl
@[simp] theorem State.setBead_free : (s.setBead k b).free = s.free := rfl
@[simp] theorem State.incN_free : (s.incN o n).free = s.free := rfl
@[simp] theorem State.setCam_free : (s.setCam k c).free = s.free := rfl
@[simp] theorem State.answer_free : (s.answer st d).free = s.free := rfl
@[simp] theorem State.wrN_free : (s.wrN o n).free = s.free := rfl
@[simp] theorem State.setAxis_free : (s.setAxis k a).free = s.free := rfl
@[simp] theorem State.incF_free : (s.incF F n).free = s.free := rfl
@[simp] theorem State.setCan_free : (s.setCan k x).free = s.free := rfl
@[simp] theorem State.setProc_free : (s.setProc k p).free = s.free := rfl

/-! #### Registers and units -/

@[simp] theorem State.setFacet_rd : (s.setFacet k f).rd o = s.rd o := rfl
@[simp] theorem State.setFacet_fld : (s.setFacet k f).fld F = s.fld F := rfl
@[simp] theorem State.setBead_rd : (s.setBead k b).rd o = s.rd o := rfl
@[simp] theorem State.setBead_fld : (s.setBead k b).fld F = s.fld F := rfl
@[simp] theorem State.setCam_rd : (s.setCam k c).rd o = s.rd o := rfl
@[simp] theorem State.setCam_fld : (s.setCam k c).fld F = s.fld F := rfl
@[simp] theorem State.answer_rd : (s.answer st d).rd o = s.rd o := rfl
@[simp] theorem State.answer_fld : (s.answer st d).fld F = s.fld F := rfl
@[simp] theorem State.setAxis_rd : (s.setAxis k a).rd o = s.rd o := rfl
@[simp] theorem State.setAxis_fld : (s.setAxis k a).fld F = s.fld F := rfl
@[simp] theorem State.setCan_rd : (s.setCan k x).rd o = s.rd o := rfl
@[simp] theorem State.setCan_fld : (s.setCan k x).fld F = s.fld F := rfl
@[simp] theorem State.setProc_rd : (s.setProc k p).rd o = s.rd o := rfl
@[simp] theorem State.setProc_fld : (s.setProc k p).fld F = s.fld F := rfl
@[simp] theorem State.answer_reply : (s.answer st d).reply = { st := st, data := d } := rfl
@[simp] theorem State.wr_bead : (s.wr o v).bead k = s.bead k := rfl
@[simp] theorem State.setF_bead : (s.setF F n).bead k = s.bead k := rfl
@[simp] theorem State.wr_facet : (s.wr o v).facet k = s.facet k := rfl
@[simp] theorem State.setF_facet : (s.setF F n).facet k = s.facet k := rfl
@[simp] theorem State.wr_axis : (s.wr o v).axis k = s.axis k := rfl
@[simp] theorem State.setF_axis : (s.setF F n).axis k = s.axis k := rfl
@[simp] theorem State.wr_cam : (s.wr o v).cam k = s.cam k := rfl
@[simp] theorem State.setF_cam : (s.setF F n).cam k = s.cam k := rfl

@[simp] theorem State.facet_setFacet (j : Nat) : (s.setFacet k f).facet j = if k = j then f else s.facet j := kget_kput ..
@[simp] theorem State.bead_setBead (j : Nat) : (s.setBead k b).bead j = if k = j then b else s.bead j := kget_kput ..
@[simp] theorem State.cam_setCam (j : Nat) : (s.setCam k c).cam j = if k = j then c else s.cam j := kget_kput ..
@[simp] theorem State.axis_setAxis (j : Nat) : (s.setAxis k a).axis j = if k = j then a else s.axis j := kget_kput ..
@[simp] theorem State.can_setCan (j : Nat) : (s.setCan k x).can j = if k = j then x else s.can j := kget_kput ..
@[simp] theorem State.proc_setProc (j : Nat) : (s.setProc k p).proc j = if k = j then p else s.proc j := kget_kput ..

end Updates

/-! ### The error log touches its own registers only -/

theorem State.wrList_rd (l : List Nat) (s : State) (o p : Nat) (h : p < o ∨ o + 4 * l.length ≤ p) :
    (s.wrList o l).rd p = s.rd p := by
  induction l generalizing s o with
  | nil => rfl
  | cons v vs ih =>
    simp only [List.length_cons] at h
    rw [State.wrList, ih _ _ (by omega), State.wrN, State.rd_wr, if_neg (by omega)]

/-- A state without its registers and the log's count of losses. -/
def State.unlogged (s : State) : State := { s with csr := [], elogLost := 0 }

theorem State.wrList_unlogged (l : List Nat) (s : State) (o : Nat) : (s.wrList o l).unlogged = s.unlogged := by
  induction l generalizing s o with
  | nil => rfl
  | cons v vs ih => exact ih (s.wrN o v) (o + 4)

theorem logWords_length (s : State) (st src ev aux : Nat) (a : BitVec 64) :
    (logWords s st src ev aux a).length = 8 := rfl

theorem State.logPut_rd (s : State) (ws : List Nat) (hw : ws.length = 8) (p : Nat) (h : elogReg p = false) :
    (s.logPut ws).rd p = s.rd p := by
  have h' : p ≠ GLB_ELOG_WR ∧ p ≠ GLB_ELOG_LOST ∧ ¬ (GLB_ELOG_ENT 0 0 ≤ p ∧ p < GLB_ELOG_ENT 256 0) := by
    simpa [elogReg, and_assoc] using h
  obtain ⟨h1, -, h3⟩ := h'
  have hm : (s.rd GLB_ELOG_WR).toNat % 256 < 256 := Nat.mod_lt _ (by norm_num)
  unfold State.logPut State.wrN
  rw [State.rd_wr, if_neg (Ne.symm h1), State.wrList_rd]
  rw [hw]
  generalize (s.rd GLB_ELOG_WR).toNat % 256 = k at hm
  simp only [GLB_ELOG_ENT] at h3 ⊢
  omega

theorem State.logPut_unlogged (s : State) (ws : List Nat) : (s.logPut ws).unlogged = s.unlogged := by
  unfold State.logPut
  exact State.wrList_unlogged ws s _

theorem State.logWords_rd (s t : State) (st src ev aux : Nat) (a : BitVec 64) (p : Nat) (h : elogReg p = false) :
    (s.logPut (logWords t st src ev aux a)).rd p = s.rd p :=
  State.logPut_rd s (logWords t st src ev aux a) (logWords_length t st src ev aux a) p h

theorem State.elogLost_rd (s : State) (n p : Nat) : ({ s with elogLost := n } : State).rd p = s.rd p := rfl

theorem State.elogLost_unlogged (s : State) (n : Nat) : ({ s with elogLost := n } : State).unlogged = s.unlogged := rfl

theorem State.logLose_rd (s : State) (p : Nat) (h : elogReg p = false) : s.logLose.rd p = s.rd p := by
  have hl : GLB_ELOG_LOST ≠ p := by
    intro e; subst e; exact absurd h (by decide)
  unfold State.logLose
  rw [State.elogLost_rd]
  simp [State.inc, State.incN, State.wrN, hl]

theorem State.logLose_unlogged (s : State) : s.logLose.unlogged = s.unlogged := rfl

/-- An entry in the log changes the log's registers and nothing else. -/
theorem State.log_rd (s : State) (st : St) (src ev aux : Nat) (a : BitVec 64) (p : Nat) (h : elogReg p = false) :
    (s.log st src ev aux a).rd p = s.rd p := by
  unfold State.log
  split
  · exact s.logLose_rd p h
  · split
    · exact s.logWords_rd s _ _ _ _ _ p h
    · dsimp only
      split
      · rw [State.logLose_rd _ p h, State.elogLost_rd, State.logWords_rd _ _ _ _ _ _ _ p h]
      · rw [State.logWords_rd _ _ _ _ _ _ _ p h, State.elogLost_rd, State.logWords_rd _ _ _ _ _ _ _ p h]

theorem State.log_unlogged (s : State) (st : St) (src ev aux : Nat) (a : BitVec 64) :
    (s.log st src ev aux a).unlogged = s.unlogged := by
  unfold State.log
  split
  · exact s.logLose_unlogged
  · split
    · exact s.logPut_unlogged _
    · dsimp only
      split
      · rw [State.logLose_unlogged, State.elogLost_unlogged, State.logPut_unlogged]
      · rw [State.logPut_unlogged, State.elogLost_unlogged, State.logPut_unlogged]

/-- A part of the state that the registers and the count of losses do not enter is as before
wherever the rest is. -/
theorem State.of_unlogged {α : Type} {s t : State} (h : t.unlogged = s.unlogged) (f : State → α)
    (hf : ∀ u : State, f u.unlogged = f u) : f t = f s := by rw [← hf t, h, hf s]

section Log

variable (s : State) (st : St) (src ev aux : Nat) (a : BitVec 64)

@[simp] theorem State.log_pending : (s.log st src ev aux a).pending = s.pending :=
  State.of_unlogged (s.log_unlogged st src ev aux a) State.pending fun _ => rfl
@[simp] theorem State.log_mems : (s.log st src ev aux a).mems = s.mems :=
  State.of_unlogged (s.log_unlogged st src ev aux a) State.mems fun _ => rfl
@[simp] theorem State.log_reply : (s.log st src ev aux a).reply = s.reply :=
  State.of_unlogged (s.log_unlogged st src ev aux a) State.reply fun _ => rfl
@[simp] theorem State.log_facets : (s.log st src ev aux a).facets = s.facets :=
  State.of_unlogged (s.log_unlogged st src ev aux a) State.facets fun _ => rfl
@[simp] theorem State.log_beads : (s.log st src ev aux a).beads = s.beads :=
  State.of_unlogged (s.log_unlogged st src ev aux a) State.beads fun _ => rfl
@[simp] theorem State.log_fab : (s.log st src ev aux a).fab = s.fab :=
  State.of_unlogged (s.log_unlogged st src ev aux a) State.fab fun _ => rfl
@[simp] theorem State.log_model : (s.log st src ev aux a).model = s.model :=
  State.of_unlogged (s.log_unlogged st src ev aux a) State.model fun _ => rfl
@[simp] theorem State.log_cams : (s.log st src ev aux a).cams = s.cams :=
  State.of_unlogged (s.log_unlogged st src ev aux a) State.cams fun _ => rfl
@[simp] theorem State.log_jxs : (s.log st src ev aux a).jxs = s.jxs :=
  State.of_unlogged (s.log_unlogged st src ev aux a) State.jxs fun _ => rfl
@[simp] theorem State.log_jxsCur : (s.log st src ev aux a).jxsCur = s.jxsCur :=
  State.of_unlogged (s.log_unlogged st src ev aux a) State.jxsCur fun _ => rfl
@[simp] theorem State.log_axes : (s.log st src ev aux a).axes = s.axes :=
  State.of_unlogged (s.log_unlogged st src ev aux a) State.axes fun _ => rfl
@[simp] theorem State.log_health : (s.log st src ev aux a).health = s.health :=
  State.of_unlogged (s.log_unlogged st src ev aux a) State.health fun _ => rfl
@[simp] theorem State.log_safety : (s.log st src ev aux a).safety = s.safety :=
  State.of_unlogged (s.log_unlogged st src ev aux a) State.safety fun _ => rfl
@[simp] theorem State.log_host : (s.log st src ev aux a).host = s.host :=
  State.of_unlogged (s.log_unlogged st src ev aux a) State.host fun _ => rfl
@[simp] theorem State.log_procs : (s.log st src ev aux a).procs = s.procs :=
  State.of_unlogged (s.log_unlogged st src ev aux a) State.procs fun _ => rfl
@[simp] theorem State.log_time : (s.log st src ev aux a).time = s.time :=
  State.of_unlogged (s.log_unlogged st src ev aux a) State.time fun _ => rfl
@[simp] theorem State.log_eth : (s.log st src ev aux a).eth = s.eth :=
  State.of_unlogged (s.log_unlogged st src ev aux a) State.eth fun _ => rfl
@[simp] theorem State.log_cans : (s.log st src ev aux a).cans = s.cans :=
  State.of_unlogged (s.log_unlogged st src ev aux a) State.cans fun _ => rfl
@[simp] theorem State.log_pair : (s.log st src ev aux a).pair = s.pair :=
  State.of_unlogged (s.log_unlogged st src ev aux a) State.pair fun _ => rfl
@[simp] theorem State.log_power : (s.log st src ev aux a).power = s.power :=
  State.of_unlogged (s.log_unlogged st src ev aux a) State.power fun _ => rfl
@[simp] theorem State.log_reset : (s.log st src ev aux a).reset_ = s.reset_ :=
  State.of_unlogged (s.log_unlogged st src ev aux a) State.reset_ fun _ => rfl
@[simp] theorem State.log_dport : (s.log st src ev aux a).dport = s.dport :=
  State.of_unlogged (s.log_unlogged st src ev aux a) State.dport fun _ => rfl
@[simp] theorem State.log_sec : (s.log st src ev aux a).sec = s.sec :=
  State.of_unlogged (s.log_unlogged st src ev aux a) State.sec fun _ => rfl
@[simp] theorem State.log_free : (s.log st src ev aux a).free = s.free :=
  State.of_unlogged (s.log_unlogged st src ev aux a) State.free fun _ => rfl

end Log

end Sys2Proof.Machine
end

