-- ==== Sys2Proof/Laws/Host.lean ====
section
/-! SUPPORT. What writing an entry, an event or a completion can do (R282, R297). -/

namespace Sys2Proof.Machine

/-- The units and the registers outside the host interface are as before. -/
def HostOnly (s t : State) : Prop := t.core = s.core ∧ SameLow s t

theorem HostOnly.refl (s : State) : HostOnly s s := ⟨rfl, fun _ _ _ => rfl⟩

theorem HostOnly.trans {s t u : State} (h : HostOnly s t) (k : HostOnly t u) : HostOnly s u :=
  ⟨k.1.trans h.1, fun o h1 h2 => (k.2 o h1 h2).trans (h.2 o h1 h2)⟩

theorem HostOnly.wr {s t : State} (h : HostOnly s t) {o : Nat} {v : Word}
    (ho : 0x100000 ≤ o ∨ (0x10000 ≤ o ∧ o < 0x20000)) : HostOnly s (t.wr o v) := by
  refine h.trans ⟨rfl, fun p h1 h2 => ?_⟩
  rw [State.rd_wr, if_neg (by omega)]

theorem HostOnly.setF {s t : State} (h : HostOnly s t) {F : Fld} {v : Nat}
    (ho : 0x100000 ≤ F.off ∨ (0x10000 ≤ F.off ∧ F.off < 0x20000)) : HostOnly s (t.setF F v) := h.wr ho

theorem HostOnly.wrN {s t : State} (h : HostOnly s t) {o v : Nat}
    (ho : 0x100000 ≤ o ∨ (0x10000 ≤ o ∧ o < 0x20000)) : HostOnly s (t.wrN o v) := h.wr ho

theorem HostOnly.inc {s t : State} (h : HostOnly s t) {o : Nat}
    (ho : 0x100000 ≤ o ∨ (0x10000 ≤ o ∧ o < 0x20000)) : HostOnly s (t.inc o) := h.wr ho

theorem HostOnly.host {s t : State} (h : HostOnly s t) (x : HostSt) : HostOnly s { t with host := x } :=
  h.trans ⟨rfl, fun _ _ _ => rfl⟩

theorem HostOnly.setMem {s t : State} (h : HostOnly s t) (sp : Space) (m : Memory) : HostOnly s (t.setMem sp m) :=
  h.trans ⟨by cases sp <;> rfl, fun _ _ _ => by cases sp <;> rfl⟩

theorem HostOnly.free {s t : State} (h : HostOnly s t) (n : Nat) : HostOnly s { t with free := n } :=
  h.trans ⟨rfl, fun _ _ _ => rfl⟩

theorem HostOnly.countRej {s t : State} (h : HostOnly s t) (x : Target) : HostOnly s (t.countRej x) := by
  cases x <;> first | exact h | exact h.inc (by simp only [MM_REJ]; omega)

theorem HostOnly.grantAt {s t : State} (h : HostOnly s t) (x : Target) (src : Nat) : HostOnly s (t.grantAt x src) := by
  unfold State.grantAt
  cases resourceOf x <;> exact h.trans ⟨rfl, fun _ _ _ => rfl⟩

/-- A write that names no window is never one of a closed window. -/
theorem State.winCheck_none (s : State) (src : Nat) (t : Target) (l n : Nat) (e : BitVec 16) :
    s.winCheck src t l n 0xFFFF e = ST_OK := by simp [State.winCheck]

/-- A property that counting a refusal, taking a grant, a free value and a memory change keep, holds after a
write that names no window. -/
theorem State.writeAt_keeps {P : State → Prop} {s : State} (src : Nat) (a : BitVec 64) (d : List Byte) (h : P s)
    (hc : ∀ u x, P u → P (u.countRej x)) (hg : ∀ u x, P u → P (u.grantAt x src))
    (hf : ∀ u : State, P u → P u.fresh.2) (hm : ∀ u sp m, P u → P (u.setMem sp m)) :
    P (s.writeAt src a d).2 := by
  have hr : ∀ u c, P u → P (u.remoteSt c).2 := fun u c hu => by
    unfold State.remoteSt; split_ifs; exacts [hf u hu, hu]
  unfold State.writeAt
  simp only [State.winCheck_none, ne_eq, not_true_eq_false, if_false]
  have hu := hg s (s.target src a) h
  generalize s.grantAt (s.target src a) src = u at hu ⊢
  split_ifs
  · exact hc s _ h
  · split
    · exact hr u _ hu
    · exact hu
    · split_ifs
      · exact hu
      · split
        · exact hu
        · exact hm u _ _ hu
  · exact h

/-- A write that names no window changes the memory it addresses, or counts its refusal. -/
theorem HostOnly.writeAt {s t : State} (h : HostOnly s t) (src : Nat) (a : BitVec 64) (d : List Byte) :
    HostOnly s (t.writeAt src a d).2 :=
  State.writeAt_keeps src a d h (fun _ x hu => hu.countRej x) (fun _ x hu => hu.grantAt x src) (fun _ hu => hu.free _)
    fun _ sp m hu => hu.setMem sp m

/-- A property that every step over a list keeps holds after all of them. -/
theorem State.each_keeps {α : Type} {P : State → Prop} {f : State → α → State} (hf : ∀ u x, P u → P (f u x))
    (l : List α) {s : State} (h : P s) : P (s.each l f) := by
  unfold State.each
  induction l generalizing s with
  | nil => exact h
  | cons x l ih => exact ih (hf s x h)

theorem HostOnly.setRaised {s t : State} (h : HostOnly s t) (l : List Req) : HostOnly s (t.setRaised l) :=
  State.each_keeps (P := HostOnly s) (fun _ b hu => hu.setF (F := MM_STATUS_INFLIGHT b) (by simp only [MM_STATUS]; omega)) _
    (h.trans ⟨rfl, fun _ _ _ => rfl⟩)

theorem HostOnly.conflict {s t : State} (h : HostOnly s t) (ms : List Nat) : HostOnly s (t.conflict ms) :=
  State.each_keeps (P := HostOnly s) (fun _ m hu => hu.inc (by simp only [ARB_CONFL]; omega)) ms h

/-- A posted write that names no window is performed or waits. -/
theorem State.postWrite_keeps {P : State → Prop} {s : State} (src : Nat) (a : BitVec 64) (d : List Byte) (h : P s)
    (hw : ∀ u : State, P u → P (u.writeAt src a d).2) (hr : ∀ u l, P u → P (u.setRaised l))
    (hc : ∀ u : State, P u → P (u.conflict [src])) : P (s.postWrite src a d).2 := by
  unfold State.postWrite State.raise
  dsimp only
  split_ifs
  · exact hc _ (hr s _ h)
  · exact hr _ _ (hw s h)
  · exact hw s h

theorem HostOnly.postWrite {s t : State} (h : HostOnly s t) (src : Nat) (a : BitVec 64) (d : List Byte) :
    HostOnly s (t.postWrite src a d).2 :=
  State.postWrite_keeps src a d h (fun _ hu => hu.writeAt src a d) (fun _ l hu => hu.setRaised l) fun _ hu => hu.conflict _

theorem State.ringWrite_cons (s : State) (r i : Nat) (l : List Byte) (ls : List (List Byte)) :
    s.ringWrite r i (l :: ls) = if (s.postWrite mHIP (s.ringLine r i) l).1 ≠ ST_OK then s.postWrite mHIP (s.ringLine r i) l
      else (s.postWrite mHIP (s.ringLine r i) l).2.ringWrite r (i + 1) ls := rfl

theorem ite_cases {β : Type} {P : β → Prop} {c : Prop} [Decidable c] {x y : β} (hx : P x) (hy : P y) :
    P (if c then x else y) := by split <;> assumption

/-- A property that every posted write of Woad keeps holds after the lines of an entry. -/
theorem State.ringWrite_keeps {P : State → Prop} (hw : ∀ (u : State) a d, P u → P (u.postWrite mHIP a d).2) (r : Nat)
    (ls : List (List Byte)) {s : State} (i : Nat) (h : P s) : P (s.ringWrite r i ls).2 := by
  induction ls generalizing s i with
  | nil => exact h
  | cons l ls ih =>
    have hl := hw s (s.ringLine r i) l h
    rw [State.ringWrite_cons]
    exact ite_cases (P := fun x : St × State => P x.2) hl (ih (i + 1) hl)

theorem State.entryWrite_keeps {P : State → Prop} (hw : ∀ (u : State) a d, P u → P (u.postWrite mHIP a d).2) (r : Nat)
    (ls : List (List Byte)) {s : State} (i : Nat) (h : P s) : P (s.entryWrite r i ls).2 := by
  have h1 := State.ringWrite_keeps hw r (ls.drop 1) (i + 1) h
  unfold State.entryWrite
  dsimp only
  split_ifs
  · exact h1
  · exact State.ringWrite_keeps hw r (ls.take 1) i h1

theorem HostOnly.entryWrite {s t : State} (h : HostOnly s t) (r i : Nat) (ls : List (List Byte)) :
    HostOnly s (t.entryWrite r i ls).2 := State.entryWrite_keeps (fun _ a d hu => hu.postWrite mHIP a d) r ls i h

theorem HostOnly.setRing {s t : State} (h : HostOnly s t) (r : Nat) (x : RingSt) : HostOnly s (t.setRing r x) :=
  h.host _

theorem HostOnly.msix {s t : State} (h : HostOnly s t) (v : Nat) : HostOnly s (t.msix v) := by
  unfold State.msix
  dsimp only
  split_ifs
  exacts [h.host _, h, h.host _]

theorem HostOnly.ringError {s t : State} (h : HostOnly s t) (r c : Nat) : HostOnly s (t.ringError r c) :=
  (h.setF (by simp only [RNG_CTL]; omega)).setF (by simp only [RNG_CTL]; omega)

theorem HostOnly.ringIrq {s t : State} (h : HostOnly s t) (r : Nat) : HostOnly s (t.ringIrq r) := by
  unfold State.ringIrq
  dsimp only
  split
  · exact h
  split
  · exact h.msix _
  · exact h.setRing _ _

theorem HostOnly.ringPut {s t : State} (h : HostOnly s t) (r : Nat) (e : List Byte) : HostOnly s (t.ringPut r e) := by
  have hw := h.entryWrite r (t.rd (RNG_PI r)).toNat (toLines ((e.length + 63) / 64) e)
  unfold State.ringPut
  dsimp only
  split_ifs
  · exact hw.ringError _ _
  · exact (hw.wrN (by simp only [RNG_PI]; omega)).ringIrq _

theorem HostOnly.putEvent {s t : State} (h : HostOnly s t) (r f c : Nat) (st : St) (a : Nat) :
    HostOnly s (t.putEvent r f c st a) := (h.ringPut _ _).setRing _ _

theorem HostOnly.flushWithheld {s t : State} (h : HostOnly s t) (r : Nat) : HostOnly s (t.flushWithheld r) := by
  unfold State.flushWithheld
  dsimp only
  split
  · exact h
  · exact (h.setRing _ _).putEvent _ _ _ _ _

theorem HostOnly.withhold {s t : State} (h : HostOnly s t) (r : Nat) : HostOnly s (t.withhold r) :=
  (h.setRing _ _).inc (by simp only [RNG_WITHHELD]; omega)

/-- A property that writing an entry and withholding one keep holds after an event. -/
theorem State.event_keeps {P : State → Prop} {s : State} (f c : Nat) (st : St) (a : Nat) (h : P s)
    (hf : ∀ u r, P u → P (u.flushWithheld r)) (hw : ∀ u r, P u → P (u.withhold r))
    (hp : ∀ u r, P u → P (u.putEvent r f c st a)) : P (s.event f c st a) := by
  unfold State.event
  cases s.eventRing f with
  | none => exact h
  | some r =>
    cases s.hipUp with
    | false => exact hw s r h
    | true =>
      dsimp only
      split_ifs
      exacts [hp _ r (hf s r h), hw _ r (hf s r h)]

/-- An event changes nothing outside the host interface. -/
theorem HostOnly.event {s t : State} (h : HostOnly s t) (f c : Nat) (st : St) (a : Nat) :
    HostOnly s (t.event f c st a) :=
  State.event_keeps f c st a h (fun _ r hu => hu.flushWithheld r) (fun _ r hu => hu.withhold r)
    fun _ r hu => hu.putEvent r f c st a

theorem HostOnly.fnEvent {s t : State} (h : HostOnly s t) (f o n : Nat) (st : St) : HostOnly s (t.fnEvent f o n st) := by
  unfold State.fnEvent
  split
  · exact h
  · exact h.event _ _ _ _

theorem HostOnly.wrList {s : State} (l : List Nat) {t : State} (h : HostOnly s t) (o : Nat)
    (ho : 0x10000 ≤ o ∧ o + 4 * l.length ≤ 0x20000) : HostOnly s (t.wrList o l) := by
  induction l generalizing t o with
  | nil => exact h
  | cons v vs ih =>
    simp only [List.length_cons] at ho
    exact ih (h.wrN (by omega)) (o + 4) (by omega)

theorem compRecord_length (s : State) (a b c d e f g h i : Nat) : (compRecord s a b c d e f g h i).length = 32 := by
  simp [compRecord, leBytes_length]

/-! ### Completions -/

theorem State.wrList_at (l : List Nat) (s : State) (o k : Nat) (v : Nat) (h : l[k]? = some v) :
    (s.wrList o l).rd (o + 4 * k) = BitVec.ofNat 32 v := by
  induction l generalizing s o k with
  | nil => simp at h
  | cons x xs ih =>
    cases k with
    | zero =>
      simp only [List.getElem?_cons_zero, Option.some.injEq] at h
      rw [State.wrList, State.wrList_rd _ _ _ _ (by omega), State.wrN, Nat.mul_zero, Nat.add_zero, State.rd_wr,
        if_pos rfl, h]
    | succ k =>
      have := ih (s.wrN o x) (o + 4) k h
      rw [State.wrList, show o + 4 * (k + 1) = o + 4 + 4 * k by omega, this]

theorem HostOnly.wrBytes {s t : State} (h : HostOnly s t) (o : Nat) (b : List Byte)
    (ho : 0x10000 ≤ o ∧ o + (b.length + 3) / 4 * 4 ≤ 0x20000) : HostOnly s (t.wrBytes o b) :=
  h.wrList _ _ ⟨ho.1, by simp only [List.length_map, List.length_range]; omega⟩

/-- The bytes of a mailbox completion are at most 256, so it stays in the mailbox block. -/
theorem HostOnly.mbxComplete {s t : State} (h : HostOnly s t) (m : Fin 16) (c : HostCmd) (st : St) (a : Nat)
    (b : List Byte) (hb : b.length ≤ 224) : HostOnly s (t.mbxComplete m.val c st a b) := by
  unfold State.mbxComplete
  dsimp only
  have hm := m.isLt
  have h1 : HostOnly s (((t.wrBytes (MBX_DATA m.val 0) _).setF (MBX_CTL_DONE m.val) 1).setF (MBX_CTL_BUSY m.val) 0) :=
    ((h.wrBytes (MBX_DATA m.val 0)
      (compRecord t c.tag.toNat st.toNat c.opcode 0 0xFFFE 0 c.func b.length a ++ b ++
        List.replicate (256 - (compRecord t c.tag.toNat st.toNat c.opcode 0 0xFFFE 0 c.func b.length a ++ b).length) 0)
      (by simp only [List.length_append, compRecord_length, List.length_replicate, MBX_DATA]; omega)).setF
        (F := MBX_CTL_DONE m.val) (by simp only [MBX_CTL]; omega)).setF (F := MBX_CTL_BUSY m.val)
        (by simp only [MBX_CTL]; omega)
  split
  · exact h1.msix _
  · exact h1

theorem HostOnly.ringComplete {s t : State} (h : HostOnly s t) (r : Nat) (q : Word) (c : HostCmd) (st : St) (a : Nat)
    (b : List Byte) : HostOnly s (t.ringComplete r q c st a b) := by
  unfold State.ringComplete
  dsimp only
  refine HostOnly.setRing (HostOnly.ringPut ?_ _ _) _ _
  split
  · exact (h.setRing _ _).flushWithheld _
  · exact h.setRing _ _

/-- The completion of a host command changes nothing outside the host interface. -/
theorem HostOnly.complete {s t : State} (h : HostOnly s t) (c : HostCmd) (st : St) (a : Nat) (b : List Byte)
    (hb : b.length ≤ 224 ∨ c.isMbx = false) : HostOnly s (t.complete c st a b) := by
  unfold State.complete
  dsimp only
  split
  · exact (h.host _).ringComplete _ _ _ _ _ _
  · rename_i m hm
    refine (h.host _).mbxComplete m c st a b (hb.resolve_right ?_)
    simp [HostCmd.isMbx, hm]
  · exact h.trans ⟨rfl, fun _ _ _ => rfl⟩

/-! ### What stays of the rings -/

/-- The commands in flight and each ring's count of them are as before. -/
def SameFlight (s t : State) : Prop :=
  t.host.inflight = s.host.inflight ∧ ∀ k, (t.ring k).flight = (s.ring k).flight

theorem SameFlight.refl (s : State) : SameFlight s s := ⟨rfl, fun _ => rfl⟩

theorem SameFlight.trans {s t u : State} (h : SameFlight s t) (k : SameFlight t u) : SameFlight s u :=
  ⟨k.1.trans h.1, fun r => (k.2 r).trans (h.2 r)⟩

theorem SameFlight.of_host {s t u : State} (h : SameFlight s t) (k : u.host = t.host) : SameFlight s u :=
  h.trans ⟨by rw [k], fun r => by unfold State.ring; rw [k]⟩

theorem State.setMem_host (s : State) (sp : Space) (m : Memory) : (s.setMem sp m).host = s.host := by cases sp <;> rfl

theorem SameFlight.writeAt {s t : State} (h : SameFlight s t) (src : Nat) (a : BitVec 64) (d : List Byte) :
    SameFlight s (t.writeAt src a d).2 :=
  State.writeAt_keeps src a d h (fun _ x hu => by cases x <;> exact hu.of_host rfl)
    (fun u x hu => hu.of_host (by unfold State.grantAt; cases resourceOf x <;> rfl)) (fun _ hu => hu.of_host rfl)
    fun _ sp m hu => hu.of_host (State.setMem_host _ sp m)

theorem SameFlight.postWrite {s t : State} (h : SameFlight s t) (src : Nat) (a : BitVec 64) (d : List Byte) :
    SameFlight s (t.postWrite src a d).2 :=
  State.postWrite_keeps src a d h (fun _ hu => hu.writeAt src a d)
    (fun u l hu => by
      refine State.each_keeps (P := SameFlight s) ?_ _ ?_
      exacts [fun _ _ hv => hv.of_host rfl, hu.of_host rfl])
    fun u hu => by
      refine State.each_keeps (P := SameFlight s) ?_ _ hu
      exact fun _ _ hv => hv.of_host rfl

theorem SameFlight.setRing {s t : State} (h : SameFlight s t) (r : Nat) (x : RingSt)
    (hx : x.flight = (t.ring r).flight) : SameFlight s (t.setRing r x) := by
  refine h.trans ⟨rfl, fun k => ?_⟩
  simp only [State.ring, State.setRing, kget_kput]
  split
  · rename_i hk; subst hk; exact hx
  · rfl

theorem SameFlight.wr {s t : State} (h : SameFlight s t) (o : Nat) (v : Word) : SameFlight s (t.wr o v) :=
  h.trans ⟨rfl, fun _ => rfl⟩

theorem SameFlight.wrN {s t : State} (h : SameFlight s t) (o v : Nat) : SameFlight s (t.wrN o v) := h.wr _ _

theorem SameFlight.setF {s t : State} (h : SameFlight s t) (F : Fld) (v : Nat) : SameFlight s (t.setF F v) := h.wr _ _

theorem SameFlight.ringError {s t : State} (h : SameFlight s t) (r c : Nat) : SameFlight s (t.ringError r c) :=
  (h.setF _ _).setF _ _

theorem SameFlight.msix {s t : State} (h : SameFlight s t) (v : Nat) : SameFlight s (t.msix v) := by
  unfold State.msix
  dsimp only
  split_ifs
  exacts [h.trans ⟨rfl, fun _ => rfl⟩, h, h.trans ⟨rfl, fun _ => rfl⟩]

theorem SameFlight.ringIrq {s t : State} (h : SameFlight s t) (r : Nat) : SameFlight s (t.ringIrq r) := by
  unfold State.ringIrq
  dsimp only
  split_ifs
  exacts [h, h.msix _, h.setRing _ _ rfl]

theorem SameFlight.ringPut {s t : State} (h : SameFlight s t) (r : Nat) (e : List Byte) : SameFlight s (t.ringPut r e) := by
  have hw : SameFlight s (t.entryWrite r (t.rd (RNG_PI r)).toNat (toLines ((e.length + 63) / 64) e)).2 :=
    State.entryWrite_keeps (fun _ a d hu => hu.postWrite mHIP a d) r _ _ h
  unfold State.ringPut
  dsimp only
  split_ifs
  · exact hw.ringError _ _
  · exact (hw.wrN _ _).ringIrq _

theorem SameFlight.modRing {s t : State} (h : SameFlight s t) (r : Nat) (f : RingSt → RingSt)
    (hf : ∀ x, (f x).flight = x.flight) : SameFlight s (t.setRing r (f (t.ring r))) := h.setRing _ _ (hf _)

theorem SameFlight.putEvent {s t : State} (h : SameFlight s t) (r f c : Nat) (st : St) (a : Nat) :
    SameFlight s (t.putEvent r f c st a) :=
  (h.ringPut r _).modRing r (fun x => { x with evno := (t.ring r).evno + 1 }) fun _ => rfl

theorem SameFlight.flushWithheld {s t : State} (h : SameFlight s t) (r : Nat) : SameFlight s (t.flushWithheld r) := by
  unfold State.flushWithheld
  dsimp only
  split
  · exact h
  · exact (h.modRing r (fun x => { x with withheld := 0 }) fun _ => rfl).putEvent _ _ _ _ _

theorem SameFlight.event {s t : State} (h : SameFlight s t) (f c : Nat) (st : St) (a : Nat) :
    SameFlight s (t.event f c st a) :=
  State.event_keeps f c st a h (fun _ r hu => hu.flushWithheld r)
    (fun _ r hu => (hu.modRing r (fun x => { x with withheld := x.withheld + 1 }) fun _ => rfl).wr _ _)
    fun _ r hu => hu.putEvent r f c st a

theorem State.wrList_host (l : List Nat) (s : State) (o : Nat) : (s.wrList o l).host = s.host := by
  induction l generalizing s o with
  | nil => rfl
  | cons v vs ih => exact ih (s.wrN o v) (o + 4)

theorem State.find_filter_via (l : List HostCmd) (v : Via) :
    (l.filter fun x => decide (x.via ≠ v)).find? (fun c => decide (c.via = v)) = none := by
  rw [List.find?_eq_none]
  intro x hx
  simpa using (List.mem_filter.1 hx).2

theorem State.msix_rd (s : State) (v o : Nat) : (s.msix v).rd o = s.rd o := by
  unfold State.msix; dsimp only; split_ifs <;> rfl

theorem State.msix_inflight (s : State) (v : Nat) : (s.msix v).host.inflight = s.host.inflight :=
  ((SameFlight.refl s).msix v).1

theorem State.setRing_inflight (s : State) (r : Nat) (x : RingSt) :
    (s.setRing r x).host.inflight = s.host.inflight := rfl

theorem State.ring_setRing (s : State) (r : Nat) (x : RingSt) : (s.setRing r x).ring r = x := kget_kput_same _ _ _ _

theorem State.ringComplete_flight (u : State) (r : Nat) (q : Word) (c : HostCmd) (st : St) (a : Nat) (b : List Byte) :
    (u.ringComplete r q c st a b).host.inflight = u.host.inflight ∧
      ((u.ringComplete r q c st a b).ring r).flight = (u.ring r).flight - 1 := by
  have h1 := (SameFlight.refl u).modRing (u.fld (RNG_LINK_PEER r)) (fun x => { x with reserved := x.reserved - c.room })
    fun _ => rfl
  unfold State.ringComplete
  dsimp only
  generalize u.setRing (u.fld (RNG_LINK_PEER r)) _ = v at *
  have h2 : SameFlight u (if (decide ((v.ring (u.fld (RNG_LINK_PEER r))).withheld ≠ 0) &&
      decide (entryLines b.length + 2 ≤ v.ringFree (u.fld (RNG_LINK_PEER r)))) = true then
        v.flushWithheld (u.fld (RNG_LINK_PEER r)) else v) := ite_cases (h1.flushWithheld _) h1
  generalize (if (decide ((v.ring (u.fld (RNG_LINK_PEER r))).withheld ≠ 0) &&
      decide (entryLines b.length + 2 ≤ v.ringFree (u.fld (RNG_LINK_PEER r)))) = true then
        v.flushWithheld (u.fld (RNG_LINK_PEER r)) else v) = w at *
  have h3 := h2.ringPut (u.fld (RNG_LINK_PEER r))
    (compRecord w c.tag.toNat st.toNat c.opcode q.toNat r (w.phase (u.fld (RNG_LINK_PEER r))) c.func b.length a ++ b)
  generalize w.ringPut (u.fld (RNG_LINK_PEER r)) _ = x at *
  rw [State.setRing_inflight, State.ring_setRing, ← h3.2 r]
  exact ⟨h3.1, rfl⟩

theorem fieldN_comp (u : State) (t : Nat) (st : St) (op a b c d e f : Nat) :
    fieldN (compRecord u t st.toNat op a b c d e f) 4 4 % 65536 = st.toNat := by
  have := st.isLt
  simp only [compRecord, fieldN, leBytes, List.cons_append, List.nil_append, List.drop_succ_cons, List.drop_zero,
    List.take_succ_cons, List.take_zero, leNat, BitVec.toNat_ofNat]
  omega

theorem State.mbxComplete_facts (u : State) (m : Fin 16) (c : HostCmd) (st : St) (a : Nat) (b : List Byte)
    : (u.mbxComplete m.val c st a b).host.inflight = u.host.inflight ∧
      (u.mbxComplete m.val c st a b).fld (MBX_CTL_DONE m.val) = 1 ∧
      (u.mbxComplete m.val c st a b).fld (MBX_CTL_BUSY m.val) = 0 ∧
      ((u.mbxComplete m.val c st a b).rd (MBX_DATA m.val 1)).toNat % 65536 = st.toNat := by
  have hm := m.isLt
  unfold State.mbxComplete
  dsimp only
  have hlen := compRecord_length u c.tag.toNat st.toNat c.opcode 0 0xFFFE 0 c.func b.length a
  have h4 := fieldN_comp u c.tag.toNat st c.opcode 0 0xFFFE 0 c.func b.length a
  generalize compRecord u c.tag.toNat st.toNat c.opcode 0 0xFFFE 0 c.func b.length a = e at *
  generalize hf : e ++ b ++ List.replicate (256 - (e ++ b).length) 0 = f
  have hlf : 256 ≤ f.length := by rw [← hf]; simp; omega
  have h5 : fieldN f 4 4 = fieldN e 4 4 := by
    rw [← hf, List.append_assoc]
    unfold fieldN
    rw [List.drop_append_of_le_length (by omega), List.take_append_of_le_length (by simp; omega)]
  have hrd : ((u.wrBytes (MBX_DATA m.val 0) f).rd (MBX_DATA m.val 1)) = BitVec.ofNat 32 (fieldN f 4 4) := by
    have := State.wrList_at ((List.range ((f.length + 3) / 4)).map fun i => fieldN f (4 * i) 4) u (MBX_DATA m.val 0) 1
      (fieldN f 4 4) (by
        rw [List.getElem?_map, List.getElem?_range (by omega)]
        rfl)
    have ho : MBX_DATA m.val 1 = MBX_DATA m.val 0 + 4 * 1 := by unfold MBX_DATA; omega
    rw [ho, State.wrBytes, this]
  have hin : (u.wrBytes (MBX_DATA m.val 0) f).host = u.host := State.wrList_host _ _ _
  generalize u.wrBytes (MBX_DATA m.val 0) f = v at *
  have key : ∀ w : State, (w = (v.setF (MBX_CTL_DONE m.val) 1).setF (MBX_CTL_BUSY m.val) 0 ∨
      ∃ x : Nat, w = ((v.setF (MBX_CTL_DONE m.val) 1).setF (MBX_CTL_BUSY m.val) 0).msix x) →
      w.host.inflight = u.host.inflight ∧ w.fld (MBX_CTL_DONE m.val) = 1 ∧ w.fld (MBX_CTL_BUSY m.val) = 0 ∧
      (w.rd (MBX_DATA m.val 1)).toNat % 65536 = st.toNat := by
    intro w hw
    have hrdw : ∀ o, w.rd o = ((v.setF (MBX_CTL_DONE m.val) 1).setF (MBX_CTL_BUSY m.val) 0).rd o := by
      rcases hw with rfl | ⟨x, rfl⟩ <;> intro o
      · rfl
      · rw [State.msix_rd]
    have hfl : ∀ F : Fld, w.fld F = ((v.setF (MBX_CTL_DONE m.val) 1).setF (MBX_CTL_BUSY m.val) 0).fld F := fun F => by
      simp only [State.fld, hrdw]
    refine ⟨?_, ?_, ?_, ?_⟩
    · rw [← hin]
      rcases hw with rfl | ⟨x, rfl⟩
      · rw [State.setF_host, State.setF_host]
      · rw [State.msix_inflight, State.setF_host, State.setF_host]
    · rw [hfl, State.fld_setF_other _ _ _ _ (by simp), State.fld_setF_same _ _ _ (by simp)]; norm_num
    · rw [hfl, State.fld_setF_same _ _ _ (by simp)]; norm_num
    · rw [hrdw, State.rd_setF, if_neg (by simp only [MBX_CTL, MBX_DATA]; omega), State.rd_setF,
        if_neg (by simp only [MBX_CTL, MBX_DATA]; omega), hrd, h5, BitVec.toNat_ofNat]
      omega
  apply key
  split
  · exact .inr ⟨_, rfl⟩
  · exact .inl rfl

/-- `complete` ends the command. -/
theorem State.complete_ended (s : State) (c : HostCmd) (st : St) (a : Nat) (b : List Byte) :
    Ended c.via st s (s.complete c st a b) := by
  have hn := State.find_filter_via s.host.inflight c.via
  unfold State.complete
  dsimp only
  generalize hs : ({ s with host := { s.host with inflight := s.host.inflight.filter fun x => decide (x.via ≠ c.via) } } : State) = u
  have hi : u.host.inflight = s.host.inflight.filter fun x => decide (x.via ≠ c.via) := by rw [← hs]
  have hf : ∀ k, u.ring k = s.ring k := by intro k; rw [← hs]; rfl
  rw [← hi] at hn
  cases hv : c.via with
  | ring r q =>
    dsimp only [Ended]
    have h := State.ringComplete_flight u r.val q c st a b
    generalize u.ringComplete r.val q c st a b = w at *
    exact ⟨by unfold State.cmdVia; rw [h.1, ← hv]; exact hn, by rw [h.2, hf]⟩
  | mbx m =>
    dsimp only [Ended]
    have h := State.mbxComplete_facts u m c st a b
    generalize u.mbxComplete m.val c st a b = w at *
    exact ⟨by unfold State.cmdVia; rw [h.1, ← hv]; exact hn, h.2⟩
  | reg r => rfl

end Sys2Proof.Machine
end

