-- ==== Sys2Proof/Laws/Memory.lean ====
section
/-! SUPPORT. Byte memories: the canonical form is kept, a read after a write gives what was
written, other bytes stay. -/

namespace Sys2Proof.Machine

theorem cellPut_sorted {l : List Host.Cell} (h : l.Pairwise (fun p q => p.1 < q.1)) (a : Nat) (v : Byte) :
    (cellPut a v l).Pairwise (fun p q => p.1 < q.1) ∧
      ∀ q ∈ cellPut a v l, q = (a, v) ∨ (q ∈ l ∧ q.1 ≠ a) := by
  fun_induction cellPut a v l <;> grind [List.pairwise_cons]

/-- Writing a byte keeps the canonical form. -/
theorem Memory.put_wf {m : Memory} (h : m.wf) (a : Nat) (v : Byte) : (m.put a v).wf := by
  obtain ⟨hs, hn⟩ := h
  unfold Memory.put
  by_cases e : m.unlisted a = some v
  · simp only [e, if_true]
    exact ⟨hs.filter _, fun p hp => hn p (List.mem_of_mem_filter hp)⟩
  · simp only [e, if_false]
    obtain ⟨h1, h2⟩ := cellPut_sorted hs a v
    refine ⟨h1, fun p hp => ?_⟩
    rcases h2 p hp with rfl | h3
    · exact e
    · exact hn p h3.1

theorem Memory.putBytes_wf {m : Memory} (h : m.wf) (a : Nat) (l : List Byte) : (m.putBytes a l).wf := by
  induction l generalizing m a with
  | nil => exact h
  | cons v vs ih => exact ih (Memory.put_wf h a v) (a + 1)

theorem Memory.setBad_wf {m : Memory} (h : m.wf) (k : Nat) (b : Bool) : (m.setBad k b).wf := h

theorem Memory.clean_wf {m : Memory} (h : m.wf) (w a n : Nat) : (m.clean w a n).wf := by
  unfold Memory.clean
  generalize wordsOf w a n = l
  induction l generalizing m with
  | nil => exact h
  | cons k l ih =>
    simp only [List.foldl_cons]
    split
    · exact ih (Memory.setBad_wf h k false)
    · exact ih h

theorem Memory.store_wf {m m' : Memory} (h : m.wf) {w a : Nat} {d : List Byte} (e : m.store w a d = some m') :
    m'.wf := by
  unfold Memory.store at e
  split at e
  · cases e
  · cases e; exact Memory.putBytes_wf (Memory.clean_wf h _ _ _) _ _

theorem find?_filter_of_keep {l : List FreshRange} {keep : FreshRange → Bool} {a : Nat}
    (h : ∀ r ∈ l, r.covers a = true → keep r = true) :
    (l.filter keep).find? (·.covers a) = l.find? (·.covers a) := by
  induction l with
  | nil => rfl
  | cons r l ih =>
    have ih' := ih fun x hx => h x (List.mem_cons_of_mem _ hx)
    by_cases hc : r.covers a = true
    · have hk := h r List.mem_cons_self hc
      simp [hk, hc]
    · by_cases hk : keep r = true
      · simp [hk, hc, ih']
      · simp [hk, hc, ih']

/-- What an unlisted byte outside the range reads as is what it was. -/
theorem Memory.outside_unlisted (m : Memory) (w base len a : Nat) (h : ¬ (base ≤ a ∧ a < base + len)) :
    (m.outside w base len).unlisted a = m.unlisted a := by
  unfold Memory.unlisted Memory.outside
  dsimp only
  rw [find?_filter_of_keep]
  intro r _ hc
  simp only [FreshRange.covers, Bool.and_eq_true, decide_eq_true_eq] at hc
  simp only [Bool.not_eq_true', Bool.and_eq_false_iff, decide_eq_false_iff_not]
  omega

theorem Memory.outside_cells {m : Memory} {w base len : Nat} {p : Host.Cell}
    (h : p ∈ (m.outside w base len).cells) : p ∈ m.cells ∧ ¬ (base ≤ p.1 ∧ p.1 < base + len) := by
  unfold Memory.outside at h
  rw [List.mem_filter] at h
  refine ⟨h.1, ?_⟩
  have := h.2
  simp only [Bool.not_eq_true', Bool.and_eq_false_iff, decide_eq_false_iff_not] at this
  omega

theorem Memory.unlisted_cons (m : Memory) (r : FreshRange) (a : Nat) (h : r.covers a = false) :
    ({ m with fresh := r :: m.fresh } : Memory).unlisted a = m.unlisted a := by
  simp [Memory.unlisted, h]

theorem Memory.zero_wf {m : Memory} (h : m.wf) (w base len : Nat) : (m.zero w base len).wf := by
  obtain ⟨hs, hn⟩ := h
  refine ⟨hs.filter _, fun p hp => ?_⟩
  obtain ⟨h1, h2⟩ := Memory.outside_cells (w := w) hp
  have e : (m.zero w base len).unlisted p.1 = m.unlisted p.1 := by
    rw [← Memory.outside_unlisted m w base len p.1 h2]
    unfold Memory.zero
    by_cases hf : (m.outside w base len).fresh.isEmpty = true
    · have := List.isEmpty_iff.1 hf
      simp [Memory.unlisted, this]
    · simp only [hf]
      exact Memory.unlisted_cons _ ⟨base, len, none⟩ _ (by simp [FreshRange.covers]; omega)
  rw [e]; exact hn p h1

theorem Memory.lose_wf {m : Memory} (h : m.wf) (w base len gen : Nat) : (m.lose w base len gen).wf := by
  obtain ⟨hs, hn⟩ := h
  refine ⟨hs.filter _, fun p hp => ?_⟩
  obtain ⟨h1, h2⟩ := Memory.outside_cells (w := w) hp
  have e : (m.lose w base len gen).unlisted p.1 = m.unlisted p.1 := by
    rw [← Memory.outside_unlisted m w base len p.1 h2]
    exact Memory.unlisted_cons _ ⟨base, len, some gen⟩ _ (by simp [FreshRange.covers]; omega)
  rw [e]; exact hn p h1

/-! ### Reading bytes -/

theorem lookup_cons (b c : Nat) (w : Byte) (l : List Host.Cell) :
    ((c, w) :: l).lookup b = if b = c then some w else l.lookup b := by
  by_cases h : b = c
  · subst h; simp [List.lookup]
  · have : (b == c) = false := by simpa using h
    simp [List.lookup, this, h]

theorem lookup_cellPut (a : Nat) (v : Byte) (l : List Host.Cell) (b : Nat) :
    (cellPut a v l).lookup b = if b = a then some v else l.lookup b := by
  fun_induction cellPut a v l <;> grind [lookup_cons]

theorem lookup_filter_ne (a : Nat) (l : List Host.Cell) (b : Nat) :
    (l.filter (fun p => p.1 ≠ a)).lookup b = if b = a then none else l.lookup b := by
  induction l with
  | nil => simp
  | cons p l ih => by_cases hp : p.1 = a <;> grind [lookup_cons]

/-- What a byte reads as where it is not listed. -/
def Memory.blank (m : Memory) (a : Nat) : Byte :=
  match (m.fresh.find? (·.covers a)).bind FreshRange.gen with
  | some g => Config.freeByte g a
  | none => 0

theorem Memory.byte_eq (m : Memory) (a : Nat) : m.byte a = (m.cells.lookup a).getD (m.blank a) := by
  unfold Memory.byte Memory.blank
  cases m.cells.lookup a <;> rfl

theorem Memory.blank_of_unlisted {m : Memory} {a : Nat} {v : Byte} (h : m.unlisted a = some v) : m.blank a = v := by
  unfold Memory.unlisted at h
  unfold Memory.blank
  cases e : m.fresh.find? (·.covers a) with
  | none => rw [e] at h; simpa using h
  | some r =>
    rw [e] at h
    cases g : r.gen with
    | none => simpa [g] using h
    | some x => simp [g] at h

/-- A byte reads as it was written; every other byte as before. -/
theorem Memory.byte_put (m : Memory) (a : Nat) (v : Byte) (b : Nat) :
    (m.put a v).byte b = if b = a then v else m.byte b := by
  rw [Memory.byte_eq, Memory.byte_eq]
  unfold Memory.put
  by_cases e : m.unlisted a = some v
  · simp only [e, if_true, lookup_filter_ne]
    by_cases h : b = a
    · subst h
      rw [if_pos rfl, if_pos rfl]
      exact Memory.blank_of_unlisted e
    · simp [h]; rfl
  · simp only [e, if_false, lookup_cellPut]
    by_cases h : b = a
    · simp [h]
    · simp [h]; rfl

theorem Memory.byte_putBytes (m : Memory) (a : Nat) (l : List Byte) (b : Nat) :
    (m.putBytes a l).byte b = if a ≤ b ∧ b < a + l.length then l.getD (b - a) 0 else m.byte b := by
  induction l generalizing m a with
  | nil =>
    rw [Memory.putBytes, if_neg (by simp)]
  | cons v vs ih =>
    rw [Memory.putBytes, ih, Memory.byte_put]
    simp only [List.length_cons]
    by_cases h1 : a + 1 ≤ b ∧ b < a + 1 + vs.length
    · have h2 : a ≤ b ∧ b < a + (vs.length + 1) := by omega
      rw [if_pos h1, if_pos h2, show b - a = (b - (a + 1)) + 1 by omega]
      rfl
    · rw [if_neg h1]
      by_cases h3 : b = a
      · subst h3; simp
      · rw [if_neg h3, if_neg (by omega)]

@[simp] theorem Memory.bytes_length (m : Memory) (a n : Nat) : (m.bytes a n).length = n := by
  simp [Memory.bytes]

/-- Bytes read as they were written. -/
theorem Memory.bytes_putBytes_same (m : Memory) (a : Nat) (l : List Byte) :
    (m.putBytes a l).bytes a l.length = l := by
  apply List.ext_getElem
  · simp
  · intro i h1 h2
    simp only [Memory.bytes, List.getElem_map, List.getElem_range, Memory.byte_putBytes]
    rw [if_pos (by omega)]
    simp [List.getD_eq_getElem?_getD, h2]

/-- Bytes outside those written read as before. -/
theorem Memory.bytes_putBytes_other (m : Memory) (a : Nat) (l : List Byte) (b n : Nat)
    (h : b + n ≤ a ∨ a + l.length ≤ b) : (m.putBytes a l).bytes b n = m.bytes b n := by
  simp only [Memory.bytes]
  apply List.map_congr_left
  intro i hi
  rw [List.mem_range] at hi
  rw [Memory.byte_putBytes, if_neg (by omega)]

@[simp] theorem Memory.setBad_byte (m : Memory) (k : Nat) (b : Bool) (a : Nat) : (m.setBad k b).byte a = m.byte a := rfl

theorem Memory.clean_byte (m : Memory) (w a n b : Nat) : (m.clean w a n).byte b = m.byte b := by
  unfold Memory.clean
  generalize wordsOf w a n = l
  induction l generalizing m with
  | nil => rfl
  | cons k l ih =>
    simp only [List.foldl_cons]
    rw [ih]
    split <;> simp

end Sys2Proof.Machine
end

