-- ==== Sys2Proof/Laws/Registers.lean ====
section
/-! SUPPORT. What the register table says at an offset: rows, blocks and reset values. -/

namespace Sys2Proof.Machine

/-- A single register is at its own offset only. -/
theorem RegRow.index_single (r : RegRow) (off : Nat) (h : r.s1 = 0 ∧ r.n1 = 1 ∧ r.s2 = 0 ∧ r.n2 = 1) :
    r.index off = if off = r.off then some (0, 0) else none := by
  unfold RegRow.index
  rw [h.1, h.2.1, h.2.2.1, h.2.2.2]
  by_cases h1 : off < r.off
  · rw [if_pos h1, if_neg (by omega)]
  · rw [if_neg h1]
    by_cases h2 : off = r.off
    · subst h2
      simp
    · have : off - r.off ≠ 0 := by omega
      simp [this, h2]

/-- An array of registers is where its step falls on the offset. -/
theorem RegRow.index_array (r : RegRow) (off : Nat) (h : 0 < r.s1 ∧ r.s2 = 0 ∧ r.n2 = 1) :
    r.index off = if r.off ≤ off ∧ off - r.off < r.n1 * r.s1 ∧ (off - r.off) % r.s1 = 0 then
      some ((off - r.off) / r.s1, 0) else none := by
  unfold RegRow.index
  rw [h.2.1, h.2.2]
  by_cases h1 : off < r.off
  · rw [if_pos h1, if_neg (by omega)]
  · rw [if_neg h1]
    have h2 : (off - r.off) / r.s1 < r.n1 ↔ off - r.off < r.n1 * r.s1 := Nat.div_lt_iff_lt_mul h.1
    have h3 : r.off ≤ off := by omega
    simp [h2, h3]

/-- A row that does not hold the offset is passed over. -/
theorem findSome_index_skip (r : RegRow) (rs : List RegRow) (off : Nat) (h : r.index off = none) :
    ((r :: rs).findSome? fun r => (r.index off).map fun p => (r, p)) =
      rs.findSome? fun r => (r.index off).map fun p => (r, p) := by
  rw [List.findSome?_cons, h]
  rfl

/-- The first row that holds an offset gives it. -/
theorem findSome_index_take (r : RegRow) (rs : List RegRow) (off : Nat) (p : Nat × Nat) (h : r.index off = some p) :
    ((r :: rs).findSome? fun r => (r.index off).map fun p => (r, p)) = some (r, p) := by
  rw [List.findSome?_cons, h]
  rfl

/-- The window registers lie in the ARB block (R27). -/
theorem regBlock_window (v : Nat) (h : v < 4096) : regBlock (ARB_WIN_CTL v) = regsARB := by
  unfold regBlock ARB_WIN_CTL
  repeat rw [if_neg (by omega)]
  rw [if_pos (by omega)]

/-- ARB_WIN_CTL is zero at reset (R152). -/
theorem csrReset_windowCtl (v : Nat) (h : v < 4096) : csrReset (ARB_WIN_CTL v) = 0 := by
  have h1 : regAt (ARB_WIN_CTL v) =
      some (⟨0x940008, 0x10, 4096, 0, 1, 0, 0, 0x10, 0x3, 0, 0, .win⟩, v, 0) := by
    unfold regAt
    rw [regBlock_window v h]
    unfold regsARB ARB_WIN_CTL
    repeat
      rw [findSome_index_skip _ _ _ (by
        first
        | (rw [RegRow.index_single _ _ (by decide)]; exact if_neg (by simp only []; omega))
        | (rw [RegRow.index_array _ _ (by decide)]; exact if_neg (by simp only []; omega)))]
    refine findSome_index_take _ _ _ _ ?_
    rw [RegRow.index_array _ _ (by decide), if_pos (by simp only []; omega)]
    have h3 : (9699336 + 16 * v - 9699336) / 16 = v := by omega
    simp only [h3]
  unfold csrReset
  rw [h1]
  have h2 : ARB_WIN_CTL v ≠ ARB_CLASS 258 := by unfold ARB_WIN_CTL ARB_CLASS; omega
  simp [h2, ARB_BEAD_MAP, ARB_FAC_MAP, MBX_DATA]

/-- One exchange of the floor plan keeps positions inside the mesh and distinct. -/
theorem exchange_lt (x : Nat × Nat) {q : Nat} (h : q < 4608) :
    (if q = x.1 % 4608 then x.2 % 4608 else if q = x.2 % 4608 then x.1 % 4608 else q) < 4608 := by
  split_ifs <;> omega

theorem exchange_inj (x : Nat × Nat) {p q : Nat}
    (h : (if p = x.1 % 4608 then x.2 % 4608 else if p = x.2 % 4608 then x.1 % 4608 else p) =
      if q = x.1 % 4608 then x.2 % 4608 else if q = x.2 % 4608 then x.1 % 4608 else q) : p = q := by
  split_ifs at h <;> omega

/-- Every unit stands inside the mesh (R10, R427). -/
theorem meshPlace_lt (u : Nat) : Config.meshPlace u < 4608 := by
  unfold Config.meshPlace
  generalize hq : u % 4608 = q
  have hlt : q < 4608 := by omega
  clear hq
  induction Config.floorPlan generalizing q with
  | nil => exact hlt
  | cons x l ih => exact ih _ (exchange_lt x hlt)

/-- No two units stand at one place (R10, R427). -/
theorem meshPlace_inj {u v : Nat} (hu : u < 4608) (hv : v < 4608) (h : Config.meshPlace u = Config.meshPlace v) :
    u = v := by
  unfold Config.meshPlace at h
  rw [Nat.mod_eq_of_lt hu, Nat.mod_eq_of_lt hv] at h
  clear hu hv
  generalize Config.floorPlan = l at h
  induction l generalizing u v with
  | nil => exact h
  | cons x l ih => exact exchange_inj x (ih h)

end Sys2Proof.Machine
end

