-- ==== Sys2Proof/Laws/Settings.lean ====
section
/-! SUPPORT. The stored settings: when no commit entry is in force, and what the load at boot then does. -/

namespace Sys2Proof.Machine

/-- An area that no write has reached reads as zeros. -/
theorem Memory.bytes_unwritten {m : Memory} {lo : Nat} (hc : ∀ c ∈ m.cells, c.1 < lo) (hf : m.fresh = [])
    {a : Nat} (ha : lo ≤ a) (n : Nat) : m.bytes a n = List.replicate n 0 := by
  have hb : ∀ b, lo ≤ b → m.byte b = 0 := by
    intro b hb
    have : m.cells.lookup b = none := by
      rw [List.lookup_eq_none_iff]
      intro c h
      have := hc c h
      simp only [bne_iff_ne, ne_eq]; omega
    simp [Memory.byte, this, hf]
  unfold Memory.bytes
  rw [List.eq_replicate_iff]
  refine ⟨by simp, fun v hv => ?_⟩
  obtain ⟨i, -, rfl⟩ := List.mem_map.1 hv
  exact hb _ (by omega)

/-- No commit entry is in force while none is valid (R377). -/
theorem State.commitInForce_none {s : State} (h : ∀ i, s.commitValid i = false) : s.commitInForce = none := by
  unfold State.commitInForce
  generalize List.range 2048 = l
  induction l with
  | nil => rfl
  | cons i l ih => simp only [List.foldl_cons, h i, Bool.not_false, if_true]; exact ih

/-- Before the first store no commit entry is in force (R377). -/
theorem State.commitInForce_unwritten {s : State} (hc : ∀ c ∈ s.mems.nvm.cells, c.1 < 0x110000)
    (hf : s.mems.nvm.fresh = []) : s.commitInForce = none := by
  refine State.commitInForce_none fun i => ?_
  unfold State.commitValid State.nvmBytes
  rw [Memory.bytes_unwritten hc hf (by omega) 64]
  decide

/-- Where no commit entry is in force, a record leaves the defaults (R377). -/
theorem State.loadRecord_none {s : State} (h : s.commitInForce = none) (f : Nat) : s.loadRecord f = (false, s) := by
  unfold State.loadRecord State.storedRecord
  rw [h]

/-- A register write leaves the commit entries. -/
theorem State.commitInForce_wr (s : State) (o : Nat) (v : Word) : (s.wr o v).commitInForce = s.commitInForce := rfl

/-- Where no commit entry is in force, the NVM step clears NVM_GEN and shows the wear (R377, R378). -/
theorem State.loadDevice_none {s : State} (h : s.commitInForce = none) :
    s.loadDevice = (s.wrN NVM_GEN 0).wrN NVM_WEAR ((s.sec.wear.map Prod.snd).foldl max 0) := by
  unfold State.loadDevice
  rw [h]
  dsimp only
  rw [State.loadRecord_none]
  unfold State.wrN
  rw [State.commitInForce_wr, State.commitInForce_wr, h]

end Sys2Proof.Machine
end

