-- ==== Sys2Proof/Tests/Slice0.lean ====
section
/-! SUPPORT. Tests: commands that `wf` refuses, results of the spec's worked examples, and for each
statement with hypotheses a state and operands that meet them together (a conjunct per clause). -/

namespace Sys2Proof.Tests

open Sys2Proof.Machine

set_option Elab.async false
set_option linter.unusedVariables false

/-! ### Ill-formed commands -/

theorem test_wf_csr_offset : (Instr.csrWrite 5 0x402 0xF ⟨1, 0⟩).wf = false := by decide
theorem test_wf_csr_range : (Instr.csrWrite 5 0x4000000 0xF ⟨1, 0⟩).wf = false := by decide
theorem test_wf_rc_read : (Instr.rcRegisterRead 5 0x13 0).wf = false := by decide
theorem test_wf_mesh_read_line : (Instr.meshRead 5 0x3E 4).wf = false := by decide
theorem test_wf_mesh_read_short : (Instr.meshRead 5 0x40 3).wf = false := by decide
theorem test_wf_mesh_write : (Instr.meshWrite 5 0x40 (List.replicate 65 0) 0xFFFF 0).wf = false := by decide
theorem test_wf_set_alias : (Instr.setAliasWrite 5 0x7FFFFFE [1, 2, 3, 4]).wf = false := by decide
theorem test_wf_clear_alias : (Instr.clearAliasWrite 5 0x3D [1, 2, 3, 4]).wf = false := by decide
theorem test_wf_cmpset : (Instr.meshCmpset 5 0x102 0 1).wf = false := by decide
theorem test_wf_count : (Instr.meshCount 5 0x101 1).wf = false := by decide
theorem test_wf_bar2_read : (Instr.hostBar2Read 0xFFFFFFFF 2).wf = false := by decide
theorem test_wf_bar2_write : (Instr.hostBar2Write 0x40 []).wf = false := by decide
theorem test_wf_clasp : (Instr.claspOpen 5 0x40 17).wf = false := by decide
theorem test_wf_clasp_master : (Instr.claspOpen 4131 0x40 1).wf = false := by decide
theorem test_wf_link : (Instr.pcieLinkUp ⟨3, 5⟩ {}).wf = false := by decide
theorem test_wf_payload : (Instr.hostBar2Write 0x40 (List.replicate 513 0)).wf = false := by decide +kernel
theorem test_wf_debug_access : (Instr.debugMemoryAccess 0x40 4 (some [1, 2])).wf = false := by decide

/-! ### Worked examples -/

/-- The operands of the dot product of chapter 3. -/
def dotA : Block := { vals := [7, 0xB, 1, 5].map Code.n4e2.val, scale := scaleVal false 0x70 }
def dotB : Block := { vals := [0x48, 0x3C, 0xC0, 1].map Code.n8e4.val, scale := scaleVal false 0x80 }
def dotW : WideSum :=
  WideSum.takeBlock { anchor := BitVec.ofInt 16 (anchorOf Code.n4e2.maxMag Code.n8e4.maxMag [(dotA, dotB)]) } dotA dotB

/-- R43, R45: the anchor is −12 and W is 0x2983 × 2^131. -/
theorem test_dot_sum : (dotW.anchor.toInt, dotW.w.toNat) = (-12, 0x2983 * 2 ^ 131) := by decide +kernel

/-- R51: the example rounds to 0x41791200, 0x4179 and 0x4BC9. -/
theorem test_dot_rounding :
    let v := dotW.val.mul (.num ⟨3, 4⟩)
    ((fFP32.round false v).1, (fBF16.round false v).1, (fFP16.round false v).1) = (0x41791200, 0x4179, 0x4BC9) := by
  decide +kernel

/-- R98: the weights of the attention example. -/
theorem test_e2 : (e2 ⟨1, 4⟩, e2 ⟨1, 2⟩) = (2435, 2896) := by decide +kernel

/-- R219: the gain example. -/
theorem test_gain : gainQ (fun i => if i = 3 then 0x1800 else 0x2000) 0x0E0000 = 0x1C000 := by decide +kernel

/-- FIPS 180-4: the digest of "abc". -/
theorem test_sha384 : sha384N [0x61, 0x62, 0x63] =
    0xCB00753F45A35E8BB5A03D699AC65007272C32AB0EDED1631A8B605A43FF5BED8086072BA1E7CC2358BAECA134C825A7 := by
  decide +kernel

/-- The check value of CRC-32C for the digits 1 to 9. -/
theorem test_crc32c : crc32c [0x31, 0x32, 0x33, 0x34, 0x35, 0x36, 0x37, 0x38, 0x39] = 0xE3069283 := by decide +kernel

/-- R368: the boot of a reset device waits for the NVM step, and nothing runs. -/
theorem test_reset_idle : State.reset.reset_.boot = .nvm ∧ State.reset.procState 0 = procOFF := by decide +kernel

/-! ### States for the witnesses -/

/-- A state after reset in which a few registers, memory bytes and units that no test names differ
from reset. -/
def base : State :=
  { ((State.reset.wr (FAC_FLAGS 7) 5).wr (BEAD_ARG 99) 0x1234).wr (SLE_SP_ID 11) 7 with
    mems := { map := { cells := [(0x1FF0000, 0x5A)] }, blm := { cells := [(0x90000, 3)] }
              fom := { cells := [(0x1234567, 9)] }, nvm := { cells := [(77, 1)] }, dmem := { cells := [(0x170000, 2)] } }
    beads := [(99, { pc := 4 })], facets := [(7, { outNs := 3 })], axes := [(11, { vel := 2 })], cams := [(3, { next := 5 })] }

/-- `base` at TB0 time `ns`. -/
def atNs (s : State) (ns : Nat) : State :=
  { s with time := { s.time with tb := kput 0 (BitVec.ofNat 96 (ns * 2 ^ 48)) s.time.tb } }


/-- A descriptor of `n` bytes with the listed fields: offset, width in bytes, value. -/
def descOf (n : Nat) (fs : List (Nat × Nat × Nat)) : List Byte :=
  fs.foldl (fun d x => d.take x.1 ++ leBytes x.2.1 x.2.2 ++ d.drop (x.1 + x.2.1)) (List.replicate n 0)

/-- A device address in this chip's map memory. -/
def mapAt (o : Nat) : Nat := 0xFFFF000010000000 + o

/-- A descriptor of opcode `op` with one-element operands in map memory. -/
def smallDesc (op : Nat) (more : List (Nat × Nat × Nat)) : List Byte :=
  descOf 128 ([(0, 2, op), (4, 2, 0x77), (6, 2, 1), (0x0C, 4, 1), (0x10, 2, 1), (0x18, 8, mapAt 0x1000),
    (0x28, 8, mapAt 0x8000), (0x38, 8, mapAt 0xA000), (0x70, 2, 16383), (0x72, 2, 16382)] ++ more)

/-- `base` with `c` running on Facet 4. -/
def facRun (d : List Byte) : State :=
  (base.setF (FAC_STATUS_STATE 4) facRUNNING).setFacet 4 { cur := some { desc := d } }

/-- Node `n` runs with state `b` and its local memory holds the bytes `d` at `at_`. -/
def coreAt (n : Nat) (b : BeadSt) (at_ : Nat) (d : List Byte) : State :=
  let s := ((base.wr (ARB_BEAD_MAP n) (BitVec.ofNat 32 n)).setF (BEAD_STATUS_STATE n) bdRUNNING).setBead n b
  { s with mems := { s.mems with blm := s.mems.blm.putBytes (n * 0x10000 + at_) d } }

/-- Vector registers 1 to 3 and wide sums 1 to 3 with lanes of both signs. -/
def vecBead : BeadSt :=
  { pc := 0xFFF0, x := [(5, 0x100), (6, 0xFFFF1234), (7, 7)], f := [(2, 0x3F800000)],
    v := [(1, 0x7FFF80000001FFFF1234000180008000), (2, 0x00010001FFFF00028000FFFF8000FFFF), (3, 0x123456789ABCDEF0FEDCBA9876543210),
          (4, 0xE000C000A000800060004000200000)],
    ws := [(1, ⟨12345, .none, 3, 7⟩), (2, ⟨BitVec.ofInt 168 (-5), .none, 3, 32760⟩), (3, ⟨1, .none, 4, 1⟩)] }

/-- Window 3 on the first 128 bytes of map memory. -/
def winState : State := (base.wr (ARB_WIN_BASE 3) 0x10000000).wr (ARB_WIN_SIZE 3) 0x80

theorem winState_window (v : Nat) (h : v < 4096) : winState.rd (ARB_WIN_CTL v) = 0 := by
  show kget (csrReset (ARB_WIN_CTL v)) winState.csr (ARB_WIN_CTL v) = 0
  rw [csrReset_windowCtl v h]
  unfold winState base State.wr ARB_WIN_CTL FAC_FLAGS BEAD_ARG SLE_SP_ID ARB_WIN_BASE ARB_WIN_SIZE
  rw [kget_kput_ne _ _ _ (by omega), kget_kput_ne _ _ _ (by omega), kget_kput_ne _ _ _ (by omega),
    kget_kput_ne _ _ _ (by omega), kget_kput_ne _ _ _ (by omega)]
  rfl

theorem winState_fits : winState.winFits 3 = true := by
  have h : ∀ u, (List.range 4096).countP
      (fun v => v ≠ 3 && winState.flag (ARB_WIN_CTL_STATE v) && winState.winOwner v == u) = 0 := by
    intro u
    rw [List.countP_eq_zero]
    intro v hv h
    have h2 : winState.flag (ARB_WIN_CTL_STATE v) = false := by
      simp [State.flag, State.fld, winState_window v (List.mem_range.1 hv), Fld.get, bitsN]
    simp [h2] at h
  unfold State.winFits
  dsimp only
  rw [h]
  decide +kernel

/-- A command in flight with its arguments and payload. -/
def cmdBy (via : Via) (op func : Nat) (arg payload : List Byte) : HostCmd :=
  { via := via, opcode := op, func := func, tag := 0x77, version := 1,
    arg := arg ++ List.replicate (48 - arg.length) 0, payload := payload, room := 3 }

/-- Submission ring 8191 and its completion ring 8190 are active, in map memory. -/
def withRings (s : State) : State :=
  let s := ((((s.setF (RNG_CTL_STATE 8191) rngACTIVE).wr (RNG_BASE_LO 8191) 0x10010000).wr (RNG_BASE_HI 8191) 0xFFFF0000).setF
    (RNG_CFG_LOG2SIZE 8191) 12).setF (RNG_LINK_PEER 8191) 8190
  let s := ((((s.setF (RNG_CTL_STATE 8190) rngACTIVE).wr (RNG_BASE_LO 8190) 0x10020000).wr (RNG_BASE_HI 8190) 0xFFFF0000).setF
    (RNG_CFG_LOG2SIZE 8190) 12).setF (RNG_CFG_DIR 8190) 1
  { s with host := { s.host with rings := [(8190, { reserved := 5 }), (8191, { seq := 9, flight := 2 })] } }

/-- Firmware runs on the three processors. -/
def fwUp (s : State) : State :=
  (((s.setF (GLB_PROC_STAT_STATE 0) 1).setF (GLB_PROC_STAT_STATE 1) 1).setF (GLB_PROC_STAT_STATE 2) 1).setF MBX_FW_STAGE 3

/-- Firmware runs and `c` is the command in flight. -/
def hostRun (s : State) (c : HostCmd) : State :=
  let s := fwUp s
  { s with host := { s.host with inflight := [c], verMin := 1, verMax := 2 } }

/-- A SETTINGS_STORE is under way. -/
def storing (s : State) (x : StoreSt) : State :=
  { s.wr NVM_STAT 1 with host := { s.host with store := some x } }

/-- A HOST_HEARTBEAT waits on ring 8191. -/
def cmdRing : State :=
  let s := fwUp (withRings base)
  let s := (s.wr (RNG_PI 8191) 0x40).wr (RNG_CI 8191) 0x3F
  { s with
    host := { s.host with rings := [(8190, { reserved := 5 }), (8191, { seq := 9 })], verMin := 1, verMax := 1 }
    mems := { s.mems with map := { cells := [(0x10FC0, 1), (0x10FC1, 6), (0x10FC4, 0x55), (0x10FCC, 1)] } } }

/-- Input stream `c` has a valid configuration. -/
def camSet (s : State) (c : Nat) : State :=
  ((((((((s.wr (IFE_GEOM c) 0x00100020).wr (IFE_MAP_LO c) 0x10040000).wr (IFE_MAP_HI c) 0xFFFF0000).wr (IFE_DSC_LO c) 0x100000).wr
    (IFE_DSC_HI c) 0xFFFF0010).wr (IFE_ROI_LO c) 0x10080000).wr (IFE_ROI_HI c) 0xFFFF0000).wr (IFE_SO c) 0x01230456).wr DDR_SIZE 64

/-- Axis `a` has a valid configuration. -/
def axSet (s : State) (a : Nat) : State :=
  [(0x10, 5000000), (0x14, 1), (0x40, 0x10021), (0x64, 0x40000), (0x68, 0x10001), (0x80, 0x50010), (0x8C, 1), (0xB8, 1)].foldl
    (fun s x => s.wr (sleBase a + x.1) (BitVec.ofNat 32 x.2)) s

/-- Both STO paths are released. -/
def noSto (s : State) : State := (s.setF SAF_STATUS_STO_A 0).setF SAF_STATUS_STO_B 0

/-- Safety messages leave on channel `ch`. -/
def msgOn (s : State) (ch : Nat) : State :=
  { s with safety := { s.safety with params := { s.safety.params with msgCh := ch } } }

/-- A package with a time-triggered window (Facet 4, region 0) and a share window (region 1). -/
def pkg1 : Package :=
  { windows := [⟨5000, 100000, 0x10, 1, false, 0, 1, 0, 0⟩, ⟨0, 200000, 0x60, 2, true, 0, 1, 0, 0⟩]
    groups := List.replicate 64 (1, 0)
    graph := smallDesc 1 [] ++ descOf 64 [(0x12, 2, 1)]
    tasks := [⟨10, 0, 0, 0, [4], 0, 1, [], 1000, 0, 0xFFFF, []⟩, ⟨11, 2, 1, 3, [300], 128, 1, [], 1000, 0, 0xFFFF, []⟩] }

/-- MODEL runs `pkg1` in cycle 7, whose boundary was at TB7 0. -/
def modelRun (s : State) (f : ModelSt → ModelSt) : State :=
  let s := fwUp s
  { s with model := f { fn := .running, pkg := some pkg1, cycle := 7, tableOn := true, firstCycle := 2 } }

/-- TB7 at time `ns`. -/
def at7 (s : State) (ns : Nat) : State :=
  { s with time := { s.time with tb := kput 7 (BitVec.ofNat 96 (ns * 2 ^ 48)) s.time.tb } }

/-- A checked package waits for PKG_ACTIVATE. -/
def withPkg (s : State) (p : Package) : State := { s with model := { s.model with checked := some p, stagedLen := 256 } }

/-- Input stream 3 of `s` runs on `src` with images of `w` by `h` samples of 8 bits. -/
def camIn (s : State) (src w h : Nat) (x : CamSt) : State :=
  (((((camSet s 3).wr (IFE_GEOM 3) (BitVec.ofNat 32 (w + 65536 * h))).setF (IFE_STAT_STATE 3) camRUNNING).setF
    (IFE_CTL_SOURCE 3) src).setF (IFE_CUT_BATCH 3) 0).setCam 3 x

/-- The same, of `base`. -/
def camRun (src w h : Nat) (x : CamSt) : State := camIn base src w h x

/-- A frame in progress. -/
def frm (idx : Word) (lines cause : Nat) : Frame :=
  { idx := idx, num := 9, entry := some 5, refresh := true, rects := [], lines := lines, cause := cause, deferred := false, tStart := 3 }

/-- Axis 15 in state `st` with a valid configuration. -/
def axRun (st : Nat) (x : AxisSt) : State := ((axSet base 15).setF (SLE_STATUS_STATE 15) st).setAxis 15 x

/-- The safety state in NORMAL. -/
def safUp : SafetySt := { safeN := true, safeHoldA := false, safeHoldB := false }

/-- Axis 15 runs, firmware runs, and the safety state is `x`. -/
def safRun (x : SafetySt) : State :=
  fwUp { axRun axRUNNING { vel := -9, pwmL := [(0, true)] } with safety := x }

/-- A network whose executions A and B write 16 bytes each, with execution C (task 12, Facet 5) and one
checkpoint. -/
def hmkNet : Net :=
  { net := 63, sigTask := 10, taskB := 11, triage := 12, agm := 9, nchk := 1
    ranges := [⟨0xFFFF000010001000, 0, 16, 1, 0, false, 31, 0⟩, ⟨0xFFFF000010002000, 0, 16, 2, 0, false, 4, 0⟩,
      ⟨0xFFFF000010003000, 0, 16, 3, 0, false, 5, 0⟩, ⟨0xFFFF000010001100, 0, 16, 1, 1, false, 31, 0⟩,
      ⟨0xFFFF000010002100, 0, 16, 2, 1, false, 4, 0⟩, ⟨0xFFFF000010003100, 0, 16, 3, 1, false, 5, 0⟩] }

/-- `pkg1` with the network, execution C in window 64 + 63 and one output of task 10. -/
def hmkPkg : Package :=
  { pkg1 with
    tasks := [⟨10, 0, 0, 0, [4], 0, 1, [], 1000, 0, 0xFFFF, []⟩, ⟨12, 0, 127, 0, [5], 0, 1, [], 1000, 0, 0xFFFF, []⟩]
    rings := [⟨0xFFFF000010040000, 10, 2, 0xFF⟩], annex := some { nets := [hmkNet] } }

/-- The bytes at the three outputs and at the three checkpoint ranges. -/
def hmkCells (a b c : Nat) : List Host.Cell :=
  [(0x1000, BitVec.ofNat 8 a), (0x1100, BitVec.ofNat 8 a), (0x2000, BitVec.ofNat 8 b), (0x2100, BitVec.ofNat 8 b),
   (0x3000, BitVec.ofNat 8 c), (0x3100, BitVec.ofNat 8 c)]

/-- MODEL runs `hmkPkg` in cycle 7 and the network's job is `j`. -/
def hmkRun (j : HmkJob) (a b c : Nat) (x : SafetySt) : State :=
  let s := safRun { x with jobs := [j] }
  modelRun { s.setF SAF_STATUS_STATE safNORMAL with mems := { s.mems with map := { cells := hmkCells a b c } } } fun m =>
    { m with pkg := some hmkPkg }

/-- HEALTH runs, leg 47 is bound to node 4095 (ring at offset 64, 64 records each way) and its state is `x`. -/
def legRun (x : LegSt) (ins : KMap EdgeIn) (s : State) : State :=
  let s := ((s.wr (ARB_BEAD_MAP 4095) 4095).wr HLT_STAT 2).wr (HLT_LCFG 47) 0x36601010
  let s := { s with health := { s.health with inputs := ins } }
  s.setLeg 47 { x with node := 4095, base := 64 }

/-- Of two addresses one that is not this chip's. -/
def otherMac (a b : BitVec 48) : BitVec 48 := if Config.macAddress = a then b else a

/-- A frame of class 3 on VLAN 4094. -/
def ethFrame (dst : BitVec 48) (ptp : Option PtpInfo) (pre : Bool) : EthFrame :=
  { dst := dst, src := 0x020000000001, vlan := 4094, tc := 3, fcsOk := true, udpPort := none, ptp := ptp
    preemptable := pre, timeNs := 1000, fragNs := 100, body := [1, 2, 3] }

/-- Ports 5 and 6 of the switch are up, and port 5 is in state `x`. -/
def ethRun (x : PortSt) (s : State) : State :=
  ({ s with eth := { s.eth with fn := .running, mac := [(0x020000000009, 4094, 6), (0x020000000001, 4094, 2)] } }.setPort 5 { x with up := true }).setPort 6
    { up := true, queue := [⟨7, 1, ethFrame 5 none true, 1, none, false, 9⟩] }

/-- Channel `n` runs with state `x`, the three buffers are pending and its ring is at map offset 0x20000. -/
def canRun (n : Nat) (x : CanSt) (s : State) : State :=
  let s := ((s.wr (CAN_RING_LO n) 0x10020000).wr (CAN_RING_HI n) 0xFFFF0000).wr (CAN_RING_CFG n) 6
  let s := ((((s.wr (CAN_TXREQ n) 7).wr (CAN_TXB_HDR n 0) 0x3FFFFFFF).wr (CAN_TXB_HDR n 1) 0x7FF).wr (CAN_TXB_HDR n 2) 0xE0000055).wr
    (CAN_TXB_DLC n 2) 15
  (s.wr (CAN_TXB_DATA n 2 15) 0x12345678).setCan n { x with fn := .running, synced := true }

theorem otherMac_ne (a b : BitVec 48) (h : a ≠ b) : otherMac a b ≠ Config.macAddress := by
  unfold otherMac
  split
  · exact fun e => h (by simp_all)
  · exact fun e => by simp_all

/-- TB5 at time `ns`. -/
def at5 (s : State) (ns : Nat) : State :=
  { s with time := { s.time with tb := kput 5 (BitVec.ofNat 96 (ns * 2 ^ 48)) s.time.tb } }

/-- PAIR runs in `mode` with the ports `up`, on a chip whose package is `p` in cycle 7. -/
def pairRun (p : Package) (mode up : Nat) (x : PairSt) (sf : SafetySt) (s : State) : State :=
  let s := { modelRun s (fun m => { m with pkg := some p }) with pair := { x with fn := .running }, safety := sf }
  (s.wr PLK_CFG (BitVec.ofNat 32 mode)).wr PLK_STAT (BitVec.ofNat 32 (4 * up))

theorem stall_none (l : KMap BeadSt) (h : l.all (fun e => e.2.stall.isNone) = true) (n : Nat) :
    (kget {} l n : BeadSt).stall = none := by
  induction l with
  | nil => rfl
  | cons e l ih =>
    simp only [List.all_cons, Bool.and_eq_true, Option.isNone_iff_eq_none] at h
    rw [show (kget {} (e :: l) n : BeadSt) = if e.1 = n then e.2 else kget {} l n from rfl]
    split
    · exact h.1
    · exact ih h.2

/-- `s` held in cold reset. -/
def rstHeld (s : State) : State := { s with reset_ := { s.reset_ with boot := .held, lastKind := 0 } }

/-- A flash slot whose set is accepted. -/
def slotOk : FlashSlot :=
  ⟨0xe2a6dec9d2b66068f44d66230316468f879062b0062f6e64c81263eef27c80980c2b9ddd0434c02bd5a3759b069920f,
  0x6b9f3967b78cd7e64532a1961333df2b0c0bb4935d975524971656187dc2513be780a0a11b855499043962c35f90b308, [⟨[0, 0,
  9, 0, 3, 2, 0, 1, 0, 11, 23, 90, 6, 0, 0, 0, 4, 2, 0, 1, 6, 2, 0, 1, 5, 2, 1, 1, 7, 2, 1, 1]
    ++ List.replicate 32 0, [73, 110, 100, 105, 103, 111],
  0xdb7edc2823b26b667f9c727ed5c0909142e3904a43e3d8df95e0fc6f70d74014065d8e14fd1a529f182b87263dde1e7c,
  0x3376e27d5d63c17ef5bff010acbe3236c4d0119e58400c3b7d79d1900349497c047a04d1b26afe586cd252939a602900⟩, ⟨[1, 0,
  9, 0, 4, 2, 0, 1, 0, 11, 23, 90, 7, 0, 0, 0, 3, 2, 0, 1, 5, 2, 0, 1, 5, 2, 1, 1, 7, 2, 1, 1]
    ++ List.replicate 32 0, [77, 97, 100, 100, 101, 114,
  33], 0xdb7edc2823b26b667f9c727ed5c0909142e3904a43e3d8df95e0fc6f70d74014065d8e14fd1a529f182b87263dde1e7c,
  0x925a645599b74a932e5d1f91d54990e445b0034c98792af8e11678ba93bb0487001a0c65b1fff7dea0039222c9898dbe⟩, ⟨[2, 0,
  9, 0, 5, 2, 1, 1, 0, 11, 23, 90, 5, 0, 0, 0, 3, 2, 0, 1, 5, 2, 0, 1, 4, 2, 0, 1, 6, 2, 0, 1, 2, 0, 4]
    ++ List.replicate 29 0, [87, 111, 97, 100, 46],
  0xdb7edc2823b26b667f9c727ed5c0909142e3904a43e3d8df95e0fc6f70d74014065d8e14fd1a529f182b87263dde1e7c,
  0x252afc22d682a06af080912e23da7c7248d389c42577efba02dea6e253c7cc52bd20e5274d4e27da9e65ca30f5beffd3⟩],
  [⟨[0x1000203, 0x1000204, 0x1010205],
  [0x2440ebb6088487b218396b62d943c470c331298f018d937a4344a987888d5773bd6728cd9ce5701b3e866e20496cca68,
  0x49a1f8cebcc700a04711984e4b44466dd773097d21720128f95346e0f15bc27158b38b694c82159bd074d706a12159dc,
  0x2e8cbc824b68365d5b00fe6a739099b6d05c9414fec6cb67dadbdb173e41a4fafdd94db1ecafac24cc0378dda12667f4]⟩], [5, 0,
  1, 0, 0, 0, 0, 0, 0, 0, 0, 0, 0, 0, 0, 0, 3, 2, 0, 1, 4, 2, 0, 1, 5, 2, 1, 1, 36, 64, 235, 182, 8, 132, 135,
  178, 24, 57, 107, 98, 217, 67, 196, 112, 195, 49, 41, 143, 1, 141, 147, 122, 67, 68, 169, 135, 136, 141, 87,
  115, 189, 103, 40, 205, 156, 229, 112, 27, 62, 134, 110, 32, 73, 108, 202, 104, 73, 161, 248, 206, 188, 199,
  0, 160, 71, 17, 152, 78, 75, 68, 70, 109, 215, 115, 9, 125, 33, 114, 1, 40, 249, 83, 70, 224, 241, 91, 194,
  113, 88, 179, 139, 105, 76, 130, 21, 155, 208, 116, 215, 6, 161, 33, 89, 220, 46, 140, 188, 130, 75, 104, 54,
  93, 91, 0, 254, 106, 115, 144, 153, 182, 208, 92, 148, 20, 254, 198, 203, 103, 218, 219, 219, 23, 62, 65, 164,
  250, 253, 217, 77, 177, 236, 175, 172, 36, 204, 3, 120, 221, 161, 38, 103, 244, 0, 0, 0, 0],
  0xdb7edc2823b26b667f9c727ed5c0909142e3904a43e3d8df95e0fc6f70d74014065d8e14fd1a529f182b87263dde1e7c,
  0x68757524d30c56bb6a541eb72b74dc8c717b721b110c6f88f7d33c2682c9af60ecb50f479d80d7f0758aa363f7e0f858⟩

/-- `base` at the NVM step with an accepted set in slot A. -/
def bootSt : State :=
  { base.wr GLB_ID 0x09000000 with
    sec := { base.sec with slotA := some slotOk
                           rootHash := 0x18cf267ea322d1b6e3b38fbb78d5d96613158876183c8dea05ca3e580557166ff6ed1befb24ab5f1438cf05f91bac7ca }
    reset_ := { base.reset_ with boot := .nvm } }

theorem bootSt_slot : ((bootSt.wrN NVM_GEN 0).wrN NVM_WEAR 0).bootSlot = some (0, slotOk, false, some 0) := by
  decide +kernel

theorem bootSt_loaded : bootSt.loadDevice.bootSlot = some (0, slotOk, false, some 0) := by
  rw [State.loadDevice_none (State.commitInForce_unwritten (by decide) rfl)]
  exact bootSt_slot

/-! ### Witnesses -/

theorem witness_StepRunsFrontCommand :
    (∃ (s : State), s.pending = []) :=
  ⟨base, by decide +kernel⟩

theorem witness_ResetState :
    (∃ (s : State), s.reset_.boot ≠ .held) ∧
    (∃ (s : State), axesAll.all (fun a => s.axState a != axRUNNING) = true) :=
  ⟨⟨{ base with reset_ := { base.reset_ with boot := .ready } }, by decide +kernel⟩,
   ⟨base.setF RCK_LP_STATE 2, by decide +kernel⟩⟩

theorem witness_StepKeepsMemoriesCanonical :
    ∃ (s : State) (t : State), MemoriesWf s ∧ step s = .next t :=
  ⟨({ base with pending := [.bankReqOff mSCP 63, .warmReset 5] } : State), _,
    by unfold MemoriesWf; decide +kernel, rfl⟩

theorem witness_RegisterAccess :
    (∃ (off : Nat) (be : BitVec 4) (s : State), off < 0x4000000 ∧ be ≠ 0xF ∧ s.inStandby = false) ∧
    (∃ (n : Fin 16384) (s : State), s.soBad n.val = false ∧
        (s.fab.raised.any fun q => q.src = mSCP && q.op.isWrite) = false) ∧
    (∃ (off : Nat) (r : RegRow) (p : Nat × Nat) (s : State), off < 0x4000000 ∧ regAt off = some (r, p)) ∧
    (∃ (upd : Nat) (s : State), 0 < upd ∧ upd < 2 ^ 32) :=
  ⟨⟨GLB_ELOG_RD, 3, base, by decide +kernel⟩,
   ⟨16383, base, by decide +kernel⟩,
   ⟨0x20010, ⟨0x20010, 0, 1, 0, 1, 0, 0, 0x3fc, 0, 0, 0, .pwr⟩, (0, 0), base, by decide +kernel⟩,
   ⟨4294967295, base.wr GLB_ELOG_LOST 6, by decide +kernel⟩⟩

theorem witness_MapAccess :
    (∃ (src : Nat) (off : Nat) (n : Nat) (s : State), FabricQuiet s ∧
        (src = mPCIe ∨ src = mDebug → s.flag SEC_POLICY_SEAL = false) ∧ off < 0x8000000 ∧ lineOk off n = true ∧
        s.bankServes (off / 0x80000) = true ∧ syncArea off n = false) ∧
    (∃ (off : Nat) (d : List Byte) (s : State), FabricQuiet s ∧ off < 0x8000000 ∧ lineOk off d.length = true ∧
        s.bankServes (off / 0x80000) = true ∧ syncArea off d.length = false ∧
        s.mems.map.partBad 8 off d.length = false ∧ s.mems.map.anyBad 8 off d.length = false) :=
  ⟨⟨5, 0x1FF0000, 64, base, by unfold FabricQuiet; decide +kernel⟩,
   ⟨0x7BFFFC0, List.replicate 64 0x5A, base, by unfold FabricQuiet; decide +kernel⟩⟩

theorem witness_RequestRefusals :
    (∃ (src : Nat) (addr : BitVec 64) (n : Nat) (d : List Byte) (s : State), s.target src addr = .none ∧
        FabricQuiet s ∧ lineOk addr.toNat n = true ∧ (src = mPCIe ∨ src = mDebug → s.flag SEC_POLICY_SEAL = false) ∧
        lineOk addr.toNat d.length = true) ∧
    (∃ (src : Nat) (off : Nat) (n : Nat) (d : List Byte) (s : State), off < 0x8000000 ∧
        s.bankServes (off / 0x80000) = false ∧ syncArea off n = false ∧ syncArea off d.length = false ∧
        FabricQuiet s ∧ lineOk off n = true ∧ (src = mPCIe ∨ src = mDebug → s.flag SEC_POLICY_SEAL = false) ∧
        lineOk off d.length = true) ∧
    (∃ (off : Nat) (d : List Byte) (s : State), off < 0x400000 ∧ lineOk off d.length = true ∧ FabricQuiet s) :=
  ⟨⟨5, aliasAddr 0x4000000 0, 4, [1,2,3,4], base, by unfold FabricQuiet; decide +kernel⟩,
   ⟨4100, 0x80000, 4, [1,2,3,4], base.setF (MM_STATUS_STATE 1) 2, by unfold FabricQuiet; decide +kernel⟩,
   ⟨0x3FFFFC, [1,2,3,4], base, by unfold FabricQuiet; decide +kernel⟩⟩

theorem witness_Bar2Window :
    (∃ (s : State), s.inStandby = false ∧ s.hostStalls mPCIe = false) ∧
    (∃ (off : Nat) (n : Nat) (s : State), s.inStandby = false ∧ s.hostStalls mPCIe = false ∧
        bar2Ok maxRead off n = true ∧ s.bar2Inside (s.bar2Addr off) = false) ∧
    (∃ (off : Nat) (d : List Byte) (s : State), s.inStandby = false ∧ s.hostStalls mPCIe = false ∧
        s.reset_.devInReset = false ∧ bar2Ok maxWrite off d.length = true ∧ s.bar2Inside (s.bar2Addr off) = false) ∧
    (∃ (off : Nat) (n : Nat) (o : Nat) (s : State), s.inStandby = false ∧ s.reset_.devInReset = false ∧
        FabricQuiet s ∧ s.bar2Addr off = aliasAddr 0x10000000 o ∧ o < 0x8000000 ∧ lineOk o n = true ∧
        off + n ≤ 2 ^ 32 ∧ s.bankServes (o / 0x80000) = true ∧ syncArea o n = false ∧ s.flag SEC_POLICY_SEAL = false ∧
        s.mems.map.anyBad 8 o n = false) ∧
    (∃ (off : Nat) (o : Nat) (d : List Byte) (s : State), s.inStandby = false ∧ s.reset_.devInReset = false ∧
        FabricQuiet s ∧ s.bar2Addr off = aliasAddr 0x10000000 o ∧ o < 0x8000000 ∧ lineOk o d.length = true ∧
        off + d.length ≤ 2 ^ 32 ∧ s.bankServes (o / 0x80000) = true ∧ syncArea o d.length = false ∧
        s.mems.map.partBad 8 o d.length = false) :=
  ⟨⟨base.wr PCI_BAR2_BASE_LO 0x10000, by decide +kernel⟩,
   ⟨0, 4096, { base with fab := { base.fab with bar2Hi := 0xFFFF0000, bar2Lo := 0x40000000 } }, by decide +kernel⟩,
   ⟨0xFFFFFFFF, [1], { base with fab := { base.fab with bar2Hi := 0xFFFF0000, bar2Lo := 0x40000000 } },
     by decide +kernel⟩,
   ⟨0x1FF0000, 64, 0x1FF0000, { base with fab := { base.fab with bar2Hi := 0xFFFF0000, bar2Lo := 0x10000000 } },
     by unfold FabricQuiet; decide +kernel⟩,
   ⟨0, 0, [9,8,7,6], { base with fab := { base.fab with bar2Hi := 0xFFFF0000, bar2Lo := 0x10000000 } },
     by unfold FabricQuiet; decide +kernel⟩⟩

theorem witness_SyncObjects :
    (∃ (src : Nat) (n : Fin 16384) (s : State), s.soBad n.val = false ∧ s.hostStalls src = false ∧
        (s.fab.raised.any fun q => q.src = src && q.op.isWrite) = false) ∧
    (∃ (n : Fin 16384) (s : State), s.hostStalls mPCIe = false ∧ s.soBad n.val = false) ∧
    (∃ (src : Nat) (n : Fin 16384) (v : Word) (s : State), src ≠ mPCIe ∧ s.soBad n.val = false ∧
        (s.fab.waits.any fun w => w.src = src) = false ∧ soMet (s.so n.val) v = true) ∧
    (∃ (src : Nat) (n : Fin 16384) (v : Word) (s : State), src ≠ mPCIe ∧ s.soBad n.val = false ∧
        (s.fab.waits.any fun w => w.src = src) = false ∧ s.armed src n.val = some v ∧ soMet (s.so n.val) v = true) ∧
    (∃ (src : Nat) (n : Fin 16384) (v : Word) (tmo : BitVec 16) (s : State), src ≠ mPCIe ∧ s.soBad n.val = false ∧
        (s.fab.waits.any fun w => w.src = src) = false ∧ soMet (s.so n.val) v = false ∧ tmo = 0) ∧
    (∃ (src : Nat) (n : Fin 16384) (v : Word) (tmo : BitVec 16) (s : State), src ≠ mPCIe ∧ s.soBad n.val = false ∧
        (s.fab.waits.any fun w => w.src = src) = false ∧ soMet (s.so n.val) v = false ∧ tmo ≠ 0) ∧
    (∃ (w : Wait) (s : State), s.fab.waits = [w] ∧ w.tmoUs * 1000 ≤ sinceNs s.now w.since ∧ s.model.pkg = none) :=
  ⟨⟨mPCIe, 16383, base, by decide +kernel⟩,
   ⟨16383, base, by decide +kernel⟩,
   ⟨5, 16383, 0, base, by decide +kernel⟩,
   ⟨5, 3, 7, (base.soSet 5 3 9).setArmed 5 3 (some 7), by decide +kernel⟩,
   ⟨5, 0, 1, 0, base.wr ARB_WAIT_TMO_CNT 0xFFFFFFFF, by decide +kernel⟩,
   ⟨5, 16383, 0x7FFFFFFF, 0xFFFF, base, by decide +kernel⟩,
   ⟨⟨9, 16383, 1, 5, 0, false⟩, { atNs base 5000 with fab := { base.fab with waits := [⟨9, 16383, 1, 5, 0, false⟩] } },
     by decide +kernel⟩⟩

theorem witness_Windows :
    (∃ (w : Fin 4096) (s : State), s.winFits w.val = true) ∧
    (∃ (w : Fin 4096) (s : State), s.flag (ARB_WIN_CTL_STATE w.val) = true) ∧
    (∃ (w : Fin 4096) (s : State), kget false s.fab.closing w.val = true ∧ s.fab.raised = [] ∧
        (∀ c ∈ s.fab.clasps, c.grace = [])) ∧
    (∃ (off : Nat) (d : List Byte) (w : BitVec 16) (s : State), ∃ owned : Bool, owned = (localUnit (s.winBase w.toNat) == .bank (off / 0x80000) && s.flag (ARB_WIN_CTL_STATE w.toNat)) ∧
        FabricQuiet s ∧ off < 0x8000000 ∧ lineOk off d.length = true ∧ s.bankServes (off / 0x80000) = true ∧
        syncArea off d.length = false ∧ s.mems.map.partBad 8 off d.length = false ∧ w.toNat < 4096 ∧
        owned = false) ∧
    (∃ (off : Nat) (d : List Byte) (w : BitVec 16) (e : BitVec 16) (s : State), ∃ owned : Bool, owned = (localUnit (s.winBase w.toNat) == .bank (off / 0x80000) && s.flag (ARB_WIN_CTL_STATE w.toNat)) ∧
        ∃ right : Bool, right = (s.fld (ARB_WIN_CTL_EPOCH w.toNat) == e.toNat) ∧ FabricQuiet s ∧ off < 0x8000000 ∧
        lineOk off d.length = true ∧ s.bankServes (off / 0x80000) = true ∧ syncArea off d.length = false ∧
        s.mems.map.partBad 8 off d.length = false ∧ w.toNat < 4096 ∧ owned = true ∧ right = false) ∧
    (∃ (off : Nat) (d : List Byte) (w : BitVec 16) (e : BitVec 16) (s : State), ∃ owned : Bool, owned = (localUnit (s.winBase w.toNat) == .bank (off / 0x80000) && s.flag (ARB_WIN_CTL_STATE w.toNat)) ∧
        ∃ right : Bool, right = (s.fld (ARB_WIN_CTL_EPOCH w.toNat) == e.toNat) ∧
        ∃ inside : Bool, inside = (s.winBase w.toNat ≤ 0x10000000 + off && 0x10000000 + off + d.length ≤ s.winBase w.toNat + s.winSize w.toNat) ∧
        FabricQuiet s ∧ off < 0x8000000 ∧ lineOk off d.length = true ∧ s.bankServes (off / 0x80000) = true ∧
        syncArea off d.length = false ∧ s.mems.map.partBad 8 off d.length = false ∧ w.toNat < 4096 ∧ owned = true ∧
        right = true ∧ inside = false) ∧
    (∃ (off : Nat) (d : List Byte) (w : BitVec 16) (e : BitVec 16) (s : State), ∃ owned : Bool, owned = (localUnit (s.winBase w.toNat) == .bank (off / 0x80000) && s.flag (ARB_WIN_CTL_STATE w.toNat)) ∧
        ∃ right : Bool, right = (s.fld (ARB_WIN_CTL_EPOCH w.toNat) == e.toNat) ∧
        ∃ inside : Bool, inside = (s.winBase w.toNat ≤ 0x10000000 + off && 0x10000000 + off + d.length ≤ s.winBase w.toNat + s.winSize w.toNat) ∧
        FabricQuiet s ∧ off < 0x8000000 ∧ lineOk off d.length = true ∧ s.bankServes (off / 0x80000) = true ∧
        syncArea off d.length = false ∧ s.mems.map.partBad 8 off d.length = false ∧ w.toNat < 4096 ∧ owned = true ∧
        right = true ∧ inside = true) :=
  ⟨⟨3, winState, winState_fits⟩,
   ⟨3, ((base.wr (ARB_WIN_BASE 3) 0x10000000).wr (ARB_WIN_SIZE 3) 0x80).wr (ARB_WIN_CTL 3) 0xFFFF0004,
     by decide +kernel⟩,
   ⟨4095, { base.wr (ARB_WIN_CTL 4095) 8 with fab := { base.fab with closing := [(4095, true)] } },
     by decide +kernel⟩,
   ⟨0, [1,2,3,4], 3, (base.wr (ARB_WIN_BASE 3) 0x10000000).wr (ARB_WIN_SIZE 3) 0x80, _, rfl,
     by unfold FabricQuiet; decide +kernel⟩,
   ⟨0, [1,2,3,4], 3, 6, ((base.wr (ARB_WIN_BASE 3) 0x10000000).wr (ARB_WIN_SIZE 3) 0x80).wr (ARB_WIN_CTL 3) 0x00070004, _, rfl, _, rfl,
     by unfold FabricQuiet; decide +kernel⟩,
   ⟨0x80, [1,2,3,4], 3, 7, ((base.wr (ARB_WIN_BASE 3) 0x10000000).wr (ARB_WIN_SIZE 3) 0x80).wr (ARB_WIN_CTL 3) 0x00070004, _, rfl, _, rfl, _, rfl,
     by unfold FabricQuiet; decide +kernel⟩,
   ⟨0x7C, [1,2,3,4], 3, 7, ((base.wr (ARB_WIN_BASE 3) 0x10000000).wr (ARB_WIN_SIZE 3) 0x80).wr (ARB_WIN_CTL 3) 0x00070004, _, rfl, _, rfl, _, rfl,
     by unfold FabricQuiet; decide +kernel⟩⟩

theorem witness_ClassesAndClasps :
    (∃ (src : Nat) (off : Nat) (beats : Nat) (s : State), claspMaster src = true ∧ 1 ≤ beats ∧ beats ≤ 16 ∧
        off < 0x8000000 ∧ s.bankServes (off / 0x80000) = true ∧ s.fab.raised = [] ∧ s.fab.clasps = []) ∧
    (∃ (src : Nat) (off : Nat) (beats : Nat) (s : State) (c : Clasp), claspMaster src = true ∧ 1 ≤ beats ∧
        beats ≤ 16 ∧ off < 0x8000000 ∧ s.bankServes (off / 0x80000) = true ∧ s.fab.raised = [] ∧ s.fab.clasps = [c] ∧
        c.res = .bank (off / 0x80000) ∧ c.owner ≠ src) ∧
    (∃ (src : Nat) (beats : Nat) (c : Clasp) (s : State), claspMaster src = true ∧ 1 ≤ beats ∧ beats ≤ 16 ∧
        c ∈ s.fab.clasps ∧ c.owner = src) ∧
    (∃ (c : Clasp) (s : State), s.fab.clasps = [c] ∧ s.fab.raised = [] ∧ s.reset_.heldHost = []) :=
  ⟨⟨4095, 0x7FFFFFF, 16, base, by decide +kernel⟩,
   ⟨mHIP, 0x7FFFFFF, 1, { base with fab := { base.fab with clasps := [⟨.bank 255, 4095, 2, 0, []⟩] } }, (⟨.bank 255, 4095, 2, 0, []⟩ : Clasp),
     by decide +kernel⟩,
   ⟨4095, 1, (⟨.bank 3, 4095, 2, 0, []⟩ : Clasp), { base with fab := { base.fab with clasps := [⟨.bank 3, 4095, 2, 0, []⟩] } },
     by decide +kernel⟩,
   ⟨(⟨.bank 3, 4095, 2, 0, []⟩ : Clasp), { base with fab := { base.fab with clasps := [⟨.bank 3, 4095, 2, 0, []⟩] } },
     by decide +kernel⟩⟩

theorem witness_Banks :
    (∃ (b : Fin 256) (s : State), b.val < 248 ∧ s.bankMove b.val = .none ∧ s.bankState b.val = bankON) ∧
    (∃ (b : Fin 256) (s : State), b.val < 248 ∧ s.bankMove b.val = .none ∧ s.bankState b.val = bankOFF) ∧
    (∃ (b : Fin 256) (s : State), b.val < 248 ∧ s.bankMove b.val = .none ∧ s.bankState b.val = bankRET) ∧
    (∃ (b : Fin 256) (off : Bool) (since : Nat) (src : Nat) (s : State), s.bankMove b.val = .drain off since src ∧
        s.bankEmpty b.val = true) ∧
    (∃ (b : Fin 256) (off : Bool) (since : Nat) (src : Nat) (s : State), s.bankMove b.val = .drain off since src ∧
        s.bankEmpty b.val = false ∧ 10000 ≤ sinceNs s.now since) ∧
    (∃ (b : Fin 256) (m : BankMove) (s : State), s.bankMove b.val = m ∧ (m = .toOff ∨ m = .waking) ∧
        s.mems.map.fresh = []) ∧
    (∃ (b : Fin 256) (m : BankMove) (s : State), s.bankMove b.val = m ∧ (m = .toOn ∨ m = .toRetention)) ∧
    (∃ (b : Fin 256) (s : State), s.bankState b.val = bankON) :=
  ⟨⟨247, base, by decide +kernel⟩,
   ⟨0, base.setF (MM_STATUS_STATE 0) 2, by decide +kernel⟩,
   ⟨247, base.setF (MM_STATUS_STATE 247) 1, by decide +kernel⟩,
   ⟨63, true, 0, mSCP, { (atNs base 10000).setF (MM_STATUS_STATE 63) 3 with fab := { base.fab with banks := [(63, .drain true 0 mSCP)] } },
     by decide +kernel⟩,
   ⟨63, true, 0, mSCP, { (atNs base 10000).setF (MM_STATUS_STATE 63) 3 with fab := { base.fab with banks := [(63, .drain true 0 mSCP)], clasps := [⟨.bank 63, 4095, 2, 0, []⟩] } },
     by decide +kernel⟩,
   ⟨63, .toOff, { base with fab := { base.fab with banks := [(63, .toOff)] } }, by decide +kernel⟩,
   ⟨63, .toOn, { base with fab := { base.fab with banks := [(63, .toOn)] } }, by decide +kernel⟩,
   ⟨255, base.wr (MM_ECC 255) 0xFFFFFFFF, by decide +kernel⟩⟩

theorem witness_FacetQueue :
    (∃ (f : Fin 32) (s : State), (s.facet f.val).queue.length < 4) ∧
    (∃ (f : Fin 32) (s : State), 4 ≤ (s.facet f.val).queue.length) ∧
    (∃ (src : Nat) (s : State), src ≠ mSCP ∧ s.inStandby = false) ∧
    (∃ (f : Fin 32) (b : List Byte) (q : List QDesc) (s : State), (s.facet f.val).queue = .held b :: q ∧
        s.facState f.val = facIDLE ∧ (s.facet f.val).cur = none) ∧
    (∃ (f : Fin 32) (a : BitVec 64) (b : List Byte) (q : List QDesc) (s : State), (s.facet f.val).queue = .at a :: q ∧
        s.facState f.val = facIDLE ∧ (s.facet f.val).cur = none ∧ s.claspMeets (mFacet f.val) a.toNat 128 = false ∧
        ((s.setFacQueue f.val q).fetchDesc f.val (.at a)).1 = (ST_OK, b)) :=
  ⟨⟨31, (base.setFacet 31 { queue := [.held [1], .at 5, .held []] }).wr (FAC_DESC_LO 31) 0xFFFFFFC0,
    by decide +kernel⟩,
   ⟨31, base.setFacet 31 { queue := [.held [1], .at 5, .held [], .at 0] }, by decide +kernel⟩,
   ⟨mPCIe, base, by decide +kernel⟩,
   ⟨31, smallDesc 1 [], [.at 5], (base.setF (FAC_STATUS_STATE 31) facIDLE).setFacet 31 { queue := [.held (smallDesc 1 []), .at 5] },
     by decide +kernel⟩,
   ⟨31, BitVec.ofNat 64 (mapAt 0x1FF0000), 0x5A :: List.replicate 127 0, [.at 5], (base.setF (FAC_STATUS_STATE 31) facIDLE).setFacet 31 { queue := [.at (BitVec.ofNat 64 (mapAt 0x1FF0000)), .at 5] },
     by decide +kernel⟩⟩

theorem witness_FacetCommandsRun :
    (∃ (f : Fin 32) (c : FacetCmd) (s : State), s.facActive f.val = some c ∧ c.opcode = 1 ∧ c.checked = false ∧
        s.cmdCheck f.val c = ST_OK ∧ s.facHolds f.val c = false ∧ s.preempting f.val = false ∧ c.tile ≤ c.tiles) ∧
    (∃ (f : Fin 32) (c : FacetCmd) (s : State), s.facActive f.val = some c ∧ c.opcode = 1 ∧
        s.cmdCheck f.val c = ST_OK ∧ s.facHolds f.val c = false ∧ s.preempting f.val = true) ∧
    (∃ (f : Fin 32) (c : FacetCmd) (s : State), s.facActive f.val = some c ∧ c.opcode = 1 ∧ c.checked = false ∧
        s.cmdCheck f.val c ≠ ST_OK) ∧
    (∃ (f : Fin 32) (c : FacetCmd) (s : State), s.facActive f.val = some c ∧ c.opcode = 2 ∧ c.checked = false ∧
        s.cmdCheck f.val c = ST_OK ∧ s.facHolds f.val c = false ∧ s.preempting f.val = false ∧ c.tile ≤ c.tiles) ∧
    (∃ (f : Fin 32) (c : FacetCmd) (s : State), s.facActive f.val = some c ∧ c.opcode = 2 ∧
        s.cmdCheck f.val c = ST_OK ∧ s.facHolds f.val c = false ∧ s.preempting f.val = true) ∧
    (∃ (f : Fin 32) (c : FacetCmd) (s : State), s.facActive f.val = some c ∧ c.opcode = 2 ∧ c.checked = false ∧
        s.cmdCheck f.val c ≠ ST_OK) ∧
    (∃ (f : Fin 32) (c : FacetCmd) (s : State), s.facActive f.val = some c ∧ c.opcode = 3 ∧ c.checked = false ∧
        s.cmdCheck f.val c = ST_OK ∧ s.facHolds f.val c = false ∧ s.preempting f.val = false ∧ c.tile ≤ c.tiles) ∧
    (∃ (f : Fin 32) (c : FacetCmd) (s : State), s.facActive f.val = some c ∧ c.opcode = 3 ∧
        s.cmdCheck f.val c = ST_OK ∧ s.facHolds f.val c = false ∧ s.preempting f.val = true) ∧
    (∃ (f : Fin 32) (c : FacetCmd) (s : State), s.facActive f.val = some c ∧ c.opcode = 3 ∧ c.checked = false ∧
        s.cmdCheck f.val c ≠ ST_OK) ∧
    (∃ (f : Fin 32) (c : FacetCmd) (s : State), s.facActive f.val = some c ∧ c.opcode = 4 ∧ c.checked = false ∧
        s.cmdCheck f.val c = ST_OK ∧ s.facHolds f.val c = false ∧ s.preempting f.val = false ∧ c.tile ≤ c.tiles) ∧
    (∃ (f : Fin 32) (c : FacetCmd) (s : State), s.facActive f.val = some c ∧ c.opcode = 4 ∧
        s.cmdCheck f.val c = ST_OK ∧ s.facHolds f.val c = false ∧ s.preempting f.val = true) ∧
    (∃ (f : Fin 32) (c : FacetCmd) (s : State), s.facActive f.val = some c ∧ c.opcode = 4 ∧ c.checked = false ∧
        s.cmdCheck f.val c ≠ ST_OK) ∧
    (∃ (f : Fin 32) (c : FacetCmd) (s : State), s.facActive f.val = some c ∧ c.opcode = 5 ∧ c.checked = false ∧
        s.cmdCheck f.val c = ST_OK ∧ s.facHolds f.val c = false ∧ s.preempting f.val = false ∧ c.tile ≤ c.tiles) ∧
    (∃ (f : Fin 32) (c : FacetCmd) (s : State), s.facActive f.val = some c ∧ c.opcode = 5 ∧
        s.cmdCheck f.val c = ST_OK ∧ s.facHolds f.val c = false ∧ s.preempting f.val = true) ∧
    (∃ (f : Fin 32) (c : FacetCmd) (s : State), s.facActive f.val = some c ∧ c.opcode = 5 ∧ c.checked = false ∧
        s.cmdCheck f.val c ≠ ST_OK) :=
  ⟨⟨4, { desc := smallDesc 1 [(0x12, 2, 1), (0x20, 8, mapAt 0x5000), (0x30, 8, mapAt 0x9000)] }, facRun (smallDesc 1 [(0x12, 2, 1), (0x20, 8, mapAt 0x5000), (0x30, 8, mapAt 0x9000)]),
    by decide +kernel⟩,
   ⟨4, { desc := smallDesc 1 [(0x12, 2, 1), (0x20, 8, mapAt 0x5000), (0x30, 8, mapAt 0x9000)] }, (facRun (smallDesc 1 [(0x12, 2, 1), (0x20, 8, mapAt 0x5000), (0x30, 8, mapAt 0x9000)])).setF (FAC_CTL_PREEMPT 4) 1,
     by decide +kernel⟩,
   ⟨4, { desc := smallDesc 1 ([(0x12, 2, 1), (0x20, 8, mapAt 0x5000), (0x30, 8, mapAt 0x9000)] ++ [(6, 2, 0)]) }, facRun (smallDesc 1 ([(0x12, 2, 1), (0x20, 8, mapAt 0x5000), (0x30, 8, mapAt 0x9000)] ++ [(6, 2, 0)])),
     by decide +kernel⟩,
   ⟨4, { desc := smallDesc 2 [(0x12, 2, 32), (0x20, 8, mapAt 0x5000), (0x30, 8, mapAt 0x9000), (0x60, 2, 1), (0x62, 2, 1), (0x64, 1, 0x11), (0x65, 1, 0x11), (0x66, 1, 1), (0x67, 1, 1), (0x6E, 2, 1), (0x7C, 2, 1)] }, facRun (smallDesc 2 [(0x12, 2, 32), (0x20, 8, mapAt 0x5000), (0x30, 8, mapAt 0x9000), (0x60, 2, 1), (0x62, 2, 1), (0x64, 1, 0x11), (0x65, 1, 0x11), (0x66, 1, 1), (0x67, 1, 1), (0x6E, 2, 1), (0x7C, 2, 1)]),
     by decide +kernel⟩,
   ⟨4, { desc := smallDesc 2 [(0x12, 2, 32), (0x20, 8, mapAt 0x5000), (0x30, 8, mapAt 0x9000), (0x60, 2, 1), (0x62, 2, 1), (0x64, 1, 0x11), (0x65, 1, 0x11), (0x66, 1, 1), (0x67, 1, 1), (0x6E, 2, 1), (0x7C, 2, 1)] }, (facRun (smallDesc 2 [(0x12, 2, 32), (0x20, 8, mapAt 0x5000), (0x30, 8, mapAt 0x9000), (0x60, 2, 1), (0x62, 2, 1), (0x64, 1, 0x11), (0x65, 1, 0x11), (0x66, 1, 1), (0x67, 1, 1), (0x6E, 2, 1), (0x7C, 2, 1)])).setF (FAC_CTL_PREEMPT 4) 1,
     by decide +kernel⟩,
   ⟨4, { desc := smallDesc 2 ([(0x12, 2, 32), (0x20, 8, mapAt 0x5000), (0x30, 8, mapAt 0x9000), (0x60, 2, 1), (0x62, 2, 1), (0x64, 1, 0x11), (0x65, 1, 0x11), (0x66, 1, 1), (0x67, 1, 1), (0x6E, 2, 1), (0x7C, 2, 1)] ++ [(6, 2, 0)]) }, facRun (smallDesc 2 ([(0x12, 2, 32), (0x20, 8, mapAt 0x5000), (0x30, 8, mapAt 0x9000), (0x60, 2, 1), (0x62, 2, 1), (0x64, 1, 0x11), (0x65, 1, 0x11), (0x66, 1, 1), (0x67, 1, 1), (0x6E, 2, 1), (0x7C, 2, 1)] ++ [(6, 2, 0)])),
     by decide +kernel⟩,
   ⟨4, { desc := smallDesc 3 [(0x60, 2, 1), (0x62, 2, 1), (0x64, 1, 0x11), (0x65, 1, 0x11), (0x66, 1, 1), (0x67, 1, 1), (0x6E, 2, 1), (0x7C, 2, 1)] }, facRun (smallDesc 3 [(0x60, 2, 1), (0x62, 2, 1), (0x64, 1, 0x11), (0x65, 1, 0x11), (0x66, 1, 1), (0x67, 1, 1), (0x6E, 2, 1), (0x7C, 2, 1)]),
     by decide +kernel⟩,
   ⟨4, { desc := smallDesc 3 [(0x60, 2, 1), (0x62, 2, 1), (0x64, 1, 0x11), (0x65, 1, 0x11), (0x66, 1, 1), (0x67, 1, 1), (0x6E, 2, 1), (0x7C, 2, 1)] }, (facRun (smallDesc 3 [(0x60, 2, 1), (0x62, 2, 1), (0x64, 1, 0x11), (0x65, 1, 0x11), (0x66, 1, 1), (0x67, 1, 1), (0x6E, 2, 1), (0x7C, 2, 1)])).setF (FAC_CTL_PREEMPT 4) 1,
     by decide +kernel⟩,
   ⟨4, { desc := smallDesc 3 ([(0x60, 2, 1), (0x62, 2, 1), (0x64, 1, 0x11), (0x65, 1, 0x11), (0x66, 1, 1), (0x67, 1, 1), (0x6E, 2, 1), (0x7C, 2, 1)] ++ [(6, 2, 0)]) }, facRun (smallDesc 3 ([(0x60, 2, 1), (0x62, 2, 1), (0x64, 1, 0x11), (0x65, 1, 0x11), (0x66, 1, 1), (0x67, 1, 1), (0x6E, 2, 1), (0x7C, 2, 1)] ++ [(6, 2, 0)])),
     by decide +kernel⟩,
   ⟨4, { desc := smallDesc 4 [(0x10, 2, 32), (0x12, 2, 1), (0x20, 8, mapAt 0x10000), (0x30, 8, mapAt 0x20000), (0x40, 8, mapAt 0x9000), (0x60, 2, 64), (0x68, 2, 1), (0x6C, 2, 1)] }, facRun (smallDesc 4 [(0x10, 2, 32), (0x12, 2, 1), (0x20, 8, mapAt 0x10000), (0x30, 8, mapAt 0x20000), (0x40, 8, mapAt 0x9000), (0x60, 2, 64), (0x68, 2, 1), (0x6C, 2, 1)]),
     by decide +kernel⟩,
   ⟨4, { desc := smallDesc 4 [(0x10, 2, 32), (0x12, 2, 1), (0x20, 8, mapAt 0x10000), (0x30, 8, mapAt 0x20000), (0x40, 8, mapAt 0x9000), (0x60, 2, 64), (0x68, 2, 1), (0x6C, 2, 1)] }, (facRun (smallDesc 4 [(0x10, 2, 32), (0x12, 2, 1), (0x20, 8, mapAt 0x10000), (0x30, 8, mapAt 0x20000), (0x40, 8, mapAt 0x9000), (0x60, 2, 64), (0x68, 2, 1), (0x6C, 2, 1)])).setF (FAC_CTL_PREEMPT 4) 1,
     by decide +kernel⟩,
   ⟨4, { desc := smallDesc 4 ([(0x10, 2, 32), (0x12, 2, 1), (0x20, 8, mapAt 0x10000), (0x30, 8, mapAt 0x20000), (0x40, 8, mapAt 0x9000), (0x60, 2, 64), (0x68, 2, 1), (0x6C, 2, 1)] ++ [(6, 2, 0)]) }, facRun (smallDesc 4 ([(0x10, 2, 32), (0x12, 2, 1), (0x20, 8, mapAt 0x10000), (0x30, 8, mapAt 0x20000), (0x40, 8, mapAt 0x9000), (0x60, 2, 64), (0x68, 2, 1), (0x6C, 2, 1)] ++ [(6, 2, 0)])),
     by decide +kernel⟩,
   ⟨4, { desc := smallDesc 5 [(0x20, 8, mapAt 0x5000), (0x30, 8, mapAt 0x9000)] }, facRun (smallDesc 5 [(0x20, 8, mapAt 0x5000), (0x30, 8, mapAt 0x9000)]),
     by decide +kernel⟩,
   ⟨4, { desc := smallDesc 5 [(0x20, 8, mapAt 0x5000), (0x30, 8, mapAt 0x9000)] }, (facRun (smallDesc 5 [(0x20, 8, mapAt 0x5000), (0x30, 8, mapAt 0x9000)])).setF (FAC_CTL_PREEMPT 4) 1,
     by decide +kernel⟩,
   ⟨4, { desc := smallDesc 5 ([(0x20, 8, mapAt 0x5000), (0x30, 8, mapAt 0x9000)] ++ [(6, 2, 0)]) }, facRun (smallDesc 5 ([(0x20, 8, mapAt 0x5000), (0x30, 8, mapAt 0x9000)] ++ [(6, 2, 0)])),
     by decide +kernel⟩⟩

theorem witness_FacetCompletion :
    (∃ (f : Fin 32) (c : FacetCmd) (s : State), ∃ d, d = (facDesc c.desc) ∧ (s.facet f.val).cur = some c ∧
        c.done = true ∧ s.statHolds f.val c = false ∧ (facDesc c.desc).stat = 0 ∧ s.fab.raised = [] ∧
        d.doneSo < 16384 ∧ d.errSo < 16384 ∧ d.errSo ≠ d.doneSo ∧ s.soBad d.doneSo = false ∧
        s.soBad d.errSo = false) ∧
    (∃ (f : Fin 32) (s : State), s.facState f.val = facPREEMPTED ∧ (s.facet f.val).ctx = none) ∧
    (∃ (f : Fin 32) (s : State) (c : FacetCmd), s.facState f.val = facPREEMPTED ∧ (s.facet f.val).ctx = some c) :=
  ⟨⟨4, { desc := smallDesc 1 ([(0x12, 2, 1), (0x20, 8, mapAt 0x5000), (0x30, 8, mapAt 0x9000)] ++ [(6, 2, 2), (0x12, 2, 200)]), done := true, status := ST_OK }, (facRun (smallDesc 1 ([(0x12, 2, 1), (0x20, 8, mapAt 0x5000), (0x30, 8, mapAt 0x9000)] ++ [(6, 2, 2), (0x12, 2, 200)]))).setFacet 4 { cur := some ({ desc := smallDesc 1 ([(0x12, 2, 1), (0x20, 8, mapAt 0x5000), (0x30, 8, mapAt 0x9000)] ++ [(6, 2, 2), (0x12, 2, 200)]), done := true, status := ST_OK }) }, _, rfl,
    by decide +kernel⟩,
   ⟨4, (base.setF (FAC_STATUS_STATE 4) facPREEMPTED), by decide +kernel⟩,
   ⟨4, ((base.setF (FAC_STATUS_STATE 4) facPREEMPTED).setFacet 4 { ctx := some { desc := smallDesc 1 ([(0x12, 2, 1), (0x20, 8, mapAt 0x5000), (0x30, 8, mapAt 0x9000)] ++ [(6, 2, 2), (0x12, 2, 200)]), block := 3 } }), ({ desc := smallDesc 1 ([(0x12, 2, 1), (0x20, 8, mapAt 0x5000), (0x30, 8, mapAt 0x9000)] ++ [(6, 2, 2), (0x12, 2, 200)]), block := 3 } : FacetCmd),
     by decide +kernel⟩⟩

theorem witness_FacetPreemption :
    (∃ (f : Fin 32) (blocks : Nat) (c : FacetCmd) (s : State), ∃ left, left = (s.tileBlocks f.val c - c.block) ∧
        ∃ n, n = (max 1 (min blocks (min (fieldN c.desc 6 2) left))) ∧ s.facActive f.val = some c ∧ c.checked = true ∧
        s.facHolds f.val c = false ∧ c.opcode ≠ 4 ∧ n < left ∧ (facDesc c.desc).fl 6 = false ∧ c.plan = none) ∧
    (∃ (f : Fin 32) (blocks : Nat) (c : FacetCmd) (s : State), ∃ left, left = (s.tileBlocks f.val c - c.block) ∧
        ∃ n, n = (max 1 (min blocks (min (fieldN c.desc 6 2) left))) ∧ s.facActive f.val = some c ∧ c.checked = true ∧
        s.facHolds f.val c = false ∧ c.opcode ≠ 4 ∧ left ≤ n ∧ c.tile + 1 < c.tiles) ∧
    (∃ (f : Fin 32) (c : FacetCmd) (s : State), (s.facet f.val).cur = some c ∧ (s.facet f.val).saving = true) ∧
    (∃ (f : Fin 32) (s : State), s.facState f.val = facPREEMPTED) ∧
    (∃ (f : Fin 32) (c : FacetCmd) (s : State), (s.facet f.val).cur = some c ∧ (s.facet f.val).restoring = true) ∧
    (∃ (f : Fin 32) (hi : Word) (b : List Byte) (s : State), ∃ a : BitVec 64, a = (BitVec.ofNat 64 (s.fld (FAC_URGENT_LO_ADDR_LO f.val) * 64 + hi.toNat * 2 ^ 32)) ∧
        ∃ u, u = ((s.fetchDesc f.val (.at a)).2) ∧ s.facState f.val = facPREEMPTED ∧ (s.facet f.val).cur = none ∧
        (s.fetchDesc f.val (.at a)).1 = (ST_OK, b) ∧ fieldN b 0 2 ∈ [1, 2, 3, 5] ∧
        u.cmdCheck f.val (freshCmd b true) = ST_OK ∧ (facDesc b).fl 6 = false) :=
  ⟨⟨4, 2, { desc := smallDesc 1 ([(0x12, 2, 1), (0x20, 8, mapAt 0x5000), (0x30, 8, mapAt 0x9000)] ++ [(6, 2, 2), (0x12, 2, 200)]), block := 1, checked := true }, ((facRun []).setFacet 4 { cur := some ({ desc := smallDesc 1 ([(0x12, 2, 1), (0x20, 8, mapAt 0x5000), (0x30, 8, mapAt 0x9000)] ++ [(6, 2, 2), (0x12, 2, 200)]), block := 1, checked := true }) }).setF (FAC_CTL_PREEMPT 4) 1, _, rfl, _, rfl,
    by decide +kernel⟩,
   ⟨4, 128, { desc := smallDesc 1 ([(0x12, 2, 1), (0x20, 8, mapAt 0x5000), (0x30, 8, mapAt 0x9000)] ++ [(6, 2, 128), (0x10, 2, 100), (0x14, 4, 128), (0x12, 2, 200)]), block := 1, checked := true }, ((facRun []).setFacet 4 { cur := some ({ desc := smallDesc 1 ([(0x12, 2, 1), (0x20, 8, mapAt 0x5000), (0x30, 8, mapAt 0x9000)] ++ [(6, 2, 128), (0x10, 2, 100), (0x14, 4, 128), (0x12, 2, 200)]), block := 1, checked := true }) }), _, rfl, _, rfl,
     by decide +kernel⟩,
   ⟨4, { desc := smallDesc 1 ([(0x12, 2, 1), (0x20, 8, mapAt 0x5000), (0x30, 8, mapAt 0x9000)] ++ [(6, 2, 2), (0x12, 2, 200)]), block := 3, sums := [{}] }, (((facRun []).setFacet 4 { cur := some { desc := smallDesc 1 ([(0x12, 2, 1), (0x20, 8, mapAt 0x5000), (0x30, 8, mapAt 0x9000)] ++ [(6, 2, 2), (0x12, 2, 200)]), block := 3, sums := [{}] }, saving := true }).setF (FAC_CTL_PREEMPT 4) 1),
     by decide +kernel⟩,
   ⟨4, ((base.setF (FAC_STATUS_STATE 4) facPREEMPTED).setFacet 4 { ctx := some { desc := smallDesc 1 ([(0x12, 2, 1), (0x20, 8, mapAt 0x5000), (0x30, 8, mapAt 0x9000)] ++ [(6, 2, 2), (0x12, 2, 200)]), block := 3 } }),
     by decide +kernel⟩,
   ⟨4, { desc := smallDesc 1 ([(0x12, 2, 1), (0x20, 8, mapAt 0x5000), (0x30, 8, mapAt 0x9000)] ++ [(6, 2, 2), (0x12, 2, 200)]) }, (base.setF (FAC_STATUS_CTX_VALID 4) 1).setFacet 4 { cur := some { desc := smallDesc 1 ([(0x12, 2, 1), (0x20, 8, mapAt 0x5000), (0x30, 8, mapAt 0x9000)] ++ [(6, 2, 2), (0x12, 2, 200)]) }, ctx := some { desc := smallDesc 1 ([(0x12, 2, 1), (0x20, 8, mapAt 0x5000), (0x30, 8, mapAt 0x9000)] ++ [(6, 2, 2), (0x12, 2, 200)]) }, restoring := true },
     by decide +kernel⟩,
   ⟨4, 0xFFFF0000, smallDesc 1 [(0x12, 2, 1), (0x20, 8, mapAt 0x5000), (0x30, 8, mapAt 0x9000)], { (base.setF (FAC_STATUS_STATE 4) facPREEMPTED).wr (FAC_URGENT_LO 4) 0x10000000 with mems := { base.mems with map := base.mems.map.putBytes 0 (smallDesc 1 [(0x12, 2, 1), (0x20, 8, mapAt 0x5000), (0x30, 8, mapAt 0x9000)]) } }, _, rfl, _, rfl,
     by decide +kernel⟩⟩

theorem witness_BeadIntegerInstructions :
    (∃ (n : Fin 4096) (s : State) (op : _) (rd : _) (rs1 : _) (rs2 : _) (len : _), FetchesWord s n.val (.alu op rd rs1 rs2) len) ∧
    (∃ (n : Fin 4096) (s : State) (op : _) (rd : _) (rs1 : _) (imm : _) (len : _), FetchesWord s n.val (.alui op rd rs1 imm) len) ∧
    (∃ (n : Fin 4096) (s : State) (c : _) (rs1 : _) (rs2 : _) (imm : _) (len : _), FetchesWord s n.val (.branch c rs1 rs2 imm) len) ∧
    (∃ (n : Fin 4096) (s : State) (rd : _) (imm : _) (len : _), FetchesWord s n.val (.jal rd imm) len) :=
  ⟨⟨4095, coreAt 4095 { pc := 65532, x := [(5, 0x80000000), (6, 0xFFFF1234), (7, 0x80001001)] } 65532 (leBytes 4 0x7302B3), Alu.add, 5, 6, 7, 4,
    by unfold FetchesWord; decide +kernel⟩,
   ⟨1, coreAt 1 { pc := 0, x := [(5, 0x80000000), (6, 0xFFFF1234), (7, 0x80001001)] } 0 (leBytes 4 0xFFF30293), Alu.add, 5, 6, 0xFFFFFFFF, 4,
     by unfold FetchesWord; decide +kernel⟩,
   ⟨1, coreAt 1 { pc := 8192, x := [(5, 0x80000000), (6, 0xFFFF1234), (7, 0x80001001)] } 8192 (leBytes 4 0x80734063), Cond.lt, 6, 7, 0xFFFFF000, 4,
     by unfold FetchesWord; decide +kernel⟩,
   ⟨1, coreAt 1 { pc := 8192, x := [(5, 0x80000000), (6, 0xFFFF1234), (7, 0x80001001)] } 8192 (leBytes 4 0x800000EF), 1, 0xFFF00000, 4,
     by unfold FetchesWord; decide +kernel⟩⟩

theorem witness_BeadExceptions :
    (∃ (n : Fin 4096) (s : State), FetchesWord s n.val .ecall 4) ∧
    (∃ (n : Fin 4096) (s : State), FetchesWord s n.val .ebreak 4) ∧
    (∃ (n : Fin 4096) (s : State), s.beadReady n.val = true ∧ s.beadFetch n.val = .stop 2) ∧
    (∃ (n : Fin 4096) (s : State), s.beadReady n.val = true ∧ (s.bead n.val).pc.toNat % 2 = 0 ∧
        0x10000 ≤ (s.bead n.val).pc.toNat) ∧
    (∃ (n : Fin 4096) (s : State) (len : _) (signed : _) (fp : _) (rd : _) (rs1 : _) (imm : _) (ilen : _), FetchesWord s n.val (.load len signed fp rd rs1 imm) ilen ∧
        ((s.bead n.val).xr rs1 + imm).toNat % len ≠ 0) ∧
    (∃ (n : Fin 4096) (s : State) (len : _) (signed : _) (fp : _) (rd : _) (rs1 : _) (imm : _) (ilen : _), FetchesWord s n.val (.load len signed fp rd rs1 imm) ilen ∧
        ((s.bead n.val).xr rs1 + imm).toNat % len = 0 ∧ 0x10400 ≤ ((s.bead n.val).xr rs1 + imm).toNat ∧
        ((s.bead n.val).xr rs1 + imm).toNat < 0x80000000) :=
  ⟨⟨4095, coreAt 4095 { pc := 65532, x := [(5, 0x80000000), (6, 0xFFFF1234), (7, 0x80001001)] } 65532 (leBytes 4 0x73),
    by unfold FetchesWord; decide +kernel⟩,
   ⟨4095, coreAt 4095 { pc := 0, x := [(5, 0x80000000), (6, 0xFFFF1234), (7, 0x80001001)] } 0 (leBytes 4 0x100073),
     by unfold FetchesWord; decide +kernel⟩,
   ⟨0, coreAt 0 { pc := 0, x := [(5, 0x80000000), (6, 0xFFFF1234), (7, 0x80001001)] } 0 (leBytes 4 0x0),
     by decide +kernel⟩,
   ⟨0, coreAt 0 { pc := 65536, x := [(5, 0x80000000), (6, 0xFFFF1234), (7, 0x80001001)] } 65536 (leBytes 4 0x0),
     by decide +kernel⟩,
   ⟨0, coreAt 0 { pc := 0, x := [(5, 0x80000000), (6, 0xFFFF1234), (7, 0xFFFFFFFF)] } 0 (leBytes 4 0x7FF3A283), 4, true, false, 5, 7, 2047, 4,
     by unfold FetchesWord; decide +kernel⟩,
   ⟨0, coreAt 0 { pc := 0, x := [(5, 0x80000000), (6, 0xFFFF1234), (9, 0x10000)] } 0 (leBytes 4 0x40049283), 2, true, false, 5, 9, 0x400, 4,
     by unfold FetchesWord; decide +kernel⟩⟩

theorem witness_BeadLocalAccess :
    (∃ (n : Fin 4096) (s : State) (len : _) (signed : _) (rd : _) (rs1 : _) (imm : _) (ilen : _), ∃ b, b = (s.bead n.val) ∧
        ∃ a, a = ((b.xr rs1 + imm).toNat) ∧ FetchesWord s n.val (.load len signed false rd rs1 imm) ilen ∧
        a % len = 0 ∧ a < 0x10000 ∧ s.mems.blm.anyBad 4 (s.blmAt n.val a) len = false) ∧
    (∃ (n : Fin 4096) (s : State) (len : _) (rs1 : _) (rs2 : _) (imm : _) (ilen : _), ∃ b, b = (s.bead n.val) ∧
        ∃ a, a = ((b.xr rs1 + imm).toNat) ∧ FetchesWord s n.val (.store len false rs1 rs2 imm) ilen ∧ a % len = 0 ∧
        a < 0x10000 ∧ s.mems.blm.partBad 4 (s.blmAt n.val a) len = false) :=
  ⟨⟨9, coreAt 9 { pc := 0, x := [(5, 0x80000000), (6, 0xFFFF1234), (9, 0x5)] } 0 (leBytes 4 0xFFF49283 ++ [0xFF, 0xFF]), 2, true, 5, 9, 0xFFFFFFFF, 4, _, rfl, _, rfl,
    by unfold FetchesWord; decide +kernel⟩,
   ⟨9, coreAt 9 { pc := 0, x := [(5, 0x80000000), (6, 0xFFFF1234), (9, 0x10000)] } 0 (leBytes 4 0xFE648FA3), 1, 9, 6, 0xFFFFFFFF, 4, _, rfl, _, rfl,
     by unfold FetchesWord; decide +kernel⟩⟩

theorem witness_VectorInteger :
    (∃ (n : Fin 4096) (rd : BitVec 5) (rs1 : BitVec 5) (rs2 : BitVec 5) (s : State), VecReady s n.val [rd, rs1, rs2]) ∧
    (∃ (n : Fin 4096) (rd : BitVec 5) (s : State), s.beadReady n.val = true ∧ 8 ≤ rd.toNat) ∧
    (∃ (n : Fin 4096) (rs2 : BitVec 5) (s : State), s.beadReady n.val = true ∧ 8 ≤ rs2.toNat) ∧
    (∃ (n : Fin 4096) (rd : BitVec 5) (s : State), s.beadReady n.val = true ∧ 4 ≤ rd.toNat) ∧
    (∃ (n : Fin 4096) (ty : BitVec 2) (s : State), s.beadReady n.val = true ∧ ty ≠ 0) :=
  ⟨⟨4095, 3, 1, 2, coreAt 4095 vecBead 0 [], by unfold VecReady; decide +kernel⟩,
   ⟨4095, 8, coreAt 4095 vecBead 0 [], by decide +kernel⟩,
   ⟨4095, 31, coreAt 4095 vecBead 0 [], by decide +kernel⟩,
   ⟨4095, 4, coreAt 4095 vecBead 0 [], by decide +kernel⟩,
   ⟨4095, 2, coreAt 4095 vecBead 0 [], by decide +kernel⟩⟩

theorem witness_VectorFloat :
    (∃ (n : Fin 4096) (ty : BitVec 2) (f : Bin) (rm : Rm) (rd : BitVec 5) (rs1 : BitVec 5) (rs2 : BitVec 5) (s : State), VecReady s n.val [rd, rs1, rs2] ∧
        tyFmt ty.toNat = some f ∧ rmOf ((s.bead n.val).fcsr.toNat / 32) = some rm) ∧
    (∃ (n : Fin 4096) (rd : BitVec 5) (rs1 : BitVec 5) (rm : Rm) (s : State), VecReady s n.val [rd, rs1] ∧
        rmOf ((s.bead n.val).fcsr.toNat / 32) = some rm) ∧
    (∃ (n : Fin 4096) (rd : BitVec 5) (s : State), VecReady s n.val [rd]) ∧
    (∃ (n : Fin 4096) (rd : BitVec 5) (rs1 : BitVec 5) (rs2 : BitVec 5) (s : State), VecReady s n.val [rs1] ∧
        rs2.toNat < 8 ∧ rd ≠ 0) :=
  ⟨⟨4095, 2, fFP16, .rup, 3, 1, 2, coreAt 4095 { vecBead with fcsr := 0x61 } 0 [],
    by unfold VecReady; decide +kernel⟩,
   ⟨4095, 3, 1, .rtz, coreAt 4095 { vecBead with fcsr := 0x20 } 0 [], by unfold VecReady; decide +kernel⟩,
   ⟨4095, 1, coreAt 4095 vecBead 0 [], by unfold VecReady; decide +kernel⟩,
   ⟨4095, 5, 1, 7, coreAt 4095 vecBead 0 [], by unfold VecReady; decide +kernel⟩⟩

theorem witness_WideSums :
    (∃ (n : Fin 4096) (rd : BitVec 5) (s : State), s.beadReady n.val = true ∧ rd.toNat < 4) ∧
    (∃ (n : Fin 4096) (rd : BitVec 5) (rs1 : BitVec 5) (s : State), ∃ b, b = (s.bead n.val) ∧
        s.beadReady n.val = true ∧ rd.toNat < 4 ∧ rs1.toNat < 4 ∧
        (b.wsr rd.toNat).canAdd (b.wsr rs1.toNat) = true) ∧
    (∃ (n : Fin 4096) (rd : BitVec 5) (rs1 : BitVec 5) (s : State), ∃ b, b = (s.bead n.val) ∧
        s.beadReady n.val = true ∧ rd.toNat < 4 ∧ rs1.toNat < 4 ∧
        (b.wsr rd.toNat).canAdd (b.wsr rs1.toNat) = false) ∧
    (∃ (x : WideSum) (q : Fr), q.d ≠ 0 ∧ x.count < 32768 ∧ q.abs.lt (pow2 (x.anchor.toInt + 24)) = true) ∧
    (∃ (x : WideSum) (q : Fr), q.d ≠ 0 ∧ (32768 ≤ x.count ∨ (pow2 (x.anchor.toInt + 24)).le q.abs = true)) ∧
    (∃ (n : Fin 4096) (rd : BitVec 5) (rs1 : BitVec 5) (rs2 : BitVec 5) (s : State), s.beadReady n.val = true ∧
        rd.toNat < 4 ∧ rs1.toNat < 8 ∧ rs2.toNat < 8) :=
  ⟨⟨4095, 3, coreAt 4095 vecBead 0 [], by decide +kernel⟩,
   ⟨4095, 1, 2, coreAt 4095 vecBead 0 [], _, rfl, by decide +kernel⟩,
   ⟨4095, 1, 3, coreAt 4095 vecBead 0 [], _, rfl, by decide +kernel⟩,
   ⟨⟨BitVec.ofInt 168 (-9), .none, 0xFFFF, 32767⟩, ⟨-8388607, 1⟩, by decide +kernel⟩,
   ⟨⟨BitVec.ofInt 168 (-9), .none, 0xFFFF, 32767⟩, ⟨-8388608, 1⟩, by decide +kernel⟩,
   ⟨4095, 0, 1, 2, coreAt 4095 vecBead 0 [], by decide +kernel⟩⟩

theorem witness_VectorMemory :
    (∃ (n : Fin 4096) (rd : BitVec 5) (rs1 : BitVec 5) (s : State), ∃ b, b = (s.bead n.val) ∧
        ∃ a, a = ((b.xr rs1.toNat).toNat) ∧ ∃ at_, at_ = (s.blmAt n.val a) ∧ s.beadReady n.val = true ∧ a < 0x10000 ∧
        rd.toNat < 8 ∧ a % 16 = 0 ∧ s.mems.blm.anyBad 4 at_ 16 = false ∧ s.mems.blm.partBad 4 at_ 16 = false) ∧
    (∃ (n : Fin 4096) (rd : BitVec 5) (rs1 : BitVec 5) (s : State), ∃ b, b = (s.bead n.val) ∧
        ∃ a, a = ((b.xr rs1.toNat).toNat) ∧ ∃ at_, at_ = (s.blmAt n.val a) ∧ s.beadReady n.val = true ∧ a < 0x10000 ∧
        rd.toNat < 4 ∧ a % 32 = 0 ∧ s.mems.blm.anyBad 4 at_ 32 = false ∧ s.mems.blm.partBad 4 at_ 32 = false) ∧
    (∃ (n : Fin 4096) (rd : BitVec 5) (rs1 : BitVec 5) (rs2 : BitVec 5) (s : State), ∃ as, as = (s.laneAddrs n.val 0 rs1.toNat rs2.toNat) ∧
        VecReady s n.val [rd, rs2] ∧ as.all (fun a => a.toNat % 2 = 0 && a.toNat < 0x10000) = true ∧
        s.mems.blm.poison = []) ∧
    (∃ (n : Fin 4096) (rd : BitVec 5) (rs1 : BitVec 5) (rs2 : BitVec 5) (s : State), ∃ as, as = (s.laneAddrs n.val 0 rs1.toNat rs2.toNat) ∧
        VecReady s n.val [rd, rs2] ∧ as.all (fun a => a.toNat % 2 = 0) = true ∧
        as.any (fun a => 0x10000 ≤ a.toNat) = true) :=
  ⟨⟨4095, 7, 5, coreAt 4095 { vecBead with x := [(5, 0xFFF0), (6, 3)] } 0xFFE0 ((List.range 32).map fun i => BitVec.ofNat 8 (255 - 7 * i)), _, rfl, _, rfl, _, rfl,
    by decide +kernel⟩,
   ⟨4095, 3, 5, coreAt 4095 { vecBead with x := [(5, 0xFFE0), (6, 3)] } 0xFFE0 ((List.range 32).map fun i => BitVec.ofNat 8 (255 - 7 * i)), _, rfl, _, rfl, _, rfl,
     by decide +kernel⟩,
   ⟨4095, 3, 0, 4, coreAt 4095 { vecBead with x := [(5, 0xFFE0), (6, 3)] } 0xFFE0 ((List.range 32).map fun i => BitVec.ofNat 8 (255 - 7 * i)), _, rfl,
     by unfold VecReady; decide +kernel⟩,
   ⟨4095, 3, 5, 4, coreAt 4095 { vecBead with x := [(5, 0xFFE0), (6, 3)] } 0xFFE0 ((List.range 32).map fun i => BitVec.ofNat 8 (255 - 7 * i)), _, rfl,
     by unfold VecReady; decide +kernel⟩⟩

theorem witness_ReadModifyWrite :
    (∃ (n : Fin 4096) (off : Nat) (s : State), FabricQuiet s ∧ off < 0x10000 ∧ off % 4 = 0 ∧
        s.mems.blm.bad ((s.physBead n.val * 0x10000 + off) / 4) = false) ∧
    (∃ (n : Fin 4096) (rs1 : BitVec 5) (s : State), ∃ b, b = (s.bead n.val) ∧ ∃ a, a = ((b.xr rs1.toNat).toNat) ∧
        ∃ at_, at_ = (s.blmAt n.val a) ∧ s.beadReady n.val = true ∧ a < 0x10000 ∧ a % 4 = 0 ∧
        s.mems.blm.anyBad 4 at_ 4 = false) :=
  ⟨⟨4095, 0xFFFC, { base.wr (ARB_BEAD_MAP 4095) 4095 with mems := { base.mems with blm := base.mems.blm.putBytes (4095 * 0x10000 + 0xFFFC) (leBytes 4 0xFFFFFFFE) } },
    by unfold FabricQuiet; decide +kernel⟩,
   ⟨4095, 5, coreAt 4095 { vecBead with x := [(5, 0xFFFC), (6, 3), (7, 0x80000000)] } 0xFFFC (leBytes 4 0x80000000), _, rfl, _, rfl, _, rfl,
     by decide +kernel⟩⟩

theorem witness_BeadControl :
    (∃ (n : Fin 4096) (s : State), s.beadState n.val = bdIDLE) ∧
    (∃ (n : Fin 4096) (s : State), s.beadReady n.val = true ∧ s.flag (BEAD_STATUS_YPEND n.val) = false) ∧
    (∃ (n : Fin 4096) (s : State), s.beadReady n.val = true ∧ s.flag (BEAD_STATUS_YPEND n.val) = true) ∧
    (∃ (n : Fin 4096) (s : State), ∃ b, b = (s.bead n.val) ∧ b.parking = true ∧ b.posted = [] ∧
        s.beadState n.val = bdRUNNING) ∧
    (∃ (n : Fin 4096) (s : State) (c : SavedCore), ∃ b, b = (s.bead n.val) ∧ s.beadState n.val = bdPARKED ∧
        b.saved = some c) ∧
    (∃ (n : Fin 4096) (s : State), s.beadState n.val = bdRUNNING) ∧
    (∃ (n : Fin 4096) (s : State) (t0 : _), ∃ b, b = (s.bead n.val) ∧ b.ylimFrom = some t0 ∧
        (s.rd (BEAD_YLIM n.val)).toNat < sinceNs s.now t0) :=
  ⟨⟨4095, (((base.setF (BEAD_STATUS_STATE 4095) bdIDLE).wr (BEAD_ENTRY 4095) 0x1000).wr (BEAD_ARG 4095) 0xABCD).setBead 4095 { pc := 12, x := [(5, 1), (10, 9)], f := [(1, 2)], fcsr := 3, v := [(1, 4)], ws := [(0, ⟨5, .none, 6, 7⟩)] },
    by decide +kernel⟩,
   ⟨4095, (base.setF (BEAD_STATUS_STATE 4095) bdRUNNING).setBead 4095 { pc := 12, x := [(5, 1), (10, 9)], f := [(1, 2)], fcsr := 3, v := [(1, 4)], ws := [(0, ⟨5, .none, 6, 7⟩)] },
     by decide +kernel⟩,
   ⟨4095, ((base.setF (BEAD_STATUS_STATE 4095) bdRUNNING).setBead 4095 { pc := 12, x := [(5, 1), (10, 9)], f := [(1, 2)], fcsr := 3, v := [(1, 4)], ws := [(0, ⟨5, .none, 6, 7⟩)] }).setF (BEAD_STATUS_YPEND 4095) 1,
     by decide +kernel⟩,
   ⟨4095, ((base.setF (BEAD_STATUS_STATE 4095) bdRUNNING).setBead 4095 { pc := 12, x := [(5, 1), (10, 9)], f := [(1, 2)], fcsr := 3, v := [(1, 4)], ws := [(0, ⟨5, .none, 6, 7⟩)], parking := true }).setF (BEAD_CTL_YIELD_REQ 4095) 1, _, rfl,
     by decide +kernel⟩,
   ⟨4095, (base.setF (BEAD_STATUS_STATE 4095) bdPARKED).setBead 4095 { pc := 12, x := [(5, 1), (10, 9)], f := [(1, 2)], fcsr := 3, v := [(1, 4)], ws := [(0, ⟨5, .none, 6, 7⟩)], saved := some ⟨0x44, [(5, 77)], [(1, 88)], 0x21, [(7, 99)], [(3, ⟨1, .none, 2, 3⟩)]⟩ }, (⟨0x44, [(5, 77)], [(1, 88)], 0x21, [(7, 99)], [(3, ⟨1, .none, 2, 3⟩)]⟩ : SavedCore), _, rfl,
     by decide +kernel⟩,
   ⟨4095, (base.setF (BEAD_STATUS_STATE 4095) bdRUNNING).setBead 4095 { pc := 12, x := [(5, 1), (10, 9)], f := [(1, 2)], fcsr := 3, v := [(1, 4)], ws := [(0, ⟨5, .none, 6, 7⟩)] },
     by decide +kernel⟩,
   ⟨4095, atNs ((base.setF (BEAD_STATUS_STATE 4095) bdRUNNING).setBead 4095 { pc := 12, x := [(5, 1), (10, 9)], f := [(1, 2)], fcsr := 3, v := [(1, 4)], ws := [(0, ⟨5, .none, 6, 7⟩)], ylimFrom := some 0 }) 5001, 0, _, rfl,
     by decide +kernel⟩⟩

theorem witness_RemoteAccess :
    (∃ (n : Fin 4096) (s : State) (q : RemoteLoad) (ext : RemoteReply) (c : Nat), (s.bead n.val).stall = some q ∧
        q.waiting = false ∧ s.target n.val q.addr = .remote c ∧ s.routeUp c = true ∧ ext.poison = false ∧
        ext.st = ST_OK ∧ q.fp = false) ∧
    (∃ (n : Fin 4096) (s : State) (q : RemoteLoad) (ext : RemoteReply) (c : Nat), (s.bead n.val).stall = some q ∧
        q.waiting = false ∧ s.target n.val q.addr = .remote c ∧ s.routeUp c = true ∧ ext.poison = false ∧
        ext.st ≠ ST_OK ∧ ext.st ≠ ST_ECC_UNCORRECTED) ∧
    (∃ (n : Fin 4096) (s : State) (rest : List (Option St)), (s.bead n.val).posted = some ST_OK :: rest ∧
        (s.bead n.val).fencing = false) ∧
    (∃ (n : Fin 4096) (s : State) (st : _) (rest : List (Option St)), (s.bead n.val).posted = some st :: rest ∧
        st ≠ ST_OK ∧ (s.bead n.val).fencing = false ∧ s.soBad ((s.rd (BEAD_ERR_SO n.val)).toNat % 16384) = false ∧
        s.fab.raised = []) ∧
    (∃ (n : Fin 4096) (s : State), (s.bead n.val).posted = [some ST_OK] ∧ (s.bead n.val).fencing = true) ∧
    (∃ (n : Fin 4096) (s : State) (q : RemoteLoad) (o : Nat), (s.bead n.val).stall = some q ∧ q.waiting = false ∧
        q.unit = 0 ∧ q.op = .read q.len ∧ q.fp = false ∧ FabricQuiet s ∧ q.addr = aliasAddr 0x10000000 o ∧
        o < 0x8000000 ∧ q.len ∈ [1, 2, 4] ∧ o % q.len = 0 ∧ s.bankServes (o / 0x80000) = true ∧
        syncArea o q.len = false ∧ s.mems.map.anyBad 8 o q.len = false) :=
  ⟨⟨4095, ((((base.setF PLK_CFG_MODE 1).setF GLB_CHIP_ID_CHIP 0).wr PLK_STAT 4).setF (BEAD_STATUS_STATE 4095) bdRUNNING).setBead 4095 { pc := 8, x := [(5, 1)], stall := some { addr := 0x0001000010000000, op := .read 2, len := 2, signed := true, rd := 5, fp := false, ilen := 4, waiting := false } }, ({ addr := 0x0001000010000000, op := .read 2, len := 2, signed := true, rd := 5, fp := false, ilen := 4, waiting := false } : RemoteLoad), (⟨ST_OK, 0x1234FFFE, false⟩ : RemoteReply), 1,
    by decide +kernel⟩,
   ⟨4095, ((((base.setF PLK_CFG_MODE 1).setF GLB_CHIP_ID_CHIP 0).wr PLK_STAT 4).setF (BEAD_STATUS_STATE 4095) bdRUNNING).setBead 4095 { pc := 8, x := [(5, 1)], stall := some { addr := 0x0001000010000000, op := .read 2, len := 2, signed := true, rd := 5, fp := false, ilen := 4, waiting := false } }, ({ addr := 0x0001000010000000, op := .read 2, len := 2, signed := true, rd := 5, fp := false, ilen := 4, waiting := false } : RemoteLoad), (⟨ST_BAD_STATE, 0x1234FFFE, false⟩ : RemoteReply), 1,
     by decide +kernel⟩,
   ⟨4095, base.setBead 4095 { pc := 8, posted := [some ST_OK, none, some 5] }, ([none, some 5] : List (Option St)),
     by decide +kernel⟩,
   ⟨4095, (base.wr (BEAD_ERR_SO 4095) 16383).setBead 4095 { pc := 8, posted := [some ST_BAD_STATE, none, some 5] }, ST_BAD_STATE, ([none, some 5] : List (Option St)),
     by decide +kernel⟩,
   ⟨4095, base.setBead 4095 { pc := 8, posted := [some ST_OK], fencing := true }, by decide +kernel⟩,
   ⟨4095, (base.setF (BEAD_STATUS_STATE 4095) bdRUNNING).setBead 4095 { pc := 8, x := [(5, 1)], stall := some ({ addr := aliasAddr 0x10000000 0x1FF0000, op := .read 2, len := 2, signed := true, rd := 31, fp := false, ilen := 4, waiting := false } : RemoteLoad) }, ({ addr := aliasAddr 0x10000000 0x1FF0000, op := .read 2, len := 2, signed := true, rd := 31, fp := false, ilen := 4, waiting := false } : RemoteLoad), (0x1FF0000 : Nat),
     by unfold FabricQuiet; decide +kernel⟩⟩

theorem witness_NodeMover :
    (∃ (n : Fin 4096) (v : Word) (s : State), v.getLsbD 31 = true ∧ (s.bead n.val).movers.length < 2) ∧
    (∃ (n : Fin 4096) (v : Word) (s : State), v.getLsbD 31 = true ∧ 2 ≤ (s.bead n.val).movers.length) ∧
    (∃ (n : Fin 4096) (m : Mover) (rest : List Mover) (s : State), (s.bead n.val).movers = m :: rest ∧ m.ok = false ∧
        FabricQuiet s ∧ m.doneSo < 16384 ∧ m.errSo < 16384 ∧ m.doneSo ≠ m.errSo ∧ s.soBad m.doneSo = false ∧
        s.soBad m.errSo = false) ∧
    (∃ (n : Fin 4096) (m : Mover) (rest : List Mover) (a : Nat) (b : Nat) (s : State), (s.bead n.val).movers = m :: rest ∧
        FabricQuiet s ∧ m.src = aliasAddr 0x10000000 a ∧ m.dst = aliasAddr 0x10000000 b ∧ m.len = 4 ∧ m.win = 0xFFFF ∧
        a % 4 = 0 ∧ b % 4 = 0 ∧ a < 0x7C00000 ∧ b < 0x7C00000 ∧ s.bankServes (a / 0x80000) = true ∧
        s.bankServes (b / 0x80000) = true ∧ s.mems.map.poison = [] ∧ m.doneSo < 16384) :=
  ⟨⟨4095, 0xFFFFFFFF, ((base.setBead 4095 { movers := [⟨aliasAddr 0x10000000 0x7BFFFFC, aliasAddr 0x10000000 0, 4, 16383, 7, 0xFFFF, 0⟩] }).wr (BEAD_MOV_SRC_HI 4095) 0xFFFF0000).wr (BEAD_MOV_LEN 4095) 4,
    by decide +kernel⟩,
   ⟨4095, 0x80000000, base.setBead 4095 { movers := [⟨aliasAddr 0x10000000 0x7BFFFFC, aliasAddr 0x10000000 0, 4, 16383, 7, 0xFFFF, 0⟩, ⟨aliasAddr 0x10000000 0x7BFFFFC, aliasAddr 0x10000000 0, 4, 16383, 7, 0xFFFF, 0⟩] },
     by decide +kernel⟩,
   ⟨4095, (⟨aliasAddr 0x10000000 0x7BFFFFC, aliasAddr 0x10000000 0, 3, 16383, 7, 0xFFFF, 0⟩ : Mover), [], base.setBead 4095 { movers := [⟨aliasAddr 0x10000000 0x7BFFFFC, aliasAddr 0x10000000 0, 3, 16383, 7, 0xFFFF, 0⟩] },
     by unfold FabricQuiet; decide +kernel⟩,
   ⟨4095, (⟨aliasAddr 0x10000000 0x7BFFFFC, aliasAddr 0x10000000 0, 4, 16383, 7, 0xFFFF, 0⟩ : Mover), [⟨aliasAddr 0x10000000 0x7BFFFFC, aliasAddr 0x10000000 0, 3, 16383, 7, 0xFFFF, 0⟩], 0x7BFFFFC, 0, { base.setBead 4095 { movers := [⟨aliasAddr 0x10000000 0x7BFFFFC, aliasAddr 0x10000000 0, 4, 16383, 7, 0xFFFF, 0⟩, ⟨aliasAddr 0x10000000 0x7BFFFFC, aliasAddr 0x10000000 0, 3, 16383, 7, 0xFFFF, 0⟩] } with mems := { base.mems with map := { cells := [(0x7BFFFFC, 9), (0x7BFFFFF, 8)] } } },
     by unfold FabricQuiet; decide +kernel⟩⟩

theorem witness_RingControl :
    (∃ (src : Nat) (r : Fin 8192) (s : State), (src = mHIP ∨ src = mPCIe) ∧ s.inStandby = false ∧
        s.hostStalls src = false ∧ s.ringState r.val = rngDISABLED ∧ s.enableOk r.val = true) ∧
    (∃ (src : Nat) (r : Fin 8192) (s : State), (src = mHIP ∨ src = mPCIe) ∧ s.inStandby = false ∧
        s.hostStalls src = false ∧ s.ringState r.val = rngDISABLED ∧ s.enableOk r.val = false) ∧
    (∃ (src : Nat) (r : Fin 8192) (v : Word) (s : State), (src = mHIP ∨ src = mPCIe) ∧ s.inStandby = false ∧
        s.hostStalls src = false ∧
        (s.ringState r.val = rngACTIVE ∨ s.ringState r.val = rngFROZEN ∨ s.ringState r.val = rngERROR) ∧
        v.getLsbD 3 = s.flag (RNG_CTL_EVENTS r.val) ∧ (s.flag (RNG_CFG_DIR r.val) = true ∧ s.isPeer r.val = true)) ∧
    (∃ (src : Nat) (r : Fin 8192) (v : Word) (s : State), (src = mHIP ∨ src = mPCIe) ∧ s.inStandby = false ∧
        s.hostStalls src = false ∧
        (s.ringState r.val = rngACTIVE ∨ s.ringState r.val = rngFROZEN ∨ s.ringState r.val = rngERROR) ∧
        v.getLsbD 3 = s.flag (RNG_CTL_EVENTS r.val) ∧
        (s.flag (RNG_CFG_DIR r.val) = false ∨ s.isPeer r.val = false)) ∧
    (∃ (r : Fin 8192) (s : State), s.ringState r.val = rngDRAINING ∧ (s.ring r.val).flight = 0) ∧
    (∃ (r : Fin 8192) (v : Word) (s : State), s.inStandby = false ∧ s.hostStalls mPCIe = false ∧
        s.ringState r.val ≠ rngDISABLED ∧ s.flag (RNG_CFG_DIR r.val) = false ∧
        (v.toNat + 2 ^ 32 - (s.rd (RNG_CI r.val)).toNat) % 2 ^ 32 ≤ s.ringLines r.val) ∧
    (∃ (r : Fin 8192) (v : Word) (s : State), s.inStandby = false ∧ s.hostStalls mPCIe = false ∧
        s.ringState r.val ≠ rngDISABLED ∧ s.flag (RNG_CFG_DIR r.val) = false ∧
        s.ringLines r.val < (v.toNat + 2 ^ 32 - (s.rd (RNG_CI r.val)).toNat) % 2 ^ 32) ∧
    (∃ (r : Fin 8192) (t0 : Nat) (s : State), (s.ring r.val).unsent = some t0 ∧
        s.fld (RNG_CTL_COAL r.val) * 1000 ≤ sinceNs s.now t0 ∧ s.flag (RNG_LINK_IRQ_EN r.val) = true) :=
  ⟨⟨mHIP, 8191, (withRings base).setF (RNG_CTL_STATE 8191) rngDISABLED, by decide +kernel⟩,
   ⟨mHIP, 8191, ((withRings base).setF (RNG_CTL_STATE 8191) rngDISABLED).wr (RNG_PI 8191) 1, by decide +kernel⟩,
   ⟨mHIP, 8190, 0xFFFF0000, (withRings base).setF (RNG_CTL_STATE 8190) rngACTIVE, by decide +kernel⟩,
   ⟨mPCIe, 8191, 0xFFFF0000, (withRings base).setF (RNG_CTL_STATE 8191) rngACTIVE, by decide +kernel⟩,
   ⟨8191, ({ withRings base with host := {} }).setF (RNG_CTL_STATE 8191) rngDRAINING, by decide +kernel⟩,
   ⟨8191, 63, (withRings base).wr (RNG_CI 8191) 0xFFFFFFFF, by decide +kernel⟩,
   ⟨8191, 64, (withRings base).wr (RNG_CI 8191) 0xFFFFFFFF, by decide +kernel⟩,
   ⟨8190, 0, ((({ atNs (withRings base) 65535000 with host := { rings := [(8190, { unsent := some 0 })] } }).setF (RNG_CTL_COAL 8190) 65535).setF (RNG_LINK_IRQ_EN 8190) 1).setF (RNG_LINK_VECTOR 8190) 2047,
     by decide +kernel⟩⟩

theorem witness_CommandsTaken :
    (∃ (r : Fin 8192) (s : State) (hd : List Byte), s.serving = true ∧ s.fetchTurn = some r.val ∧
        hd = s.ringHead r.val ∧ fieldN hd 8 4 ≤ 65536 ∧ s.tooLarge r.val hd = false ∧
        (s.ringRead r.val (s.rd (RNG_CI r.val)).toNat (cmdLines hd)).1.st = ST_OK ∧
        (s.ringRead r.val (s.rd (RNG_CI r.val)).toNat (cmdLines hd)).1.bad = false ∧
        s.hostCheck (some (s.fld (RNG_CFG_FUNC r.val))) (fieldN hd 0 2) (fieldN hd 2 1) (fieldN hd 12 2) = ST_OK ∧
        s.fld (RNG_LINK_PEER r.val) ≠ r.val ∧
        s.claspMeets mHIP (s.ringBase r.val) (64 * s.ringLines r.val) = false) ∧
    (∃ (src : Nat) (m : Fin 16) (s : State), (src = mHIP ∨ src = mPCIe) ∧ s.inStandby = false ∧
        s.hostStalls src = false ∧ s.flag (MBX_CTL_BUSY m.val) = false ∧
        (s.fld MBX_FW_STAGE = 0 ∨ s.fld MBX_FW_STAGE = 2)) ∧
    (∃ (src : Nat) (m : Fin 16) (s : State), (src = mHIP ∨ src = mPCIe) ∧ s.inStandby = false ∧
        s.hostStalls src = false ∧ s.flag (MBX_CTL_BUSY m.val) = false ∧ s.serving = true ∧ s.host.goOrder = [] ∧
        s.hostCheck none (s.mbxCmd m).opcode (s.mbxCmd m).func (s.mbxCmd m).version = ST_OK ∧
        (s.mbxCmd m).needsActive = false) ∧
    (∃ (width : BitVec 4) (rate : BitVec 4) (cfg : PciCfg) (s : State), s.reset_.boot ≠ .held ∧
        linkOk ⟨width, rate⟩ cfg = true) :=
  ⟨⟨8191, cmdRing, cmdRing.ringHead 8191, by decide +kernel⟩,
   ⟨mHIP, 15, base, by decide +kernel⟩,
   ⟨mHIP, 15, { ((fwUp base).wr (MBX_DATA 15 0) 0x00000601).wr (MBX_DATA 15 3) 1 with host := { verMin := 1, verMax := 1 } },
     by decide +kernel⟩,
   ⟨8, 5, { bar0 := 0x1234567890ABCDEF, maxPayload := 512, msixOn := true, unmasked := [3, 2047] }, { base with reset_ := { base.reset_ with boot := .ready } },
     by decide +kernel⟩⟩

theorem witness_HostSession :
    (∃ (m : Fin 16) (c : HostCmd) (s : State), Ready s (.mbx m) opATTACH fDEVICE c ∧ 1 ≤ fieldN c.arg 0 2 ∧
        fieldN c.arg 0 2 ≤ 1000 ∧ (fieldN c.arg 2 1 ≤ 2 ∨ fieldN c.arg 2 1 = 0xFF) ∧ fieldN c.arg 3 1 ≤ 1 ∧
        (c.arg.drop 4).all (· == 0) = true ∧ c.payload = []) ∧
    (∃ (via : Via) (c : HostCmd) (s : State), Ready s via opHOST_HEARTBEAT fDEVICE c ∧ c.noArgs = true ∧
        s.flag MBX_HOST_LOST = false) ∧
    (∃ (via : Via) (c : HostCmd) (s : State), Ready s via opHOST_HEARTBEAT fDEVICE c ∧ c.noArgs = true ∧
        s.flag MBX_HOST_LOST = true) ∧
    (∃ (src : Nat) (s : State), (src = mHIP ∨ src = mPCIe) ∧ s.inStandby = false ∧ s.hostStalls src = false) ∧
    (∃ (s : State), s.hipUp = true ∧ s.flag MBX_HOST_ATTACHED = true ∧ s.flag MBX_HOST_LOST = false ∧
        s.fld MBX_HOST_PERIOD * 3000000 ≤ sinceNs s.now s.host.hbLast ∧ s.fld MBX_HOST_POLICY = 0 ∧
        s.eventRing fDEVICE = none) ∧
    (∃ (s : State), s.flag MBX_HOST_ATTACHED = true ∧ s.flag MBX_HOST_LOST = false ∧ s.fld MBX_HOST_POLICY = 0 ∧
        s.eventRing fDEVICE = none) ∧
    (∃ (s : State), s.flag MBX_HOST_ATTACHED = false) ∧
    (∃ (m : Fin 16) (c : HostCmd) (s : State), Ready s (.mbx m) opIFACE_QUERY fDEVICE c ∧ c.noArgs = true) :=
  ⟨⟨15, cmdBy (.mbx 15) opATTACH (fDEVICE) [0xE8, 3, 2, 1] [], (((withRings (hostRun base (cmdBy (.mbx 15) opATTACH (fDEVICE) [0xE8, 3, 2, 1] []))).setF MBX_HOST_SESSION 65535).setF (RNG_CTL_STATE 8190) rngFROZEN).setF (RNG_CTL_STATE 8191) rngERROR,
    by unfold Ready; decide +kernel⟩,
   ⟨(.mbx 15 : Via), cmdBy (.mbx 15) opHOST_HEARTBEAT (fDEVICE) [] [], atNs (hostRun base (cmdBy (.mbx 15) opHOST_HEARTBEAT (fDEVICE) [] [])) 123456,
     by unfold Ready; decide +kernel⟩,
   ⟨(.mbx 15 : Via), cmdBy (.mbx 15) opHOST_HEARTBEAT (fDEVICE) [] [], (atNs (hostRun base (cmdBy (.mbx 15) opHOST_HEARTBEAT (fDEVICE) [] [])) 123456).setF MBX_HOST_LOST 1,
     by unfold Ready; decide +kernel⟩,
   ⟨mPCIe, atNs base 123456, by decide +kernel⟩,
   ⟨((atNs (fwUp (withRings base)) 3000000).setF MBX_HOST_ATTACHED 1).setF MBX_HOST_PERIOD 1, by decide +kernel⟩,
   ⟨(((base.wr PCI_BAR2_BASE_LO 5).setF PCI_LINK_STAT_UP 1).setF MBX_HOST_ATTACHED 1).setF MBX_HOST_PERIOD 1,
     by decide +kernel⟩,
   ⟨(base.wr PCI_BAR2_BASE_LO 5).setF PCI_LINK_STAT_UP 1, by decide +kernel⟩,
   ⟨15, cmdBy (.mbx 15) opIFACE_QUERY (fDEVICE) [] [], (hostRun base (cmdBy (.mbx 15) opIFACE_QUERY (fDEVICE) [] [])).wr (GLB_FW_VER 1) 0x010203,
     by unfold Ready; decide +kernel⟩⟩

theorem witness_DataAndSettings :
    (∃ (m : Fin 16) (c : HostCmd) (off : Nat) (s : State), ∃ so, so = (fieldN c.arg 12 2) ∧
        Ready s (.mbx m) opDATA_PUT fMODEL c ∧ s.modelBar = none ∧ c.payload ≠ [] ∧ c.payload.length ≤ 64 ∧
        c.payload.length % 4 = 0 ∧ off % 64 = 0 ∧ off < 0x7C00000 ∧ fieldN c.arg 0 8 = 0xFFFF000010000000 + off ∧
        fieldN c.arg 8 2 = 0xFFFF ∧ FabricQuiet s ∧ (so = 0xFFFF ∨ (so < 16384 ∧ s.soBad so = false)) ∧
        (c.arg.drop 14).all (· == 0) = true ∧ s.bankServes (off / 0x80000) = true ∧
        s.mems.map.partBad 8 off c.payload.length = false) ∧
    (∃ (m : Fin 16) (c : HostCmd) (off : Nat) (len : Nat) (s : State), Ready s (.mbx m) opDATA_GET fMODEL c ∧
        s.modelBar = none ∧ FabricQuiet s ∧ c.payload = [] ∧ 4 ≤ len ∧ len ≤ 64 ∧ len % 4 = 0 ∧ off % 64 = 0 ∧
        off < 0x7C00000 ∧ fieldN c.arg 0 8 = 0xFFFF000010000000 + off ∧ fieldN c.arg 8 4 = len ∧
        (c.arg.drop 12).all (· == 0) = true ∧ s.bankServes (off / 0x80000) = true ∧
        s.isSealed (BitVec.ofNat 64 (0xFFFF000010000000 + off)) len = false ∧ s.mems.map.anyBad 8 off len = false) ∧
    (∃ (via : Via) (c : HostCmd) (s : State), Ready s via opTELEMETRY c.func c ∧
        (c.func = fMODEL → s.modelBar = none) ∧ c.payload = [] ∧ 64 ≤ fieldN c.arg 0 4 ∧ fieldN c.arg 0 4 ≤ 65536 ∧
        (c.arg.drop 4).all (· == 0) = true ∧
        (c.isMbx = false ∨ ((s.records c.func).1.take (fieldN c.arg 0 4)).length ≤ 224)) ∧
    (∃ (via : Via) (c : HostCmd) (s : State), Ready s via opSETTINGS_STORE c.func c ∧ s.storeTurn c = true ∧
        c.noArgs = true ∧ c.func ≠ fMODEL ∧
        s.wearOk (s.storeWrites c.func (((s.rd NVM_GEN).toNat + 1) % 2 ^ 32)) (((s.rd NVM_GEN).toNat + 1) % 2 ^ 32) = true) ∧
    (∃ (x : StoreSt) (c : HostCmd) (s : State), s.host.store = some x ∧ s.hipUp = true ∧ s.cmdVia x.via = some c ∧
        (∀ k, x.via ≠ .reg k)) :=
  ⟨⟨15, cmdBy (.mbx 15) opDATA_PUT (fMODEL) (leBytes 8 0xFFFF0000100FFFC0 ++ leBytes 2 0xFFFF ++ leBytes 2 7 ++ leBytes 2 0xFFFF) (List.replicate 60 7), 0xFFFC0, (hostRun base (cmdBy (.mbx 15) opDATA_PUT (fMODEL) (leBytes 8 0xFFFF0000100FFFC0 ++ leBytes 2 0xFFFF ++ leBytes 2 7 ++ leBytes 2 0xFFFF) (List.replicate 60 7))), _, rfl,
    by unfold Ready FabricQuiet; decide +kernel⟩,
   ⟨15, cmdBy (.mbx 15) opDATA_GET (fMODEL) (leBytes 8 0xFFFF000011FF0000 ++ leBytes 4 64) [], 0x1FF0000, 64, (hostRun base (cmdBy (.mbx 15) opDATA_GET (fMODEL) (leBytes 8 0xFFFF000011FF0000 ++ leBytes 4 64) [])),
     by unfold Ready FabricQuiet; decide +kernel⟩,
   ⟨(.mbx 15 : Via), cmdBy (.mbx 15) opTELEMETRY (fDEVICE) (leBytes 4 224) [], (hostRun base (cmdBy (.mbx 15) opTELEMETRY (fDEVICE) (leBytes 4 224) [])),
     by unfold Ready; decide +kernel⟩,
   ⟨(.mbx 15 : Via), cmdBy (.mbx 15) opSETTINGS_STORE ((fCAN 7)) [] [], (hostRun base (cmdBy (.mbx 15) opSETTINGS_STORE ((fCAN 7)) [] [])),
     by unfold Ready; decide +kernel, by decide +kernel, by decide +kernel,
     by decide +kernel, List.all_eq_true.2 fun k _ => rfl⟩,
   ⟨(⟨.mbx 15, fCAN 7, 9, 3⟩ : StoreSt), cmdBy (.mbx 15) opSETTINGS_STORE ((fCAN 7)) [] [], storing ((hostRun base (cmdBy (.mbx 15) opSETTINGS_STORE ((fCAN 7)) [] []))) ⟨.mbx 15, fCAN 7, 9, 3⟩,
     by decide +kernel, by decide +kernel, by decide +kernel, (by intro k h; cases h)⟩⟩

theorem witness_FunctionCommands :
    (∃ (via : Via) (c : HostCmd) (o : Nat) (v : Word) (s : State) (k : Fin 4), Ready s via opFN_CONFIG c.func c ∧
        OneItem c o v ∧ c.func = fCAM k.val ∧ (s.camState k.val = camSTOPPED ∨ s.camState k.val = camCONFIG) ∧
        camItemOk k.val o v = true ∧ (s.plainWrite (ifeBase k.val + o) v).camChecks k.val = true) ∧
    (∃ (via : Via) (c : HostCmd) (o : Nat) (v : Word) (s : State) (a : Fin 16), Ready s via opFN_CONFIG c.func c ∧
        OneItem c o v ∧ c.func = fAXIS a.val ∧ (s.axState a.val = axSTOPPED ∨ s.axState a.val = axCONFIG) ∧
        axItemOk o v = true ∧ (s.wr (sleBase a.val + o) v).axChecks a.val = true) ∧
    (∃ (via : Via) (c : HostCmd) (o : Nat) (v : Word) (s : State), Ready s via opFN_CONFIG c.func c ∧ OneItem c o v ∧
        c.func = fHEALTH ∧ (s.hltState = hltSTOPPED ∨ s.hltState = hltCONFIG) ∧ hltItemOk o v = true) ∧
    (∃ (via : Via) (c : HostCmd) (o : Nat) (v : Word) (s : State), Ready s via opFN_CONFIG c.func c ∧ OneItem c o v ∧
        c.func = fTIME ∧ (s.time.fn = .stopped ∨ s.time.fn = .config) ∧ timItemOk o v = true ∧
        (s.timApply o v).timCheck = true) ∧
    (∃ (via : Via) (c : HostCmd) (o : Nat) (v : Word) (s : State), Ready s via opFN_CONFIG c.func c ∧ OneItem c o v ∧
        c.func = fETH ∧ (s.eth.fn = .stopped ∨ s.eth.fn = .config) ∧ ethItemOk o v = true) ∧
    (∃ (via : Via) (c : HostCmd) (o : Nat) (v : Word) (s : State) (n : Fin 8), Ready s via opFN_CONFIG c.func c ∧
        OneItem c o v ∧ c.func = fCAN n.val ∧ ((s.can n.val).fn = .stopped ∨ (s.can n.val).fn = .config) ∧
        canItemOk n.val o v = true ∧ s.filtKept n.val (canBase n.val + o) = false) ∧
    (∃ (via : Via) (c : HostCmd) (o : Nat) (v : Word) (s : State), Ready s via opFN_CONFIG c.func c ∧ OneItem c o v ∧
        c.func = fPAIR ∧ (s.pair.fn = .stopped ∨ s.pair.fn = .config) ∧ pairItemOk o v = true) ∧
    (∃ (via : Via) (c : HostCmd) (o : Nat) (v : Word) (s : State), Ready s via opFN_CONFIG c.func c ∧ OneItem c o v ∧
        c.func = fPOWER ∧ pwrItemOk o v = true ∧ s.power.fn ≠ .running) ∧
    (∃ (via : Via) (c : HostCmd) (o : Nat) (v : Word) (s : State), Ready s via opFN_CONFIG c.func c ∧ OneItem c o v ∧
        c.func = fPOWER ∧ pwrItemOk o v = true ∧ s.power.fn = .running ∧ s.pwrOther o v = true) ∧
    (∃ (via : Via) (c : HostCmd) (s : State) (k : Fin 4), Ready s via opFN_START c.func c ∧ c.noArgs = true ∧
        c.func = fCAM k.val ∧ s.camState k.val = camCONFIG ∧ s.soBad (s.frameSo k.val) = false ∧
        s.soBad (s.freeSo k.val) = false) ∧
    (∃ (via : Via) (c : HostCmd) (s : State) (a : Fin 16), Ready s via opFN_START c.func c ∧ c.noArgs = true ∧
        c.func = fAXIS a.val ∧ (∀ x, via ≠ .reg x) ∧ s.axStartSt a.val = ST_OK) ∧
    (∃ (via : Via) (c : HostCmd) (s : State), Ready s via opFN_START c.func c ∧ c.noArgs = true ∧ c.func = fHEALTH ∧
        s.hltState = hltCONFIG) ∧
    (∃ (via : Via) (c : HostCmd) (s : State), Ready s via opFN_START c.func c ∧ c.noArgs = true ∧ c.func = fTIME ∧
        s.time.fn = .config) ∧
    (∃ (via : Via) (c : HostCmd) (s : State), Ready s via opFN_START c.func c ∧ c.noArgs = true ∧ c.func = fETH ∧
        s.eth.fn = .config) ∧
    (∃ (via : Via) (c : HostCmd) (s : State) (n : Fin 8), Ready s via opFN_START c.func c ∧ c.noArgs = true ∧
        c.func = fCAN n.val ∧ (s.can n.val).fn = .config) ∧
    (∃ (via : Via) (c : HostCmd) (s : State), Ready s via opFN_START c.func c ∧ c.noArgs = true ∧ c.func = fPAIR ∧
        s.pair.fn = .config ∧ s.plkMode = 0 ∧ s.pair.startVia = none) ∧
    (∃ (via : Via) (c : HostCmd) (s : State), Ready s via opFN_START c.func c ∧ c.noArgs = true ∧ c.func = fPOWER ∧
        s.power.fn = .config) ∧
    (∃ (via : Via) (c : HostCmd) (s : State) (k : Fin 4), Ready s via opFN_STOP c.func c ∧ c.noArgs = true ∧
        c.func = fCAM k.val ∧ (∀ x, via ≠ .reg x) ∧ (s.camState k.val = camRUNNING ∨ s.camState k.val = camFAULT) ∧
        (s.cam k.val).frame = none ∧ (s.cam k.val).cbuf = [] ∧ (∀ j ∈ s.jxsCur.toList ++ s.jxs, j.cam ≠ k) ∧
        (s.cam k.val).cuts = []) ∧
    (∃ (via : Via) (c : HostCmd) (s : State) (k : Fin 4), Ready s via opFN_STOP c.func c ∧ c.noArgs = true ∧
        c.func = fCAM k.val ∧ (∀ x, via ≠ .reg x) ∧ (s.camState k.val = camRUNNING ∨ s.camState k.val = camFAULT) ∧
        (s.cam k.val).frame = none ∧ (s.cam k.val).cbuf = [] ∧ (∀ j ∈ s.jxsCur.toList ++ s.jxs, j.cam ≠ k) ∧
        (s.cam k.val).cuts ≠ []) ∧
    (∃ (via : Via) (c : HostCmd) (s : State) (a : Fin 16), Ready s via opFN_STOP c.func c ∧ c.noArgs = true ∧
        c.func = fAXIS a.val ∧ (∀ x, via ≠ .reg x) ∧ s.axState a.val = axRUNNING ∧ (s.axis a.val).stop = none) ∧
    (∃ (via : Via) (c : HostCmd) (s : State) (a : Fin 16), Ready s via opFN_STOP c.func c ∧ c.noArgs = true ∧
        c.func = fAXIS a.val ∧ (∀ x, via ≠ .reg x) ∧ s.axState a.val = axFAULT) ∧
    (∃ (via : Via) (c : HostCmd) (s : State), Ready s via opFN_STOP c.func c ∧ c.noArgs = true ∧ c.func = fHEALTH ∧
        (s.hltState = hltRUNNING ∨ s.hltState = hltFAULT)) ∧
    (∃ (via : Via) (c : HostCmd) (s : State), Ready s via opFN_STOP c.func c ∧ c.noArgs = true ∧ c.func = fTIME ∧
        (s.time.fn = .running ∨ s.time.fn = .fault)) ∧
    (∃ (via : Via) (c : HostCmd) (s : State), Ready s via opFN_STOP c.func c ∧ c.noArgs = true ∧ c.func = fETH ∧
        (s.eth.fn = .running ∨ s.eth.fn = .fault) ∧ s.safety.params.msgCh ≠ 8) ∧
    (∃ (via : Via) (c : HostCmd) (s : State), Ready s via opFN_STOP c.func c ∧ c.noArgs = true ∧ c.func = fETH ∧
        (s.eth.fn = .running ∨ s.eth.fn = .fault) ∧ s.safety.params.msgCh = 8) ∧
    (∃ (via : Via) (c : HostCmd) (s : State) (n : Fin 8), Ready s via opFN_STOP c.func c ∧ c.noArgs = true ∧
        c.func = fCAN n.val ∧ ((s.can n.val).fn = .running ∨ (s.can n.val).fn = .fault) ∧
        s.safety.params.msgCh ≠ n.val) ∧
    (∃ (via : Via) (c : HostCmd) (s : State), Ready s via opFN_STOP c.func c ∧ c.noArgs = true ∧ c.func = fPAIR ∧
        (s.pair.fn = .running ∨ s.pair.fn = .fault) ∧ s.model.pkg = none) ∧
    (∃ (via : Via) (c : HostCmd) (s : State), Ready s via opFN_STOP c.func c ∧ c.noArgs = true ∧ c.func = fPOWER ∧
        (s.power.fn = .running ∨ s.power.fn = .fault)) :=
  ⟨⟨(.mbx 15 : Via), cmdBy (.mbx 15) opFN_CONFIG ((fCAM 3)) [] (leBytes 4 0x44 ++ leBytes 4 0xFFFFFFFF), 0x44, 0xFFFFFFFF, (camSet (hostRun base (cmdBy (.mbx 15) opFN_CONFIG ((fCAM 3)) [] (leBytes 4 0x44 ++ leBytes 4 0xFFFFFFFF))) 3), 3,
    by unfold Ready OneItem; decide +kernel⟩,
   ⟨(.mbx 15 : Via), cmdBy (.mbx 15) opFN_CONFIG ((fAXIS 15)) [] (leBytes 4 0x8C ++ leBytes 4 0xFFFFFFFF), 0x8C, 0xFFFFFFFF, (axSet (hostRun base (cmdBy (.mbx 15) opFN_CONFIG ((fAXIS 15)) [] (leBytes 4 0x8C ++ leBytes 4 0xFFFFFFFF))) 15), 15,
     by unfold Ready OneItem; decide +kernel⟩,
   ⟨(.mbx 15 : Via), cmdBy (.mbx 15) opFN_CONFIG (fHEALTH) [] (leBytes 4 0x1BCC ++ leBytes 4 0xFFFFFFFF), 0x1BCC, 0xFFFFFFFF, (hostRun base (cmdBy (.mbx 15) opFN_CONFIG (fHEALTH) [] (leBytes 4 0x1BCC ++ leBytes 4 0xFFFFFFFF))),
     by unfold Ready OneItem; decide +kernel⟩,
   ⟨(.mbx 15 : Via), cmdBy (.mbx 15) opFN_CONFIG (fTIME) [] (leBytes 4 (TIM_TB_RATE 7 - timBase) ++ leBytes 4 0xFFFFFFFF), (TIM_TB_RATE 7 - timBase), 0xFFFFFFFF, { (hostRun base (cmdBy (.mbx 15) opFN_CONFIG (fTIME) [] (leBytes 4 (TIM_TB_RATE 7 - timBase) ++ leBytes 4 0xFFFFFFFF))) with time := { } },
     by unfold Ready OneItem; decide +kernel⟩,
   ⟨(.mbx 15 : Via), cmdBy (.mbx 15) opFN_CONFIG (fETH) [] (leBytes 4 0x167FC ++ leBytes 4 0xFFFFFFFF), 0x167FC, 0xFFFFFFFF, (hostRun base (cmdBy (.mbx 15) opFN_CONFIG (fETH) [] (leBytes 4 0x167FC ++ leBytes 4 0xFFFFFFFF))),
     by unfold Ready OneItem; decide +kernel⟩,
   ⟨(.mbx 15 : Via), cmdBy (.mbx 15) opFN_CONFIG ((fCAN 7)) [] (leBytes 4 0x13C ++ leBytes 4 0xFFFFFFFF), 0x13C, 0xFFFFFFFF, (hostRun base (cmdBy (.mbx 15) opFN_CONFIG ((fCAN 7)) [] (leBytes 4 0x13C ++ leBytes 4 0xFFFFFFFF))), 7,
     by unfold Ready OneItem; decide +kernel⟩,
   ⟨(.mbx 15 : Via), cmdBy (.mbx 15) opFN_CONFIG (fPAIR) [] (leBytes 4 0 ++ leBytes 4 0x1F2), 0, 0x1F2, (hostRun base (cmdBy (.mbx 15) opFN_CONFIG (fPAIR) [] (leBytes 4 0 ++ leBytes 4 0x1F2))),
     by unfold Ready OneItem; decide +kernel⟩,
   ⟨(.mbx 15 : Via), cmdBy (.mbx 15) opFN_CONFIG (fPOWER) [] (leBytes 4 0 ++ leBytes 4 0x00960007), 0, 0x00960007, (hostRun base (cmdBy (.mbx 15) opFN_CONFIG (fPOWER) [] (leBytes 4 0 ++ leBytes 4 0x00960007))),
     by unfold Ready OneItem; decide +kernel⟩,
   ⟨(.mbx 15 : Via), cmdBy (.mbx 15) opFN_CONFIG (fPOWER) [] (leBytes 4 0 ++ leBytes 4 0x00960007), 0, 0x00960007, ({ (hostRun base (cmdBy (.mbx 15) opFN_CONFIG (fPOWER) [] (leBytes 4 0 ++ leBytes 4 0x00960007))) with power := { fn := .running } }).wr PWR_CFG 0x960000,
     by unfold Ready OneItem; decide +kernel⟩,
   ⟨(.mbx 15 : Via), cmdBy (.mbx 15) opFN_START ((fCAM 3)) [] [], ((camSet (hostRun base (cmdBy (.mbx 15) opFN_START ((fCAM 3)) [] [])) 3).setF (IFE_STAT_STATE 3) camCONFIG), 3,
     by unfold Ready; decide +kernel⟩,
   ⟨(.mbx 15 : Via), cmdBy (.mbx 15) opFN_START ((fAXIS 15)) [] [], noSto (((axSet (hostRun base (cmdBy (.mbx 15) opFN_START ((fAXIS 15)) [] [])) 15).wr (SLE_START_T_LO 15) 655360000).setF (SLE_STATUS_STATE 15) axCONFIG), 15,
     by unfold Ready; decide +kernel, by decide +kernel, by decide +kernel, (by intro k h; cases h),
     by decide +kernel⟩,
   ⟨(.mbx 15 : Via), cmdBy (.mbx 15) opFN_START (fHEALTH) [] [], (hostRun base (cmdBy (.mbx 15) opFN_START (fHEALTH) [] [])).wr HLT_STAT hltCONFIG,
     by unfold Ready; decide +kernel⟩,
   ⟨(.mbx 15 : Via), cmdBy (.mbx 15) opFN_START (fTIME) [] [], { (hostRun base (cmdBy (.mbx 15) opFN_START (fTIME) [] [])) with time := { fn := .config } },
     by unfold Ready; decide +kernel⟩,
   ⟨(.mbx 15 : Via), cmdBy (.mbx 15) opFN_START (fETH) [] [], { (hostRun base (cmdBy (.mbx 15) opFN_START (fETH) [] [])) with eth := { fn := .config } },
     by unfold Ready; decide +kernel⟩,
   ⟨(.mbx 15 : Via), cmdBy (.mbx 15) opFN_START ((fCAN 7)) [] [], (hostRun base (cmdBy (.mbx 15) opFN_START ((fCAN 7)) [] [])).setCan 7 { fn := .config }, 7,
     by unfold Ready; decide +kernel⟩,
   ⟨(.mbx 15 : Via), cmdBy (.mbx 15) opFN_START (fPAIR) [] [], { (hostRun base (cmdBy (.mbx 15) opFN_START (fPAIR) [] [])) with pair := { fn := .config } },
     by unfold Ready; decide +kernel⟩,
   ⟨(.mbx 15 : Via), cmdBy (.mbx 15) opFN_START (fPOWER) [] [], { (hostRun base (cmdBy (.mbx 15) opFN_START (fPOWER) [] [])) with power := { fn := .config } },
     by unfold Ready; decide +kernel⟩,
   ⟨(.mbx 15 : Via), cmdBy (.mbx 15) opFN_STOP ((fCAM 3)) [] [], (camSet (hostRun base (cmdBy (.mbx 15) opFN_STOP ((fCAM 3)) [] [])) 3).setF (IFE_STAT_STATE 3) camRUNNING, 3,
     by unfold Ready; decide +kernel, by decide +kernel, by decide +kernel, (by intro k h; cases h),
     by decide +kernel⟩,
   ⟨(.mbx 15 : Via), cmdBy (.mbx 15) opFN_STOP ((fCAM 3)) [] [], ((camSet (hostRun base (cmdBy (.mbx 15) opFN_STOP ((fCAM 3)) [] [])) 3).setF (IFE_STAT_STATE 3) camFAULT).setCam 3 { cuts := [[1]] }, 3,
     by unfold Ready; decide +kernel, by decide +kernel, by decide +kernel, (by intro k h; cases h),
     by decide +kernel⟩,
   ⟨(.mbx 15 : Via), cmdBy (.mbx 15) opFN_STOP ((fAXIS 15)) [] [], ((hostRun base (cmdBy (.mbx 15) opFN_STOP ((fAXIS 15)) [] [])).setF (SLE_STATUS_STATE 15) axRUNNING).setAxis 15 { vel := -77 }, 15,
     by unfold Ready; decide +kernel, by decide +kernel, by decide +kernel, (by intro k h; cases h),
     by decide +kernel⟩,
   ⟨(.mbx 15 : Via), cmdBy (.mbx 15) opFN_STOP ((fAXIS 15)) [] [], ((hostRun base (cmdBy (.mbx 15) opFN_STOP ((fAXIS 15)) [] [])).setF (SLE_STATUS_STATE 15) axFAULT).setAxis 15 { vel := -77 }, 15,
     by unfold Ready; decide +kernel, by decide +kernel, by decide +kernel, (by intro k h; cases h),
     by decide +kernel⟩,
   ⟨(.mbx 15 : Via), cmdBy (.mbx 15) opFN_STOP (fHEALTH) [] [], (hostRun base (cmdBy (.mbx 15) opFN_STOP (fHEALTH) [] [])).wr HLT_STAT hltRUNNING,
     by unfold Ready; decide +kernel⟩,
   ⟨(.mbx 15 : Via), cmdBy (.mbx 15) opFN_STOP (fTIME) [] [], ({ (hostRun base (cmdBy (.mbx 15) opFN_STOP (fTIME) [] [])) with time := { fn := .running, pulses := [(7, { active := true })] } }).setF (TIM_PO_CFG_ARM 7) 1,
     by unfold Ready; decide +kernel⟩,
   ⟨(.mbx 15 : Via), cmdBy (.mbx 15) opFN_STOP (fETH) [] [], msgOn { (hostRun base (cmdBy (.mbx 15) opFN_STOP (fETH) [] [])) with eth := { fn := .fault, ports := [(6, { up := true })] } } 7,
     by unfold Ready; decide +kernel⟩,
   ⟨(.mbx 15 : Via), cmdBy (.mbx 15) opFN_STOP (fETH) [] [], msgOn { (hostRun base (cmdBy (.mbx 15) opFN_STOP (fETH) [] [])) with eth := { fn := .running, ports := [(6, { up := true })] } } 8,
     by unfold Ready; decide +kernel⟩,
   ⟨(.mbx 15 : Via), cmdBy (.mbx 15) opFN_STOP ((fCAN 7)) [] [], (hostRun base (cmdBy (.mbx 15) opFN_STOP ((fCAN 7)) [] [])).setCan 7 { fn := .running, inFrame := true }, 7,
     by unfold Ready; decide +kernel⟩,
   ⟨(.mbx 15 : Via), cmdBy (.mbx 15) opFN_STOP (fPAIR) [] [], ({ (hostRun base (cmdBy (.mbx 15) opFN_STOP (fPAIR) [] [])) with pair := { fn := .fault } }).wr PLK_STAT 0xFF,
     by unfold Ready; decide +kernel⟩,
   ⟨(.mbx 15 : Via), cmdBy (.mbx 15) opFN_STOP (fPOWER) [] [], { (hostRun base (cmdBy (.mbx 15) opFN_STOP (fPOWER) [] [])) with power := { fn := .running } },
     by unfold Ready; decide +kernel⟩⟩

theorem witness_PackageCommands :
    (∃ (via : Via) (c : HostCmd) (s : State), s.modelBar = none ∧ Ready s via opPKG_LOAD fMODEL c ∧ c.plenOk = true ∧
        c.arg.all (· == 0) = true ∧ c.payload.length < 16) ∧
    (∃ (via : Via) (c : HostCmd) (s : State), s.modelBar = none ∧ Ready s via opPKG_LOAD fMODEL c ∧ c.plenOk = true ∧
        c.arg.all (· == 0) = true ∧ 16 ≤ c.payload.length ∧ fieldN c.payload 0 8 = 0 ∧ 256 ≤ fieldN c.payload 8 8 ∧
        fieldN c.payload 8 8 ≤ 2 ^ 31 ∧ fieldN c.payload 8 8 ≤ s.stageLen ∧
        (c.payload.drop 16).length < fieldN c.payload 8 8 ∧
        (({ s with model := { s.model with stagedLen := fieldN c.payload 8 8, staged := 0, checked := none } }).writeLong mHIP (BitVec.ofNat 64 (0xFFFF * 2 ^ 48 + 0x1000000000 + s.stageBase)) (c.payload.drop 16)).1.1 = ST_OK) ∧
    (∃ (via : Via) (c : HostCmd) (s : State) (p : _), s.modelBar = none ∧ Ready s via opPKG_ACTIVATE fMODEL c ∧
        c.noArgs = true ∧ s.model.fn = .stopped ∧ s.model.checked = some p ∧ p.pair = false ∧
        s.mems.ddr.anyBad 8 s.stageBase s.model.stagedLen = false ∧ (s.release.unstage.place5 p).1 = ST_OK) ∧
    (∃ (via : Via) (c : HostCmd) (s : State) (p : _), s.modelBar = none ∧ Ready s via opPKG_ACTIVATE fMODEL c ∧
        c.noArgs = true ∧ s.model.fn = .stopped ∧ s.model.checked = some p ∧ p.pair = false ∧
        s.mems.ddr.anyBad 8 s.stageBase s.model.stagedLen = false ∧ (s.release.unstage.place5 p).1 ≠ ST_OK) ∧
    (∃ (via : Via) (c : HostCmd) (s : State) (p : Package) (g : Nat) (v : Nat), s.modelBar = none ∧
        Ready s via opFN_CONFIG fMODEL c ∧ s.model.pkg = some p ∧ (s.model.fn = .stopped ∨ s.model.fn = .config) ∧
        c.plenOk = true ∧ c.arg.all (· == 0) = true ∧ g < 64 ∧ 1 ≤ v ∧ v ≤ 1024 ∧
        c.payload = leBytes 4 (0x01000000 + g) ++ leBytes 4 v) ∧
    (∃ (via : Via) (c : HostCmd) (s : State), s.modelBar = none ∧ Ready s via opFN_START fMODEL c ∧ c.noArgs = true ∧
        s.model.fn = .config ∧ s.model.startVia = none) ∧
    (∃ (via : Via) (c : HostCmd) (s : State), s.modelBar = none ∧ Ready s via opFN_STOP fMODEL c ∧ c.noArgs = true ∧
        (s.model.fn = .config ∨ s.model.fn = .fault) ∧ s.model.stopVia = none ∧
        (s.pkgAxes.all fun a => s.axState a = axSTOPPED) = true ∧ s.cmdVia via = some c) :=
  ⟨⟨(.mbx 15 : Via), cmdBy (.mbx 15) opPKG_LOAD (fMODEL) [] (List.replicate 15 0), (hostRun base (cmdBy (.mbx 15) opPKG_LOAD (fMODEL) [] (List.replicate 15 0))),
    by unfold Ready; decide +kernel⟩,
   ⟨(.mbx 15 : Via), cmdBy (.mbx 15) opPKG_LOAD (fMODEL) [] (leBytes 8 0 ++ leBytes 8 256 ++ List.replicate 100 3), (((hostRun base (cmdBy (.mbx 15) opPKG_LOAD (fMODEL) [] (leBytes 8 0 ++ leBytes 8 256 ++ List.replicate 100 3))).wr DDR_SIZE 64).wr DDR_STAGE 16),
     by unfold Ready; decide +kernel⟩,
   ⟨(.mbx 15 : Via), cmdBy (.mbx 15) opPKG_ACTIVATE (fMODEL) [] [], withPkg (hostRun base (cmdBy (.mbx 15) opPKG_ACTIVATE (fMODEL) [] [])) pkg1, pkg1,
     by unfold Ready; decide +kernel⟩,
   ⟨(.mbx 15 : Via), cmdBy (.mbx 15) opPKG_ACTIVATE (fMODEL) [] [], withPkg (hostRun base (cmdBy (.mbx 15) opPKG_ACTIVATE (fMODEL) [] [])) { pkg1 with tensors := [(0xFFFF000070000000, [1, 2, 3, 4])] }, { pkg1 with tensors := [(0xFFFF000070000000, [1, 2, 3, 4])] },
     by unfold Ready; decide +kernel⟩,
   ⟨(.mbx 15 : Via), cmdBy (.mbx 15) opFN_CONFIG (fMODEL) [] (leBytes 4 (0x01000000 + 63) ++ leBytes 4 1024), { (hostRun base (cmdBy (.mbx 15) opFN_CONFIG (fMODEL) [] (leBytes 4 (0x01000000 + 63) ++ leBytes 4 1024))) with model := { fn := .config, pkg := some pkg1 } }, pkg1, 63, 1024,
     by unfold Ready; decide +kernel⟩,
   ⟨(.mbx 15 : Via), cmdBy (.mbx 15) opFN_START (fMODEL) [] [], { (hostRun base (cmdBy (.mbx 15) opFN_START (fMODEL) [] [])) with model := { fn := .config, pkg := some pkg1 } },
     by unfold Ready; decide +kernel⟩,
   ⟨(.mbx 15 : Via), cmdBy (.mbx 15) opFN_STOP (fMODEL) [] [], { (hostRun base (cmdBy (.mbx 15) opFN_STOP (fMODEL) [] [])) with model := { fn := .fault, pkg := some pkg1 } },
     by unfold Ready; decide +kernel⟩⟩

theorem witness_CycleTable :
    (∃ (s : State), s.major ≤ sinceNs (s.tbNs 7) s.model.cycleStart ∧ s.model.pkg = none) ∧
    (∃ (m : Fin 16) (c : HostCmd) (p : Package) (s : State), s.major ≤ sinceNs (s.tbNs 7) s.model.cycleStart ∧
        s.model.pkg = some p ∧ p.annex = none ∧ s.model.stopping = false ∧ s.scpUp = true ∧ s.hipUp = true ∧
        s.model.startVia = some (.mbx m) ∧ s.cmdVia (.mbx m) = some c) ∧
    (∃ (w : Fin 64) (cyc : Word) (p : Package) (x : Window) (s : State), s.model.pkg = some p ∧ p.annex = none ∧
        p.window w.val = some x ∧ s.nextOpen x w.val = some cyc ∧
        (cyc = s.model.cycle → x.start ≤ sinceNs (s.tbNs 7) s.model.cycleStart) ∧ s.model.tableOn = true ∧
        s.model.fn = .running ∧ s.model.heldByScp = false ∧ s.scpUp = true ∧ s.hbHeld p cyc = true ∧
        (∀ i ∈ s.model.insts, i.win ≠ w.val) ∧
        (s.model.insts.all fun i => p.isTT i.win || i.running.isEmpty) = true) ∧
    (∃ (w : Fin 64) (cyc : Word) (p : Package) (x : Window) (i : Inst) (s : State), s.model.pkg = some p ∧
        p.window w.val = some x ∧ s.inst? w.val cyc = some i ∧ i.late = false ∧ s.scpUp = true ∧
        x.deadline ≤ sinceNs (s.tbNs 7) i.boundary ∧ i.complete p = false) :=
  ⟨⟨at7 base 250000, by decide +kernel⟩,
   ⟨15, cmdBy (.mbx 15) opFN_START fMODEL [] [], pkg1, at7 { hostRun base (cmdBy (.mbx 15) opFN_START fMODEL [] []) with model := { fn := .config, pkg := some pkg1, startVia := some (.mbx 15), cycle := 0xFFFFFFFF } } 250000,
     by decide +kernel⟩,
   ⟨0, 7, pkg1, (⟨5000, 100000, 0x10, 1, false, 0, 1, 0, 0⟩ : Window), at7 (modelRun base fun m => { m with opened := [(0, some 6)] }) 5000,
     by decide +kernel⟩,
   ⟨0, 6, pkg1, (⟨5000, 100000, 0x10, 1, false, 0, 1, 0, 0⟩ : Window), { win := 0, cyc := 6, boundary := 0 }, at7 (modelRun base fun m => { m with insts := [{ win := 0, cyc := 6, boundary := 0 }] }) 100000,
     by decide +kernel⟩⟩

theorem witness_TaskScheduling :
    (∃ (w : Fin 64) (cyc : Word) (p : Package) (u : Task) (i : Inst) (s : State), s.model.pkg = some p ∧
        s.inst? w.val cyc = some i ∧ (p.tasksOf w.val).find? (fun v => v.id = u.id) = some u ∧ s.dispatching = true ∧
        p.isTT w.val = true ∧ i.isDone u.id = false ∧ i.running.find? (fun r => r.task = u.id) = none ∧
        u.deps.all (s.depDone p cyc) = true ∧ s.earlierWork p w.val cyc u = false ∧ s.enginesFree p u = true ∧
        s.handoverBar p u cyc = ST_OK) ∧
    (∃ (e : Engine) (k : Nat) (c : Nat) (p : Package) (i : Inst) (u : Task) (s : State) (s' : State), s.model.pkg = some p ∧
        s.dispatching = true ∧ k = (match e with | .facet f => f.val | .bead n => 100 + n.val) ∧
        s' = s.liftGroups p (((s.readyShares p).map fun x => x.2.group).eraseDups) ∧ s'.shareOn k = none ∧
        s'.pickShare p k = some (i, u) ∧ s'.place p i.cyc u = some c ∧ s'.inst? i.win i.cyc = some i ∧
        s'.handoverBar p u i.cyc = ST_OK) ∧
    (∃ (w : Fin 64) (cyc : Word) (p : Package) (u : Task) (i : Inst) (r : RunTask) (s : State), s.model.pkg = some p ∧
        s.inst? w.val cyc = some i ∧ p.task u.id = some u ∧ i.running.find? (fun x => x.task = u.id) = some r ∧
        s.scpUp = true ∧ s.faultedNode p u r = none ∧ r.sent = u.ndesc ∧ s.runDone r = true ∧
        s.judging p u cyc = false ∧ i.late = false ∧ s.model.stopping = false) ∧
    (∃ (w : Fin 64) (p : Package) (x : Window) (s : State), s.model.pkg = some p ∧ p.window w.val = some x ∧
        s.dispatching = true ∧ s.comesUp p w.val 3000 = true) ∧
    (∃ (w : Fin 64) (p : Package) (x : Window) (i : Inst) (r : RunTask) (u : Task) (n : Fin 4096) (s : State), s.model.pkg = some p ∧
        p.window w.val = some x ∧ s.dispatching = true ∧ s.comesUp p w.val 5000 = true ∧ i ∈ s.model.insts ∧
        p.isTT i.win = false ∧ r ∈ i.running ∧ p.task r.task = some u ∧ u.kind = 2 ∧ 100 + n.val ∈ p.keys u r.cand ∧
        x.regions.getLsbD (beadRegion n.val) = true ∧ s.beadState n.val = bdRUNNING) :=
  ⟨⟨0, 7, pkg1, (⟨10, 0, 0, 0, [4], 0, 1, [], 1000, 0, 0xFFFF, []⟩ : Task), { win := 0, cyc := 7 }, at7 (modelRun base fun m => { m with insts := [{ win := 0, cyc := 7 }] }) 6000,
    by decide +kernel⟩,
   ⟨(.bead 300 : Engine), 400, 300, pkg1, { win := 1, cyc := 7 }, (⟨11, 2, 1, 3, [300], 128, 1, [], 1000, 0, 0xFFFF, []⟩ : Task), ((at7 (modelRun base fun m => { m with insts := [{ win := 1, cyc := 7 }] }) 6000).setF (BEAD_STATUS_STATE 300) bdIDLE), _,
     by decide +kernel, by decide +kernel, by decide +kernel, rfl, by decide +kernel⟩,
   ⟨1, 7, pkg1, (⟨11, 2, 1, 3, [300], 128, 1, [], 1000, 0, 0xFFFF, []⟩ : Task), { win := 1, cyc := 7, running := [{ task := 11, cand := 300, sent := 1, dones := [(5, 3, 1)], errs := [], since := 0, excl := [0], urgent := false }] }, ({ task := 11, cand := 300, sent := 1, dones := [(5, 3, 1)], errs := [], since := 0, excl := [0], urgent := false } : RunTask), (at7 (modelRun base fun m => { m with insts := [{ win := 1, cyc := 7, running := [{ task := 11, cand := 300, sent := 1, dones := [(5, 3, 1)], errs := [], since := 0, excl := [0], urgent := false }] }] }) 6000).soSet mSCP 5 4,
     by decide +kernel⟩,
   ⟨0, pkg1, (⟨5000, 100000, 0x10, 1, false, 0, 1, 0, 0⟩ : Window), at7 (modelRun base id) 2000, by decide +kernel⟩,
   ⟨0, { pkg1 with windows := [⟨5000, 100000, 0x10, 2, false, 0, 1, 0, 0⟩, ⟨0, 200000, 0x60, 2, true, 0, 1, 0, 0⟩] }, (⟨5000, 100000, 0x10, 2, false, 0, 1, 0, 0⟩ : Window), { win := 1, cyc := 7, running := [{ task := 11, cand := 300, sent := 1, dones := [(5, 3, 1)], errs := [], since := 0, excl := [0], urgent := false }] }, ({ task := 11, cand := 300, sent := 1, dones := [(5, 3, 1)], errs := [], since := 0, excl := [0], urgent := false } : RunTask), (⟨11, 2, 1, 3, [300], 128, 1, [], 1000, 0, 0xFFFF, []⟩ : Task), 300, (at7 (modelRun base fun m => { m with pkg := some { pkg1 with windows := [⟨5000, 100000, 0x10, 2, false, 0, 1, 0, 0⟩, ⟨0, 200000, 0x60, 2, true, 0, 1, 0, 0⟩] }, insts := [{ win := 1, cyc := 7, running := [{ task := 11, cand := 300, sent := 1, dones := [(5, 3, 1)], errs := [], since := 0, excl := [0], urgent := false }] }] }) 0).setF (BEAD_STATUS_STATE 300) bdRUNNING,
     by decide +kernel⟩⟩

theorem witness_CameraFrames :
    (∃ (c : Fin 4) (vc : Fin 4) (s : State), s.csiLive c.val = true ∧ s.ownVc c.val vc = true ∧
        (s.cam c.val).frame = none) ∧
    (∃ (c : Fin 4) (vc : Fin 4) (s : State), s.csiLive c.val = true ∧ s.ownVc c.val vc = false) ∧
    (∃ (c : Fin 4) (vc : Fin 4) (dt : BitVec 6) (data : List Byte) (f : Frame) (s : State), s.csiLive c.val = true ∧
        (s.cam c.val).frame = some f ∧ f.cause = 0 ∧ s.ownVc c.val vc = true ∧ s.fld (IFE_CTL_DT c.val) = dt.toNat ∧
        data.length ≠ s.camW c.val * s.camDepth c.val / 8) ∧
    (∃ (c : Fin 4) (vc : Fin 4) (dt : BitVec 6) (f : Frame) (s : State), s.csiLive c.val = true ∧
        (s.cam c.val).frame = some f ∧ f.cause = 0 ∧
        (s.ownVc c.val vc = false ∨ s.fld (IFE_CTL_DT c.val) ≠ dt.toNat)) ∧
    (∃ (c : Fin 4) (vc : Fin 4) (dt : BitVec 6) (data : List Byte) (f : Frame) (s : State) (v : _), s.csiLive c.val = true ∧
        (s.cam c.val).frame = some f ∧ f.cause = 0 ∧ s.ownVc c.val vc = true ∧ s.fld (IFE_CTL_DT c.val) = dt.toNat ∧
        data.length = s.camW c.val * s.camDepth c.val / 8 ∧
        v = (List.range (s.camW c.val)).map (s.linePixel c.val data) ∧ f.lines < s.camH c.val ∧
        (s.putRow c.val f f.lines v).1.1 = ST_OK) ∧
    (∃ (c : Fin 4) (vc : Fin 4) (num : BitVec 16) (f : Frame) (s : State), s.csiLive c.val = true ∧
        s.ownVc c.val vc = true ∧ (s.cam c.val).frame = some f ∧ s.batchLen c.val = 1 ∧ f.deferred = false ∧
        (s.cam c.val).deferredBatch = [] ∧ s.soBad (s.frameSo c.val) = false ∧ (f.cause = 0 ∧ num = f.num ∧
        f.lines = s.camH c.val)) ∧
    (∃ (c : Fin 4) (vc : Fin 4) (num : BitVec 16) (f : Frame) (s : State), s.csiLive c.val = true ∧
        s.ownVc c.val vc = true ∧ (s.cam c.val).frame = some f ∧ s.batchLen c.val = 1 ∧ f.deferred = false ∧
        (s.cam c.val).deferredBatch = [] ∧ s.soBad (s.frameSo c.val) = false ∧
        (f.cause ≠ 0 ∨ num ≠ f.num ∨ f.lines ≠ s.camH c.val)) ∧
    (∃ (c : Fin 4) (s : State), s.csiLive c.val = true) ∧
    (∃ (c : Fin 4) (s : State), s.timesOut c.val = true ∧ s.camState c.val = camRUNNING ∧ (s.cam c.val).frame = none ∧
        (s.cam c.val).cbuf = []) :=
  ⟨⟨3, 2, ((camRun srcCSI 2 1 { next := 0xFFFFFFFF, dsc := [(0, some ⟨7, true⟩)] }).setF (IFE_CTL_VC 3) 2).setF (IFE_CTL_DT 3) 0x2A,
    by decide +kernel⟩,
   ⟨3, 3, ((camRun srcCSI 2 1 { next := 0xFFFFFFFF, dsc := [(0, some ⟨7, true⟩)] }).setF (IFE_CTL_VC 3) 2).setF (IFE_CTL_DT 3) 0x2A,
     by decide +kernel⟩,
   ⟨3, 2, 0x2A, [], frm 0xFFFFFFFF 1 0, ((camRun srcCSI 2 2 { next := 6, frame := some (frm 0xFFFFFFFF 1 0), dsc := [(5, some ⟨0xFFFFFFFF, false⟩)] }).setF (IFE_CTL_VC 3) 2).setF (IFE_CTL_DT 3) 0x2A,
     by decide +kernel⟩,
   ⟨3, 1, 0x2A, frm 0xFFFFFFFF 1 0, ((camRun srcCSI 2 2 { next := 6, frame := some (frm 0xFFFFFFFF 1 0), dsc := [(5, some ⟨0xFFFFFFFF, false⟩)] }).setF (IFE_CTL_VC 3) 2).setF (IFE_CTL_DT 3) 0x2A,
     by decide +kernel⟩,
   ⟨3, 2, 0x2A, [0xFF, 1], frm 0xFFFFFFFF 1 0, ((camRun srcCSI 2 2 { next := 6, frame := some (frm 0xFFFFFFFF 1 0), dsc := [(5, some ⟨0xFFFFFFFF, false⟩)] }).setF (IFE_CTL_VC 3) 2).setF (IFE_CTL_DT 3) 0x2A, [255, 1],
     by decide +kernel⟩,
   ⟨3, 2, 9, frm 0xFFFFFFFF 2 0, ((camRun srcCSI 2 2 { next := 6, frame := some (frm 0xFFFFFFFF 2 0), dsc := [(5, some ⟨0xFFFFFFFF, false⟩)] }).setF (IFE_CTL_VC 3) 2).setF (IFE_CTL_DT 3) 0x2A,
     by decide +kernel⟩,
   ⟨3, 2, 9, frm 0xFFFFFFFF 1 0, ((camRun srcCSI 2 2 { next := 6, frame := some (frm 0xFFFFFFFF 1 0), dsc := [(5, some ⟨0xFFFFFFFF, false⟩)] }).setF (IFE_CTL_VC 3) 2).setF (IFE_CTL_DT 3) 0x2A,
     by decide +kernel⟩,
   ⟨3, camRun srcCSI 2 2 {}, by decide +kernel⟩,
   ⟨3, at7 ((camRun srcCSI 2 2 { next := 0xFFFFFFFF, lastEnd := 5 }).wr (IFE_FRAME_TMO 3) 1000) 1005,
     by decide +kernel⟩⟩

theorem witness_CodestreamsAndCuts :
    (∃ (c : Fin 4) (port : BitVec 16) (s : State), s.camLive c.val = true ∧ s.fld (IFE_CTL_SOURCE c.val) = srcJXS ∧
        bitsN (s.rd (IFE_UDP_PORT c.val)).toNat 0 16 = port.toNat ∧ port ≠ 0 ∧ (s.cam c.val).skip = false) ∧
    (∃ (j : Codestream) (js : List Codestream) (s : State), s.jxsCur = none ∧ s.jxs = j :: js) ∧
    (∃ (j : Codestream) (s : State), s.jxsCur = some j) ∧
    (∃ (c : Fin 4) (via : Via) (cmd : HostCmd) (s : State), Ready s via opDATA_PUT (fCAM c.val) cmd ∧
        s.camLive c.val = true ∧ s.fld (IFE_CTL_SOURCE c.val) = srcREPLAY ∧ cmd.arg.all (· == 0) = true ∧
        cmd.plenOk = true ∧ 4 ≤ cmd.payload.length ∧ fieldN cmd.payload 0 4 = (s.cam c.val).next.toNat ∧
        cmd.payload.length ≠ 4 + s.u16Bytes c.val) ∧
    (∃ (c : Fin 4) (via : Via) (cmd : HostCmd) (f : Frame) (s : State) (s1 : State), Ready s via opDATA_PUT (fCAM c.val) cmd ∧
        s.camLive c.val = true ∧ s.fld (IFE_CTL_SOURCE c.val) = srcREPLAY ∧ cmd.arg.all (· == 0) = true ∧
        cmd.plenOk = true ∧ fieldN cmd.payload 0 4 = (s.cam c.val).next.toNat ∧
        cmd.payload.length = 4 + s.u16Bytes c.val ∧ s.openFrame c.val 0 0 = (f, s1) ∧ f.cause = 0 ∧
        ((s1.setCam c.val { s1.cam c.val with lastEnd := s1.tbNs 7 }).putRows c.val f ((List.range (s.camH c.val)).flatMap fun y => (List.range (s.camW c.val * s.camNc c.val)).map fun i => fieldN cmd.payload (4 + y * s.camRowBytes c.val + 2 * i) 2)).1.1 = ST_OK) ∧
    (∃ (c : Fin 4) (via : Via) (cmd : HostCmd) (e : Nat) (s : State), Ready s via opDATA_GET (fCAM c.val) cmd ∧
        cmd.argTail 12 = true ∧ cmd.payload = [] ∧ 1 ≤ fieldN cmd.arg 8 4 ∧ fieldN cmd.arg 8 4 ≤ 224 ∧
        fieldN cmd.arg 4 4 + fieldN cmd.arg 8 4 ≤ s.u16Bytes c.val ∧
        s.dscOf c.val (BitVec.ofNat 32 (fieldN cmd.arg 0 4)) = some e ∧
        s.cutWaits c.val (BitVec.ofNat 32 (fieldN cmd.arg 0 4)) = false ∧
        (s.readClean (s.dscAddr c.val e + fieldN cmd.arg 4 4) (fieldN cmd.arg 8 4)).2 = none) ∧
    (∃ (c : Fin 4) (d : List Byte) (ds : List (List Byte)) (s : State), (s.cam c.val).cuts = d :: ds ∧
        (s.cam c.val).cutDone = none ∧ s.cutWaits c.val (BitVec.ofNat 32 (fieldN d 4 4)) = false) ∧
    (∃ (c : Fin 4) (d : List Byte) (ds : List (List Byte)) (s : State), (s.cam c.val).cuts = d :: ds ∧
        (s.cam c.val).cutDone = some ST_OK ∧ (s.cam c.val).stopVia = none ∧ fieldN d 0x16 2 < 16384 ∧
        s.soBad (fieldN d 0x16 2) = false) ∧
    (∃ (c : Fin 4) (first : Word) (rest : List Word) (s : State), (s.cam c.val).deferredBatch = first :: rest ∧
        (s.camState c.val = camRUNNING ∨ s.camState c.val = camFAULT) ∧ (s.cam c.val).stopVia = none ∧
        s.batchLen c.val ≤ (s.batchHeld c.val (s.batchOf c.val first)).length ∧
        s.credit c.val (s.batchOf c.val first + 1) = true ∧
        (∀ x ∈ s.batchHeld c.val (s.batchOf c.val first), s.cutWaits c.val x.idx = false)) :=
  ⟨⟨3, 0xFFFF, (camRun srcJXS 2 2 { rtpSeq := some 0xFFFF, cbuf := [9] }).wr (IFE_UDP_PORT 3) 0xFFFF,
    by decide +kernel⟩,
   ⟨({ cam := 3, frame := frm 0xFFFFFFFF 1 0 } : Codestream), [({ cam := 3, frame := frm 0xFFFFFFFF 1 0 } : Codestream)], { camRun srcJXS 2 2 {} with jxs := [({ cam := 3, frame := frm 0xFFFFFFFF 1 0 } : Codestream), ({ cam := 3, frame := frm 0xFFFFFFFF 1 0 } : Codestream)] },
     by decide +kernel⟩,
   ⟨({ cam := 3, frame := frm 4 0 0 } : Codestream), { camRun srcJXS 2 0 { next := 5, dsc := [(5, some ⟨4, false⟩)] } with jxsCur := some ({ cam := 3, frame := frm 4 0 0 } : Codestream) },
     by decide +kernel⟩,
   ⟨3, (.mbx 15 : Via), cmdBy (.mbx 15) opDATA_PUT (fCAM 3) [] (leBytes 4 0xFFFFFFFE ++ [1]), camIn (hostRun (withRings base) (cmdBy (.mbx 15) opDATA_PUT (fCAM 3) [] (leBytes 4 0xFFFFFFFE ++ [1]))) srcREPLAY 2 0 { next := 0xFFFFFFFE, dsc := [(0, some ⟨7, true⟩)] },
     by unfold Ready; decide +kernel⟩,
   ⟨3, (.mbx 15 : Via), cmdBy (.mbx 15) opDATA_PUT (fCAM 3) [] (leBytes 4 0xFFFFFFFE ++ List.replicate 0 1), _, camIn (hostRun (withRings base) (cmdBy (.mbx 15) opDATA_PUT (fCAM 3) [] (leBytes 4 0xFFFFFFFE ++ List.replicate 0 1))) srcREPLAY 2 0 { next := 0xFFFFFFFE, dsc := [(0, some ⟨7, true⟩)] }, _,
     by unfold Ready; decide +kernel, by decide +kernel, by decide +kernel, by decide +kernel, by decide +kernel,
     by decide +kernel, by decide +kernel, rfl, by decide +kernel⟩,
   ⟨3, (.mbx 15 : Via), cmdBy (.mbx 15) opDATA_GET (fCAM 3) (leBytes 4 4 ++ leBytes 4 60 ++ leBytes 4 4) [], 7, camIn (hostRun (withRings base) (cmdBy (.mbx 15) opDATA_GET (fCAM 3) (leBytes 4 4 ++ leBytes 4 60 ++ leBytes 4 4) [])) srcCSI 2 1 { next := 5, dsc := [(7, some ⟨4, true⟩)] },
     by unfold Ready; decide +kernel⟩,
   ⟨3, descOf 64 [(4, 4, 4), (8, 8, mapAt 0x60000), (0x16, 2, 16383)], [[1]], camRun srcCSI 8 4 { next := 5, dsc := [(7, some ⟨4, true⟩)], cuts := [descOf 64 [(4, 4, 4), (8, 8, mapAt 0x60000), (0x16, 2, 16383)], [1]] },
     by decide +kernel⟩,
   ⟨3, descOf 64 [(4, 4, 4), (8, 8, mapAt 0x60000), (0x16, 2, 16383)], [[1]], camRun srcCSI 8 4 { next := 5, cutDone := some ST_OK, cuts := [descOf 64 [(4, 4, 4), (8, 8, mapAt 0x60000), (0x16, 2, 16383)], [1]] },
     by decide +kernel⟩,
   ⟨3, 4, [9], (camRun srcCSI 2 2 { next := 6, deferredBatch := [4, 9], held := [⟨4, ST_SAMPLE_CORRUPT, 0, 3, 1, 2, 5, []⟩, ⟨3, ST_OK, 0, 0, 1, 2, 5, []⟩] }).soSet mSCP 0x123 6,
     by decide +kernel⟩⟩

theorem witness_ServoLoop :
    (∃ (a : Fin 16) (khz : Nat) (s : State), s.axState a.val = axRUNNING ∧ s.safety.ss1From = none ∧
        s.fld (SLE_SD_CFG_CLK_SRC a.val) = 1 ∧ (khz < 4500 ∨ 27500 < khz)) ∧
    (∃ (a : Fin 16) (ch : Fin 3) (sum : Nat) (lim : Nat) (s : State), ∃ x, x = (sincQ sum (bitsN (s.rd (SLE_OC_CFG a.val)).toNat 16 6) 2) ∧
        s.axState a.val = axRUNNING ∧ s.safety.ss1From = none ∧
        lim = bitsN (s.rd (SLE_OC_CFG a.val)).toNat 0 16 * 256 ∧ lim < x.natAbs ∧
        bitsN (s.rd (SLE_OC_CFG a.val)).toNat 22 2 ≤ kget 0 (s.axis a.val).oc ch.val) ∧
    (∃ (a : Fin 16) (sum : Nat) (lim : Nat) (s : State), ∃ x, x = (sincQ sum (bitsN (s.rd (SLE_OC_CFG a.val)).toNat 16 6) 2) ∧
        s.axState a.val = axRUNNING ∧ s.safety.ss1From = none ∧
        lim = bitsN (s.rd (SLE_OC_CFG a.val)).toNat 0 16 * 256 ∧ x.natAbs ≤ lim) ∧
    (∃ (a : Fin 16) (s : State), s.axState a.val = axRUNNING ∧ s.safety.ss1From = none ∧ s.ssiMode a.val = true ∧
        (s.axis a.val).stop = none ∧ tickReached s.tb7Tick (s.loopTick a.val (s.nextLoop a.val)) = true ∧
        ((s.axis a.val).firstLoop = true ∧ (∃ m c, (s.axis a.val).startVia = some (.mbx m) ∧
        s.cmdVia (.mbx m) = some c) ∧ s.hipUp = true ∨ (s.axis a.val).firstLoop = false)) ∧
    (∃ (a : Fin 16) (raw : BitVec 40) (err : BitVec 4) (v : Nat) (change : Int) (s : State), s.axState a.val = axRUNNING ∧
        s.safety.ss1From = none ∧ s.ssiMode a.val = true ∧ (s.axis a.val).firstLoop = false ∧
        (s.axis a.val).posReady = false ∧ (s.axis a.val).haveRaw = true ∧
        tickReached s.tb7Tick (s.loopTick a.val (s.axis a.val).loops + s.ssiTicks a.val) = true ∧
        s.flag (SLE_ENC_CFG_GRAY a.val) = false ∧ v = raw.toNat % 2 ^ s.fld (SLE_ENC_CFG_NBITS a.val) ∧
        change = signedN (s.fld (SLE_ENC_CFG_NBITS a.val)) (v + 2 ^ s.fld (SLE_ENC_CFG_NBITS a.val) - (s.axis a.val).pos.toNat % 2 ^ s.fld (SLE_ENC_CFG_NBITS a.val)) ∧
        (s.axis a.val).ssiFail = false ∧ s.fld (SLE_ENC_CFG_PAR a.val) = 0 ∧
        err.toNat % 2 ^ s.fld (SLE_ENC_CFG_EBITS a.val) = 0 ∧ change.natAbs ≤ (s.rd (SLE_ENC_MAXD a.val)).toNat) ∧
    (∃ (a : Fin 16) (raw : BitVec 40) (v : Nat) (change : Int) (s : State), s.axState a.val = axRUNNING ∧
        s.safety.ss1From = none ∧ s.ssiMode a.val = true ∧ (s.axis a.val).firstLoop = false ∧
        (s.axis a.val).posReady = false ∧ (s.axis a.val).haveRaw = true ∧
        tickReached s.tb7Tick (s.loopTick a.val (s.axis a.val).loops + s.ssiTicks a.val) = true ∧
        s.flag (SLE_ENC_CFG_GRAY a.val) = false ∧ v = raw.toNat % 2 ^ s.fld (SLE_ENC_CFG_NBITS a.val) ∧
        change = signedN (s.fld (SLE_ENC_CFG_NBITS a.val)) (v + 2 ^ s.fld (SLE_ENC_CFG_NBITS a.val) - (s.axis a.val).pos.toNat % 2 ^ s.fld (SLE_ENC_CFG_NBITS a.val)) ∧
        (s.axis a.val).ssiFail = true ∧ (s.axis a.val).missed < s.fld (SLE_ENC_CFG_ENC_MISS a.val)) ∧
    (∃ (a : Fin 16) (raw : BitVec 40) (v : Nat) (change : Int) (s : State), s.axState a.val = axRUNNING ∧
        s.safety.ss1From = none ∧ s.ssiMode a.val = true ∧ (s.axis a.val).firstLoop = false ∧
        (s.axis a.val).posReady = false ∧ (s.axis a.val).haveRaw = true ∧
        tickReached s.tb7Tick (s.loopTick a.val (s.axis a.val).loops + s.ssiTicks a.val) = true ∧
        s.flag (SLE_ENC_CFG_GRAY a.val) = false ∧ v = raw.toNat % 2 ^ s.fld (SLE_ENC_CFG_NBITS a.val) ∧
        change = signedN (s.fld (SLE_ENC_CFG_NBITS a.val)) (v + 2 ^ s.fld (SLE_ENC_CFG_NBITS a.val) - (s.axis a.val).pos.toNat % 2 ^ s.fld (SLE_ENC_CFG_NBITS a.val)) ∧
        (s.axis a.val).ssiFail = true ∧ s.fld (SLE_ENC_CFG_ENC_MISS a.val) ≤ (s.axis a.val).missed) ∧
    (∃ (a : Fin 16) (la : Bool) (lb : Bool) (d : Nat) (s : State), s.axState a.val = axRUNNING ∧
        s.ssiMode a.val = false ∧ d = (quadPos la lb + 4 - quadPos (s.axis a.val).abzA (s.axis a.val).abzB) % 4) ∧
    (∃ (a : Fin 16) (s : State), s.ssiMode a.val = false) ∧
    (∃ (a : Fin 16) (x : AxisSt) (s : State), ∃ lo, lo = (signedN 16 (bitsN (s.rd (SLE_VDC_LIM a.val)).toNat 0 16) * 256) ∧
        ∃ hi, hi = (signedN 16 (bitsN (s.rd (SLE_VDC_LIM a.val)).toNat 16 16) * 256) ∧ x = s.axis a.val ∧
        s.axState a.val = axRUNNING ∧ s.safety.ss1From = none ∧ x.firstLoop = false ∧ x.posReady = true ∧
        x.computed = false ∧ x.stop = none ∧ bitsN (s.rd (SLE_PWM_CFG a.val)).toNat 8 1 = 0 ∧ lo ≤ x.vdc ∧
        x.vdc ≤ hi) ∧
    (∃ (a : Fin 16) (x : AxisSt) (s : State), ∃ lo, lo = (signedN 16 (bitsN (s.rd (SLE_VDC_LIM a.val)).toNat 0 16) * 256) ∧
        ∃ hi, hi = (signedN 16 (bitsN (s.rd (SLE_VDC_LIM a.val)).toNat 16 16) * 256) ∧ x = s.axis a.val ∧
        s.axState a.val = axRUNNING ∧ s.safety.ss1From = none ∧ x.firstLoop = false ∧ x.posReady = true ∧
        x.computed = false ∧ x.stop = none ∧ bitsN (s.rd (SLE_PWM_CFG a.val)).toNat 8 1 = 0 ∧
        (x.vdc < lo ∨ hi < x.vdc)) ∧
    (∃ (a : Fin 16) (j : Fin 3) (dev : Device) (on : Bool) (k : Nat) (e : Nat × Int) (s : State), (s.axis a.val).cmp.isSome = true ∧
        s.axState a.val = axRUNNING ∧ s.gateEdge a.val j.val k dev on = some e ∧ tickReached s.tb7Tick e.1 = true ∧
        s.gate a.val j.val dev = !on ∧ (on = true → s.gate a.val j.val (otherDev dev) = false) ∧
        (on = false ∨ (0 < e.2 ∧ (bitsN (s.rd (SLE_MINP a.val)).toNat 0 16 : Int) ≤ e.2))) ∧
    (∃ (a : Fin 16) (j : Fin 3) (dev : Device) (on : Bool) (k : Nat) (e : Nat × Int) (s : State), (s.axis a.val).cmp.isSome = true ∧
        s.axState a.val = axRUNNING ∧ s.gateEdge a.val j.val k dev on = some e ∧ tickReached s.tb7Tick e.1 = true ∧
        s.gate a.val j.val dev = !on ∧ (on = true → s.gate a.val j.val (otherDev dev) = false) ∧ on = true ∧
        e.2 < (bitsN (s.rd (SLE_MINP a.val)).toNat 0 16 : Int)) :=
  ⟨⟨15, 4499, ((axRun axRUNNING { pwmH := [(1, true)], vel := 3 }).setF (SLE_SD_CFG_CLK_SRC 15) 1).setF (SLE_FAULT_FIRST 15) 0x1F,
    by decide +kernel⟩,
   ⟨15, 2, 0, 256, (axRun axRUNNING { oc := [(2, 3)], pwmH := [(1, true)] }).wr (SLE_OC_CFG 15) (3 * 2 ^ 22 + 8 * 65536 + 1), _, rfl,
     by decide +kernel⟩,
   ⟨15, 32, 256, (axRun axRUNNING { oc := [(2, 3)] }).wr (SLE_OC_CFG 15) (3 * 2 ^ 22 + 8 * 65536 + 1), _, rfl,
     by decide +kernel⟩,
   ⟨15, at7 ((axRun axRUNNING { pending := some (⟨1, 2, 3, 4, 5, 6, 0xFFFF⟩ : Setpoint), shadow := some (1, 2, 3), pos := 0xFFFFFFFFFFFF, posReady := true, computed := true, loops := 3 }).setF (SLE_SD_CFG_ALIGN 15) 1) 100000,
     by decide +kernel, by decide +kernel, by decide +kernel, by decide +kernel,
     by decide +kernel, Or.inr (by decide +kernel)⟩,
   ⟨15, 0xFFFFFFFFFF, 0, 255, -1, at7 ((axRun axRUNNING { haveRaw := true, pos := 0x100, missed := 2, loops := 3, prevPos := 0x200 }).wr (SLE_ENC_MAXD 15) 1) 100000,
     by decide +kernel⟩,
   ⟨15, 0xFFFFFFFFFF, 255, -1, at7 (((axRun axRUNNING { haveRaw := true, pos := 0x100, missed := 1, ssiFail := true, lastChange := -7, loops := 3, prevPos := 0x200 }).wr (SLE_ENC_MAXD 15) 1).setF (SLE_ENC_CFG_ENC_MISS 15) 2) 100000,
     by decide +kernel⟩,
   ⟨15, 0xFFFFFFFFFF, 255, -1, at7 (((axRun axRUNNING { haveRaw := true, pos := 0x100, missed := 2, ssiFail := true, lastChange := -7, loops := 3, prevPos := 0x200 }).wr (SLE_ENC_MAXD 15) 1).setF (SLE_ENC_CFG_ENC_MISS 15) 2) 100000,
     by decide +kernel⟩,
   ⟨15, true, false, 1, (axRun axRUNNING { pos := 0xFFFFFFFFFFFF }).setF (SLE_ENC_CFG_MODE 15) 1, by decide +kernel⟩,
   ⟨15, (axRun axRUNNING { pos := 0xFFFFFFFFFFFF }).setF (SLE_ENC_CFG_MODE 15) 1, by decide +kernel⟩,
   ⟨15, ({ posReady := true, ia := 100000, ib := -300000, ic := 200000, vdc := 256, pos := 77, idInt := 5, iqInt := -8 } : AxisSt), (axRun axRUNNING { posReady := true, ia := 100000, ib := -300000, ic := 200000, vdc := 256, pos := 77, idInt := 5, iqInt := -8 }).wr (SLE_VDC_LIM 15) 0x7FFF0001, _, rfl, _, rfl,
     by decide +kernel⟩,
   ⟨15, ({ posReady := true, ia := 100000, ib := -300000, ic := 200000, vdc := 255, pos := 77, idInt := 5, iqInt := -8 } : AxisSt), (axRun axRUNNING { posReady := true, ia := 100000, ib := -300000, ic := 200000, vdc := 255, pos := 77, idInt := 5, iqInt := -8 }).wr (SLE_VDC_LIM 15) 0x7FFF0001, _, rfl, _, rfl,
     by decide +kernel⟩,
   ⟨15, 2, Device.high, true, 0, ((at7 ((axRun axRUNNING { cmp := some (100, 200, 32768), pwmH := [], pwmL := [] }).wr (SLE_DTH 15 2) 100) 50000000).gateEdge 15 2 0 .high true).getD (0, 0), at7 ((axRun axRUNNING { cmp := some (100, 200, 32768), pwmH := [], pwmL := [] }).wr (SLE_DTH 15 2) 100) 50000000,
     by decide +kernel⟩,
   ⟨15, 2, Device.high, true, 0, ((at7 ((axRun axRUNNING { cmp := some (100, 200, 100), pwmH := [], pwmL := [] }).wr (SLE_MINP 15) 65535) 50000000).gateEdge 15 2 0 .high true).getD (0, 0), at7 ((axRun axRUNNING { cmp := some (100, 200, 100), pwmH := [], pwmL := [] }).wr (SLE_MINP 15) 65535) 50000000,
     by decide +kernel⟩⟩

theorem witness_AxisStops :
    (∃ (src : Nat) (a : Fin 16) (s : State), s.spWriter src a.val = true ∧ s.axState a.val = axRUNNING ∧
        (src < 4096 → s.handoverHeld = ST_OK)) ∧
    (∃ (src : Nat) (a : Fin 16) (s : State), s.spWriter src a.val = true ∧ s.axState a.val ≠ axRUNNING) ∧
    (∃ (src : Nat) (a : Fin 16) (s : State), s.spWriter src a.val = false) ∧
    (∃ (a : Fin 16) (s : State), s.axState a.val = axRUNNING ∧ bitsN (s.rd (SLE_SP_TMO a.val)).toNat 0 16 ≠ 0 ∧
        bitsN (s.rd (SLE_SP_TMO a.val)).toNat 0 16 ≤ (s.axis a.val).spAge ∧ s.fld (SLE_STATUS_SP_LATE a.val) = 0) ∧
    (∃ (a : Fin 16) (cfg : Nat) (s : State), s.axState a.val = axRUNNING ∧ (s.axis a.val).stop = none ∧
        cfg = (s.rd (SLE_FE_CFG a.val)).toNat ∧ bitsN cfg 0 16 ≤ (s.axis a.val).feCnt ∧ (s.axis a.val).feCnt ≠ 0 ∧
        s.safety.ss1From = none ∧ bitsN cfg 16 2 = 0 ∧ s.fld (SLE_FAULT_FE_WARN a.val) = 0) ∧
    (∃ (a : Fin 16) (cfg : Nat) (s : State), s.axState a.val = axRUNNING ∧ (s.axis a.val).stop = none ∧
        cfg = (s.rd (SLE_FE_CFG a.val)).toNat ∧ bitsN cfg 0 16 ≤ (s.axis a.val).feCnt ∧ (s.axis a.val).feCnt ≠ 0 ∧
        s.safety.ss1From = none ∧ bitsN cfg 16 2 = 1) ∧
    (∃ (a : Fin 16) (cfg : Nat) (s : State), s.axState a.val = axRUNNING ∧ (s.axis a.val).stop = none ∧
        cfg = (s.rd (SLE_FE_CFG a.val)).toNat ∧ bitsN cfg 0 16 ≤ (s.axis a.val).feCnt ∧ (s.axis a.val).feCnt ≠ 0 ∧
        s.safety.ss1From = none ∧ 2 ≤ bitsN cfg 16 2) ∧
    (∃ (src : Nat) (a : Fin 16) (s : State), (src = mSFP ∨ src = mHIP) ∧ s.axState a.val = axRUNNING ∧
        (s.axis a.val).stop = none) ∧
    (∃ (src : Nat) (a : Fin 16) (s : State), src = mSLE ∧ s.axState a.val = axRUNNING ∧ (s.axis a.val).stop = none) ∧
    (∃ (src : Nat) (s : State), src ≠ mSFP ∧ src ≠ mHIP ∧ src ≠ mSLE) ∧
    (∃ (src : Nat) (a : Fin 16) (s : State), src = mSFP ∧ s.axState a.val = axRUNNING ∧ s.safety.ss1From = none) ∧
    (∃ (src : Nat) (s : State), src ≠ mSFP) ∧
    (∃ (a : Fin 16) (x : StopSt) (s : State), s.axState a.val = axRUNNING ∧ (s.axis a.val).stop = some x ∧
        s.safety.ss1From = none ∧ bitsN (s.rd (SLE_STOP_TMAX a.val)).toNat 0 24 ≤ x.periods) ∧
    (∃ (p : StoPath) (s : State), s.fld SAF_STATUS_STATE = safNORMAL ∧ s.safety.estopA = true ∧
        s.safety.estopB = true ∧ s.safety.ss1From = none ∧ s.procState 1 = procRUN ∧
        (match p with | .a => s.safety.safeHoldB = false ∧
        s.safety.estopHoldB = false | .b => s.safety.safeHoldA = false ∧ s.safety.estopHoldA = false)) ∧
    (∃ (src : Nat) (a : Fin 16) (s : State), s.spWriter src a.val = true ∧ s.axState a.val = axRUNNING ∧ src < 4096 ∧
        s.handoverHeld ≠ ST_OK) :=
  ⟨⟨mSCP, 15, (axRun axRUNNING { pending := some (⟨1, 2, 3, 4, 5, 6, 0xFFFF⟩ : Setpoint) }).wr (SLE_SP_ID 15) 0x800000,
    by decide +kernel⟩,
   ⟨mSCP, 15, (axRun axCONFIG { vel := 3 }), by decide +kernel⟩,
   ⟨mHIP, 15, (axRun axRUNNING { vel := 3 }), by decide +kernel⟩,
   ⟨15, (axRun axRUNNING { spAge := 65535 }).wr (SLE_SP_TMO 15) 65535, by decide +kernel⟩,
   ⟨15, 3, (axRun axRUNNING { feCnt := 3 }).wr (SLE_FE_CFG 15) (3), by decide +kernel⟩,
   ⟨15, 65539, (axRun axRUNNING { feCnt := 3, vel := -9 }).wr (SLE_FE_CFG 15) (65539), by decide +kernel⟩,
   ⟨15, 131075, (axRun axRUNNING { feCnt := 3, pwmL := [(0, true)] }).wr (SLE_FE_CFG 15) (131075), by decide +kernel⟩,
   ⟨mSFP, 15, (axRun axRUNNING { vel := -9 }), by decide +kernel⟩,
   ⟨mSLE, 15, (axRun axRUNNING { vel := -9 }), by decide +kernel⟩,
   ⟨mSCP, (axRun axRUNNING { vel := -9 }), by decide +kernel⟩,
   ⟨mSFP, 15, (axRun axRUNNING { vel := -9, pwmL := [(0, true)] }), by decide +kernel⟩,
   ⟨mSCP, (axRun axRUNNING { vel := -9 }), by decide +kernel⟩,
   ⟨15, (⟨5, 6, 0xFFFFFF, 1, false, []⟩ : StopSt), (axRun axRUNNING { stop := some ⟨5, 6, 0xFFFFFF, 1, false, []⟩ }).wr (SLE_STOP_TMAX 15) 0xFFFFFF,
     by decide +kernel⟩,
   ⟨StoPath.a, (fwUp { base with safety := { estopA := true, estopB := true, safeHoldA := false, safeHoldB := false } }).setF SAF_STATUS_STATE safNORMAL,
     by decide +kernel⟩,
   ⟨17, 15, { ((axRun axRUNNING { vel := 3 }).wr (SLE_SP_OWNER 15) 17) with safety := { outInvalid := true } },
     by decide +kernel⟩⟩

theorem witness_SafeStateCauses :
    (∃ (t0 : Nat) (s : State), s.safety.ss1From = some t0 ∧ s.safety.params.ss1TmaxUs * 1000 ≤ sinceNs s.now t0 ∧
        (s.safety.ss1Safe = true ∨ s.safety.ss1Estop = true)) ∧
    (∃ (v : Word) (s : State), (v = 0x5A5A5A5A ∨ v = 0xA5A5A5A5) ∧ (s.proc 1).key ≠ some v) ∧
    (∃ (src : Nat) (s : State), src ≠ mSFP) ∧
    (∃ (s : State) (v : _), s.procState 1 = procRUN ∧
        (s.fld SAF_STATUS_STATE = safNORMAL ∨ s.fld SAF_STATUS_STATE = safINIT) ∧ ((v ≠ 0x5A5A5A5A ∧
        v ≠ 0xA5A5A5A5) ∨ (s.proc 1).key = some v)) ∧
    (∃ (s : State), s.procState 1 = procRUN ∧
        (s.fld SAF_STATUS_STATE = safNORMAL ∨ s.fld SAF_STATUS_STATE = safINIT) ∧
        100000 ≤ sinceNs s.now (s.proc 1).kickAt) ∧
    (∃ (s : State), s.procState 1 = procRUN ∧
        (s.fld SAF_STATUS_STATE = safNORMAL ∨ s.fld SAF_STATUS_STATE = safINIT)) ∧
    (∃ (s : State) (t0 : _), s.procState 1 = procRUN ∧ s.fld SAF_STATUS_STATE = safNORMAL ∧
        s.safety.discSince = some t0 ∧ s.safety.params.estopDiscMs * 1000000 ≤ sinceNs s.now t0) ∧
    (∃ (s : State) (t0 : _), s.procState 1 = procRUN ∧ s.fld SAF_STATUS_STATE = safNORMAL ∧
        s.safety.fbDiffA = some t0 ∧ 1000000 ≤ sinceNs s.now t0) ∧
    (∃ (s : State) (t0 : _), s.procState 1 = procRUN ∧ s.fld SAF_STATUS_STATE = safNORMAL ∧
        s.safety.fbDiffB = some t0 ∧ 1000000 ≤ sinceNs s.now t0) :=
  ⟨⟨0, atNs (((safRun { safUp with ss1From := some 0, ss1Safe := true })).setF SAF_STATUS_STATE safSAFE) 200000000,
    by decide +kernel⟩,
   ⟨0x5A5A5A5A, atNs (((safRun { safUp with msgSeq := 5 })).setF SAF_STATUS_STATE safNORMAL) 77, by decide +kernel⟩,
   ⟨mSCP, base, by decide +kernel⟩,
   ⟨atNs (((safRun { safUp with msgSeq := 5 })).setF SAF_STATUS_STATE safINIT) 9, 0x5A5A5A5B, by decide +kernel⟩,
   ⟨atNs (((safRun { safUp with msgSeq := 5 })).setF SAF_STATUS_STATE safINIT) 100000, by decide +kernel⟩,
   ⟨atNs (((safRun { safUp with msgSeq := 5, params := { ssReaction := 1 } })).setF SAF_STATUS_STATE safINIT) 9,
     by decide +kernel⟩,
   ⟨atNs (((safRun { safUp with discSince := some 50000000, params := { ssReaction := 0 } })).setF SAF_STATUS_STATE safNORMAL) 100000000, 50000000,
     by decide +kernel⟩,
   ⟨(atNs (((safRun { safUp with fbDiffA := some 50000000 })).setF SAF_STATUS_STATE safNORMAL) 51000000).setF SAF_STATUS_STO_A 1, 50000000,
     by decide +kernel⟩,
   ⟨(atNs (((safRun { safUp with fbDiffB := some 50000000 })).setF SAF_STATUS_STATE safNORMAL) 51000000).setF SAF_STATUS_STO_B 1, 50000000,
     by decide +kernel⟩⟩

theorem witness_SafeStateExit :
    (∃ (s : State), s.procState 1 = procRUN ∧ s.safety.params.msgPerMs * 1000000 ≤ sinceNs s.now s.safety.msgLast) ∧
    (∃ (s : State) (low : _), s.fld SAF_STATUS_STATE = safSAFE ∧ s.causeMet = true ∧
        s.fld SAF_FIRST_CAUSE_CAUSE ≠ cSFP_WD ∧ s.fld SAF_FIRST_CAUSE_CAUSE ≠ cSFP_LOCKSTEP ∧
        s.procState 1 = procRUN ∧ 10000 ≤ low ∧ low ≤ 100000) ∧
    (∃ (s : State) (d : List Byte) (ds : List (List Byte)), s.fld SAF_STATUS_STATE = safSAFE ∧ s.causeMet = true ∧
        s.fld SAF_FIRST_CAUSE_CAUSE ≠ cSFP_WD ∧ s.fld SAF_FIRST_CAUSE_CAUSE ≠ cSFP_LOCKSTEP ∧
        s.procState 1 = procRUN ∧ s.safety.ackIn = d :: ds ∧ s.safety.params.ackMsg = true ∧ s.ackOk d = true) ∧
    (∃ (d : List Byte) (ds : List (List Byte)) (s : State), s.procState 1 = procRUN ∧ s.safety.ackIn = d :: ds ∧
        (s.safety.params.ackMsg = false ∨ s.ackOk d = false)) ∧
    (∃ (s : State) (low : _), s.fld SAF_STATUS_STATE = safSAFE ∧ s.causeMet = true ∧
        (s.fld SAF_FIRST_CAUSE_CAUSE = cSFP_WD ∨ s.fld SAF_FIRST_CAUSE_CAUSE = cSFP_LOCKSTEP) ∧ 10000 ≤ low ∧
        low ≤ 100000) ∧
    (∃ (low : Nat) (s : State), (low < 10000 ∨ 100000 < low ∨ s.causeMet = false ∨ s.fld SAF_STATUS_STATE ≠ safSAFE)) ∧
    (∃ (s : State), s.fld SAF_STATUS_STATE = safRESTART) :=
  ⟨⟨atNs (((safRun { safUp with msgLast := 5, msgSeq := 0xFFFF, params := { msgCh := 3, msgId := 0x1FFFFFFF } })).setF SAF_STATUS_STATE safSAFE) 10000005,
    by decide +kernel⟩,
   ⟨(((safRun { safUp with estopHoldA := true, ss1From := some 0 })).setF SAF_STATUS_STATE safSAFE).setF SAF_FIRST_CAUSE_CAUSE cINVALID_LIMIT, 10000,
     by decide +kernel⟩,
   ⟨((((safRun { safUp with params := { ackMsg := true, msgCh := 3, ackId := 0x7FF }, ackIn := [(let d := leBytes 2 5 ++ leBytes 1 0 ++ leBytes 1 165 ++ leBytes 1 4 ++ [0,0,0] ++ leBytes 4 4660; d ++ leBytes 4 (crc32c d) : List Byte), [1]] })).setF SAF_STATUS_STATE safSAFE).setF SAF_FIRST_CAUSE_CAUSE cBACKLOG).wr SAF_CAUSE_CYCLE 0x1234, (let d := leBytes 2 5 ++ leBytes 1 0 ++ leBytes 1 165 ++ leBytes 1 4 ++ [0,0,0] ++ leBytes 4 4660; d ++ leBytes 4 (crc32c d) : List Byte), [[1]],
     by decide +kernel⟩,
   ⟨(let d := leBytes 2 5 ++ leBytes 1 0 ++ leBytes 1 164 ++ leBytes 1 4 ++ [0,0,0] ++ leBytes 4 4660; d ++ leBytes 4 (crc32c d) : List Byte), [[1]], ((((safRun { safUp with params := { ackMsg := true, msgCh := 3, ackId := 0x7FF }, ackIn := [(let d := leBytes 2 5 ++ leBytes 1 0 ++ leBytes 1 164 ++ leBytes 1 4 ++ [0,0,0] ++ leBytes 4 4660; d ++ leBytes 4 (crc32c d) : List Byte), [1]] })).setF SAF_STATUS_STATE safSAFE).setF SAF_FIRST_CAUSE_CAUSE cBACKLOG).wr SAF_CAUSE_CYCLE 0x1234,
     by decide +kernel⟩,
   ⟨((((safRun { safUp with ackHeld := false })).setF SAF_STATUS_STATE safSAFE).setF SAF_FIRST_CAUSE_CAUSE cSFP_WD).setF (GLB_PROC_STAT_STATE 1) procRESTART, 10000,
     by decide +kernel⟩,
   ⟨9999, base, by decide +kernel⟩,
   ⟨(((((safRun { safUp with ackHeld := true, estopHoldB := true })).setF SAF_STATUS_STATE safRESTART).setF SAF_FIRST_CAUSE_CAUSE cSFP_WD).setF (GLB_PROC_STAT_STATE 1) procRESTART),
     by decide +kernel⟩⟩

theorem witness_StartChecksAndEstop :
    (∃ (s : State), s.fld SAF_STATUS_STATE = safINIT ∧ s.procState 1 = procRUN) ∧
    (∃ (s : State), s.fld SAF_STATUS_STATE = safNORMAL ∧ s.safety.params.estopReact = 0) ∧
    (∃ (s : State), s.fld SAF_STATUS_STATE = safNORMAL ∧ s.safety.params.estopReact = 1 ∧ s.allStill = false) ∧
    (∃ (s : State), s.fld SAF_STATUS_STATE = safNORMAL ∧ s.safety.params.estopReact = 1 ∧ s.allStill = true) ∧
    (∃ (s : State), s.fld SAF_STATUS_STATE = safNORMAL ∧ s.procState 1 = procRUN ∧ s.safety.safeHoldA = false ∧
        s.safety.safeHoldB = false ∧ s.safety.estopB = true) ∧
    (∃ (s : State), s.fld SAF_STATUS_STATE = safNORMAL ∧ s.procState 1 = procRUN ∧ s.safety.safeHoldA = false ∧
        s.safety.safeHoldB = false ∧ s.safety.estopA = true) :=
  ⟨⟨(((((safRun { safUp with estopA := false, safeHoldA := true })).setF SAF_STATUS_STATE safINIT).wr SEC_MIN_MSEQ 3).setF GLB_FW_SET_MSEQ 7),
    by decide +kernel⟩,
   ⟨((safRun { safUp with estopA := true })).setF SAF_STATUS_STATE safNORMAL, by decide +kernel⟩,
   ⟨((safRun { safUp with params := { estopReact := 1 } })).setF SAF_STATUS_STATE safNORMAL, by decide +kernel⟩,
   ⟨((((safRun { safUp with params := { estopReact := 1 } })).setF SAF_STATUS_STATE safNORMAL).setAxis 15 {}).setF (SLE_STATUS_STATE 15) axSTOPPED,
     by decide +kernel⟩,
   ⟨((safRun { safUp with estopA := false, estopHoldA := true, discSince := some 4 })).setF SAF_STATUS_STATE safNORMAL,
     by decide +kernel⟩,
   ⟨((safRun { safUp with estopB := false, estopHoldB := true, discSince := some 4 })).setF SAF_STATUS_STATE safNORMAL,
     by decide +kernel⟩⟩

theorem witness_HallmarkAndTriage :
    (∃ (net : Fin 64) (j : HmkJob) (n : Net) (a : Option (BitVec 64)) (b : Option (BitVec 64)) (s : State) (s1 : State) (s2 : State), s.safety.jobs.find? (fun j => j.net = net.val && j.verdict.isNone) = some j ∧
        s.netOf net.val = some n ∧ s.signature n 1 j.cyc = (a, s1) ∧ s1.signature n 2 j.cyc = (b, s2) ∧
        a.isSome = true ∧ a = b ∧ s.pairChecked = false) ∧
    (∃ (net : Fin 64) (j : HmkJob) (n : Net) (a : Option (BitVec 64)) (b : Option (BitVec 64)) (s : State) (s1 : State) (s2 : State), s.safety.jobs.find? (fun j => j.net = net.val && j.verdict.isNone) = some j ∧
        s.netOf net.val = some n ∧ s.signature n 1 j.cyc = (a, s1) ∧ s1.signature n 2 j.cyc = (b, s2) ∧
        (a = none ∨ a ≠ b)) ∧
    (∃ (net : Fin 64) (j : HmkJob) (n : Net) (p : Package) (s : State), s.triageJob net.val = some j ∧
        s.netOf net.val = some n ∧ s.model.pkg = some p ∧ n.net = net.val ∧ s.scpUp = true ∧
        s.triageTurn net.val j.cyc = true ∧ j.triage = .waiting ∧
        (s.model.cycle ≠ j.at_ ∨ s.triageFits p n = false)) ∧
    (∃ (net : Fin 64) (j : HmkJob) (n : Net) (p : Package) (s : State), s.triageJob net.val = some j ∧
        s.netOf net.val = some n ∧ s.model.pkg = some p ∧ n.net = net.val ∧ s.scpUp = true ∧
        s.triageTurn net.val j.cyc = true ∧ j.triage = .waiting ∧ s.model.cycle = j.at_ ∧ s.triageFits p n = true ∧
        (((p.execC n).flatMap fun t => p.keys t t.cand).any fun k => s.ttOn k || s.inTest k) = false) ∧
    (∃ (net : Fin 64) (j : HmkJob) (n : Net) (p : Package) (i : Inst) (c : Option (BitVec 64)) (s : State) (s1 : State), s.triageJob net.val = some j ∧
        s.netOf net.val = some n ∧ s.model.pkg = some p ∧ n.net = net.val ∧ s.inst? (64 + net.val) j.cyc = some i ∧
        j.triage = .running ∧ i.complete p = true ∧ (i.done.any fun d => d.2 = ST_PROC_RESTART) = false ∧
        s.signature n 3 j.cyc = (c, s1) ∧ c.isSome = true ∧ c = j.sigB ∧ c ≠ j.sigA) ∧
    (∃ (net : Fin 64) (j : HmkJob) (n : Net) (p : Package) (i : Inst) (c : Option (BitVec 64)) (s : State) (s1 : State), s.triageJob net.val = some j ∧
        s.netOf net.val = some n ∧ s.model.pkg = some p ∧ n.net = net.val ∧ s.inst? (64 + net.val) j.cyc = some i ∧
        j.triage = .running ∧ i.complete p = true ∧ (i.done.any fun d => d.2 = ST_PROC_RESTART) = false ∧
        s.signature n 3 j.cyc = (c, s1) ∧ c.isSome = true ∧ c = j.sigA ∧ c ≠ j.sigB) ∧
    (∃ (net : Fin 64) (j : HmkJob) (n : Net) (p : Package) (i : Inst) (c : Option (BitVec 64)) (s : State) (s1 : State), s.triageJob net.val = some j ∧
        s.netOf net.val = some n ∧ s.model.pkg = some p ∧ n.net = net.val ∧ s.inst? (64 + net.val) j.cyc = some i ∧
        j.triage = .running ∧ i.complete p = true ∧ (i.done.any fun d => d.2 = ST_PROC_RESTART) = false ∧
        s.signature n 3 j.cyc = (c, s1) ∧ (c = none ∨ (c ≠ j.sigA ∧ c ≠ j.sigB))) ∧
    (∃ (net : Fin 64) (j : HmkJob) (n : Net) (p : Package) (k : Nat) (f : Fin 32) (l : List Nat) (s : State) (s1 : State) (s2 : State) (u : _), ∃ sp, sp = ((s2.setTest (s2.physFacet f.val) { s2.test (s2.physFacet f.val) with unusable := true, running := false, parts := 0 }).pickSpare f.val) ∧
        s.triageJob net.val = some j ∧ s.netOf net.val = some n ∧ j.triage = .localise ∧ s.scpUp = true ∧
        s.badCheckpoint n j.faulty = (k, s1) ∧ s1.badUnits n j.faulty k = (l, s2) ∧ l.eraseDups = [f.val] ∧
        s2.model.pkg = some p ∧ s2.shareOn f.val = none ∧ sp = some u) ∧
    (∃ (net : Fin 64) (j : HmkJob) (n : Net) (p : Package) (k : Nat) (f : Fin 32) (l : List Nat) (s : State) (s1 : State) (s2 : State), ∃ sp, sp = ((s2.setTest (s2.physFacet f.val) { s2.test (s2.physFacet f.val) with unusable := true, running := false, parts := 0 }).pickSpare f.val) ∧
        s.triageJob net.val = some j ∧ s.netOf net.val = some n ∧ j.triage = .localise ∧ s.scpUp = true ∧
        s.badCheckpoint n j.faulty = (k, s1) ∧ s1.badUnits n j.faulty k = (l, s2) ∧ l.eraseDups = [f.val] ∧
        s2.model.pkg = some p ∧ s2.shareOn f.val = none ∧ sp = none ∧ s2.fld SAF_STATUS_STATE = safNORMAL ∧
        s2.procState 1 = procRUN) ∧
    (∃ (e : Fin 256) (i : AgmInst) (s : State), s.agmNext e.val = some i ∧ i.stale = true) ∧
    (∃ (e : Fin 256) (i : AgmInst) (s : State), s.agmNext e.val = some i ∧ i.stale = false) ∧
    (∃ (e : Fin 256) (i : AgmInst) (s : State), s.agmNext e.val = some i ∧ i.stale = false ∧ i.live = false) :=
  ⟨⟨63, ({ net := 63, cyc := 7, sigA := none, sigB := none, verdict := none, triage := .none, faulty := 0, at_ := 7 } : HmkJob), (hmkNet : Net), ((((hmkRun ({ net := 63, cyc := 7, sigA := none, sigB := none, verdict := none, triage := .none, faulty := 0, at_ := 7 } : HmkJob) 5 5 9 { safUp with msgSeq := 5 }) : State)).signature hmkNet 1 7).1, (((((hmkRun ({ net := 63, cyc := 7, sigA := none, sigB := none, verdict := none, triage := .none, faulty := 0, at_ := 7 } : HmkJob) 5 5 9 { safUp with msgSeq := 5 }) : State)).signature hmkNet 1 7).2.signature hmkNet 2 7).1, (hmkRun ({ net := 63, cyc := 7, sigA := none, sigB := none, verdict := none, triage := .none, faulty := 0, at_ := 7 } : HmkJob) 5 5 9 { safUp with msgSeq := 5 }), ((((hmkRun ({ net := 63, cyc := 7, sigA := none, sigB := none, verdict := none, triage := .none, faulty := 0, at_ := 7 } : HmkJob) 5 5 9 { safUp with msgSeq := 5 }) : State)).signature hmkNet 1 7).2, (((((hmkRun ({ net := 63, cyc := 7, sigA := none, sigB := none, verdict := none, triage := .none, faulty := 0, at_ := 7 } : HmkJob) 5 5 9 { safUp with msgSeq := 5 }) : State)).signature hmkNet 1 7).2.signature hmkNet 2 7).2,
    by decide +kernel, by decide +kernel, rfl, rfl, by decide +kernel⟩,
   ⟨63, ({ net := 63, cyc := 7, sigA := none, sigB := none, verdict := none, triage := .none, faulty := 0, at_ := 7 } : HmkJob), (hmkNet : Net), ((((hmkRun ({ net := 63, cyc := 7, sigA := none, sigB := none, verdict := none, triage := .none, faulty := 0, at_ := 7 } : HmkJob) 5 6 9 { safUp with msgSeq := 5 }) : State)).signature hmkNet 1 7).1, (((((hmkRun ({ net := 63, cyc := 7, sigA := none, sigB := none, verdict := none, triage := .none, faulty := 0, at_ := 7 } : HmkJob) 5 6 9 { safUp with msgSeq := 5 }) : State)).signature hmkNet 1 7).2.signature hmkNet 2 7).1, (hmkRun ({ net := 63, cyc := 7, sigA := none, sigB := none, verdict := none, triage := .none, faulty := 0, at_ := 7 } : HmkJob) 5 6 9 { safUp with msgSeq := 5 }), ((((hmkRun ({ net := 63, cyc := 7, sigA := none, sigB := none, verdict := none, triage := .none, faulty := 0, at_ := 7 } : HmkJob) 5 6 9 { safUp with msgSeq := 5 }) : State)).signature hmkNet 1 7).2, (((((hmkRun ({ net := 63, cyc := 7, sigA := none, sigB := none, verdict := none, triage := .none, faulty := 0, at_ := 7 } : HmkJob) 5 6 9 { safUp with msgSeq := 5 }) : State)).signature hmkNet 1 7).2.signature hmkNet 2 7).2,
     by decide +kernel, by decide +kernel, rfl, rfl, by decide +kernel⟩,
   ⟨63, ({ net := 63, cyc := 7, sigA := none, sigB := none, verdict := some 1, triage := .waiting, faulty := 0, at_ := 7 } : HmkJob), (hmkNet : Net), (hmkPkg : Package), at7 ((hmkRun ({ net := 63, cyc := 7, sigA := none, sigB := none, verdict := some 1, triage := .waiting, faulty := 0, at_ := 7 } : HmkJob) 5 6 7 { safUp with msgSeq := 5 })) 250000,
     by decide +kernel⟩,
   ⟨63, ({ net := 63, cyc := 7, sigA := none, sigB := none, verdict := some 1, triage := .waiting, faulty := 0, at_ := 7 } : HmkJob), (hmkNet : Net), (hmkPkg : Package), at7 (((hmkRun ({ net := 63, cyc := 7, sigA := none, sigB := none, verdict := some 1, triage := .waiting, faulty := 0, at_ := 7 } : HmkJob) 5 6 7 { safUp with msgSeq := 5 })).wr (PWR_DOM_STAT 5) 0xFFFF) 240500,
     by decide +kernel⟩,
   ⟨63, ({ net := 63, cyc := 7, sigA := (some (crc64 (5 :: List.replicate 15 0 ++ leBytes 4 7 ++ leBytes 2 10))), sigB := (some (crc64 (6 :: List.replicate 15 0 ++ leBytes 4 7 ++ leBytes 2 10))), verdict := some 1, triage := .running, faulty := 0, at_ := 7 } : HmkJob), (hmkNet : Net), (hmkPkg : Package), ({ win := 127, cyc := 7, done := [(12, 0)] } : Inst), (((let s := (hmkRun ({ net := 63, cyc := 7, sigA := (some (crc64 (5 :: List.replicate 15 0 ++ leBytes 4 7 ++ leBytes 2 10))), sigB := (some (crc64 (6 :: List.replicate 15 0 ++ leBytes 4 7 ++ leBytes 2 10))), verdict := some 1, triage := .running, faulty := 0, at_ := 7 } : HmkJob) 5 6 6 { safUp with msgSeq := 5 }); { s with model := { s.model with insts := [({ win := 127, cyc := 7, done := [(12, 0)] } : Inst)] } } : State)).signature hmkNet 3 7).1, (let s := (hmkRun ({ net := 63, cyc := 7, sigA := (some (crc64 (5 :: List.replicate 15 0 ++ leBytes 4 7 ++ leBytes 2 10))), sigB := (some (crc64 (6 :: List.replicate 15 0 ++ leBytes 4 7 ++ leBytes 2 10))), verdict := some 1, triage := .running, faulty := 0, at_ := 7 } : HmkJob) 5 6 6 { safUp with msgSeq := 5 }); { s with model := { s.model with insts := [({ win := 127, cyc := 7, done := [(12, 0)] } : Inst)] } } : State), (((let s := (hmkRun ({ net := 63, cyc := 7, sigA := (some (crc64 (5 :: List.replicate 15 0 ++ leBytes 4 7 ++ leBytes 2 10))), sigB := (some (crc64 (6 :: List.replicate 15 0 ++ leBytes 4 7 ++ leBytes 2 10))), verdict := some 1, triage := .running, faulty := 0, at_ := 7 } : HmkJob) 5 6 6 { safUp with msgSeq := 5 }); { s with model := { s.model with insts := [({ win := 127, cyc := 7, done := [(12, 0)] } : Inst)] } } : State)).signature hmkNet 3 7).2,
     by decide +kernel, by decide +kernel, by decide +kernel, by decide +kernel, by decide +kernel,
     by decide +kernel, by decide +kernel, by decide +kernel, rfl, by decide +kernel⟩,
   ⟨63, ({ net := 63, cyc := 7, sigA := (some (crc64 (5 :: List.replicate 15 0 ++ leBytes 4 7 ++ leBytes 2 10))), sigB := (some (crc64 (6 :: List.replicate 15 0 ++ leBytes 4 7 ++ leBytes 2 10))), verdict := some 1, triage := .running, faulty := 0, at_ := 7 } : HmkJob), (hmkNet : Net), (hmkPkg : Package), ({ win := 127, cyc := 7, done := [(12, 0)] } : Inst), (((let s := (hmkRun ({ net := 63, cyc := 7, sigA := (some (crc64 (5 :: List.replicate 15 0 ++ leBytes 4 7 ++ leBytes 2 10))), sigB := (some (crc64 (6 :: List.replicate 15 0 ++ leBytes 4 7 ++ leBytes 2 10))), verdict := some 1, triage := .running, faulty := 0, at_ := 7 } : HmkJob) 5 6 5 { safUp with msgSeq := 5 }); { s with model := { s.model with insts := [({ win := 127, cyc := 7, done := [(12, 0)] } : Inst)] } } : State)).signature hmkNet 3 7).1, (let s := (hmkRun ({ net := 63, cyc := 7, sigA := (some (crc64 (5 :: List.replicate 15 0 ++ leBytes 4 7 ++ leBytes 2 10))), sigB := (some (crc64 (6 :: List.replicate 15 0 ++ leBytes 4 7 ++ leBytes 2 10))), verdict := some 1, triage := .running, faulty := 0, at_ := 7 } : HmkJob) 5 6 5 { safUp with msgSeq := 5 }); { s with model := { s.model with insts := [({ win := 127, cyc := 7, done := [(12, 0)] } : Inst)] } } : State), (((let s := (hmkRun ({ net := 63, cyc := 7, sigA := (some (crc64 (5 :: List.replicate 15 0 ++ leBytes 4 7 ++ leBytes 2 10))), sigB := (some (crc64 (6 :: List.replicate 15 0 ++ leBytes 4 7 ++ leBytes 2 10))), verdict := some 1, triage := .running, faulty := 0, at_ := 7 } : HmkJob) 5 6 5 { safUp with msgSeq := 5 }); { s with model := { s.model with insts := [({ win := 127, cyc := 7, done := [(12, 0)] } : Inst)] } } : State)).signature hmkNet 3 7).2,
     by decide +kernel, by decide +kernel, by decide +kernel, by decide +kernel, by decide +kernel,
     by decide +kernel, by decide +kernel, by decide +kernel, rfl, by decide +kernel⟩,
   ⟨63, ({ net := 63, cyc := 7, sigA := (some (crc64 (5 :: List.replicate 15 0 ++ leBytes 4 7 ++ leBytes 2 10))), sigB := (some (crc64 (6 :: List.replicate 15 0 ++ leBytes 4 7 ++ leBytes 2 10))), verdict := some 1, triage := .running, faulty := 0, at_ := 7 } : HmkJob), (hmkNet : Net), (hmkPkg : Package), ({ win := 127, cyc := 7, done := [(12, 0)] } : Inst), (((let s := (hmkRun ({ net := 63, cyc := 7, sigA := (some (crc64 (5 :: List.replicate 15 0 ++ leBytes 4 7 ++ leBytes 2 10))), sigB := (some (crc64 (6 :: List.replicate 15 0 ++ leBytes 4 7 ++ leBytes 2 10))), verdict := some 1, triage := .running, faulty := 0, at_ := 7 } : HmkJob) 5 6 7 { safUp with msgSeq := 5 }); { s with model := { s.model with insts := [({ win := 127, cyc := 7, done := [(12, 0)] } : Inst)] } } : State)).signature hmkNet 3 7).1, (let s := (hmkRun ({ net := 63, cyc := 7, sigA := (some (crc64 (5 :: List.replicate 15 0 ++ leBytes 4 7 ++ leBytes 2 10))), sigB := (some (crc64 (6 :: List.replicate 15 0 ++ leBytes 4 7 ++ leBytes 2 10))), verdict := some 1, triage := .running, faulty := 0, at_ := 7 } : HmkJob) 5 6 7 { safUp with msgSeq := 5 }); { s with model := { s.model with insts := [({ win := 127, cyc := 7, done := [(12, 0)] } : Inst)] } } : State), (((let s := (hmkRun ({ net := 63, cyc := 7, sigA := (some (crc64 (5 :: List.replicate 15 0 ++ leBytes 4 7 ++ leBytes 2 10))), sigB := (some (crc64 (6 :: List.replicate 15 0 ++ leBytes 4 7 ++ leBytes 2 10))), verdict := some 1, triage := .running, faulty := 0, at_ := 7 } : HmkJob) 5 6 7 { safUp with msgSeq := 5 }); { s with model := { s.model with insts := [({ win := 127, cyc := 7, done := [(12, 0)] } : Inst)] } } : State)).signature hmkNet 3 7).2,
     by decide +kernel, by decide +kernel, by decide +kernel, by decide +kernel, by decide +kernel,
     by decide +kernel, by decide +kernel, by decide +kernel, rfl, by decide +kernel⟩,
   ⟨63, ({ net := 63, cyc := 7, sigA := none, sigB := none, verdict := some 1, triage := .localise, faulty := 1, at_ := 7 } : HmkJob), (hmkNet : Net), (hmkPkg : Package), (((((hmkRun ({ net := 63, cyc := 7, sigA := none, sigB := none, verdict := some 1, triage := .localise, faulty := 1, at_ := 7 } : HmkJob) 5 6 6 { safUp with tests := [(31, { parts := 3 }), (32, { lastPass := 5 }), (33, { lastPass := 6 })] })).wr (ARB_FAC_MAP 31) 31).badCheckpoint hmkNet 1)).1, 31, (((((((hmkRun ({ net := 63, cyc := 7, sigA := none, sigB := none, verdict := some 1, triage := .localise, faulty := 1, at_ := 7 } : HmkJob) 5 6 6 { safUp with tests := [(31, { parts := 3 }), (32, { lastPass := 5 }), (33, { lastPass := 6 })] })).wr (ARB_FAC_MAP 31) 31).badCheckpoint hmkNet 1)).2.badUnits hmkNet 1 (((((hmkRun ({ net := 63, cyc := 7, sigA := none, sigB := none, verdict := some 1, triage := .localise, faulty := 1, at_ := 7 } : HmkJob) 5 6 6 { safUp with tests := [(31, { parts := 3 }), (32, { lastPass := 5 }), (33, { lastPass := 6 })] })).wr (ARB_FAC_MAP 31) 31).badCheckpoint hmkNet 1)).1)).1, ((hmkRun ({ net := 63, cyc := 7, sigA := none, sigB := none, verdict := some 1, triage := .localise, faulty := 1, at_ := 7 } : HmkJob) 5 6 6 { safUp with tests := [(31, { parts := 3 }), (32, { lastPass := 5 }), (33, { lastPass := 6 })] })).wr (ARB_FAC_MAP 31) 31, (((((hmkRun ({ net := 63, cyc := 7, sigA := none, sigB := none, verdict := some 1, triage := .localise, faulty := 1, at_ := 7 } : HmkJob) 5 6 6 { safUp with tests := [(31, { parts := 3 }), (32, { lastPass := 5 }), (33, { lastPass := 6 })] })).wr (ARB_FAC_MAP 31) 31).badCheckpoint hmkNet 1)).2, (((((((hmkRun ({ net := 63, cyc := 7, sigA := none, sigB := none, verdict := some 1, triage := .localise, faulty := 1, at_ := 7 } : HmkJob) 5 6 6 { safUp with tests := [(31, { parts := 3 }), (32, { lastPass := 5 }), (33, { lastPass := 6 })] })).wr (ARB_FAC_MAP 31) 31).badCheckpoint hmkNet 1)).2.badUnits hmkNet 1 (((((hmkRun ({ net := 63, cyc := 7, sigA := none, sigB := none, verdict := some 1, triage := .localise, faulty := 1, at_ := 7 } : HmkJob) 5 6 6 { safUp with tests := [(31, { parts := 3 }), (32, { lastPass := 5 }), (33, { lastPass := 6 })] })).wr (ARB_FAC_MAP 31) 31).badCheckpoint hmkNet 1)).1)).2, 33, _, rfl,
     by decide +kernel, by decide +kernel, by decide +kernel, by decide +kernel, rfl, rfl, by decide +kernel⟩,
   ⟨63, ({ net := 63, cyc := 7, sigA := none, sigB := none, verdict := some 1, triage := .localise, faulty := 1, at_ := 7 } : HmkJob), (hmkNet : Net), (hmkPkg : Package), ((((hmkRun ({ net := 63, cyc := 7, sigA := none, sigB := none, verdict := some 1, triage := .localise, faulty := 1, at_ := 7 } : HmkJob) 5 6 6 { safUp with tests := [(32, { unusable := true }), (33, { unusable := true })] })).badCheckpoint hmkNet 1)).1, 31, ((((((hmkRun ({ net := 63, cyc := 7, sigA := none, sigB := none, verdict := some 1, triage := .localise, faulty := 1, at_ := 7 } : HmkJob) 5 6 6 { safUp with tests := [(32, { unusable := true }), (33, { unusable := true })] })).badCheckpoint hmkNet 1)).2.badUnits hmkNet 1 ((((hmkRun ({ net := 63, cyc := 7, sigA := none, sigB := none, verdict := some 1, triage := .localise, faulty := 1, at_ := 7 } : HmkJob) 5 6 6 { safUp with tests := [(32, { unusable := true }), (33, { unusable := true })] })).badCheckpoint hmkNet 1)).1)).1, (hmkRun ({ net := 63, cyc := 7, sigA := none, sigB := none, verdict := some 1, triage := .localise, faulty := 1, at_ := 7 } : HmkJob) 5 6 6 { safUp with tests := [(32, { unusable := true }), (33, { unusable := true })] }), ((((hmkRun ({ net := 63, cyc := 7, sigA := none, sigB := none, verdict := some 1, triage := .localise, faulty := 1, at_ := 7 } : HmkJob) 5 6 6 { safUp with tests := [(32, { unusable := true }), (33, { unusable := true })] })).badCheckpoint hmkNet 1)).2, ((((((hmkRun ({ net := 63, cyc := 7, sigA := none, sigB := none, verdict := some 1, triage := .localise, faulty := 1, at_ := 7 } : HmkJob) 5 6 6 { safUp with tests := [(32, { unusable := true }), (33, { unusable := true })] })).badCheckpoint hmkNet 1)).2.badUnits hmkNet 1 ((((hmkRun ({ net := 63, cyc := 7, sigA := none, sigB := none, verdict := some 1, triage := .localise, faulty := 1, at_ := 7 } : HmkJob) 5 6 6 { safUp with tests := [(32, { unusable := true }), (33, { unusable := true })] })).badCheckpoint hmkNet 1)).1)).2, _, rfl,
     by decide +kernel, by decide +kernel, by decide +kernel, by decide +kernel, rfl, rfl, by decide +kernel⟩,
   ⟨255, ({ entry := 255, live := true, ent := ⟨0, 0, 3, 100, 1, true⟩, target := 5, t0 := 10, cyc := 7, met := none } : AgmInst), at7 ((hmkRun ({ net := 63, cyc := 7, sigA := none, sigB := none, verdict := none, triage := .none, faulty := 0, at_ := 7 } : HmkJob) 5 6 7 { safUp with agmInsts := [({ entry := 255, live := true, ent := ⟨0, 0, 3, 100, 1, true⟩, target := 5, t0 := 10, cyc := 7, met := none } : AgmInst), ({ entry := 255, live := true, ent := ⟨0, 0, 3, 100, 1, true⟩, target := 5, t0 := 10, cyc := 7, met := none } : AgmInst)] })) 111000,
     by decide +kernel⟩,
   ⟨255, ({ entry := 255, live := true, ent := ⟨0, 0, 3, 100, 1, true⟩, target := 5, t0 := 10, cyc := 7, met := some 110 } : AgmInst), at7 ((hmkRun ({ net := 63, cyc := 7, sigA := none, sigB := none, verdict := none, triage := .none, faulty := 0, at_ := 7 } : HmkJob) 5 6 7 { safUp with agmInsts := [({ entry := 255, live := true, ent := ⟨0, 0, 3, 100, 1, true⟩, target := 5, t0 := 10, cyc := 7, met := some 110 } : AgmInst), ({ entry := 255, live := true, ent := ⟨0, 0, 3, 100, 1, true⟩, target := 5, t0 := 10, cyc := 7, met := some 110 } : AgmInst)] })) 111000,
     by decide +kernel⟩,
   ⟨255, ({ entry := 255, live := false, ent := ⟨0, 0, 3, 100, 1, true⟩, target := 5, t0 := 10, cyc := 7, met := some 20 } : AgmInst), at7 ((hmkRun ({ net := 63, cyc := 7, sigA := none, sigB := none, verdict := none, triage := .none, faulty := 0, at_ := 7 } : HmkJob) 5 6 7 { safUp with agmInsts := [({ entry := 255, live := false, ent := ⟨0, 0, 3, 100, 1, true⟩, target := 5, t0 := 10, cyc := 7, met := some 20 } : AgmInst), ({ entry := 255, live := false, ent := ⟨0, 0, 3, 100, 1, true⟩, target := 5, t0 := 10, cyc := 7, met := some 20 } : AgmInst)] })) 111000,
     by decide +kernel⟩⟩

theorem witness_SelfTest :
    (∃ (u : PhysUnit) (s : State) (f : _), (s.test (unitNo u)).running = false ∧
        (s.test (unitNo u)).unusable = false ∧ f < 32 ∧ s.logicalOf (unitNo u) = some f ∧ s.testOpen f = true ∧
        s.facState f = facIDLE ∧ (s.facet f).cur = none) ∧
    (∃ (u : PhysUnit) (s : State) (b : _), (s.test (unitNo u)).running = false ∧
        (s.test (unitNo u)).unusable = false ∧ b < 4096 ∧ s.logicalOf (unitNo u) = some (100 + b) ∧
        s.testOpen (100 + b) = true ∧ (s.beadState b = bdIDLE ∨ s.beadState b = bdPARKED)) ∧
    (∃ (u : PhysUnit) (s : State), (s.test (unitNo u)).running = false ∧ (s.test (unitNo u)).unusable = false ∧
        s.logicalOf (unitNo u) = none) ∧
    (∃ (u : PhysUnit) (s : State) (f : _), (s.test (unitNo u)).running = true ∧ f < 32 ∧
        s.logicalOf (unitNo u) = some f ∧ s.facState f = facSELFTEST ∧ (s.facet f).beforeTest = facIDLE ∧
        (s.test (unitNo u)).parts < 15 ∧ unitNo u < 64) ∧
    (∃ (u : PhysUnit) (s : State), (s.test (unitNo u)).running = true ∧ s.logicalOf (unitNo u) = none ∧
        (if unitNo u < 64 then 16 else 8) ≤ (s.test (unitNo u)).parts + 1) ∧
    (∃ (u : PhysUnit) (s : State), s.fld SAF_STATUS_STATE = safNORMAL ∧ (s.test (unitNo u)).unusable = false ∧
        (s.test (unitNo u)).overdue = false ∧ s.dtiNs ≤ sinceNs s.now (s.test (unitNo u)).lastPass ∧
        s.procState 1 = procRUN ∧ 2 * s.dtiNs ≤ sinceNs s.now (s.test (unitNo u)).lastPass) ∧
    (∃ (unequal : Bool) (equal : Bool) (s : State), (unequal = true ∧ equal = true)) ∧
    (∃ (unequal : Bool) (equal : Bool) (s : State), (unequal = false ∨ equal = false) ∧
        s.fld SAF_STATUS_STATE = safNORMAL ∧ s.procState 1 = procRUN) :=
  ⟨⟨(PhysUnit.facet 4 : PhysUnit), (safRun { safUp with tests := [(4, { parts := 15 })] }).setF (FAC_STATUS_STATE 4) facIDLE, 4,
    by decide +kernel⟩,
   ⟨(PhysUnit.bead 3900 : PhysUnit), ((safRun safUp).wr (ARB_BEAD_MAP 3840) 3900).setF (BEAD_STATUS_STATE 3840) bdPARKED, 3840,
     by decide +kernel⟩,
   ⟨(PhysUnit.facet 33 : PhysUnit), safRun safUp, by decide +kernel⟩,
   ⟨(PhysUnit.facet 4 : PhysUnit), ((safRun { safUp with tests := [(4, { parts := 14, running := true })] }).setF (FAC_STATUS_STATE 4) facSELFTEST).setFacet 4 { beforeTest := facIDLE }, 4,
     by decide +kernel⟩,
   ⟨(PhysUnit.facet 33 : PhysUnit), atNs (safRun { safUp with testOrder := [33, 2, 33], tests := [(33, { parts := 15, running := true, overdue := true })] }) 777,
     by decide +kernel⟩,
   ⟨(PhysUnit.bead 4159 : PhysUnit), atNs ((safRun { safUp with testOrder := [33, 4223, 33], testBase := 0 }).setF SAF_STATUS_STATE safNORMAL) 200000000,
     by decide +kernel⟩,
   ⟨true, true, base, by decide +kernel⟩,
   ⟨true, false, (safRun safUp).setF SAF_STATUS_STATE safNORMAL, by decide +kernel⟩⟩

theorem witness_HealthRecords :
    (∃ (m : Fin 96) (l : Nat) (rising : Bool) (t0 : Nat) (s : State) (w : EdgeWin), l = m.val / 2 ∧
        s.capturing = true ∧ EdgeReady l s ∧ (s.edgeIn m.val).win = some w ∧ s.axState (l / 3) = axRUNNING ∧
        w.on = rising ∧ tickReached t0 w.tCmd = true ∧ tickReached w.closeAt t0 = true ∧
        (∀ k, k / 2 = l → k ≠ m.val → (s.edgeIn k).win = none)) ∧
    (∃ (m : Fin 96) (l : Nat) (s : State), l = m.val / 2 ∧ s.capturing = true ∧ EdgeReady l s ∧
        (∀ k, k / 2 = l → (s.edgeIn k).win = none)) ∧
    (∃ (m : Fin 96) (l : Nat) (s : State) (w : EdgeWin), l = m.val / 2 ∧ s.capturing = true ∧ EdgeReady l s ∧
        (s.edgeIn m.val).win = some w ∧ tickReached s.tb7Tick w.closeAt = true ∧
        (∀ k, k / 2 = l → k ≠ m.val → (s.edgeIn k).win = none)) ∧
    (∃ (m : Fin 96) (l : Nat) (w : EdgeWin) (s : State), l = m.val / 2 ∧ (s.edgeIn m.val).win = some w ∧
        tickReached s.tb7Tick w.closeAt = true ∧ (s.leg l).node < 4096 ∧ (s.leg l).recs = [] ∧
        (∀ k, k / 2 = l → k ≠ m.val → (s.edgeIn k).win = none) ∧
        recFull (s.leg l).ewr.toNat (s.rd (HLT_EDGE_RD l)).toNat (s.eSize l) = true) ∧
    (∃ (m : Fin 96) (x : EdgeIn) (s : State), x = s.edgeIn m.val ∧ s.capturing = true ∧ x.win = none ∧ x.cal = [] ∧
        s.calNs ≤ sinceNs s.now x.lastXchg ∧ x.bad0 = false ∧ x.bad1 = false) ∧
    (∃ (m : Fin 96) (x : EdgeIn) (s : State), x = s.edgeIn m.val ∧ s.capturing = true ∧ x.win = none ∧ x.cal = [] ∧
        s.calNs ≤ sinceNs s.now x.lastXchg ∧ x.bad0 = false ∧ x.bad1 = false) ∧
    (∃ (m : Fin 96) (x : EdgeIn) (s : State) (ts : _), x = s.edgeIn m.val ∧ s.capturing = true ∧
        x.cal = false :: ts) ∧
    (∃ (m : Fin 96) (x : EdgeIn) (s : State) (ts : _), x = s.edgeIn m.val ∧ s.capturing = true ∧ x.cal = false :: ts ∧
        x.bad1 = true ∧ s.hltState = hltRUNNING) ∧
    (∃ (m : Fin 96) (x : EdgeIn) (s : State), x = s.edgeIn m.val ∧ s.capturing = true ∧
        2 * s.calNs < sinceNs s.now (if x.inService then x.cal1At else x.cal0At)) ∧
    (∃ (l : Fin 48) (dev : Device) (at_ : Nat) (s : State), s.capturing = true ∧
        (s.leg l.val).trigAt = some (decide (dev = .low), at_) ∧ tickReached s.tb7Tick at_ = true) ∧
    (∃ (bits : BitVec 64) (s : State) (ok : _), s.capturing = true ∧ (ok = false ∨ bitsN bits.toNat 60 4 ≠ 1)) ∧
    (∃ (l : Fin 48) (bits : BitVec 64) (s : State), s.capturing = true ∧ bitsN bits.toNat 60 4 = 1 ∧
        (crc8 (leBytes 7 (bits.toNat / 256)).reverse).toNat = bitsN bits.toNat 0 8 ∧
        RingRoom l.val ((s.leg l.val).base + 64 + 16 * s.eSize l.val) (s.gSize l.val) (s.leg l.val).gwr (s.rd (HLT_GTL_RD l.val)) s ∧
        (s.leg l.val).ggap = false) ∧
    (∃ (l : Fin 48) (s : State), s.capturing = true ∧ s.fld (HLT_LSTAT_LINK_DOWN l.val) = 0 ∧
        bitsN (s.rd HLT_GTL_TMO).toNat 0 16 * 1000 ≤ sinceNs s.now (s.leg l.val).lastGood) :=
  ⟨⟨95, 47, true, 1500, (((legRun { eseq := 0xFFFFFFFF, ewr := 64, gseq := 65, gwr := 3 } [(95, { win := some { tCmd := 1000, on := true, iph := -3, trig := true, closeAt := 1500 }, uncal := true })] (axRun axRUNNING { ia := 0x123456, ib := -77, vel := 3 }))).wr (HLT_EDGE_RD 47) 1).wr (ETU_SKEW_L 47) 0x7FFF, ({ tCmd := 1000, on := true, iph := -3, trig := true, closeAt := 1500 } : EdgeWin),
    by decide +kernel, by decide +kernel, by unfold EdgeReady RingRoom FabricQuiet; decide +kernel,
    by decide +kernel, by decide +kernel, by decide +kernel, by decide +kernel, by decide +kernel,
    by intro k h1 h2; have h : k = 94 := (by simp at h2; omega); subst h; decide +kernel⟩,
   ⟨95, 47, ((legRun { eseq := 0xFFFFFFFF, ewr := 64, gseq := 65, gwr := 3 } [] (axRun axRUNNING { ia := 0x123456, ib := -77, vel := 3 }))).wr (HLT_EDGE_RD 47) 1,
     by decide +kernel, by decide +kernel, by unfold EdgeReady RingRoom FabricQuiet; decide +kernel,
     by intro k h1; have h : k = 94 ∨ k = 95 := (by omega); rcases h with rfl | rfl <;> decide +kernel⟩,
   ⟨95, 47, at7 (((legRun { eseq := 0xFFFFFFFF, ewr := 64, gseq := 65, gwr := 3 } [(95, { win := some { tCmd := 1000, on := true, iph := -3, trig := true, closeAt := 1500 }, uncal := true })] (axRun axRUNNING { ia := 0x123456, ib := -77, vel := 3 }))).wr (HLT_EDGE_RD 47) 1) 15, ({ tCmd := 1000, on := true, iph := -3, trig := true, closeAt := 1500 } : EdgeWin),
     by decide +kernel, by decide +kernel, by unfold EdgeReady RingRoom FabricQuiet; decide +kernel,
     by decide +kernel, by decide +kernel,
     by intro k h1 h2; have h : k = 94 := (by simp at h2; omega); subst h; decide +kernel⟩,
   ⟨95, 47, ({ tCmd := 1000, on := true, iph := -3, trig := true, closeAt := 1500 } : EdgeWin), at7 ((legRun { eseq := 0xFFFFFFFF, ewr := 64, gseq := 65, gwr := 3 } [(95, { win := some { tCmd := 1000, on := true, iph := -3, trig := true, closeAt := 1500 }, uncal := true })] (axRun axRUNNING { ia := 0x123456, ib := -77, vel := 3 }))) 15,
     by decide +kernel, by decide +kernel, by decide +kernel, by decide +kernel, by decide +kernel,
     by intro k h1 h2; have h : k = 94 := (by simp at h2; omega); subst h; decide +kernel, by decide +kernel⟩,
   ⟨95, ({ lastXchg := 1000000 } : EdgeIn), atNs (((legRun { eseq := 0xFFFFFFFF, ewr := 64, gseq := 65, gwr := 3 } [(95, { lastXchg := 1000000 })] (axRun axRUNNING { ia := 0x123456, ib := -77, vel := 3 }))).wr ETU_CAL_PER 1) 2000000,
     by decide +kernel⟩,
   ⟨95, ({ inService := true, lastXchg := 1000000 } : EdgeIn), atNs (((legRun { eseq := 0xFFFFFFFF, ewr := 64, gseq := 65, gwr := 3 } [(95, { inService := true, lastXchg := 1000000 })] (axRun axRUNNING { ia := 0x123456, ib := -77, vel := 3 }))).wr ETU_CAL_PER 1) 2000000,
     by decide +kernel⟩,
   ⟨95, ({ cal := [false, true], uncal := true, bad0 := true } : EdgeIn), atNs (((legRun { eseq := 0xFFFFFFFF, ewr := 64, gseq := 65, gwr := 3 } [(95, { cal := [false, true], uncal := true, bad0 := true })] (axRun axRUNNING { ia := 0x123456, ib := -77, vel := 3 }))).wr ETU_CAL_PER 1) 2000000, [true],
     by decide +kernel⟩,
   ⟨95, ({ cal := [false, true], bad1 := true } : EdgeIn), atNs (((legRun { eseq := 0xFFFFFFFF, ewr := 64, gseq := 65, gwr := 3 } [(95, { cal := [false, true], bad1 := true })] (axRun axRUNNING { ia := 0x123456, ib := -77, vel := 3 }))).wr ETU_CAL_PER 1) 2000000, [true],
     by decide +kernel⟩,
   ⟨95, ({ inService := true, cal1At := 0 } : EdgeIn), atNs (((legRun { eseq := 0xFFFFFFFF, ewr := 64, gseq := 65, gwr := 3 } [(95, { inService := true, cal1At := 0 })] (axRun axRUNNING { ia := 0x123456, ib := -77, vel := 3 }))).wr ETU_CAL_PER 1) 2000001,
     by decide +kernel⟩,
   ⟨47, Device.low, 1500, at7 ((legRun { trigL := 7, trigH := 7, trigAt := some (true, 1500) } [] (axRun axRUNNING { ia := 0x123456, ib := -77, vel := 3 }))) 15,
     by decide +kernel⟩,
   ⟨0x1000000000000000, (legRun { eseq := 0xFFFFFFFF, ewr := 64, gseq := 65, gwr := 3 } [] (axRun axRUNNING { ia := 0x123456, ib := -77, vel := 3 })), false,
     by decide +kernel⟩,
   ⟨47, (BitVec.ofNat 64 (0x1F123456789ABC * 256 + (crc8 (leBytes 7 0x1F123456789ABC).reverse).toNat)), ((legRun { eseq := 1, gseq := 0xFFFFFFFF, gwr := 64, trigL := 7 } [] (axRun axRUNNING { ia := 0x123456, ib := -77, vel := 3 }))).wr (HLT_GTL_RD 47) 1,
     by unfold RingRoom FabricQuiet; decide +kernel⟩,
   ⟨47, atNs (((legRun { lastGood := 7 } [] (axRun axRUNNING { ia := 0x123456, ib := -77, vel := 3 }))).wr HLT_GTL_TMO 0xFFFF) 65535007,
     by decide +kernel⟩⟩

theorem witness_HealthActions :
    (∃ (l : Fin 48) (v : Word) (s : State), (bitsN v.toNat 16 13 = 0x1FFF ∨ (bitsN v.toNat 16 13 < 4096 ∧
        bitsN v.toNat 6 10 * 64 + 128 + 16 * s.eSize l.val + 16 * s.gSize l.val ≤ 65536)) ∧
        s.axState (l.val / 3) ≠ axRUNNING) ∧
    (∃ (l : Fin 48) (v : Word) (s : State), (bitsN v.toNat 16 13 = 0x1FFF ∨ (bitsN v.toNat 16 13 < 4096 ∧
        bitsN v.toNat 6 10 * 64 + 128 + 16 * s.eSize l.val + 16 * s.gSize l.val ≤ 65536)) ∧
        s.axState (l.val / 3) = axRUNNING) ∧
    (∃ (src : Nat) (s : State), src ≠ mSCP) ∧
    (∃ (l : Fin 48) (v : Word) (s : State), bitsN v.toNat 16 13 ≠ 0x1FFF ∧
        65536 < bitsN v.toNat 6 10 * 64 + 128 + 16 * s.eSize l.val + 16 * s.gSize l.val) ∧
    (∃ (l : Fin 48) (at_ : Nat) (s : State), (s.leg l.val).bindAt = some at_ ∧
        (tickReached s.tb7Tick at_ = true ∨ s.axState (l.val / 3) ≠ axRUNNING)) ∧
    (∃ (src : Nat) (l : Fin 48) (s : State), s.legWriter src l.val = false) ∧
    (∃ (src : Nat) (l : Fin 48) (v : Word) (s : State), ∃ good, good = (bitsN v.toNat 0 1 = 1 ∧
        bitsN v.toNat 1 2 = 0 ∧ bitsN v.toNat 3 1 = 1 ∧
        bitsN (s.rd (HLT_CONF l.val)).toNat 0 16 ≤ bitsN v.toNat 16 16) ∧ s.legWriter src l.val = true ∧ ¬ good) ∧
    (∃ (src : Nat) (l : Fin 48) (v : Word) (s : State), ∃ good, good = (bitsN v.toNat 0 1 = 1 ∧
        bitsN v.toNat 1 2 = 0 ∧ bitsN v.toNat 3 1 = 1 ∧
        bitsN (s.rd (HLT_CONF l.val)).toNat 0 16 ≤ bitsN v.toNat 16 16) ∧ s.legWriter src l.val = true ∧ good ∧
        s.fld (HLT_LSTAT_IMM_CNT l.val) < s.fld (HLT_LCFG_IMM_N l.val)) ∧
    (∃ (src : Nat) (l : Fin 48) (v : Word) (s : State), ∃ good, good = (bitsN v.toNat 0 1 = 1 ∧
        bitsN v.toNat 1 2 = 0 ∧ bitsN v.toNat 3 1 = 1 ∧
        bitsN (s.rd (HLT_CONF l.val)).toNat 0 16 ≤ bitsN v.toNat 16 16) ∧ s.legWriter src l.val = true ∧ good ∧
        s.fld (HLT_LSTAT_IMM_CNT l.val) = s.fld (HLT_LCFG_IMM_N l.val) ∧ s.fld (HLT_LCFG_ACT_EN l.val) = 1 ∧
        s.capturing = true ∧ s.axState (l.val / 3) = axRUNNING ∧ s.fld (SLE_STATUS_STOPPING (l.val / 3)) = 0 ∧
        s.fld (SLE_STATUS_GATED (l.val / 3)) = 0 ∧ (s.axis (l.val / 3)).stop = none) ∧
    (∃ (l : Fin 48) (s : State), s.capturing = true ∧ (s.leg l.val).node < 4096 ∧
        s.fld (HLT_LSTAT_RES_LATE l.val) = 0 ∧
        passedNs (bitsN (s.rd (HLT_CONF l.val)).toNat 16 16 * 1000) (s.tbNs 7) (s.leg l.val).lastCommit = true) :=
  ⟨⟨47, 0x1FFF0000, ((legRun { eseq := 0xFFFFFFFF, ewr := 64, gseq := 65, gwr := 3 } [] (axRun axRUNNING { ia := 0x123456, ib := -77, vel := 3 }))).setF (SLE_STATUS_STATE 15) axCONFIG,
    by decide +kernel⟩,
   ⟨47, 0x1FFF0000, at7 ((legRun { eseq := 0xFFFFFFFF, ewr := 64, gseq := 65, gwr := 3 } [] (axRun axRUNNING { ia := 0x123456, ib := -77, vel := 3 }))) 777,
     by decide +kernel⟩,
   ⟨mHIP, (legRun { eseq := 0xFFFFFFFF, ewr := 64, gseq := 65, gwr := 3 } [] (axRun axRUNNING { ia := 0x123456, ib := -77, vel := 3 })),
     by decide +kernel⟩,
   ⟨47, 0x0FFFFFC0, (legRun { eseq := 0xFFFFFFFF, ewr := 64, gseq := 65, gwr := 3 } [] (axRun axRUNNING { ia := 0x123456, ib := -77, vel := 3 })),
     by decide +kernel⟩,
   ⟨47, 1500, at7 ((legRun { bindAt := some 1500 } [] (axRun axRUNNING { ia := 0x123456, ib := -77, vel := 3 }))) 15,
     by decide +kernel⟩,
   ⟨mHIP, 47, (legRun { eseq := 0xFFFFFFFF, ewr := 64, gseq := 65, gwr := 3 } [] (axRun axRUNNING { ia := 0x123456, ib := -77, vel := 3 })),
     by decide +kernel⟩,
   ⟨4095, 47, 0x7FFF0009, at7 ((((((legRun { eseq := 0xFFFFFFFF, ewr := 64, gseq := 65, gwr := 3 } [] (axRun axRUNNING { ia := 0x123456, ib := -77, vel := 3 }))).setF (HLT_LSTAT_IMM_CNT 47) 3).wr (HLT_CONF 47) 0x00058000).setF (HLT_LCFG_IMM_N 47) 3).setF (HLT_LCFG_ACT_EN 47) 1) 55, _, rfl,
     by decide +kernel⟩,
   ⟨mSCP, 47, 0x80000009, at7 ((((((legRun { eseq := 0xFFFFFFFF, ewr := 64, gseq := 65, gwr := 3 } [] (axRun axRUNNING { ia := 0x123456, ib := -77, vel := 3 }))).setF (HLT_LSTAT_IMM_CNT 47) 0).wr (HLT_CONF 47) 0x00058000).setF (HLT_LCFG_IMM_N 47) 3).setF (HLT_LCFG_ACT_EN 47) 1) 55, _, rfl,
     by decide +kernel⟩,
   ⟨4095, 47, 0x80000009, at7 ((((((legRun { eseq := 0xFFFFFFFF, ewr := 64, gseq := 65, gwr := 3 } [] (axRun axRUNNING { ia := 0x123456, ib := -77, vel := 3 }))).setF (HLT_LSTAT_IMM_CNT 47) 3).wr (HLT_CONF 47) 0x00058000).setF (HLT_LCFG_IMM_N 47) 3).setF (HLT_LCFG_ACT_EN 47) 1) 55, _, rfl,
     by decide +kernel⟩,
   ⟨47, at7 (((legRun { lastCommit := 7 } [] (axRun axRUNNING { ia := 0x123456, ib := -77, vel := 3 }))).wr (HLT_CONF 47) 0x00058000) 5007,
     by decide +kernel⟩⟩

theorem witness_Processors :
    (∃ (p : Proc) (v : Word) (s : State), (v = 0x5A5A5A5A ∨ v = 0xA5A5A5A5) ∧ (s.proc (procNo p)).key ≠ some v) ∧
    (∃ (src : Nat) (p : Proc) (s : State), src ≠ mSCP + procNo p) ∧
    (∃ (p : Proc) (s : State) (v : Word) (c : CrashCause), p ≠ .sfp ∧ s.procState (procNo p) = procRUN ∧
        ((s.proc (procNo p)).crashes.filter fun t => sinceNs s.now t < 1000000000).length < 2 ∧
        wdogNs p ≤ sinceNs s.now (s.proc (procNo p)).kickAt ∧ (p = .scp → s.lpState = lpACTIVE) ∧ ((v ≠ 0x5A5A5A5A ∧
        v ≠ 0xA5A5A5A5) ∨ (s.proc (procNo p)).key = some v) ∧ c ≠ .lockstep) ∧
    (∃ (p : Proc) (c : CrashCause) (s : State), p ≠ .sfp ∧ c ≠ .lockstep ∧ s.procState (procNo p) = procRUN ∧
        2 ≤ ((s.proc (procNo p)).crashes.filter fun t => sinceNs s.now t < 1000000000).length) ∧
    (∃ (s : State), s.procState 0 = procRESTART) ∧
    (∃ (s : State), s.procState 2 = procRESTART ∧ s.reset_.boot = .ready ∧ s.host.goOrder = []) ∧
    (∃ (s : State), s.procState 1 = procRESTART ∧ (s.proc 1).crashRestart = false ∧
        s.fld SAF_STATUS_STATE = safSAFE) :=
  ⟨⟨Proc.scp, 0x5A5A5A5A, atNs ((let s := (modelRun (axRun axRUNNING { vel := 3 }) fun m => m); { s with mems := { s.mems with dmem := { cells := [(0x7FFFF, 1), (0x80000, 2), (0xFFFFF, 3), (0x100000, 4), (0x17FFFF, 5)] } } }.setProc 0 {})) 2000000,
    by decide +kernel⟩,
   ⟨17, Proc.scp, atNs ((let s := (modelRun (axRun axRUNNING { vel := 3 }) fun m => m); { s with mems := { s.mems with dmem := { cells := [(0x7FFFF, 1), (0x80000, 2), (0xFFFFF, 3), (0x100000, 4), (0x17FFFF, 5)] } } }.setProc 0 {})) 2000000,
     by decide +kernel⟩,
   ⟨Proc.scp, atNs ((let s := (modelRun (axRun axRUNNING { vel := 3 }) fun m => m); { s with mems := { s.mems with dmem := { cells := [(0x7FFFF, 1), (0x80000, 2), (0xFFFFF, 3), (0x100000, 4), (0x17FFFF, 5)] } } }.setProc 0 { key := some 0x5A5A5A5A, crashes := [1999999] })) 2000000, (0x5A5A5A5A : Word), (CrashCause.wdog : CrashCause),
     by decide +kernel⟩,
   ⟨Proc.scp, CrashCause.ecc, atNs ((withRings (let s := (modelRun (axRun axRUNNING { vel := 3 }) fun m => m); { s with mems := { s.mems with dmem := { cells := [(0x7FFFF, 1), (0x80000, 2), (0xFFFFF, 3), (0x100000, 4), (0x17FFFF, 5)] } } }.setProc 0 { key := some 0x5A5A5A5A, crashes := [1999999, 1999998] }))) 2000000,
     by decide +kernel⟩,
   ⟨atNs ((((let s := (modelRun (axRun axRUNNING { vel := 3 }) fun m => m); { s with mems := { s.mems with dmem := { cells := [(0x7FFFF, 1), (0x80000, 2), (0xFFFFF, 3), (0x100000, 4), (0x17FFFF, 5)] } } }.setProc 0 { reload := true })).setF (GLB_PROC_STAT_STATE 0) procRESTART)) 2000000,
     by decide +kernel⟩,
   ⟨atNs ((let s := (((let s := (modelRun (axRun axRUNNING { vel := 3 }) fun m => m); { s with mems := { s.mems with dmem := { cells := [(0x7FFFF, 1), (0x80000, 2), (0xFFFFF, 3), (0x100000, 4), (0x17FFFF, 5)] } } }.setProc 2 { reload := true })).setF (GLB_PROC_STAT_STATE 2) procRESTART); { s with reset_ := { s.reset_ with boot := .ready }, host := { s.host with inflight := [cmdBy (.mbx 15) 1 0 [] []] } } : State)) 2000000,
     by decide +kernel⟩,
   ⟨atNs (((((let s := (modelRun (axRun axRUNNING { vel := 3 }) fun m => m); { s with mems := { s.mems with dmem := { cells := [(0x7FFFF, 1), (0x80000, 2), (0xFFFFF, 3), (0x100000, 4), (0x17FFFF, 5)] } } }.setProc 1 { crashRestart := false })).setF (GLB_PROC_STAT_STATE 1) procRESTART).setF SAF_STATUS_STATE safSAFE)) 2000000,
     by decide +kernel⟩⟩

theorem witness_TimeBases :
    (∃ (n : Fin 8) (s : State), s.stepOk n.val = true) ∧
    (∃ (n : Fin 8) (s : State), s.stepOk n.val = false) ∧
    (∃ (s : State) (src : _), src ≠ mHIP) ∧
    (∃ (n : Fin 8) (s : State), n.val ≠ 0 ∧ s.time.fn ≠ .stopped ∧ (n.val = 7 → s.fld (TIM_TB_CFG_FOLLOW 7) = 0)) ∧
    (∃ (n : Fin 8) (s : State) (src : _), (src ≠ mHIP ∨ n.val = 0 ∨ s.time.fn = .stopped)) ∧
    (∃ (p : Fin 8) (v : Word) (s : State), s.time.fn = .running ∧ v.getLsbD 8 = true ∧
        s.fld (TIM_PO_CFG_ARM p.val) = 0 ∧ s.pulsePeriod p.val ≠ 0) ∧
    (∃ (v : Word) (s : State), s.time.fn = .running ∧ v.getLsbD 8 = false) ∧
    (∃ (p : Fin 8) (s : State), s.time.fn = .running ∧ s.fld (TIM_PO_CFG_ARM p.val) = 1 ∧
        reached 64 (s.pulseNow p.val) (s.pulseAt p.val (s.pulse p.val).k) = true ∧ ((s.pulsePeriod p.val = 0 ∧
        (s.pulse p.val).k = 0) ∨ (s.pulsePeriod p.val ≠ 0 ∧
        diffC 64 (s.pulseNow p.val) (s.pulseAt p.val ((s.pulse p.val).k + 1)) ≤ 0))) ∧
    (∃ (p : Fin 8) (s : State) (k : _), s.time.fn = .running ∧ s.fld (TIM_PO_CFG_ARM p.val) = 1 ∧
        reached 64 (s.pulseNow p.val) (s.pulseAt p.val (s.pulse p.val).k) = true ∧ s.pulsePeriod p.val ≠ 0 ∧
        0 < diffC 64 (s.pulseNow p.val) (s.pulseAt p.val ((s.pulse p.val).k + 1)) ∧
        k = (s.pulseNow p.val + 2 ^ 64 - s.pulseStart p.val) % 2 ^ 64 / s.pulsePeriod p.val + 1) ∧
    (∃ (p : Fin 8) (s : State), (s.pulse p.val).active = true ∧
        reached 64 (s.pulseNow p.val) (s.pulse p.val).endAt = true) ∧
    (∃ (c : Fin 4) (rising : Bool) (x : CaptureSt) (s : State), x = s.capture c.val ∧ s.time.fn = .running ∧
        s.fld (TIM_CAP_CFG_ENABLE c.val) = 1 ∧
        (s.fld (TIM_CAP_CFG_EDGE c.val) = 2 ∨ s.fld (TIM_CAP_CFG_EDGE c.val) = (if rising then 0 else 1)) ∧
        (∀ t0, x.last = some t0 → 20 ≤ sinceNs s.now t0) ∧ x.fifo.length < 16) ∧
    (∃ (c : Fin 4) (rising : Bool) (x : CaptureSt) (s : State), x = s.capture c.val ∧ s.time.fn = .running ∧
        s.fld (TIM_CAP_CFG_ENABLE c.val) = 1 ∧
        (s.fld (TIM_CAP_CFG_EDGE c.val) = 2 ∨ s.fld (TIM_CAP_CFG_EDGE c.val) = (if rising then 0 else 1)) ∧
        (∀ t0, x.last = some t0 → 20 ≤ sinceNs s.now t0) ∧ 16 ≤ x.fifo.length) ∧
    (∃ (c : Fin 4) (rising : Bool) (x : CaptureSt) (s : State) (t0 : _), x = s.capture c.val ∧ s.time.fn = .running ∧
        s.fld (TIM_CAP_CFG_ENABLE c.val) = 1 ∧
        (s.fld (TIM_CAP_CFG_EDGE c.val) = 2 ∨ s.fld (TIM_CAP_CFG_EDGE c.val) = (if rising then 0 else 1)) ∧
        x.last = some t0 ∧ sinceNs s.now t0 < 20) ∧
    (∃ (c : Fin 4) (s : State) (r : CapRec) (rest : List CapRec), (s.capture c.val).fifo = r :: rest ∧
        rest.length < 16) ∧
    (∃ (c : Fin 4) (s : State), (s.capture c.val).fifo = []) :=
  ⟨⟨1, atNs (((({ (base) with time := { fn := .running, tb := [(5, 0x123456789ABCDEF0F0F0F0F0), (7, 0xFFFFFFFFFFFFFFFFFFFFFFFF)] } } : State)).wr (TIM_TB_STEP_LO 1) 0xFFFFFFFF).setF (TIM_TB_CFG_STEPS 1) 65535) 1000000,
    by decide +kernel⟩,
   ⟨0, atNs (((({ (base) with time := { fn := .running, tb := [(5, 0x123456789ABCDEF0F0F0F0F0), (7, 0xFFFFFFFFFFFFFFFFFFFFFFFF)] } } : State)).wr (TIM_TB_STEP_LO 0) 0xFFFFFFFF).setF (TIM_TB_CFG_STEPS 0) 65535) 1000000,
     by decide +kernel⟩,
   ⟨atNs (({ (base) with time := { fn := .running, tb := [(5, 0x123456789ABCDEF0F0F0F0F0), (7, 0xFFFFFFFFFFFFFFFFFFFFFFFF)] } } : State)) 1000000, mSCP,
     by decide +kernel⟩,
   ⟨1, atNs ((({ (base) with time := { fn := .running, tb := [(5, 0x123456789ABCDEF0F0F0F0F0), (7, 0xFFFFFFFFFFFFFFFFFFFFFFFF)] } } : State)).setF (TIM_TB_CFG_FOLLOW 7) 5) 1000000,
     by decide +kernel⟩,
   ⟨0, atNs (({ (base) with time := { fn := .running, tb := [(5, 0x123456789ABCDEF0F0F0F0F0), (7, 0xFFFFFFFFFFFFFFFFFFFFFFFF)] } } : State)) 1000000, mHIP,
     by decide +kernel⟩,
   ⟨7, 0x100, atNs ((((({ (base) with time := { fn := .running, tb := [(5, 0x123456789ABCDEF0F0F0F0F0), (7, 0xFFFFFFFFFFFFFFFFFFFFFFFF)] } } : State)).wr (TIM_PO_CFG 7) 0).wr (TIM_PO_START_LO 7) 0x20000).wr (TIM_PO_PERIOD 7) 100) 1000000,
     by decide +kernel⟩,
   ⟨0, atNs ((((({ (base) with time := { fn := .running, tb := [(5, 0x123456789ABCDEF0F0F0F0F0), (7, 0xFFFFFFFFFFFFFFFFFFFFFFFF)], pulses := [(7, { active := true, level := true })] } } : State)).wr (TIM_PO_CFG 7) 0x105).wr (TIM_PO_START_LO 7) 0x20000).wr (TIM_PO_PERIOD 7) 100) 1000000,
     by decide +kernel⟩,
   ⟨7, atNs (((((({ (base) with time := { fn := .running, tb := [(3, 0x20000 * 4294967296), (5, 0x123456789ABCDEF0F0F0F0F0), (7, 0xFFFFFFFFFFFFFFFFFFFFFFFF)], pulses := [(7, {})] } } : State)).wr (TIM_PO_CFG 7) 0x103).wr (TIM_PO_START_LO 7) 0x20000).wr (TIM_PO_PERIOD 7) 0).wr (TIM_PO_START_HI 7) 0) 1000000,
     by decide +kernel⟩,
   ⟨7, atNs (((((({ (base) with time := { fn := .running, tb := [(3, (0x20000 + 3000 * 65536) * 4294967296), (5, 0x123456789ABCDEF0F0F0F0F0), (7, 0xFFFFFFFFFFFFFFFFFFFFFFFF)], pulses := [(7, { k := 2 })] } } : State)).wr (TIM_PO_CFG 7) 0x103).wr (TIM_PO_START_LO 7) 0x20000).wr (TIM_PO_PERIOD 7) 100).wr (TIM_PO_MISSED 7) 0xFFFFFFFE) 1000000, 31,
     by decide +kernel⟩,
   ⟨7, atNs ((((({ (base) with time := { fn := .running, tb := [(3, 0x20000 * 4294967296), (5, 0x123456789ABCDEF0F0F0F0F0), (7, 0xFFFFFFFFFFFFFFFFFFFFFFFF)], pulses := [(7, { active := true, endAt := 0x20000, k := 2 })] } } : State)).wr (TIM_PO_CFG 7) 0x103).wr (TIM_PO_START_LO 7) 0x20000).wr (TIM_PO_PERIOD 7) 100) 1000000,
     by decide +kernel⟩,
   ⟨3, true, ({ fifo := List.replicate 15 ⟨0x123456789ABCDEF0, 0x9999999988888888, true⟩, gap := true, last := some 1000000 } : CaptureSt), atNs ((({ (base) with time := { fn := .running, tb := [(5, 0x123456789ABCDEF0F0F0F0F0), (7, 0xFFFFFFFFFFFFFFFFFFFFFFFF)], caps := [(3, ({ fifo := List.replicate 15 ⟨0x123456789ABCDEF0, 0x9999999988888888, true⟩, gap := true, last := some 1000000 } : CaptureSt))] } } : State)).wr (TIM_CAP_CFG 3) 0xd) 1000020,
     by decide +kernel, by decide +kernel, by decide +kernel, by decide +kernel,
     by intro t0 h; (cases h <;> decide +kernel), by decide +kernel⟩,
   ⟨3, true, ({ fifo := List.replicate 16 ⟨0x123456789ABCDEF0, 0x9999999988888888, true⟩, last := some 1000000 } : CaptureSt), atNs ((({ (base) with time := { fn := .running, tb := [(5, 0x123456789ABCDEF0F0F0F0F0), (7, 0xFFFFFFFFFFFFFFFFFFFFFFFF)], caps := [(3, ({ fifo := List.replicate 16 ⟨0x123456789ABCDEF0, 0x9999999988888888, true⟩, last := some 1000000 } : CaptureSt))] } } : State)).wr (TIM_CAP_CFG 3) 0x2d) 1000020,
     by decide +kernel, by decide +kernel, by decide +kernel, by decide +kernel,
     by intro t0 h; (cases h <;> decide +kernel), by decide +kernel⟩,
   ⟨3, true, ({ fifo := List.replicate 15 ⟨0x123456789ABCDEF0, 0x9999999988888888, true⟩, last := some 1000000 } : CaptureSt), atNs ((({ (base) with time := { fn := .running, tb := [(5, 0x123456789ABCDEF0F0F0F0F0), (7, 0xFFFFFFFFFFFFFFFFFFFFFFFF)], caps := [(3, ({ fifo := List.replicate 15 ⟨0x123456789ABCDEF0, 0x9999999988888888, true⟩, last := some 1000000 } : CaptureSt))] } } : State)).wr (TIM_CAP_CFG 3) 0x2d) 1000019, 1000000,
     by decide +kernel⟩,
   ⟨3, atNs (({ (base) with time := { fn := .running, tb := [(5, 0x123456789ABCDEF0F0F0F0F0), (7, 0xFFFFFFFFFFFFFFFFFFFFFFFF)], caps := [(3, { fifo := [⟨0x123456789ABCDEF0, 0x9999999988888888, true⟩] })] } } : State)) 1000000, (⟨0x123456789ABCDEF0, 0x9999999988888888, true⟩ : CapRec), ([] : List CapRec),
     by decide +kernel⟩,
   ⟨3, atNs (({ (base) with time := { fn := .running, tb := [(5, 0x123456789ABCDEF0F0F0F0F0), (7, 0xFFFFFFFFFFFFFFFFFFFFFFFF)] } } : State)) 1000000,
     by decide +kernel⟩⟩

theorem witness_EthernetSwitch :
    (∃ (p : Fin 7) (s : State), (s.port p.val).up = false) ∧
    (∃ (p : Fin 7) (fr : EthFrame) (v : Option (Fin 8)) (s : State) (r : Nat), (s.port p.val).up = true ∧
        ((fr.fcsOk = false ∧ r = 0) ∨ (fr.fcsOk = true ∧ (fr.vlan = 0 ∨ 4094 < fr.vlan) ∧ r = 2) ∨ (fr.fcsOk = true ∧
        1 ≤ fr.vlan ∧ fr.vlan ≤ 4094 ∧ ∃ x, v = some x ∧ r = x.val))) ∧
    (∃ (p : Fin 7) (fr : EthFrame) (s : State), (s.port p.val).up = true ∧ fr.fcsOk = true ∧ 1 ≤ fr.vlan ∧
        fr.vlan ≤ 4094 ∧ fr.udpPort.any s.jxsPort = false ∧ s.ackDatagram fr = false ∧ reservedMac fr.dst = false ∧
        fr.dst ≠ Config.macAddress ∧ ptpEvent fr = none ∧ unicast fr.dst = false ∧ (∃ k < 7, k ≠ p.val ∧
        (s.port k).up = true)) ∧
    (∃ (p : Fin 7) (fr : EthFrame) (s : State) (e : BitVec 48 × Nat × Nat), (s.port p.val).up = true ∧
        fr.fcsOk = true ∧ 1 ≤ fr.vlan ∧ fr.vlan ≤ 4094 ∧ fr.udpPort.any s.jxsPort = false ∧ s.ackDatagram fr = false ∧
        reservedMac fr.dst = false ∧ fr.dst ≠ Config.macAddress ∧ ptpEvent fr = none ∧ unicast fr.dst = true ∧
        fr.src ≠ fr.dst ∧ (s.eth.mac.find? fun e => e.1 = fr.dst && e.2.1 = fr.vlan) = some e ∧ e.2.2 < 7 ∧
        e.2.2 ≠ p.val ∧ (s.port e.2.2).up = true) ∧
    (∃ (p : Fin 7) (fr : EthFrame) (i : PtpInfo) (s : State), (s.port p.val).up = true ∧ fr.fcsOk = true ∧
        1 ≤ fr.vlan ∧ fr.vlan ≤ 4094 ∧ ptpEvent fr = some i) ∧
    (∃ (p : Fin 7) (tc : Fin 8) (s : State), ((∃ c < 8, tc.val < c ∧
        s.canStart p.val c ≠ .none) ∨ s.canStart p.val tc.val = .none)) ∧
    (∃ (p : Fin 7) (tc : Fin 8) (s : State) (q : QFrame), (∀ c < 8, tc.val < c → s.canStart p.val c = .none) ∧
        ((s.port p.val).queue.find? fun x => x.tc = tc.val) = some q ∧ s.canStart p.val tc.val = .whole) ∧
    (∃ (p : Fin 7) (tc : Fin 8) (s : State) (q : QFrame), (∀ c < 8, tc.val < c → s.canStart p.val c = .none) ∧
        ((s.port p.val).queue.find? fun x => x.tc = tc.val) = some q ∧ s.canStart p.val tc.val = .fragment ∧
        q.held = true) ∧
    (∃ (p : Fin 7) (x : PortSt) (e : Nat × Nat × Nat) (s : State), x = s.port p.val ∧
        x.oper[(x.gclIdx + 1) % x.oper.length]? = some e ∧
        passedNs 0 (s.tbNs (gateBaseOf p.val)) x.gateClose = true) ∧
    (∃ (p : Fin 7) (x : PortSt) (e : Nat × Nat × Nat) (s : State), x = s.port p.val ∧ x.waiting = true ∧
        passedNs 0 (s.tbNs (gateBaseOf p.val)) x.configAt = true ∧ (s.gclAdmin p.val)[0]? = some e) :=
  ⟨⟨4, (ethRun {} (base)), by decide +kernel⟩,
   ⟨5, ({ ethFrame 0x010000000009 none false with fcsOk := false } : EthFrame), (none : Option (Fin 8)), ((ethRun {} (base))).wr (ETH_DROP 5 0) 0xFFFFFFFE, (0 : Nat),
     by decide +kernel⟩,
   ⟨5, (ethFrame (otherMac 0x010000000009 0x010000000008) none false : EthFrame), (ethRun {} (base)),
     by decide +kernel, by decide +kernel, by decide +kernel, by decide +kernel, by decide +kernel,
     by decide +kernel, by unfold ethFrame otherMac; split <;> decide +kernel, otherMac_ne _ _ (by decide),
     by decide +kernel, by unfold ethFrame otherMac; split <;> decide +kernel, by decide +kernel⟩,
   ⟨5, (ethFrame (otherMac 0x020000000009 0x020000000007) none false : EthFrame), (let s := (ethRun {} (base)); { s with eth := { s.eth with mac := s.eth.mac ++ [(otherMac 0x020000000009 0x020000000007, 4094, 6)] } } : State), (((otherMac 0x020000000009 0x020000000007), 4094, 6) : BitVec 48 × Nat × Nat),
     by decide +kernel, by decide +kernel, by decide +kernel, by decide +kernel, by decide +kernel,
     by decide +kernel, by unfold ethFrame otherMac; split <;> decide +kernel, otherMac_ne _ _ (by decide),
     by decide +kernel, by unfold ethFrame otherMac; split <;> decide +kernel,
     by unfold ethFrame otherMac; split <;> decide +kernel, by unfold ethFrame otherMac; split <;> decide +kernel,
     by decide +kernel⟩,
   ⟨5, (ethFrame 0x010000000009 (some ({ domain := 4, type := .sync, transport := .ethernet, correction := 0xFFFFFFFFFFFFFFF0 } : PtpInfo)) false : EthFrame), ({ domain := 4, type := .sync, transport := .ethernet, correction := 0xFFFFFFFFFFFFFFF0 } : PtpInfo), (((ethRun {} (base))).wr ETH_DOM_MAP 0xFF000084).wr ETH_PTP_CFG 0xB9,
     by decide +kernel⟩,
   ⟨5, 3, (ethRun {} (base)), by decide +kernel⟩,
   ⟨5, 3, (((ethRun { queue := [(⟨7, 4, (ethFrame 0x010000000009 none false : EthFrame), 77, none, false, 1000⟩ : QFrame), (⟨3, 4, (ethFrame 0x010000000009 (some ({ domain := 127, type := .sync, transport := .ethernet, correction := 0xFFFFFFFFFFFFFFF0 } : PtpInfo)) false : EthFrame), 77, (some 0xFFFFFFFFFFFFFF00), false, 1000⟩ : QFrame)], gates := 0x7F } (base))).wr ETH_DOM_MAP 0xFF000084).wr ETH_PTP_CFG 0x40, (⟨3, 4, (ethFrame 0x010000000009 (some ({ domain := 127, type := .sync, transport := .ethernet, correction := 0xFFFFFFFFFFFFFFF0 } : PtpInfo)) false : EthFrame), 77, (some 0xFFFFFFFFFFFFFF00), false, 1000⟩ : QFrame),
     by decide +kernel⟩,
   ⟨5, 3, (ethRun { queue := [(⟨7, 4, (ethFrame 0x010000000009 none false : EthFrame), 77, none, false, 1000⟩ : QFrame), (⟨3, 4, (ethFrame 0x010000000009 none true : EthFrame), 77, none, true, 1000⟩ : QFrame)], gates := 0x7F, oper := [(8, 0, 300), (0, 0, 50)], gateClose := 250 } (base)), (⟨3, 4, (ethFrame 0x010000000009 none true : EthFrame), 77, none, true, 1000⟩ : QFrame),
     by decide +kernel⟩,
   ⟨5, ({ up := true, oper := [(8, 0, 300), (1, 2, 50)], gateClose := 0, gclIdx := 0, hold := true } : PortSt), (1, 2, 50), (ethRun { oper := [(8, 0, 300), (1, 2, 50)], gateClose := 0, gclIdx := 0, hold := true } (base)),
     by decide +kernel⟩,
   ⟨5, ({ up := true, waiting := true, gclIdx := 4 } : PortSt), (0x81, 1, 8), ((((ethRun { waiting := true, gclIdx := 4 } (base))).wr (ETH_GCL_LO 5 0) 0x181).wr (ETH_GCL_HI 5 0) 8).wr (ETH_GCL_HI 5 1) 7,
     by decide +kernel⟩⟩

theorem witness_CanChannels :
    (∃ (src : Nat) (n : Fin 8) (v : Word) (s : State), (v.getLsbD 2 = false ∨ s.txb2Closed src n.val = false)) ∧
    (∃ (src : Nat) (n : Fin 8) (v : Word) (s : State), v.getLsbD 2 = true ∧ src ≠ mSFP ∧
        s.safety.params.msgCh = n.val) ∧
    (∃ (n : Fin 8) (s : State), s.canOn n.val = true ∧ (s.can n.val).inFrame = false) ∧
    (∃ (n : Fin 8) (b : Nat) (s : State) (off : _), (s.can n.val).current = some b ∧ b < 3 ∧
        (b = 2 → s.safety.params.msgCh = n.val → s.safety.msgWait = none) ∧ CanRoom n.val off s) ∧
    (∃ (n : Fin 8) (fr : CanFrame) (s : State), s.canOn n.val = true ∧ (s.can n.val).inFrame = true ∧
        (s.can n.val).current = none ∧ s.fld (canREC n.val) ≤ 127 ∧ s.isRef n.val fr = false ∧
        s.canFilter n.val fr.id = none) ∧
    (∃ (n : Fin 8) (fr : CanFrame) (s : State) (off : _), s.canOn n.val = true ∧ (s.can n.val).inFrame = true ∧
        (s.can n.val).current = none ∧ s.fld (canREC n.val) ≤ 127 ∧ CanRoom n.val off s ∧
        (s.isRef n.val fr = true ∨ (s.canFilter n.val fr.id).isSome = true)) ∧
    (∃ (n : Fin 8) (s : State), (s.can n.val).fn = .running ∧ s.fld (canERRST n.val) ≠ canBusOff) ∧
    (∃ (n : Fin 8) (s : State), s.fld (canERRST n.val) = canBusOff ∧
        (s.flag (canAUTO_REC n.val) = true ∨ (s.can n.val).recover = true)) ∧
    (∃ (n : Fin 8) (s : State), s.fld (canERRST n.val) = canBusOff ∧ s.flag (canAUTO_REC n.val) = false ∧
        (s.can n.val).recover = false) ∧
    (∃ (s : State) (src : _), src ≠ mHIP) ∧
    (∃ (n : Fin 2) (s : State), s.refDue n.val = true) ∧
    (∃ (n : Fin 2) (s : State), (s.can n.val).fn = .running ∧ s.fld (ttcMODE n.val) = 1 ∧
        passedNs (3 * s.fld (ttcCYC_PER n.val) * 1000) (s.tbNs 5) (s.can n.val).refAt = true) ∧
    (∃ (n : Fin 8) (s : State), (s.can n.val).current = some 2 ∧ s.safety.params.msgCh = n.val ∧
        s.safety.msgWait.isSome = true) :=
  ⟨⟨17, 7, 0xFFFFFFFB, ((msgOn ((canRun 7 { current := some 1 } (at7 base 5000))) 7)).wr (CAN_TXABORT 7) 4,
    by decide +kernel⟩,
   ⟨17, 7, 7, (msgOn ((canRun 7 { current := some 1 } (at7 base 5000))) 7), by decide +kernel⟩,
   ⟨0, (canRun 0 { current := some 1 } (at7 base 5000)), by decide +kernel⟩,
   ⟨1, 2, (((canRun 1 { current := some 2, seq := 0xFFFFFFFF, wr := 64, gap := true, sof0 := 5, sof5 := 0x123456789ABCDEF, inFrame := true } (at7 base 5000))).wr (CAN_RING_RD 1) 1).wr (CAN_STAT 1) 0x01800001, 0x20000,
     by unfold CanRoom FabricQuiet; decide +kernel⟩,
   ⟨7, ({ ide := false, fdf := true, brs := false, esi := true, rtr := false, dlc := 2, id := 0x7F, data := [0x7F, 2] } : CanFrame), (let s := ((canRun 7 { inFrame := true, seq := 0xFFFFFFFF, wr := 64, gap := true, sof0 := 5, sof5 := 0x123456789ABCDEF } (at7 base 5000))).wr (CAN_STAT 7) 0x007F0000; (List.range 32).foldl (fun s f => (s.wr (CAN_FILT_MASK 7 f) 0x1FFFFFFF).wr (CAN_FILT_ID 7 f) (BitVec.ofNat 32 (0x100 + f))) s : State),
     by decide +kernel⟩,
   ⟨7, ({ ide := false, fdf := true, brs := false, esi := true, rtr := false, dlc := 2, id := 0x11F, data := [0x7F, 2] } : CanFrame), (let s := (((canRun 7 { inFrame := true, seq := 0xFFFFFFFF, wr := 64, gap := true, sof0 := 5, sof5 := 0x123456789ABCDEF } (at7 base 5000))).wr (CAN_RING_RD 7) 1).wr (CAN_STAT 7) 0x00010000; (List.range 32).foldl (fun s f => (s.wr (CAN_FILT_MASK 7 f) 0x1FFFFFFF).wr (CAN_FILT_ID 7 f) (BitVec.ofNat 32 (0x100 + f))) s : State), 0x20000,
     by unfold CanRoom FabricQuiet; decide +kernel⟩,
   ⟨7, (((canRun 7 { current := some 1 } (at7 base 5000))).wr (CAN_TXABORT 7) 2).wr (CAN_STAT 7) 0x01FF00FF,
     by decide +kernel⟩,
   ⟨7, (((canRun 7 { current := none } (at7 base 5000))).wr (CAN_STAT 7) 0x02000100).wr (CAN_CTL 7) 0x8,
     by decide +kernel⟩,
   ⟨7, (((canRun 7 { current := none } (at7 base 5000))).wr (CAN_CTL 7) 0).wr (CAN_STAT 7) 0x02000100,
     by decide +kernel⟩,
   ⟨(((canRun 7 { current := none } (at7 base 5000))).wr (CAN_CTL 7) 0).wr (CAN_STAT 7) 0x02000100, mSCP,
     by decide +kernel⟩,
   ⟨1, at5 ((((canRun 1 { cycCnt := 63, lastRef := 0x123456789ABCDEF, seq := 3, wr := 2 } (at7 base 5000))).wr (CAN_TTC 1) 0xffff7ffa).wr (CAN_NBT 1) 0) 65535000,
     by decide +kernel⟩,
   ⟨1, at5 (((canRun 1 { refAt := 7 } (at7 base 5000))).wr (CAN_TTC 1) 0x3e80001) 3000007, by decide +kernel⟩,
   ⟨7, { ((canRun 7 { current := some 2, inFrame := true } (at7 base 5000))) with safety := { params := { msgCh := 7, msgId := 0x7FF }, msgWait := some [1, 2, 3, 4, 5, 6, 7, 8, 9, 10, 11, 12, 13, 14, 15, 16] } },
     by decide +kernel⟩⟩

theorem witness_PairLink :
    (∃ (s : State), s.pair.startVia = none) ∧
    (∃ (ports : BitVec 2) (s : State) (v : Via) (c : HostCmd), s.pair.startVia = some v ∧ (∀ x, v ≠ .reg x) ∧
        s.hipUp = true ∧ s.cmdVia v = some c ∧ s.plkMode = 1 ∧ s.ownChip = 0 ∧
        (ports.getLsbD 0 = true ∨ ports.getLsbD 1 = true) ∧ s.flag (plkUp 0) = false ∧ s.flag (plkUp 1) = false) ∧
    (∃ (ports : BitVec 2) (s : State) (v : Via), s.pair.startVia = some v ∧ s.plkMode = 1 ∧ ports = 0 ∧
        s.flag (plkUp 0) = false ∧ s.flag (plkUp 1) = false) ∧
    (∃ (k : Fin 2) (s : State), s.flag (plkUp k.val) = true) ∧
    (∃ (k : Fin 2) (s : State), s.flag (plkUp k.val) = true ∧ kget 0 s.pair.replays k.val < 16) ∧
    (∃ (k : Fin 2) (s : State), s.flag (plkUp k.val) = true ∧ 16 ≤ kget 0 s.pair.replays k.val) ∧
    (∃ (k : Fin 2) (s : State), s.flag (plkUp k.val) = true ∧ s.plkMode = 1 ∧ s.flag (plkUp (1 - k.val)) = true ∧
        (∀ n, (s.bead n).stall = none)) ∧
    (∃ (k : Fin 2) (p : Package) (s : State), PairRuns p s ∧ p.safety = true ∧ s.flag (plkUp k.val) = true ∧
        s.flag (plkUp (1 - k.val)) = false ∧ (∀ n, (s.bead n).stall = none) ∧ s.fld SAF_STATUS_STATE = safNORMAL ∧
        s.procState 1 = procRUN) ∧
    (∃ (k : Fin 2) (s : State) (n : Fin 4096) (b : BeadSt) (r : RemoteLoad) (c : Nat), s.flag (plkUp k.val) = true ∧
        s.plkMode = 1 ∧ s.flag (plkUp (1 - k.val)) = true ∧ s.beads = [(n.val, b)] ∧ b.stall = some r ∧
        s.target n.val r.addr = .remote c ∧ s.fld plkInUse = k.val) ∧
    (∃ (p : Package) (s : State), ∃ c, c = (s.hbNext) ∧ PairRuns p s ∧ s.scpUp = true ∧
        reached 32 s.model.cycle.toNat c.toNat = true ∧ s.cycleDone p (c - 1) = true) ∧
    (∃ (p : Package) (s : State), ∃ c, c = (s.hbNext) ∧ PairRuns p s ∧ s.scpUp = true ∧
        (reached 32 s.model.cycle.toNat c.toNat = false ∨ s.cycleDone p (c - 1) = false)) ∧
    (∃ (chip : Fin 16) (cyc : Word) (p : Package) (lag : Nat) (s : State), PairRuns p s ∧ p.nchips = 2 ∧
        chip.val < 2 ∧ s.ownChip < 2 ∧ chip.val ≠ s.ownChip ∧ (chip.val, cyc) ∉ s.pair.hbFrom ∧
        lag = (if reached 32 s.model.cycle.toNat cyc.toNat = true then s.sinceBoundary cyc else 0) ∧ lag < 2 ^ 32) ∧
    (∃ (p : Package) (s : State), PairRuns p s ∧ s.model.stopping = false ∧ p.safety = true ∧
        s.fld SAF_STATUS_STATE = safNORMAL ∧ s.procState 1 = procRUN ∧ (s.linked = false ∨ (∃ j, j < 32 ∧
        reached 32 (s.model.cycle - 1 - BitVec.ofNat 32 j).toNat s.model.firstCycle.toNat = true ∧
        s.hbHeld p (s.model.cycle - 1 - BitVec.ofNat 32 j) = false ∧
        s.major + s.safety.params.skewUs * 1000 ≤ s.sinceBoundary (s.model.cycle - 1 - BitVec.ofNat 32 j)))) ∧
    (∃ (p : Package) (s : State), PairRuns p s ∧ s.model.stopping = false ∧ s.linked = true ∧
        (∀ j, j < 32 → reached 32 (s.model.cycle - 1 - BitVec.ofNat 32 j).toNat s.model.firstCycle.toNat = true → s.hbHeld p (s.model.cycle - 1 - BitVec.ofNat 32 j) = true)) ∧
    (∃ (net : Fin 64) (cyc : Word) (n : Net) (s : State), s.netOf net.val = some n ∧ s.pairChecked = true ∧
        s.pair.fn = .running ∧
        (s.safety.jobs.find? fun j => j.net = n.net && j.cyc = cyc && j.verdict = some 0) = none) ∧
    (∃ (net : Fin 64) (cyc : Word) (sig : BitVec 64) (n : Net) (s : State) (j : HmkJob), s.netOf net.val = some n ∧
        s.pairChecked = true ∧ s.pair.fn = .running ∧
        (s.safety.jobs.find? fun j => j.net = n.net && j.cyc = cyc && j.verdict = some 0) = some j ∧
        j.sigA = some sig ∧ n.net = net.val) ∧
    (∃ (s : State), (s.plkMode = 0 ∨ s.pair.fn ≠ .running)) ∧
    (∃ (s : State), s.plkMode ≠ 0 ∧ s.pair.fn = .running ∧ s.fld SAF_STATUS_STATE = safNORMAL ∧
        s.procState 1 = procRUN) ∧
    (∃ (d : Fin 50) (dom : Nat) (s : State), s.plkMode ≠ 0 ∧ s.pair.fn = .running ∧ s.flag PLK_CFG_EQUALISE = true ∧
        dom < 50 ∧ ((d.val < 32 ∧ dom = s.physFacet d.val) ∨ (34 ≤ d.val ∧ dom = d.val))) :=
  ⟨⟨(pairRun ({ hmkPkg with pair := true, safety := true, nchips := 2 } : Package) 257 3 {} safUp (axRun axRUNNING { vel := -9, pwmL := [(0, true)] })),
    by decide +kernel⟩,
   ⟨1, (let s := ((hostRun base (cmdBy (.mbx 15) opFN_START fPAIR [] [])).wr PLK_CFG 1); { s with pair := { fn := .config, startVia := some (.mbx 15) } } : State), (Via.mbx 15 : Via), (cmdBy (.mbx 15) opFN_START fPAIR [] [] : HostCmd),
     by decide +kernel, (by intro k h; cases h), by decide +kernel⟩,
   ⟨0, (let s := ((hostRun base (cmdBy (.mbx 15) opFN_START fPAIR [] [])).wr PLK_CFG 1); { s with pair := { fn := .config, startVia := some (.mbx 15) } } : State), (Via.mbx 15 : Via),
     by decide +kernel⟩,
   ⟨0, (pairRun ({ hmkPkg with pair := true, safety := true, nchips := 2 } : Package) 257 3 { replays := [(0, 16), (1, 16)] } safUp (axRun axRUNNING { vel := -9, pwmL := [(0, true)] })),
     by decide +kernel⟩,
   ⟨0, (pairRun ({ hmkPkg with pair := true, safety := true, nchips := 2 } : Package) 257 3 { replays := [(0, 15), (1, 15)] } safUp (axRun axRUNNING { vel := -9, pwmL := [(0, true)] })),
     by decide +kernel⟩,
   ⟨0, (pairRun ({ hmkPkg with pair := true, safety := true, nchips := 2 } : Package) 257 3 { replays := [(0, 16), (1, 16)] } safUp (axRun axRUNNING { vel := -9, pwmL := [(0, true)] })),
     by decide +kernel⟩,
   ⟨0, ((pairRun ({ hmkPkg with pair := true, safety := true, nchips := 2 } : Package) 257 3 {} safUp (axRun axRUNNING { vel := -9, pwmL := [(0, true)] }))),
     by decide +kernel, by decide +kernel, by decide +kernel, by intro n; exact stall_none _ (by decide +kernel) n⟩,
   ⟨0, ({ hmkPkg with pair := true, safety := true, nchips := 2 } : Package), ((pairRun ({ hmkPkg with pair := true, safety := true, nchips := 2 } : Package) 257 1 {} safUp (axRun axRUNNING { vel := -9, pwmL := [(0, true)] }))).setF SAF_STATUS_STATE safNORMAL,
     by unfold PairRuns; decide +kernel, by decide +kernel, by decide +kernel, by decide +kernel,
     by intro n; exact stall_none _ (by decide +kernel) n, by decide +kernel⟩,
   ⟨0, ({ ((pairRun ({ hmkPkg with pair := true, safety := true, nchips := 2 } : Package) 257 3 {} safUp (axRun axRUNNING { vel := -9, pwmL := [(0, true)] }))).setF (BEAD_STATUS_STATE 4095) bdRUNNING with beads := [(4095, ({ pc := 4, x := [(3, 4)], stall := some { addr := 0x0001000040000000, op := .read 4, len := 4, signed := true, rd := 5, fp := false, ilen := 4, waiting := false } } : BeadSt))] } : State), 4095, ({ pc := 4, x := [(3, 4)], stall := some { addr := 0x0001000040000000, op := .read 4, len := 4, signed := true, rd := 5, fp := false, ilen := 4, waiting := false } } : BeadSt), ({ addr := 0x0001000040000000, op := .read 4, len := 4, signed := true, rd := 5, fp := false, ilen := 4, waiting := false } : RemoteLoad), 1,
     by decide +kernel⟩,
   ⟨({ hmkPkg with pair := true, safety := true, nchips := 2 } : Package), (let s := (pairRun ({ hmkPkg with pair := true, safety := true, nchips := 2 } : Package) 257 3 {} safUp (axRun axRUNNING { vel := -9, pwmL := [(0, true)] })); { s with model := { s.model with firstCycle := 7 } } : State), _, rfl,
     by unfold PairRuns; decide +kernel⟩,
   ⟨({ hmkPkg with pair := true, safety := true, nchips := 2 } : Package), (let s := (pairRun ({ hmkPkg with pair := true, safety := true, nchips := 2 } : Package) 257 3 { hbSent := some 6 } safUp (axRun axRUNNING { vel := -9, pwmL := [(0, true)] })); { s with model := { s.model with insts := [{ win := 0, cyc := 6 }] } } : State), _, rfl,
     by unfold PairRuns; decide +kernel⟩,
   ⟨1, 7, ({ hmkPkg with pair := true, safety := true, nchips := 2 } : Package), 50001, at7 (((pairRun ({ hmkPkg with pair := true, safety := true, nchips := 2 } : Package) 257 3 { hbFrom := [(1, 5)] } safUp (axRun axRUNNING { vel := -9, pwmL := [(0, true)] }))).wr PLK_LAG_MAX 60000) 50001,
     by unfold PairRuns; decide +kernel⟩,
   ⟨({ hmkPkg with pair := true, safety := true, nchips := 2 } : Package), ((pairRun ({ hmkPkg with pair := true, safety := true, nchips := 2 } : Package) 257 0 {} safUp (axRun axRUNNING { vel := -9, pwmL := [(0, true)] }))).setF SAF_STATUS_STATE safNORMAL,
     by unfold PairRuns; decide +kernel⟩,
   ⟨({ hmkPkg with pair := true, safety := true, nchips := 2 } : Package), (let s := at7 ((pairRun ({ hmkPkg with pair := true, safety := true, nchips := 2 } : Package) 257 2 { hbFrom := [(1, 6)] } safUp (axRun axRUNNING { vel := -9, pwmL := [(0, true)] }))) 99000; { s with model := { s.model with firstCycle := 6 } } : State),
     by unfold PairRuns; decide +kernel⟩,
   ⟨63, 7, (hmkNet : Net), (pairRun ({ hmkPkg with pair := true, safety := true, nchips := 2 } : Package) 257 3 {} { safUp with jobs := [{ net := 63, cyc := 7, sigA := some 0x55, verdict := none }], cross := [(63, 7, 9)] } (axRun axRUNNING { vel := -9, pwmL := [(0, true)] })),
     by decide +kernel⟩,
   ⟨63, 7, 0x55, (hmkNet : Net), (pairRun ({ hmkPkg with pair := true, safety := true, nchips := 2 } : Package) 257 3 {} { safUp with jobs := [({ net := 63, cyc := 7, sigA := some 0x55, verdict := some 0 } : HmkJob)], cross := [(63, 7, 9), (62, 7, 8)] } (axRun axRUNNING { vel := -9, pwmL := [(0, true)] })), ({ net := 63, cyc := 7, sigA := some 0x55, verdict := some 0 } : HmkJob),
     by decide +kernel⟩,
   ⟨(pairRun ({ hmkPkg with pair := true, safety := true, nchips := 2 } : Package) 0 3 {} safUp (axRun axRUNNING { vel := -9, pwmL := [(0, true)] })),
     by decide +kernel⟩,
   ⟨((pairRun ({ hmkPkg with pair := true, safety := true, nchips := 2 } : Package) 2 3 {} safUp (axRun axRUNNING { vel := -9, pwmL := [(0, true)] }))).setF SAF_STATUS_STATE safNORMAL,
     by decide +kernel⟩,
   ⟨49, 49, ((((pairRun ({ hmkPkg with pair := true, safety := true, nchips := 2 } : Package) 257 3 {} safUp (axRun axRUNNING { vel := -9, pwmL := [(0, true)] }))).setF PLK_CFG_EQUALISE 1).wr PWR_CFG 0xFFFFFFFF).wr (PWR_DOM_STAT 49) 0xFFFFFFFF,
     by decide +kernel⟩⟩

theorem witness_PowerControl :
    (∃ (f : Nat × Nat) (b : Nat × Nat) (c : Nat × Nat) (uw : Nat) (mw : Nat) (s : State), s.host.rings = [] ∧
        f.1 < 2 ^ 32 ∧ f.2 < 2 ^ 32 ∧ b.1 < 2 ^ 32 ∧ b.2 < 2 ^ 32 ∧ c.1 < 2 ^ 32 ∧ c.2 < 2 ^ 32 ∧
        uw = f.1 * f.2 + b.1 * b.2 + c.1 * c.2 + (((List.range 6).map fun i => (s.rd (PWR_RAIL_MV (3 + i))).toNat * (s.rd (PWR_RAIL_MA (3 + i))).toNat).sum) ∧
        mw = uw / 1000 ∧ mw < 2 ^ 32) ∧
    (∃ (rails : List (Nat × Nat)) (s : State), rails.length = 6 ∧ (∀ x ∈ rails, x.1 < 2 ^ 32 ∧ x.2 < 2 ^ 32)) ∧
    (∃ (n : Fin 56) (temp : Int) (s : State), kget false s.power.sensors n.val = false ∧ -128 ≤ temp ∧ temp ≤ 127 ∧
        temp < (if Config.gradeXT then 130 else 115)) ∧
    (∃ (n : Fin 56) (temp : Int) (s : State), kget false s.power.sensors n.val = false ∧ s.host.rings = [] ∧
        (if Config.gradeXT then 130 else 115) ≤ temp ∧ temp < (if Config.gradeXT then 140 else 125)) ∧
    (∃ (n : Fin 56) (temp : Int) (t0 : Nat) (s : State), s.power.sensors = [(n.val, true)] ∧ -128 ≤ temp ∧
        temp < (if Config.gradeXT then 125 else 110) ∧ s.power.cool.lookup n.val = some t0 ∧
        1000000 ≤ sinceNs s.now t0) ∧
    (∃ (temp : Int) (s : State), (if Config.gradeXT then 140 else 125) ≤ temp ∧ s.power.shutdown = none ∧
        s.fld SAF_STATUS_STATE = safNORMAL) ∧
    (∃ (s : State), s.fld SAF_STATUS_STATE = safNORMAL) ∧
    (∃ (t0 : Nat) (s : State), s.power.shutdown = some t0 ∧ s.power.offAll = false ∧ 100000 ≤ sinceNs s.now t0) ∧
    (∃ (s : State), s.host.rings = []) ∧
    (∃ (d : Fin 50) (s : State), (s.dom d.val).raising = true) ∧
    (∃ (d : Fin 50) (s : State), (s.dom d.val).raising = false) ∧
    (∃ (src : Nat) (d : Fin 50) (v : Word) (s : State), (src = mSCP ∨ src = mHIP) ∧ v.getLsbD 0 = true ∧
        s.fld (PWR_DOM_STAT_PSTATE d.val) = 0) ∧
    (∃ (src : Nat) (d : Fin 50) (v : Word) (s : State), (src = mSCP ∨ src = mHIP) ∧ v.getLsbD 0 = false ∧
        s.fld (PWR_DOM_STAT_PSTATE d.val) ≠ 0 ∧ d.val < 34 ∧ (∀ f, f < 32 → s.physFacet f ≠ d.val)) ∧
    (∃ (src : Nat) (d : Fin 50) (v : Word) (s : State), (src = mSCP ∨ src = mHIP) ∧ v.getLsbD 0 = false ∧
        s.fld (PWR_DOM_STAT_PSTATE d.val) ≠ 0 ∧ 34 ≤ d.val) ∧
    (∃ (src : Nat) (s : State), src ≠ mSCP ∧ src ≠ mHIP) ∧
    (∃ (d : Fin 50) (s : State), s.fld (PWR_DOM_STAT_PSTATE d.val) = 2) ∧
    (∃ (d : Fin 50) (s : State), s.fld (PWR_DOM_STAT_PSTATE d.val) ≠ 2) :=
  ⟨⟨(800, 140001), (700, 45001), (600, 3), 143503335, 143503, (((({ (safRun safUp) with power := { hist := List.replicate 200 100000, doms := [(7, { swNext := 3, work := 1 }), (8, { short := 1 })] } } : State)).wr (PWR_RAIL_MV 8) 5).wr (PWR_RAIL_MA 8) 7).setF PWR_CFG_CAP 90,
    by decide +kernel⟩,
   ⟨([(1, 2), (3, 4), (5, 6), (7, 8), (9, 10), (0xFFFFFFFF, 12)] : List (Nat × Nat)), ({ (safRun safUp) with power := { under := 0 } } : State),
     by decide +kernel⟩,
   ⟨55, (100 : Int), ({ (safRun safUp) with power := { under := 0 } } : State), by decide +kernel, by decide +kernel,
     by decide +kernel, by cases h : Config.gradeXT <;> simp⟩,
   ⟨55, (if Config.gradeXT then 130 else 115 : Int), ({ (safRun safUp) with power := { under := 0 } } : State),
     by decide +kernel, by decide +kernel, by cases h : Config.gradeXT <;> simp,
     by cases h : Config.gradeXT <;> simp⟩,
   ⟨55, (100 : Int), 5, atNs (({ (safRun safUp) with power := { sensors := [(55, true)], cool := [(55, 5)], doms := (List.range 50).map fun d => (d, { temp := 1 }) } } : State)) 1000005,
     by decide +kernel, by decide +kernel, by cases h : Config.gradeXT <;> simp, by decide +kernel⟩,
   ⟨(if Config.gradeXT then 140 else 125 : Int), (({ (safRun safUp) with power := { under := 0 } } : State)).setF SAF_STATUS_STATE safNORMAL,
     by cases h : Config.gradeXT <;> simp, by decide +kernel⟩,
   ⟨(({ (safRun safUp) with power := { under := 0 } } : State)).setF SAF_STATUS_STATE safNORMAL, by decide +kernel⟩,
   ⟨5, atNs (({ (safRun safUp) with power := { shutdown := some 5 } } : State)) 100005, by decide +kernel⟩,
   ⟨({ (safRun safUp) with power := { doms := [(49, { halved := true, short := 3 }), (3, { short := 1 })] } } : State),
     by decide +kernel⟩,
   ⟨49, (({ (safRun safUp) with power := { doms := [(49, { raising := true })] } } : State)).wr (PWR_DOM_STAT 49) 0xFFFFFFFF,
     by decide +kernel⟩,
   ⟨0, ({ (safRun safUp) with power := { under := 0 } } : State), by decide +kernel⟩,
   ⟨mSCP, 49, 0xFFFFFFFF, (({ (safRun safUp) with power := { under := 0 } } : State)).setF (PWR_DOM_STAT_PSTATE 49) 0,
     by decide +kernel⟩,
   ⟨mSCP, 33, 0xFFFFFFFE, (let s := (({ (safRun safUp) with power := { under := 0 } } : State)).setF (PWR_DOM_STAT_PSTATE 33) 1; { s with mems := { s.mems with fom := { cells := [(33 * 0x200000, 1), (34 * 0x200000 - 1, 2)] } } } : State),
     by decide +kernel⟩,
   ⟨mSCP, 49, 0, (({ (safRun safUp) with power := { under := 0 } } : State)).setF (PWR_DOM_STAT_PSTATE 49) 2,
     by decide +kernel⟩,
   ⟨mSFP, ({ (safRun safUp) with power := { under := 0 } } : State), by decide +kernel⟩,
   ⟨49, ((({ (safRun safUp) with power := { under := 0 } } : State)).setF (PWR_DOM_STAT_PSTATE 49) 2).setF (FAC_STATUS_STATE 4) facOFF,
     by decide +kernel⟩,
   ⟨49, ({ (safRun safUp) with power := { under := 0 } } : State), by decide +kernel⟩⟩

theorem witness_ResetsAndBoot :
    (∃ (s : State), s.reset_.boot = .held ∧ s.reset_.lastKind = 0) ∧
    (∃ (s : State), s.reset_.boot ≠ .held) ∧
    (∃ (low : Nat) (s : State), (¬ (s.reset_.boot = .held ∧ s.reset_.lastKind = 0)) ∧ 10000 ≤ low) ∧
    (∃ (low : Nat) (s : State), (¬ (s.reset_.boot = .held ∧ s.reset_.lastKind = 0)) ∧ low < 1000) ∧
    (∃ (s : State), s.reset_.boot = .held ∧ s.reset_.lastKind = 1) ∧
    (∃ (src : Nat) (v : Word) (s : State), (src = mPCIe ∨ src = mHIP) ∧ s.inStandby = false ∧
        s.hostStalls src = false ∧ s.reset_.boot ≠ .held ∧ v.toNat / 65536 = 0xD5E5 ∧ v.getLsbD 0 = true ∧
        ((∀ a < 16, s.axState a ≠ axRUNNING) ∨ s.fld SAF_STATUS_STATE = safSAFE)) ∧
    (∃ (src : Nat) (v : Word) (s : State), (src = mPCIe ∨ src = mHIP) ∧ s.inStandby = false ∧
        s.hostStalls src = false ∧ s.reset_.boot ≠ .held ∧ v.toNat / 65536 = 0xD5E5 ∧ v.getLsbD 0 = true ∧
        (∃ a < 16, s.axState a = axRUNNING) ∧ s.fld SAF_STATUS_STATE ≠ safSAFE) ∧
    (∃ (src : Nat) (v : Word) (s : State), (src = mPCIe ∨ src = mHIP) ∧ s.inStandby = false ∧
        s.hostStalls src = false ∧ s.reset_.boot ≠ .held ∧ v.toNat / 65536 ≠ 0xD5E5) ∧
    (∃ (s : State), s.reset_.boot = .nvm ∧ s.host.goOrder = [] ∧
        ((∃ k x n a b c, s.loadDevice.bootSlot = some (k, x, false, some n) ∧ x.images = [a, b, c]))) ∧
    (∃ (s : State), s.reset_.boot = .starting ∧ s.reset_.ddrTrained = false) ∧
    (∃ (s : State), s.reset_.boot = .starting ∧ s.reset_.ddrTrained = true ∧ s.reset_.checksDone = true ∧
        s.hipUp = true ∧ s.commitInForce = none ∧ s.reset_.badRecords = [] ∧ s.host.goOrder = []) ∧
    (∃ (word : Nat) (s : State), s.reset_.ddrTrained = true ∧
        8 * word < ((s.rd DDR_SIZE).toNat + (s.rd DDR_STAGE).toNat) * 2 ^ 20 ∧ s.mems.ddr.bad word = false) :=
  ⟨⟨(let s := base; { s with reset_ := { s.reset_ with boot := .held, lastKind := 0 } } : State), by decide +kernel⟩,
   ⟨(let s := legRun {} [] base; { s with reset_ := { s.reset_ with boot := .ready } } : State), by decide +kernel⟩,
   ⟨10000, (let s := ({ (axRun axRUNNING { vel := -9, pwmL := [(0, true)] }) with pending := [(.pcieLinkUp ⟨4, 4⟩ {}), .lockoutEnd], host := { verMin := 7, pci := { maxPayload := 256 } }, elogLost := 3 } : State); { s with reset_ := { s.reset_ with boot := .ready } } : State),
     by decide +kernel⟩,
   ⟨999, (let s := ({ (axRun axRUNNING { vel := -9, pwmL := [(0, true)] }) with pending := [(.pcieLinkUp ⟨4, 4⟩ {}), .lockoutEnd], host := { verMin := 7, pci := { maxPayload := 256 } }, elogLost := 3 } : State); { s with reset_ := { s.reset_ with boot := .ready } } : State),
     by decide +kernel⟩,
   ⟨(let s := legRun {} [] base; { s with reset_ := { s.reset_ with boot := .held, lastKind := 1 } } : State),
     by decide +kernel⟩,
   ⟨mPCIe, 0xD5E50001, ((let s := ({ (axRun axRUNNING { vel := -9, pwmL := [(0, true)] }) with pending := [(.pcieLinkUp ⟨4, 4⟩ {}), .lockoutEnd], host := { verMin := 7, pci := { maxPayload := 256 } }, elogLost := 3 } : State); { s with reset_ := { s.reset_ with boot := .ready } } : State)).setF SAF_STATUS_STATE safSAFE,
     by decide +kernel⟩,
   ⟨mPCIe, 0xD5E50001, (let s := ({ (axRun axRUNNING { vel := -9, pwmL := [(0, true)] }) with pending := [(.pcieLinkUp ⟨4, 4⟩ {}), .lockoutEnd], host := { verMin := 7, pci := { maxPayload := 256 } }, elogLost := 3 } : State); { s with reset_ := { s.reset_ with boot := .ready } } : State),
     by decide +kernel, by decide +kernel, by decide +kernel, by decide +kernel, by decide +kernel,
     by decide +kernel, ⟨15, by decide, by decide +kernel⟩, by decide +kernel⟩,
   ⟨mPCIe, 0xD5E40001, (let s := ({ (axRun axRUNNING { vel := -9, pwmL := [(0, true)] }) with pending := [(.pcieLinkUp ⟨4, 4⟩ {}), .lockoutEnd], host := { verMin := 7, pci := { maxPayload := 256 } }, elogLost := 3 } : State); { s with reset_ := { s.reset_ with boot := .ready } } : State),
     by decide +kernel⟩,
   ⟨bootSt, by decide +kernel, by decide +kernel, ⟨0, slotOk, 0, _, _, _, bootSt_loaded, rfl⟩⟩,
   ⟨((let s := base; { s with reset_ := { s.reset_ with boot := .starting, ddrTrained := false } } : State)).wr DDR_POP 3,
     by decide +kernel⟩,
   ⟨({ base.setF (GLB_PROC_STAT_STATE 2) procRUN with reset_ := { base.reset_ with boot := .starting, ddrTrained := true, checksDone := true } } : State),
     by decide +kernel, by decide +kernel, by decide +kernel,
     by decide +kernel, State.commitInForce_unwritten (by decide) rfl, by decide +kernel⟩,
   ⟨469762047, (let s := (base.wr DDR_SIZE 3072).wr DDR_STAGE 512; { s with reset_ := { s.reset_ with ddrTrained := true } } : State),
     by decide +kernel⟩⟩

theorem witness_LowPowerStates :
    (∃ (src : Nat) (s : State), s.lpState = lpACTIVE ∧ s.inStandby = false ∧ s.hostStalls src = false ∧
        s.lpAllowed 1 = true) ∧
    (∃ (src : Nat) (s : State), s.lpState = lpACTIVE ∧ s.inStandby = false ∧ s.hostStalls src = false ∧
        s.lpAllowed 1 = false) ∧
    (∃ (src : Nat) (s : State), s.lpState = lpACTIVE ∧ s.inStandby = false ∧ s.hostStalls src = false ∧
        s.lpAllowed 2 = true) ∧
    (∃ (src : Nat) (s : State), s.lpState = lpACTIVE ∧ s.inStandby = false ∧ s.hostStalls src = false ∧
        s.lpAllowed 2 = false) ∧
    (∃ (src : Nat) (s : State), s.lpState = lpACTIVE ∧ s.inStandby = false ∧ s.hostStalls src = false ∧
        s.lpAllowed 3 = true) ∧
    (∃ (src : Nat) (s : State), s.lpState = lpACTIVE ∧ s.inStandby = false ∧ s.hostStalls src = false ∧
        s.lpAllowed 3 = false) ∧
    (∃ (src : Nat) (s : State), src ≠ mPCIe ∧ (s.lpState = lpENTERING ∨ s.lpState = lpEXITING)) ∧
    (∃ (src : Nat) (s : State), src ≠ mPCIe ∧ (s.lpState = lpLIGHT ∨ s.lpState = lpSTANDBY)) ∧
    (∃ (req : Nat) (s : State), (req = lpLIGHT ∨ req = lpSTANDBY) ∧ s.reset_.lp = .entering req ∧
        s.reset_.wakeHeld = false) ∧
    (∃ (s : State), s.reset_.lp = .entering 3 ∧ s.reset_.wakeHeld = false) ∧
    (∃ (st : Nat) (s : State), s.reset_.lp = .exiting st ∧ s.reset_.heldHost = [] ∧ s.host.goOrder = [] ∧
        s.model.pkg = none ∧ (∀ d ∈ s.reset_.lpDoms, d < 50) ∧ (∀ b ∈ s.reset_.lpBanks, b < 256)) ∧
    (∃ (low : Nat) (s : State), 1000 ≤ low ∧ s.flag RCK_LP_WAKE_PIN = true ∧ s.reset_.lp ≠ .hibernate ∧
        (s.lpState = lpLIGHT ∨ s.lpState = lpSTANDBY)) ∧
    (∃ (s : State), s.flag RCK_LP_WAKE_TIME = true ∧
        reached 64 (s.tb64 0).toNat (s.rd64 RCK_WAKE_T_LO RCK_WAKE_T_HI).toNat = true ∧ s.reset_.lp ≠ .hibernate ∧
        (s.lpState = lpLIGHT ∨ s.lpState = lpSTANDBY)) ∧
    (∃ (low : Nat) (s : State), 1000 ≤ low ∧ s.flag RCK_LP_WAKE_PIN = true ∧ s.reset_.lp = .hibernate) ∧
    (∃ (low : Nat) (s : State), (low < 1000 ∨ s.flag RCK_LP_WAKE_PIN = false)) ∧
    (∃ (s : State), s.flag RCK_LP_WAKE_TIME = true ∧
        reached 64 (s.tb64 0).toNat (s.rd64 RCK_WAKE_T_LO RCK_WAKE_T_HI).toNat = true ∧ s.reset_.lp = .hibernate) ∧
    (∃ (s : State), s.flag RCK_LP_WAKE_TIME = false) :=
  ⟨⟨5, base, by decide +kernel⟩,
   ⟨mPCIe, ({ base with model := { base.model with fn := .config } } : State), by decide +kernel⟩,
   ⟨5, base, by decide +kernel⟩,
   ⟨mPCIe, ({ base with model := { base.model with fn := .config } } : State), by decide +kernel⟩,
   ⟨5, base, by decide +kernel⟩,
   ⟨mPCIe, ({ base with model := { base.model with fn := .config } } : State), by decide +kernel⟩,
   ⟨mSCP, base.setF RCK_LP_STATE lpENTERING, by decide +kernel⟩,
   ⟨mHIP, base.setF RCK_LP_STATE lpLIGHT, by decide +kernel⟩,
   ⟨lpLIGHT, ((({ (axRun axSTOPPED { vel := -9, pwmL := [(0, true)] }) with reset_ := { lp := .entering lpLIGHT } } : State).setF RCK_LP_STATE lpENTERING).setF (MM_STATUS_STATE 7) bankOFF).setF (MM_STATUS_STATE 248) bankRET,
     by decide +kernel⟩,
   ⟨({ ({ (axRun axRUNNING { vel := -9, pwmL := [(0, true)] }) with pending := [(.pcieLinkUp ⟨4, 4⟩ {}), .lockoutEnd], host := { verMin := 7, pci := { maxPayload := 256 } }, elogLost := 3 } : State) with reset_ := { lp := .entering 3 } } : State),
     by decide +kernel⟩,
   ⟨lpLIGHT, (({ base with reset_ := { lp := .exiting lpLIGHT, lpDoms := [0, 49], lpBanks := List.range 248 } } : State).setF RCK_LP_STATE lpEXITING).setF (MM_STATUS_STATE 7) bankOFF,
     by decide +kernel⟩,
   ⟨1000, (base.setF RCK_LP_STATE lpLIGHT).setF RCK_LP_WAKE_PIN 1, by decide +kernel⟩,
   ⟨atNs (((base.setF RCK_LP_STATE lpLIGHT).setF RCK_LP_WAKE_TIME 1).wr RCK_WAKE_T_LO 0x50000) 5, by decide +kernel⟩,
   ⟨1000, ({ base.setF RCK_LP_WAKE_PIN 1 with reset_ := { lp := .hibernate, boot := .held, lastKind := 3 } } : State),
     by decide +kernel⟩,
   ⟨999, ({ base.setF RCK_LP_WAKE_PIN 1 with reset_ := { lp := .hibernate, boot := .held, lastKind := 3 } } : State),
     by decide +kernel⟩,
   ⟨atNs (({ base.setF RCK_LP_WAKE_TIME 1 with reset_ := { lp := .hibernate, boot := .held, lastKind := 3 } } : State)) 6,
     by decide +kernel⟩,
   ⟨atNs (({ base.setF RCK_LP_WAKE_PIN 1 with reset_ := { lp := .hibernate, boot := .held, lastKind := 3 } } : State)) 6,
     by decide +kernel⟩⟩

theorem witness_SecurityPort :
    (∃ (s : State), s.authOpen = true) ∧
    (∃ (s : State), s.authOpen = false) ∧
    (∃ (perm : Word) (r : BitVec 384) (s' : BitVec 384) (s : State), s.authOpen = true ∧
        s.dport.chal = some 0x1122334455667788990011223344556677889900aabbccddeeff001122334455 ∧
        s.flag ⟨SEC_KEY_STAT, 16, 1⟩ = true ∧
        ecdsaVerify s.sec.dbgX s.sec.dbgY (sha384 (s.authBytes 0x1122334455667788990011223344556677889900aabbccddeeff001122334455 perm)) r s' = true) ∧
    (∃ (s : State), s.dport.chal.isSome = true ∧ 10000000000 ≤ sinceNs s.now s.dport.chalAt) ∧
    (∃ (s : State), sinceNs s.now s.dport.chalAt < 10000000000) ∧
    (∃ (s : State) (t0 : _), s.dport.lockAt = some t0 ∧ 60000000000 ≤ sinceNs s.now t0) ∧
    (∃ (s : State) (t0 : _), s.dport.lockAt = some t0 ∧ sinceNs s.now t0 < 60000000000) ∧
    (∃ (b : BitVec 4) (s : State), s.permitted permLIFECYCLE = true ∧ lcStep s.fuseState b.toNat = true ∧
        s.host.store = none ∧ (b.toNat = lcPRODUCTION → s.flag ⟨SEC_KEY_STAT, 0, 1⟩ = true ∧
        s.flag ⟨SEC_KEY_STAT, 16, 1⟩ = true)) ∧
    (∃ (b : BitVec 4) (s : State), (s.permitted permLIFECYCLE = false ∨ lcStep s.fuseState b.toNat = false ∨ s.host.store.isSome = true)) ∧
    (∃ (slot : KeySlot) (s : State), s.permitted permKEYS = true ∧ s.flag ⟨SEC_KEY_STAT, keyBit slot, 1⟩ = false) ∧
    (∃ (slot : KeySlot) (s : State), (s.permitted permKEYS = false ∨ s.flag ⟨SEC_KEY_STAT, keyBit slot, 1⟩ = true)) ∧
    (∃ (slot : KeySlot) (s : State) (k : Fin 4), slot = .pub k ∧ s.permitted permKEYS = true ∧
        s.otherPub k.val = true) ∧
    (∃ (slot : KeySlot) (s : State) (k : Fin 4), slot = .pub k ∧ s.otherPub k.val = false) ∧
    (∃ (slot : KeySlot) (s : State) (k : Fin 4), slot = .aes k ∧ s.permitted permKEYS = true) ∧
    (∃ (s : State), (s.permitted permLIFECYCLE = true ∨ s.permitted permKEYS = true)) ∧
    (∃ (s : State), s.permitted permLIFECYCLE = false ∧ s.permitted permKEYS = false) ∧
    (∃ (slotB : Bool) (s : State), ((s.reset_.boot = .held ∧ s.reset_.lastKind = 0) ∨ (s.permitted permFLASH = true ∧
        s.flag GLB_FW_SET_SLOT ≠ slotB))) ∧
    (∃ (slotB : Bool) (s : State), s.reset_.boot ≠ .held ∧
        (s.permitted permFLASH = false ∨ s.flag GLB_FW_SET_SLOT = slotB)) ∧
    (∃ (s : State), s.permitted permBSCAN = true ∧
        (s.fld SAF_STATUS_STATE = safINIT ∨ s.fld SAF_STATUS_STATE = safSAFE)) ∧
    (∃ (s : State), (s.permitted permBSCAN = false ∨ (s.fld SAF_STATUS_STATE ≠ safINIT ∧
        s.fld SAF_STATUS_STATE ≠ safSAFE))) :=
  ⟨⟨(let s := safRun safUp; { s with dport := { chal := none, chalGen := 4 }, sec := { s.sec with aes := [] } } : State),
    by decide +kernel⟩,
   ⟨((let s := safRun safUp; { s with dport := { chal := none }, sec := { s.sec with aes := [] } } : State)).wr SEC_LC 15,
     by decide +kernel⟩,
   ⟨0x1A5, 0xdb7edc2823b26b667f9c727ed5c0909142e3904a43e3d8df95e0fc6f70d74014065d8e14fd1a529f182b87263dde1e7c, 0x4be402a034c388b51a3abd7f87b0ac0332528a8e438ca8795d01412384464382f3b05500fea857d27c6fd7c89528462f, ((((let s := safRun safUp; { s with dport := { chal := some 0x1122334455667788990011223344556677889900aabbccddeeff001122334455 }, sec := { s.sec with dbgX := 0xe2a6dec9d2b66068f44d66230316468f879062b0062f6e64c81263eef27c80980c2b9ddd0434c02bd5a3759b069920f, dbgY := 0x6b9f3967b78cd7e64532a1961333df2b0c0bb4935d975524971656187dc2513be780a0a11b855499043962c35f90b308 } } : State)).wr SEC_LC 4).setF authFAILS 0).wr (SEC_UID 3) 9 |>.wr (SEC_UID 1) 5 |>.wr (SEC_UID 2) 7 |>.wr (SEC_UID 0) 3 |>.wr SEC_KEY_STAT 0x1FFFF,
     by decide +kernel⟩,
   ⟨atNs ((let s := safRun safUp; { s with dport := { chal := some 5, chalAt := 7 }, sec := { s.sec with aes := [] } } : State)) 10000000007,
     by decide +kernel⟩,
   ⟨atNs ((let s := safRun safUp; { s with dport := { chal := some 5, chalAt := 7 }, sec := { s.sec with aes := [] } } : State)) 10000000006,
     by decide +kernel⟩,
   ⟨atNs (((let s := safRun safUp; { s with dport := { lockAt := some 7 }, sec := { s.sec with aes := [] } } : State)).wr DBG_AUTH_STAT 0x3800) 60000000007, 7,
     by decide +kernel⟩,
   ⟨atNs (((let s := safRun safUp; { s with dport := { lockAt := some 7 }, sec := { s.sec with aes := [] } } : State)).wr DBG_AUTH_STAT 0x3800) 60000000006, 7,
     by decide +kernel⟩,
   ⟨2, ((((let s := safRun safUp; { s with dport := { chal := none }, sec := { s.sec with aes := [(0, 5)] } } : State)).wr SEC_LC 1).wr DBG_AUTH_STAT 0xFFFFFFFF).wr SEC_KEY_STAT 0,
     by decide +kernel⟩,
   ⟨8, ((let s := safRun safUp; { s with dport := { chal := none }, sec := { s.sec with aes := [] } } : State)).wr SEC_LC 2,
     by decide +kernel⟩,
   ⟨((.pub 3) : KeySlot), ((let s := safRun safUp; { s with dport := { chal := none }, sec := { s.sec with aes := [] } } : State)).wr DBG_AUTH_STAT 0xFFFFFFFF,
     by decide +kernel⟩,
   ⟨((.dbg) : KeySlot), ((let s := safRun safUp; { s with dport := { chal := none }, sec := { s.sec with aes := [] } } : State)).wr SEC_KEY_STAT 0xFFFFFFFF,
     by decide +kernel⟩,
   ⟨(.pub 3 : KeySlot), ((let s := safRun safUp; { s with dport := { chal := none }, sec := { s.sec with aes := [] } } : State)).wr SEC_KEY_STAT 9, (3 : Fin 4),
     by decide +kernel⟩,
   ⟨(.pub 3 : KeySlot), ((let s := safRun safUp; { s with dport := { chal := none }, sec := { s.sec with aes := [] } } : State)).wr SEC_KEY_STAT 0x19, (3 : Fin 4),
     by decide +kernel⟩,
   ⟨(.aes 3 : KeySlot), ((let s := safRun safUp; { s with dport := { chal := none }, sec := { s.sec with aes := [] } } : State)).wr SEC_KEY_STAT 0x19, (3 : Fin 4),
     by decide +kernel⟩,
   ⟨(let s := safRun safUp; { s with dport := { chal := none }, sec := { s.sec with aes := [] } } : State),
     by decide +kernel⟩,
   ⟨(((let s := safRun safUp; { s with dport := { chal := none }, sec := { s.sec with aes := [] } } : State)).wr SEC_LC 4).wr DBG_AUTH_STAT 0x1FC000,
     by decide +kernel⟩,
   ⟨(true : Bool), ((let s := safRun safUp; { s with dport := { chal := none }, sec := { s.sec with aes := [] } } : State)).setF GLB_FW_SET_SLOT 0,
     by decide +kernel⟩,
   ⟨(true : Bool), (((let s := safRun safUp; { s with dport := { chal := none }, sec := { s.sec with aes := [] } } : State)).wr GLB_FW_SET 16777216).wr SEC_LC 1,
     by decide +kernel⟩,
   ⟨((let s := safRun safUp; { s with dport := { chal := none }, sec := { s.sec with aes := [] } } : State)).setF SAF_STATUS_STATE safSAFE,
     by decide +kernel⟩,
   ⟨((let s := safRun safUp; { s with dport := { ir := some .clamp }, sec := { s.sec with aes := [] } } : State)).setF SAF_STATUS_STATE safNORMAL,
     by decide +kernel⟩⟩

theorem witness_DebugFunctions :
    (∃ (g : DebugTarget) (k : Fin 6) (s : State), s.permitted (haltPerm g) = true ∧ MayHalt g s ∧
        k.val < pointCount g) ∧
    (∃ (g : DebugTarget) (s : State), s.permitted (haltPerm g) = false) ∧
    (∃ (g : DebugTarget) (k : Fin 6) (s : State), pointCount g ≤ k.val) ∧
    (∃ (g : DebugTarget) (s : State), g = .proc .sfp ∧ s.permitted permHALT_SFP = true ∧ s.procState 1 = procRUN ∧
        s.fld SAF_STATUS_STATE = safNORMAL) ∧
    (∃ (n : Fin 4096) (s : State), s.permitted permHALT_BEAD = true ∧ s.beadState n.val ≠ bdHALTED) ∧
    (∃ (n : Fin 4096) (s : State), s.permitted permHALT_BEAD = true ∧ s.beadState n.val = bdHALTED) ∧
    (∃ (p : Proc) (s : State), s.permitted (haltPerm (.proc p)) = true ∧ s.procState (procNo p) ≠ procHALTED) ∧
    (∃ (p : Proc) (s : State), s.permitted (haltPerm (.proc p)) = true ∧ s.procState (procNo p) = procHALTED) ∧
    (∃ (off : Nat) (n : Nat) (s : State), FabricQuiet s ∧ off < 0x8000000 ∧ lineOk off n = true ∧
        s.bankServes (off / 0x80000) = true ∧ syncArea off n = false ∧ s.permitted permMEM_READ = true ∧
        s.isSealed (aliasAddr 0x10000000 off) n = true) ∧
    (∃ (off : Nat) (n : Nat) (s : State), FabricQuiet s ∧ off < 0x8000000 ∧ lineOk off n = true ∧
        s.bankServes (off / 0x80000) = true ∧ syncArea off n = false ∧ s.permitted permMEM_READ = true ∧
        s.isSealed (aliasAddr 0x10000000 off) n = false) ∧
    (∃ (off : Nat) (n : Nat) (s : State), FabricQuiet s ∧ off < 0x8000000 ∧ lineOk off n = true ∧
        s.bankServes (off / 0x80000) = true ∧ syncArea off n = false ∧ s.permitted permMEM_READ = false) ∧
    (∃ (off : Nat) (n : Nat) (s : State) (d : List Byte), FabricQuiet s ∧ off < 0x8000000 ∧ lineOk off n = true ∧
        s.bankServes (off / 0x80000) = true ∧ syncArea off n = false ∧ d.length = n ∧
        s.permitted permMEM_WRITE = true ∧ s.mems.map.partBad 8 off n = false) ∧
    (∃ (off : Nat) (n : Nat) (s : State) (d : List Byte), FabricQuiet s ∧ off < 0x8000000 ∧ lineOk off n = true ∧
        s.bankServes (off / 0x80000) = true ∧ syncArea off n = false ∧ d.length = n ∧
        s.permitted permMEM_WRITE = false) ∧
    (∃ (off : Nat) (d : List Byte) (s : State), debugRefuses off = true ∧ off % 4 = 0 ∧ d.length = 4 ∧
        s.permitted permMEM_WRITE = true) :=
  ⟨⟨(.proc .sfp : DebugTarget), 5, ((((coreAt 4095 { pc := 4, x := [(3, 4)] } 4 [0x13, 0, 0, 0]).setF (GLB_PROC_STAT_STATE 0) procRUN)).setF (GLB_PROC_STAT_STATE 1) procRUN).setF SAF_STATUS_STATE safSAFE,
    by unfold MayHalt; decide +kernel⟩,
   ⟨(.proc .sfp : DebugTarget), (((((coreAt 4095 { pc := 4, x := [(3, 4)] } 4 [0x13, 0, 0, 0]).setF (GLB_PROC_STAT_STATE 0) procRUN)).setF (GLB_PROC_STAT_STATE 1) procRUN).setF SAF_STATUS_STATE safSAFE).wr SEC_LC 4,
     by decide +kernel⟩,
   ⟨(.bead 4095 : DebugTarget), 3, ((coreAt 4095 { pc := 4, x := [(3, 4)] } 4 [0x13, 0, 0, 0]).setF (GLB_PROC_STAT_STATE 0) procRUN),
     by decide +kernel⟩,
   ⟨(.proc .sfp : DebugTarget), ((((coreAt 4095 { pc := 4, x := [(3, 4)] } 4 [0x13, 0, 0, 0]).setF (GLB_PROC_STAT_STATE 0) procRUN)).setF (GLB_PROC_STAT_STATE 1) procRUN).setF SAF_STATUS_STATE safNORMAL,
     by decide +kernel⟩,
   ⟨4095, ((coreAt 4095 { pc := 4, x := [(3, 4)] } 4 [0x13, 0, 0, 0]).setF (GLB_PROC_STAT_STATE 0) procRUN),
     by decide +kernel⟩,
   ⟨4095, (((coreAt 4095 { pc := 4, x := [(3, 4)] } 4 [0x13, 0, 0, 0]).setF (GLB_PROC_STAT_STATE 0) procRUN)).setBeadState 4095 bdHALTED,
     by decide +kernel⟩,
   ⟨(.sfp : Proc), ((((coreAt 4095 { pc := 4, x := [(3, 4)] } 4 [0x13, 0, 0, 0]).setF (GLB_PROC_STAT_STATE 0) procRUN)).setF (GLB_PROC_STAT_STATE 1) procRESTART),
     by decide +kernel⟩,
   ⟨(.sfp : Proc), (let s := ((((coreAt 4095 { pc := 4, x := [(3, 4)] } 4 [0x13, 0, 0, 0]).setF (GLB_PROC_STAT_STATE 0) procRUN)).setF (GLB_PROC_STAT_STATE 1) procHALTED).setF SAF_STATUS_STATE safSAFE; { s with safety := { s.safety with ackHeld := true } } : State),
     by decide +kernel⟩,
   ⟨0x1ff0000, 16, (({ base with model := { base.model with pkg := some { encrypted := true, tensors := [(mapAt 0x1FF0000, [1, 2, 3])] } } } : State)).wr SEC_POLICY 4,
     by unfold FabricQuiet; decide +kernel⟩,
   ⟨0x1ff0003, 4, (({ base with model := { base.model with pkg := some { encrypted := true, tensors := [(mapAt 0x1FF0000, [1, 2, 3])] } } } : State)).wr SEC_POLICY 4,
     by unfold FabricQuiet; decide +kernel⟩,
   ⟨0x1FF0000, 16, base.wr SEC_LC 4, by unfold FabricQuiet; decide +kernel⟩,
   ⟨0x1FF0004, 4, base, ([1, 2, 3, 4] : List Byte), by unfold FabricQuiet; decide +kernel⟩,
   ⟨0x1FF0004, 4, base.wr SEC_LC 4, ([1, 2, 3, 4] : List Byte), by unfold FabricQuiet; decide +kernel⟩,
   ⟨0x4FFFC, ([1, 2, 3, 4] : List Byte), base, by decide +kernel⟩⟩

theorem witness_WrappingCounters :
    (∃ (w : Nat) (a : Nat) (b : Nat), 0 < w ∧ a < 2 ^ w ∧ b < 2 ^ w) ∧
    (∃ (src : Nat) (n : Fin 16384) (s : State), src ≠ mPCIe ∧ s.soBad n.val = false ∧
        (s.fab.waits.any fun w => w.src = src) = false) :=
  ⟨⟨4, 3, 11, by decide +kernel⟩,
   ⟨mSCP, 16383, base.soSet 0 16383 5, by decide +kernel⟩⟩

theorem witness_MapControlWriters :
    (∃ (src : Nat) (b : Fin 256) (v : Word) (s : State) (c : Instr), (src = mSCP ∨ src = mHIP) ∧
        (c = .csrWrite src (MM_CTL b.val) 0xF ⟨v, 0⟩ ∨ c = .bankReqOn src b ∨ c = .bankReqRetention src b ∨ c = .bankReqOff src b)) ∧
    (∃ (src : Nat) (b : Fin 256) (v : Word) (s : State) (c : Instr), src ≠ mSCP ∧ src ≠ mHIP ∧ s.inStandby = false ∧
        s.hostStalls src = false ∧
        (c = .csrWrite src (MM_CTL b.val) 0xF ⟨v, 0⟩ ∨ c = .bankReqOn src b ∨ c = .bankReqRetention src b ∨ c = .bankReqOff src b)) :=
  ⟨⟨mSCP, 255, 0xFFFFFFFE, base, (.csrWrite mSCP (MM_CTL 255) 0xF ⟨0xFFFFFFFE, 0⟩ : Instr), by decide +kernel⟩,
   ⟨5, 255, 0xFFFFFFFE, base, (.csrWrite 5 (MM_CTL 255) 0xF ⟨0xFFFFFFFE, 0⟩ : Instr), by decide +kernel⟩⟩

theorem witness_BeadRegisterWriters :
    (∃ (src : Nat) (off : Nat) (n : Fin 4096) (s : State), 0x400000 + 0x400 * n.val ≤ off ∧
        off < 0x400400 + 0x400 * n.val ∧ off % 4 = 0 ∧ (regAt off).isSome = true ∧ s.inStandby = false ∧
        s.hostStalls src = false ∧ src ≠ mSCP ∧ (src ≠ n.val ∨ beadScpOnly n.val off = true)) ∧
    (∃ (src : Nat) (off : Nat) (n : Fin 4096) (s : State), 0x400000 + 0x400 * n.val ≤ off ∧
        off < 0x400400 + 0x400 * n.val ∧ off % 4 = 0 ∧ (regAt off).isSome = true ∧ s.inStandby = false ∧
        s.hostStalls src = false ∧ (src = mSCP ∨ (src = n.val ∧ beadScpOnly n.val off = false))) ∧
    (∃ (src : Nat) (n : Fin 4096) (s : State) (c : Instr), src ≠ mSCP ∧ s.inStandby = false ∧
        (c = .beadStart src n ∨ c = .beadStop src n ∨ c = .yieldReq src n ∨ c = .beadResume src n)) :=
  ⟨⟨4095, BEAD_ENTRY 4095, 4095, base, by decide +kernel⟩,
   ⟨mSCP, BEAD_MOV_CTL 4095, 4095, base, by decide +kernel⟩,
   ⟨4095, 4095, base, (.beadStart 4095 4095 : Instr), by decide +kernel⟩⟩

theorem witness_WellFormedCommandsComplete :
    ∃ (c : Instr) (s : State), c.wf = true :=
  ⟨(.bankReqOn 5 255 : Instr), base, by decide +kernel⟩

end Sys2Proof.Tests
end

/-! PROOF. Wrapping counters are compared by signed difference (R8), and two of its uses: a WAIT on a sync
object (R146, R148) and WAKE_TIME (R370). -/

namespace Sys2Proof.Machine

/-! ### Two's-complement values -/

theorem signedN_of_lt {w d : Nat} (hd : d < 2 ^ w) :
    signedN w d = if d < 2 ^ (w - 1) then (d : Int) else (d : Int) - (2 ^ w : Nat) := by
  have hm : (d : Int) % 2 ^ w = d := by exact_mod_cast Nat.mod_eq_of_lt hd
  simp [signedN, Nat.mod_eq_of_lt hd, hm]

theorem signedN_congr {w n m : Nat} (h : n % 2 ^ w = m % 2 ^ w) : signedN w n = signedN w m := by
  have hi : (n : Int) % 2 ^ w = (m : Int) % 2 ^ w := by exact_mod_cast h
  simp only [signedN, h, hi]

theorem signedN_eq_zero_iff {w d : Nat} (hd : d < 2 ^ w) : signedN w d = 0 ↔ d = 0 := by
  have half : 0 < 2 ^ (w - 1) := by positivity
  rw [signedN_of_lt hd]
  split <;> omega

/-- Of the values of `w` bits those from 1 to below the half range read as positive. -/
theorem signedN_pos_iff {w d : Nat} (hd : d < 2 ^ w) : 0 < signedN w d ↔ 0 < d ∧ d < 2 ^ (w - 1) := by
  rw [signedN_of_lt hd]
  split <;> omega

/-! ### The difference of two counters (R8) -/

/-- Every counter value lies some distance below `2 ^ w` ahead of every other one. -/
theorem exists_counter_distance {w a b : Nat} (ha : a < 2 ^ w) (hb : b < 2 ^ w) :
    ∃ d, d < 2 ^ w ∧ a = (b + d) % 2 ^ w := by
  refine ⟨(a + 2 ^ w - b) % 2 ^ w, Nat.mod_lt _ (by positivity), ?_⟩
  rw [Nat.add_mod_mod, show b + (a + 2 ^ w - b) = a + 2 ^ w by omega, Nat.add_mod_right, Nat.mod_eq_of_lt ha]

/-- The difference of two counters is the distance between them, read as two's complement. -/
theorem diffC_add_mod {w b : Nat} (d : Nat) (hb : b < 2 ^ w) : diffC w ((b + d) % 2 ^ w) b = signedN w d := by
  apply signedN_congr
  rw [Nat.mod_eq_of_lt hb, Nat.add_sub_assoc hb.le, Nat.mod_add_mod,
    show b + d + (2 ^ w - b) = d + 2 ^ w by omega, Nat.add_mod_right]

theorem diffC_eq_zero_iff {w a b : Nat} (ha : a < 2 ^ w) (hb : b < 2 ^ w) : diffC w a b = 0 ↔ a = b := by
  constructor
  · intro h
    obtain ⟨d, hd, rfl⟩ := exists_counter_distance ha hb
    rw [diffC_add_mod d hb, signedN_eq_zero_iff hd] at h
    rw [h, Nat.add_zero, Nat.mod_eq_of_lt hb]
  · rintro rfl
    have h := diffC_add_mod 0 ha
    rwa [Nat.add_zero, Nat.mod_eq_of_lt ha, (signedN_eq_zero_iff (by positivity)).mpr rfl] at h

/-- A counter is later than another when it lies ahead of it by less than the half range. -/
theorem diffC_pos_iff {w a b : Nat} (ha : a < 2 ^ w) (hb : b < 2 ^ w) :
    0 < diffC w a b ↔ ∃ d, 0 < d ∧ d < 2 ^ (w - 1) ∧ a = (b + d) % 2 ^ w := by
  have half : 2 ^ (w - 1) ≤ 2 ^ w := Nat.pow_le_pow_right (by omega) (by omega)
  constructor
  · intro h
    obtain ⟨d, hd, rfl⟩ := exists_counter_distance ha hb
    rw [diffC_add_mod d hb, signedN_pos_iff hd] at h
    exact ⟨d, h.1, h.2, rfl⟩
  · rintro ⟨d, hpos, hlt, rfl⟩
    rw [diffC_add_mod d hb, signedN_pos_iff (by omega)]
    exact ⟨hpos, hlt⟩

theorem reached_iff {w a b : Nat} (ha : a < 2 ^ w) (hb : b < 2 ^ w) :
    reached w a b = true ↔ a = b ∨ 0 < diffC w a b := by
  rw [reached, decide_eq_true_iff, le_iff_eq_or_lt, eq_comm, diffC_eq_zero_iff ha hb]

/-- A counter has reached another when it lies ahead of it by less than the half range, or not at all. -/
theorem reached_iff_exists {w a b : Nat} (ha : a < 2 ^ w) (hb : b < 2 ^ w) :
    reached w a b = true ↔ ∃ d, d < 2 ^ (w - 1) ∧ a = (b + d) % 2 ^ w := by
  rw [reached_iff ha hb, diffC_pos_iff ha hb]
  constructor
  · rintro (rfl | ⟨d, -, hlt, h⟩)
    · exact ⟨0, by positivity, (Nat.mod_eq_of_lt hb).symm⟩
    · exact ⟨d, hlt, h⟩
  · rintro ⟨d, hlt, h⟩
    obtain rfl | hpos := d.eq_zero_or_pos
    · exact .inl (h.trans (Nat.mod_eq_of_lt hb))
    · exact .inr ⟨d, hpos, hlt, h⟩

/-! ### WAIT on a sync object -/

theorem soMet_iff (count target : Word) :
    soMet count target = true ↔ ∃ d, d < 2 ^ 31 ∧ count.toNat = (target.toNat + d) % 2 ^ 32 :=
  reached_iff_exists count.isLt target.isLt

theorem State.hostRead_of_ne {s : State} {src : Nat} (h : src ≠ mPCIe) (off : Nat) (f : State → State) :
    s.hostRead src off f = f s := by
  simp [State.hostRead, State.hostStalls, h]

/-- A WAIT without a timeout is answered at once, by whether the count has reached the target. -/
theorem State.soWait_zero_status {s : State} {src n : Nat} (v : Word) (hsrc : src ≠ mPCIe)
    (hbad : s.soBad n = false) (hw : (s.fab.waits.any fun w => w.src = src) = false) :
    (s.soWait src n v 0 false).reply.st = if soMet (s.so n) v = true then ST_OK else ST_WAIT_TIMEOUT := by
  by_cases hm : soMet (s.so n) v = true <;> simp [State.soWait, hsrc, hbad, hw, hm]

theorem exec_soWait_some (src : Nat) (n : Fin 16384) (v : Word) (tmo : BitVec 16) (s : State) :
    exec (.soWait src n (some (v, tmo))) s =
      .next (s.hostRead src (0x140000 + 4 * n.val) fun s => s.soWait src n.val v tmo.toNat false) := rfl

/-! ### WAKE_TIME -/

theorem State.wake_of_light {s : State} (h : s.lpState = lpLIGHT) :
    s.wake = { s.setF RCK_LP_STATE lpEXITING with reset_ := { s.reset_ with lp := .exiting s.lpState } } := by
  simp [State.wake, h]

theorem State.wakeEvent_of_not_hibernate {s : State} (h : s.reset_.lp ≠ .hibernate) : s.wakeEvent = s.wake := by
  simp [State.wakeEvent, h]

/-- WAKE_TIME acts once TB0 has reached RCK_WAKE_T. -/
theorem exec_wakeTime_of_flag {s : State} (hf : s.flag RCK_LP_WAKE_TIME = true) :
    exec .wakeTime s = .next
      (if reached 64 (s.tb64 0).toNat (s.rd64 RCK_WAKE_T_LO RCK_WAKE_T_HI).toNat = true then s.wakeEvent else s) := by
  change execWakeTime s = _
  rw [execWakeTime, hf, Bool.true_and]
  split <;> rfl

end Sys2Proof.Machine

namespace Sys2Proof

open Sys2Proof.Machine

/-- Settles O57: by the distance between the counters, which the difference reads as two's complement. -/
theorem wrappingCounters : Obligations.WrappingCounters := by
  refine ⟨fun w a b _ ha hb => ⟨diffC_pos_iff ha hb, diffC_eq_zero_iff ha hb, reached_iff ha hb⟩, ?_, ?_⟩
  · intro src n v s hsrc hbad hw
    refine ⟨_, exec_soWait_some src n v 0 s, ?_⟩
    rw [State.hostRead_of_ne hsrc]
    simpa only [soMet_iff, BitVec.ofNat_eq_ofNat, BitVec.toNat_zero] using State.soWait_zero_status v hsrc hbad hw
  · intro s hlp hlight hflag later
    have hlater : reached 64 (s.tb64 0).toNat (s.rd64 RCK_WAKE_T_LO RCK_WAKE_T_HI).toNat = true ↔ later :=
      reached_iff_exists (BitVec.isLt _) (BitVec.isLt _)
    refine ⟨fun h => ⟨_, exec_wakeTime_of_flag hflag, ?_⟩, fun h => ⟨_, exec_wakeTime_of_flag hflag, ?_⟩⟩
    · rw [if_pos (hlater.mpr h), State.wakeEvent_of_not_hibernate hlp, State.wake_of_light hlight]
      exact ⟨s.fld_setF_same RCK_LP_STATE lpEXITING (by decide), rfl⟩
    · rw [if_neg (mt hlater.mp h)]

end Sys2Proof

/-! PROOF. The address map: requests in a quiet fabric (R20–R22, R136–R142), the BAR2 window (R24, R25) and register
writes and reads (R31–R33). -/

namespace Sys2Proof

open Sys2Proof.Machine

/-! ### What the frames say of the shared updates -/

theorem SameBytes.of_mems {s t : State} (h : t.mems = s.mems) : SameBytes s t := by
  intro sp a
  cases sp <;> simp only [State.mem, h]

theorem SameBytes.trans {s t u : State} (h : SameBytes s t) (k : SameBytes t u) : SameBytes s u := fun sp a =>
  (k sp a).trans (h sp a)

theorem SameUnits.trans {s t u : State} (h : SameUnits s t) (k : SameUnits t u) : SameUnits s u := by
  obtain ⟨hf, hb, ha, hc, hh⟩ := h
  obtain ⟨kf, kb, ka, kc, kh⟩ := k
  exact ⟨kf.trans hf, kb.trans hb, ka.trans ha, kc.trans hc, kh.trans hh⟩

section Log

variable {s t : State} {chg : Nat → Prop} {st : St} {src ev aux : Nat} {a : BitVec 64} {r : Reply}

theorem SameBytes.log (h : SameBytes s t) : SameBytes s (t.log st src ev aux a) := fun sp x =>
  (SameBytes.of_mems (t.log_mems st src ev aux a) sp x).trans (h sp x)

theorem SameUnits.log (h : SameUnits s t) : SameUnits s (t.log st src ev aux a) := by
  simpa only [SameUnits, State.log_facets, State.log_beads, State.log_axes, State.log_cams, State.log_health] using h

theorem OnlyRegs.log (h : OnlyRegs chg s t) : OnlyRegs chg s (t.log st src ev aux a) := fun o ho hc =>
  (t.log_rd st src ev aux a o ho).trans (h o ho hc)

theorem SameBytes.answer (h : SameBytes s t) {d : List Byte} : SameBytes s (t.answer st d) := h

theorem SameUnits.answer (h : SameUnits s t) {d : List Byte} : SameUnits s (t.answer st d) := h

theorem OnlyRegs.answer (h : OnlyRegs chg s t) {d : List Byte} : OnlyRegs chg s (t.answer st d) := h

theorem FabricQuiet.log (h : FabricQuiet s) : FabricQuiet (s.log st src ev aux a) := by
  simpa only [FabricQuiet, State.log_fab, State.log_reset] using h

theorem SameBytes.replied (h : SameBytes s t) : SameBytes s (t.replied src a r) :=
  ite_cases (P := SameBytes s) h (SameBytes.log (t := { t with reply := r }) h)

theorem SameUnits.replied (h : SameUnits s t) : SameUnits s (t.replied src a r) :=
  ite_cases (P := SameUnits s) h (SameUnits.log (t := { t with reply := r }) h)

theorem OnlyRegs.replied (h : OnlyRegs chg s t) : OnlyRegs chg s (t.replied src a r) :=
  ite_cases (P := OnlyRegs chg s) h (OnlyRegs.log (t := { t with reply := r }) h)

theorem FabricQuiet.replied (h : FabricQuiet s) : FabricQuiet (s.replied src a r) :=
  ite_cases (P := FabricQuiet) h (FabricQuiet.log (s := { s with reply := r }) h)

end Log

end Sys2Proof

namespace Sys2Proof.Machine

@[simp] theorem State.replied_reply (s : State) (src : Nat) (a : BitVec 64) (r : Reply) :
    (s.replied src a r).reply = r :=
  ite_cases (P := fun t : State => t.reply = r) rfl (State.log_reply ..)

@[simp] theorem State.replied_mems (s : State) (src : Nat) (a : BitVec 64) (r : Reply) :
    (s.replied src a r).mems = s.mems :=
  ite_cases (P := fun t : State => t.mems = s.mems) rfl (State.log_mems ..)

theorem State.replied_rd (s : State) (src : Nat) (a : BitVec 64) (r : Reply) {o : Nat} (h : elogReg o = false) :
    (s.replied src a r).rd o = s.rd o :=
  OnlyRegs.replied (chg := fun _ => False) (fun _ _ _ => rfl) o h id

/-- An answer changes the reply and the log. -/
theorem State.replied_frame (s : State) (src : Nat) (a : BitVec 64) (r : Reply) :
    let t := s.replied src a r
    SameBytes s t ∧ SameUnits s t ∧ OnlyRegs (fun _ => False) s t :=
  ⟨.replied fun _ _ => rfl, .replied ⟨rfl, rfl, rfl, rfl, rfl⟩, .replied fun _ _ _ => rfl⟩

/-- In a quiet fabric no request waits. -/
theorem State.mustWait_of_quiet {s : State} (h : FabricQuiet s) (src : Nat) (a : BitVec 64) (op : ReqOp) :
    s.mustWait src a op = false := by
  obtain ⟨hclasps, hraised, -⟩ := h
  unfold State.mustWait
  split <;> simp [State.claspedFrom, State.claspOn, hclasps, hraised]

/-- Where no clasp is open, no beat counts. -/
theorem State.claspBeat_of_none {s : State} (h : s.fab.clasps = []) (src : Nat) (r : Resource) :
    s.claspBeat src r = s := by
  have hf : ∀ f, s.fab.clasps.filterMap f = s.fab.clasps := by simp [h]
  simp only [State.claspBeat, hf]

/-- Where no request waits, none is served. -/
theorem State.serve_of_none {s : State} (h : s.fab.raised = []) (r : Resource) : s.serve r = s := by
  simp [State.serve, h]

/-- In a quiet fabric a request is performed as it arrives. -/
theorem State.request_of_quiet {s u : State} {src : Nat} {a : BitVec 64} {op : ReqOp} {r : Reply}
    (h : FabricQuiet s) (hp : s.perform src a op = (r, u)) (hu : FabricQuiet u) : s.request src a op = (r, u) := by
  obtain ⟨hclasps, hraised, -⟩ := hu
  simp only [State.request, State.mustWait_of_quiet h, hp, Bool.false_eq_true, if_false]
  split
  · rfl
  · rw [State.claspBeat_of_none hclasps, State.serve_of_none hraised]

theorem State.memRequest_of_quiet {s u : State} {src : Nat} {a : BitVec 64} {op : ReqOp} {r : Reply}
    (h : FabricQuiet s) (hp : s.perform src a op = (r, u)) (hu : FabricQuiet u) :
    s.memRequest src a op = u.replied src a r := by
  simp only [State.memRequest, State.request_of_quiet h hp hu, State.mustWait_of_quiet h, Bool.false_eq_true, if_false]

/-- The endpoint holds nothing that a request could set free. -/
theorem State.hostFree_of_quiet {s : State} (h : FabricQuiet s) : s.hostFree = s := by
  obtain ⟨-, -, hheld⟩ := h
  simp [State.hostFree, hheld, State.hostDrain]

theorem State.hostStalls_of_quiet {s : State} (h : FabricQuiet s) (src : Nat) : s.hostStalls src = false := by
  obtain ⟨-, hraised, hheld⟩ := h
  simp [State.hostStalls, hraised, hheld]

/-! ### Addresses (R20, R21) -/

theorem aliasAddr_toNat {base ofs : Nat} (h : base + ofs < 2 ^ 48) :
    (aliasAddr base ofs).toNat = 0xFFFF * 2 ^ 48 + (base + ofs) := by
  rw [aliasAddr, BitVec.toNat_ofNat, Nat.add_assoc, Nat.mod_eq_of_lt (by omega)]

theorem lineOk_aliasAddr {base ofs n : Nat} (h : base + ofs < 2 ^ 48) (hb : base % 64 = 0) :
    lineOk (aliasAddr base ofs).toNat n = lineOk ofs n := by
  have hmod : (aliasAddr base ofs).toNat % 64 = ofs % 64 := by rw [aliasAddr_toNat h]; omega
  simp only [lineOk, hmod]

theorem lineOk_normal {off : Nat} (h : off < 0x8000000) (n : Nat) :
    lineOk (aliasAddr 0x10000000 off).toNat n = lineOk off n := lineOk_aliasAddr (by omega) (by decide)

/-- The own chip's name 0xFFFF leads to the local address. -/
theorem aliasAddr_chip_local {base ofs : Nat} (h : base + ofs < 2 ^ 48) :
    (aliasAddr base ofs).toNat / 2 ^ 48 = 0xFFFF ∧ (aliasAddr base ofs).toNat % 2 ^ 48 = base + ofs := by
  rw [aliasAddr_toNat h]
  omega

theorem State.target_normal (s : State) (src : Nat) {off : Nat} (h : off < 0x8000000) :
    s.target src (aliasAddr 0x10000000 off) = .map .normal off := by
  obtain ⟨hchip, hlocal⟩ := aliasAddr_chip_local (base := 0x10000000) (ofs := off) (by omega)
  simp only [State.target, hchip, hlocal]
  grind

theorem State.target_set (s : State) (src : Nat) {off : Nat} (h : off < 0x8000000) :
    s.target src (aliasAddr 0x20000000 off) = .map .set off := by
  obtain ⟨hchip, hlocal⟩ := aliasAddr_chip_local (base := 0x20000000) (ofs := off) (by omega)
  simp only [State.target, hchip, hlocal]
  grind

theorem State.target_clear (s : State) (src : Nat) {off : Nat} (h : off < 0x8000000) :
    s.target src (aliasAddr 0x30000000 off) = .map .clear off := by
  obtain ⟨hchip, hlocal⟩ := aliasAddr_chip_local (base := 0x30000000) (ofs := off) (by omega)
  simp only [State.target, hchip, hlocal]
  grind

theorem State.target_nvm (s : State) (src : Nat) {off : Nat} (h : off < 0x400000) :
    s.target src (aliasAddr 0x60000000 off) = .nvm off := by
  obtain ⟨hchip, hlocal⟩ := aliasAddr_chip_local (base := 0x60000000) (ofs := off) (by omega)
  simp only [State.target, hchip, hlocal]
  grind

/-! ### Map memory (R21, R136, R142, R398) -/

theorem Memory.partBad_of_not_anyBad {m : Memory} {w a n : Nat} (h : m.anyBad w a n = false) :
    m.partBad w a n = false := by
  simp only [Memory.anyBad, Memory.partBad, List.any_eq_false] at h ⊢
  intro k hk
  simp [h k hk]

/-- A write that covers every poisoned word it touches is applied (R398). -/
theorem Memory.store_of_not_partBad {m : Memory} {w a : Nat} {d : List Byte} (h : m.partBad w a d.length = false) :
    m.store w a d = some ((m.clean w a d.length).putBytes a d) := by
  simp [Memory.store, h]

theorem Memory.aliasBytes_length (m : Memory) (al : Alias) (off : Nat) (d : List Byte) :
    (aliasBytes al (m.bytes off d.length) d).length = d.length := by
  cases al <;> simp [aliasBytes]

/-- Map memory after a write of `d` through `al`. -/
def Memory.aliasStore (m : Memory) (al : Alias) (off : Nat) (d : List Byte) : Memory :=
  (m.clean 8 off d.length).putBytes off (aliasBytes al (m.bytes off d.length) d)

theorem Memory.aliasStore_bytes (m : Memory) (al : Alias) (off : Nat) (d : List Byte) :
    (m.aliasStore al off d).bytes off d.length = aliasBytes al (m.bytes off d.length) d := by
  conv_lhs => rw [← m.aliasBytes_length al off d]
  exact Memory.bytes_putBytes_same ..

theorem Memory.aliasStore_byte (m : Memory) (al : Alias) (off : Nat) (d : List Byte) {a : Nat}
    (h : ¬ (off ≤ a ∧ a < off + d.length)) : (m.aliasStore al off d).byte a = m.byte a := by
  rw [Memory.aliasStore, Memory.byte_putBytes, m.aliasBytes_length al off d, if_neg h, Memory.clean_byte]

/-- The state after a read of map memory that its bank serves: the grant, and what the read corrected. -/
def State.mapRead (s : State) (src : Nat) (al : Alias) (off : Nat) : State :=
  (s.granted (.bank (off / 0x80000)) src).corrected (.map al off)

/-- The state after a write of map memory that its bank serves. -/
def State.mapWritten (s : State) (src : Nat) (al : Alias) (off : Nat) (d : List Byte) : State :=
  (s.granted (.bank (off / 0x80000)) src).setMem .map (s.mems.map.aliasStore al off d)

section MapAccess

variable {s : State} {src : Nat} {a : BitVec 64} {al : Alias} {off : Nat}

theorem State.regionCheck_map (n : Nat) (write : Bool) (hs : syncArea off n = false) :
    s.regionCheck (.map al off) n write = ST_OK := by
  simp [State.regionCheck, hs]

theorem State.bankRefuses_map : s.bankRefuses (.map al off) = !s.bankServes (off / 0x80000) := rfl

theorem State.readAt_map {n : Nat} (ht : s.target src a = .map al off) (hb : s.bankServes (off / 0x80000) = true)
    (hs : syncArea off n = false) :
    s.readAt src a n = (⟨ST_OK, s.mems.map.bytes off n, s.mems.map.anyBad 8 off n⟩, s.mapRead src al off) := by
  rw [State.readAt, ht, State.regionCheck_map n false hs, if_neg (by simp), State.bankRefuses_map, hb, if_neg (by simp)]
  rfl

/-- A set or a clear reads the stored bytes, so it needs them clean. -/
theorem State.writeAt_map {d : List Byte} (e : BitVec 16) (ht : s.target src a = .map al off)
    (hb : s.bankServes (off / 0x80000) = true) (hs : syncArea off d.length = false)
    (hp : s.mems.map.partBad 8 off d.length = false)
    (hal : al ≠ .normal → s.mems.map.anyBad 8 off d.length = false) :
    s.writeAt src a d 0xFFFF e = (ST_OK, s.mapWritten src al off d) := by
  have hlen := s.mems.map.aliasBytes_length al off d
  have hclean : ¬ (decide (al ≠ .normal) && s.mems.map.anyBad 8 off d.length) = true := by
    simpa using hal
  have hstore := Memory.store_of_not_partBad (m := s.mems.map) (w := 8) (a := off)
    (d := aliasBytes al (s.mems.map.bytes off d.length) d) (by rw [hlen]; exact hp)
  rw [hlen] at hstore
  rw [State.writeAt, ht, State.regionCheck_map _ true hs, if_neg (by simp), State.bankRefuses_map, hb, if_neg (by simp)]
  refine (if_neg hclean).trans ?_
  change (match s.mems.map.store 8 off (aliasBytes al (s.mems.map.bytes off d.length) d) with
    | none => (ST_ECC_UNCORRECTED, s.granted (.bank (off / 0x80000)) src)
    | some m => (ST_OK, (s.granted (.bank (off / 0x80000)) src).setMem .map m)) = _
  rw [hstore]
  rfl

/-- A request that its region does not take is not applied (R20, R22). -/
theorem State.readAt_of_region {n : Nat} (h : s.regionCheck (s.target src a) n false ≠ ST_OK) :
    s.readAt src a n = (⟨s.regionCheck (s.target src a) n false, List.replicate n 0, false⟩, s) := if_pos h

theorem State.writeAt_of_region {d : List Byte} (w e : BitVec 16)
    (h : s.regionCheck (s.target src a) d.length true ≠ ST_OK) :
    s.writeAt src a d w e = (s.regionCheck (s.target src a) d.length true, s) := if_pos h

/-- A bank that serves no request counts those it refuses (R142). -/
theorem State.readAt_of_bank {n : Nat} (ht : s.target src a = .map al off)
    (hb : s.bankServes (off / 0x80000) = false) (hs : syncArea off n = false) :
    s.readAt src a n = (⟨ST_BANK_OFF, List.replicate n 0, false⟩, s.inc (MM_REJ (off / 0x80000))) := by
  simp [State.readAt, ht, State.regionCheck_map n false hs, State.bankRefuses_map, hb, State.countRej]

theorem State.writeAt_of_bank {d : List Byte} (w e : BitVec 16) (ht : s.target src a = .map al off)
    (hb : s.bankServes (off / 0x80000) = false) (hs : syncArea off d.length = false) :
    s.writeAt src a d w e = (ST_BANK_OFF, s.inc (MM_REJ (off / 0x80000))) := by
  simp [State.writeAt, ht, State.regionCheck_map _ true hs, State.bankRefuses_map, hb, State.countRej]

end MapAccess

/-! ### What an access to map memory leaves unchanged -/

section MapFrame

variable (s : State) (src : Nat) (al : Alias) (off : Nat) (d : List Byte)

theorem State.mapRead_units : SameUnits s (s.mapRead src al off) := ⟨rfl, rfl, rfl, rfl, rfl⟩

theorem State.mapRead_regs : OnlyRegs (fun o => o = MM_ECC (off / 0x80000)) s (s.mapRead src al off) := fun _ _ ho =>
  (State.rd_wr ..).trans (if_neg (Ne.symm ho))

/-- After a write of map memory only the written bytes and the round-robin pointer differ. -/
theorem State.mapWritten_frame :
    let t := s.mapWritten src al off d
    t.mems.map.bytes off d.length = aliasBytes al (s.mems.map.bytes off d.length) d ∧
      SameBytesBut .map off d.length s t ∧ SameUnits s t ∧ OnlyRegs (fun _ => False) s t := by
  refine ⟨s.mems.map.aliasStore_bytes al off d, fun sp x hx => ?_, ⟨rfl, rfl, rfl, rfl, rfl⟩, fun _ _ _ => rfl⟩
  cases sp with
  | map => exact s.mems.map.aliasStore_byte al off d (by simpa using hx)
  | _ => rfl

/-- The answer to the write leaves this so. -/
theorem State.mapWritten_replied (a : BitVec 64) (r : Reply) :
    let t := (s.mapWritten src al off d).replied src a r
    t.mems.map.bytes off d.length = aliasBytes al (s.mems.map.bytes off d.length) d ∧
      SameBytesBut .map off d.length s t ∧ SameUnits s t ∧ OnlyRegs (fun _ => False) s t := by
  obtain ⟨hbytes, hbut, hunits, hregs⟩ := s.mapWritten_frame src al off d
  refine ⟨?_, fun sp x hx => ?_, hunits.replied, hregs.replied⟩
  · rw [State.replied_mems]
    exact hbytes
  · rw [SameBytes.of_mems (State.replied_mems ..)]
    exact hbut sp x hx

theorem State.inc_regs (o : Nat) : OnlyRegs (fun p => p = o) s (s.inc o) := fun _ _ ho =>
  (State.rd_wr ..).trans (if_neg (Ne.symm ho))

theorem State.inc_count (o : Nat) : ((s.inc o).rd o).toNat = min 0xFFFFFFFF ((s.rd o).toNat + 1) := by
  rw [State.inc, State.incN, State.wrN, State.rd_wr_same, BitVec.toNat_ofNat]
  omega

/-- The banks' registers are not the log's. -/
theorem elogReg_bankRej (b : Nat) : elogReg (MM_REJ b) = false := by
  simp [elogReg, MM_REJ, GLB_ELOG_WR, GLB_ELOG_LOST, GLB_ELOG_ENT]
  omega

/-- A request that its bank refuses changes the bank's count and the log (R142). -/
theorem State.bankRej_replied (b : Nat) (a : BitVec 64) (r : Reply) :
    let t := (s.inc (MM_REJ b)).replied src a r
    SameBytes s t ∧ OnlyRegs (fun o => o = MM_REJ b) s t ∧
      (t.rd (MM_REJ b)).toNat = min 0xFFFFFFFF ((s.rd (MM_REJ b)).toNat + 1) := by
  refine ⟨.replied (.of_mems rfl), (s.inc_regs _).replied, ?_⟩
  rw [State.replied_rd _ _ _ _ (elogReg_bankRej b), State.inc_count]

end MapFrame

/-! ### Mesh requests in a quiet fabric -/

section Mesh

variable {s : State} {src : Nat} {a : BitVec 64}

/-- Nothing is sealed while SEC_POLICY.SEAL is clear (R387). -/
theorem State.isSealed_of_unsealed (h : s.flag SEC_POLICY_SEAL = false) (a : BitVec 64) (n : Nat) :
    s.isSealed a n = false := by
  unfold State.isSealed
  split
  · simp [h]
  · rfl

/-- A read request of memory that no seal keeps from its source. -/
theorem State.meshReadOp_of_memory {n : Nat} (hc : ∀ off, s.target src a ≠ .csr off)
    (hseal : src = mPCIe ∨ src = mDebug → s.flag SEC_POLICY_SEAL = false) :
    s.meshReadOp src a n = s.memRequest src a (.read n) := by
  have hsealed : ((src = mPCIe || src = mDebug) && s.isSealed a n) = false := by
    by_cases h : src = mPCIe ∨ src = mDebug
    · rw [State.isSealed_of_unsealed (hseal h), Bool.and_false]
    · simp [not_or.1 h]
  unfold State.meshReadOp
  rw [hsealed, if_neg Bool.false_ne_true]
  split
  · exact absurd ‹_› (hc _)
  · rfl

theorem State.meshWriteOp_of_memory {d : List Byte} (w e : BitVec 16) (hc : ∀ off, s.target src a ≠ .csr off) :
    s.meshWriteOp src a d w e = s.memRequest src a (s.writeOp src a d w e) := by
  unfold State.meshWriteOp
  split
  · exact absurd ‹_› (hc _)
  · rfl

theorem State.perform_read {n : Nat} {r : ReadRes} {u : State} (h : s.readAt src a n = (r, u)) :
    s.perform src a (.read n) = ({ st := r.st, data := r.data, ep := r.bad }, u) := by
  simp only [State.perform, h]

theorem State.perform_write {d : List Byte} {w e : BitVec 16} {st : St} {u : State}
    (h : s.writeAt src a d w e = (st, u)) :
    s.perform src a (.write d w e) = ({ st := st }, u) := by
  simp only [State.perform, h]

theorem exec_meshRead_of_quiet {n : Nat} {r : ReadRes} {u : State} (hq : FabricQuiet s)
    (hline : lineOk a.toNat n = true) (hc : ∀ off, s.target src a ≠ .csr off)
    (hseal : src = mPCIe ∨ src = mDebug → s.flag SEC_POLICY_SEAL = false)
    (hr : s.readAt src a n = (r, u)) (hu : FabricQuiet u) :
    exec (.meshRead src a n) s = .next (u.replied src a { st := r.st, data := r.data, ep := r.bad }) := by
  change execMeshRead src a n s = _
  rw [execMeshRead, if_pos hline, State.meshReadOp_of_memory hc hseal,
    State.memRequest_of_quiet hq (State.perform_read hr) hu, State.hostFree_of_quiet hu.replied]

/-- A write request, plain, set or clear: a write at its target. -/
theorem State.memRequest_of_writeAt {op : ReqOp} {d : List Byte} {st : St} {u : State} (hq : FabricQuiet s)
    (hop : s.perform src a op = ({ st := (s.writeAt src a d 0xFFFF 0).1 }, (s.writeAt src a d 0xFFFF 0).2))
    (hw : s.writeAt src a d 0xFFFF 0 = (st, u)) (hu : FabricQuiet u) :
    (s.memRequest src a op).hostFree = u.replied src a { st := st } := by
  rw [hw] at hop
  rw [State.memRequest_of_quiet hq hop hu, State.hostFree_of_quiet hu.replied]

theorem exec_meshWrite_of_quiet {d : List Byte} {st : St} {u : State} (hq : FabricQuiet s)
    (hline : lineOk a.toNat d.length = true) (hc : ∀ off, s.target src a ≠ .csr off)
    (hop : s.writeOp src a d 0xFFFF 0 = .write d 0xFFFF 0)
    (hw : s.writeAt src a d 0xFFFF 0 = (st, u)) (hu : FabricQuiet u) :
    exec (.meshWrite src a d 0xFFFF 0) s = .next (u.replied src a { st := st }) := by
  change execMeshWrite src a d 0xFFFF 0 s = _
  rw [execMeshWrite, if_pos hline, State.meshWriteOp_of_memory _ _ hc, hop, State.memRequest_of_writeAt hq rfl hw hu]

theorem exec_setAliasWrite_of_quiet {off : Nat} {d : List Byte} {st : St} {u : State} (hq : FabricQuiet s)
    (hoff : off < 0x8000000) (hline : lineOk off d.length = true)
    (hw : s.writeAt src (aliasAddr 0x20000000 off) d 0xFFFF 0 = (st, u)) (hu : FabricQuiet u) :
    exec (.setAliasWrite src off d) s = .next (u.replied src (aliasAddr 0x20000000 off) { st := st }) := by
  change execSetAliasWrite src off d s = _
  rw [execSetAliasWrite, if_pos (by simp [mapOfsOk, hoff, hline]), State.memRequest_of_writeAt hq rfl hw hu]

theorem exec_clearAliasWrite_of_quiet {off : Nat} {d : List Byte} {st : St} {u : State} (hq : FabricQuiet s)
    (hoff : off < 0x8000000) (hline : lineOk off d.length = true)
    (hw : s.writeAt src (aliasAddr 0x30000000 off) d 0xFFFF 0 = (st, u)) (hu : FabricQuiet u) :
    exec (.clearAliasWrite src off d) s = .next (u.replied src (aliasAddr 0x30000000 off) { st := st }) := by
  change execClearAliasWrite src off d s = _
  rw [execClearAliasWrite, if_pos (by simp [mapOfsOk, hoff, hline]), State.memRequest_of_writeAt hq rfl hw hu]

end Mesh

/-! ### Registers that take or show a whole word (R32) -/

/-- Every bit of the register takes a written value, and no bit is W1C or W1S. -/
theorem State.plainWrite_of_allRw {s : State} {off : Nat} {v : Word} {r : RegRow} {p : Nat × Nat}
    (h : regAt off = some (r, p)) (hrw : r.rw = 0xFFFFFFFF) (hc : r.w1c = 0) (hs : r.w1s = 0) :
    s.plainWrite off v = s.wr off v := by
  have hset : BitVec.ofNat 32 (0xFFFFFFFF ||| r.wo) = BitVec.allOnes 32 := by
    rw [BitVec.ofNat_or]
    exact BitVec.allOnes_or
  simp only [State.plainWrite, h, hrw, hc, hs, hset, BitVec.and_allOnes, BitVec.not_allOnes, BitVec.and_zero,
    BitVec.zero_or, BitVec.not_zero, BitVec.or_zero]

theorem State.hostAccess_of_awake {s : State} (h : s.inStandby = false) (src : Nat) : s.hostAccess src = s := by
  simp [State.hostAccess, h]

theorem State.hostAccess_of_ne {s : State} {src : Nat} (h : src ≠ mPCIe) : s.hostAccess src = s := by
  simp [State.hostAccess, h]

theorem State.hostWrite_of_free {s : State} {src : Nat} (h : s.hostStalls src = false) (off : Nat) (v : Word)
    (f : State → State) : s.hostWrite src off v f = f s := by
  simp [State.hostWrite, h]

/-- A refusal that the log takes and the source is answered changes nothing else. -/
theorem State.log_answer_frame (s : State) (st st' : St) (src ev aux : Nat) (a : BitVec 64) (d : List Byte) :
    let t := (s.log st src ev aux a).answer st' d
    SameBytes s t ∧ SameUnits s t ∧ OnlyRegs (fun _ => False) s t :=
  ⟨(SameBytes.log fun _ _ => rfl).answer, (SameUnits.log ⟨rfl, rfl, rfl, rfl, rfl⟩).answer,
    (OnlyRegs.log fun _ _ _ => rfl).answer⟩

/-! ### The BAR2 window (R24, R25) -/

/-- A request within one aligned line is one line request. -/
theorem lines_of_lineOk {a : BitVec 64} {n : Nat} (h : lineOk a.toNat n = true) : lines a n = [(a.toNat, n)] := by
  simp only [lineOk, Bool.and_eq_true, decide_eq_true_eq] at h
  have hm : min n (64 - a.toNat % 64) = n := by omega
  have hn : n ≠ 0 := by omega
  rw [lines, lineSplit, if_neg hn, hm]
  cases n / 64 + 1 <;> simp [lineSplit]

/-- Every request starts with the line of its own address. -/
theorem lines_head (a : BitVec 64) {n : Nat} (h : n ≠ 0) : ∃ m ls, lines a n = (a.toNat, m) :: ls := by
  rw [lines, lineSplit, if_neg h]
  exact ⟨_, _, rfl⟩

theorem State.bar2_outside {s : State} {a : BitVec 64} {n : Nat} (hn : n ≠ 0) (h : s.bar2Inside a = false) :
    (lines a n).all (fun l => s.bar2Inside (BitVec.ofNat 64 l.1)) = false := by
  obtain ⟨m, ls, hl⟩ := lines_head a hn
  simp [hl, h]

theorem bar2Ok_ne_zero {most off n : Nat} (h : bar2Ok most off n = true) : n ≠ 0 := by
  simp only [bar2Ok, Bool.and_eq_true, decide_eq_true_eq] at h
  omega

/-- A request of a line is within the limits of the endpoint (R278). -/
theorem bar2Ok_of_line {most off o n : Nat} (h : 64 ≤ most) (hline : lineOk o n = true) (hwin : off + n ≤ 2 ^ 32) :
    bar2Ok most off n = true := by
  simp only [lineOk, bar2Ok, Bool.and_eq_true, decide_eq_true_eq] at hline ⊢
  omega

theorem State.bar2Inside_map {s : State} {a : BitVec 64} {al : Alias} {off : Nat} (h : s.target mPCIe a = .map al off) :
    s.bar2Inside a = true := by
  simp [State.bar2Inside, h]

section Line

variable {s : State} {a : BitVec 64}

/-- A BAR2 read that is one line, answered without poison. -/
theorem State.bar2Read_of_line {n : Nat} {r : Reply} {u : State} (hd : s.reset_.devInReset = false)
    (hl : lineOk a.toNat n = true) (hin : s.bar2Inside a = true) (hseal : s.flag SEC_POLICY_SEAL = false)
    (hr : ({ s with reply := {} } : State).request mPCIe a (.read n) = (r, u)) (hep : r.ep = false) :
    s.bar2Read a n = { u with reply := { st := r.st, data := r.data } } := by
  simp only [State.bar2Read, lines_of_lineOk hl, List.all_cons, List.all_nil, List.any_cons, List.any_nil,
    BitVec.ofNat_toNat, BitVec.setWidth_eq, hd, hin, State.isSealed_of_unsealed hseal, List.foldl_cons,
    List.foldl_nil, hr]
  simp [hep]

/-- A BAR2 write that is one line. -/
theorem State.bar2Write_of_line {d : List Byte} {r : Reply} {u : State} (hd : s.reset_.devInReset = false)
    (hl : lineOk a.toNat d.length = true) (hin : s.bar2Inside a = true)
    (hr : s.request mPCIe a (s.writeOp mPCIe a d 0xFFFF 0) = (r, u)) (hst : r.st = ST_OK) :
    s.bar2Write a d = { u with reply := r } := by
  have hpiece : (d.drop (a.toNat - a.toNat)).take d.length = d := by simp
  simp only [State.bar2Write, lines_of_lineOk hl, List.all_cons, List.all_nil, BitVec.ofNat_toNat, BitVec.setWidth_eq,
    hd, hin, State.each, List.foldl_cons, List.foldl_nil, hpiece, hr, hst]
  simp

end Line

theorem exec_pciBar2BaseHiWrite (src : Nat) (v : Word) (s : State) : exec (.pciBar2BaseHiWrite src v) s =
    .next (s.hostWrite src PCI_BAR2_BASE_HI v fun s => s.pciWrite src PCI_BAR2_BASE_HI v) := rfl

section Awake

variable {s : State} {off : Nat}

/-- Awake, with no earlier request of the host held, the endpoint performs a BAR2 request at once (R371, R279). -/
theorem exec_hostBar2Read_awake {n : Nat} (hw : s.inStandby = false) (hh : s.hostStalls mPCIe = false)
    (h : bar2Ok maxRead off n = true) :
    exec (.hostBar2Read off n) s = .next (s.bar2Read (s.bar2Addr off) n) := by
  change execHostBar2Read off n s = _
  simp [execHostBar2Read, h, State.bar2, hw, hh]

theorem exec_hostBar2Write_awake {d : List Byte} (hw : s.inStandby = false) (hh : s.hostStalls mPCIe = false)
    (h : bar2Ok maxWrite off d.length = true) :
    exec (.hostBar2Write off d) s = .next (s.bar2Write (s.bar2Addr off) d) := by
  change execHostBar2Write off d s = _
  simp [execHostBar2Write, h, State.bar2, hw, hh]

end Awake

/-! ### Hardware sets in the clock of a write (R33) -/

section HardwareSets

variable (s : State) (off : Nat) (hw : Word)

/-- The W1C bits that hardware sets change one register at most. -/
theorem State.hardwareSets_eq : s.hardwareSets off hw = s ∨
    ∃ r p, regAt off = some (r, p) ∧ r.w1c ≠ 0 ∧ hw ≠ 0 ∧
      s.hardwareSets off hw = s.wr off (s.rd off ||| (hw &&& BitVec.ofNat 32 r.w1c)) := by
  unfold State.hardwareSets
  split
  next r p hr =>
    split_ifs with hz
    · exact .inl rfl
    · refine .inr ⟨r, p, hr, fun hc => hz ?_, fun h0 => hz ?_, rfl⟩
      · simp [hc]
      · simp [h0]
  · exact .inl rfl

/-- They end set. -/
theorem State.hardwareSets_sets {r : RegRow} {p : Nat × Nat} (h : regAt off = some (r, p)) :
    (s.hardwareSets off hw).rd off &&& (hw &&& BitVec.ofNat 32 r.w1c) = hw &&& BitVec.ofNat 32 r.w1c := by
  simp only [State.hardwareSets, h]
  split_ifs with hz
  · simp [hz]
  · rw [State.rd_wr_same, BitVec.and_comm]
    ext i
    simp
    grind

/-- A register without W1C bits is as the write left it. -/
theorem State.hardwareSets_of_noW1c {r : RegRow} {p : Nat × Nat} (h : regAt off = some (r, p)) (hc : r.w1c = 0) :
    s.hardwareSets off hw = s := by
  simp [State.hardwareSets, h, hc]

@[simp] theorem State.hardwareSets_mems : (s.hardwareSets off hw).mems = s.mems := by
  obtain h | ⟨r, p, -, -, -, h⟩ := s.hardwareSets_eq off hw <;> rw [h]
  rfl

@[simp] theorem State.hardwareSets_reply : (s.hardwareSets off hw).reply = s.reply := by
  obtain h | ⟨r, p, -, -, -, h⟩ := s.hardwareSets_eq off hw <;> rw [h]
  rfl

theorem State.hardwareSets_units : SameUnits s (s.hardwareSets off hw) := by
  obtain h | ⟨r, p, -, -, -, h⟩ := s.hardwareSets_eq off hw <;> rw [h] <;> exact ⟨rfl, rfl, rfl, rfl, rfl⟩

theorem State.hardwareSets_rd {o : Nat} (h : ¬ (o = off ∧ hw ≠ 0)) : (s.hardwareSets off hw).rd o = s.rd o := by
  obtain he | ⟨r, p, -, -, h0, he⟩ := s.hardwareSets_eq off hw
  · rw [he]
  · rw [he, State.rd_wr, if_neg fun ho => h ⟨ho.symm, h0⟩]

/-- The log's write index has no W1C bits. -/
theorem State.hardwareSets_logIndex : (s.hardwareSets off hw).rd GLB_ELOG_WR = s.rd GLB_ELOG_WR := by
  have hrow : regAt GLB_ELOG_WR = some (⟨0x800, 0, 1, 0, 1, 0, 0, 0, 0, 0, 0, .any⟩, (0, 0)) := rfl
  by_cases ho : off = GLB_ELOG_WR
  · rw [ho, State.hardwareSets_of_noW1c _ _ _ hrow rfl]
  · exact State.hardwareSets_rd _ _ _ fun h => ho h.1.symm

end HardwareSets

theorem State.so_hardwareSets (s : State) (off : Nat) (hw : Word) (n : Nat) :
    (s.hardwareSets off hw).so n = s.so n := by
  simp [State.so]

/-! ### Register writes (R31) -/

/-- An entry advances the log's write index where there is room and none was lost (R400). -/
theorem State.log_writeIndex {s : State} (hfull : s.logFull = false) (hlost : s.elogLost = 0) (st : St)
    (src ev aux : Nat) (a : BitVec 64) :
    (s.log st src ev aux a).rd GLB_ELOG_WR = BitVec.ofNat 32 ((s.rd GLB_ELOG_WR).toNat + 1) := by
  simp only [State.log, hfull, hlost, Bool.false_eq_true, if_false, if_true, State.logPut, State.wrN, State.rd_wr_same]

@[simp] theorem State.refuseWrite_reply (s : State) (st : St) (src off : Nat) :
    (s.refuseWrite st src off).reply = { st := st } := rfl

theorem State.refuseWrite_frame {s : State} (hs : s.inStandby = false) (st : St) (src off : Nat) :
    let t := s.refuseWrite st src off
    SameBytes s t ∧ SameUnits s t ∧ OnlyRegs (fun _ => False) s t := by
  rw [State.refuseWrite, State.hostAccess_of_awake hs]
  exact s.log_answer_frame ..

theorem exec_csrWrite_partial {off : Nat} {be : BitVec 4} (hoff : off < 0x4000000) (hbe : be ≠ 0xF) (src : Nat)
    (v hw : Word) {s : State} (hs : s.inStandby = false) :
    exec (.csrWrite src off be ⟨v, hw⟩) s = .next ((s.refuseWrite ST_BAD_FIELD src off).hardwareSets off hw) := by
  change execCsrWrite src off be ⟨v, hw⟩ s = _
  have hop : s.csrWriteOp src off be v = s.refuseWrite ST_BAD_FIELD src off := by
    rw [State.csrWriteOp, State.hostAccess_of_awake hs,
      if_pos (by simp only [hbe, ne_eq, not_false_eq_true, decide_true, Bool.true_or])]
  rw [execCsrWrite, if_neg (Nat.not_le.2 hoff), if_pos hbe, hop]

theorem exec_csrWrite_word {off : Nat} (hoff : off < 0x4000000) (src : Nat) (v hw : Word) (s : State) :
    exec (.csrWrite src off 0xF ⟨v, hw⟩) s =
      .next ((s.hostWrite src off v fun s => s.csrWriteOp src off 0xF v).hardwareSets off hw) := by
  change execCsrWrite src off 0xF ⟨v, hw⟩ s = _
  simp [execCsrWrite, csrSize, Nat.not_le.2 hoff]

/-- A whole aligned word from a device unit goes to its block. -/
theorem State.csrWriteOp_of_unit {s : State} {src off : Nat} (hsrc : src ≠ mPCIe) (hal : off % 4 = 0) (v : Word) :
    s.csrWriteOp src off 0xF v = s.csrPut src off v := by
  simp [State.csrWriteOp, State.hostAccess_of_ne hsrc, hal, hsrc]

theorem State.hostStalls_of_unit {src : Nat} (hsrc : src ≠ mPCIe) (s : State) : s.hostStalls src = false := by
  simp [State.hostStalls, hsrc]

theorem State.csrPut_glb {off : Nat} (hoff : off < 0x10000) (hr : (regAt off).isNone = false) (s : State) (src : Nat)
    (v : Word) : s.csrPut src off v = s.glbWrite src off v := by
  simp [State.csrPut, hr, hoff]

/-- The HIP owns the log's read index (R400). -/
theorem State.csrPut_elogRead (s : State) (v : Word) :
    s.csrPut mHIP GLB_ELOG_RD v = (s.wr GLB_ELOG_RD v).answer ST_OK := by
  have hrow : regAt GLB_ELOG_RD = some (⟨0x804, 0, 1, 0, 1, 0, 0xffffffff, 0, 0, 0, 0, .hipHost⟩, (0, 0)) := rfl
  have hp : s.plainWrite GLB_ELOG_RD v = s.wr GLB_ELOG_RD v := State.plainWrite_of_allRw hrow rfl rfl rfl
  rw [State.csrPut_glb (by decide) (by simp [hrow]), State.glbWrite, if_neg (by decide), if_neg (by decide)]
  simp [State.ownWrite, hrow, readOnly, ownOk, hp, State.hostAccess_of_ne]

/-! ### The sync-object window (R147) -/

theorem regAt_soWindow {n : Nat} (h : n < 16384) : (regAt (SO_WIN n)).isSome = true := by
  have hb : regBlock (SO_WIN n) = regsSOW := by
    unfold regBlock SO_WIN
    repeat rw [if_neg (by omega)]
    rw [if_pos (by omega)]
  have hi : RegRow.index ⟨0x140000, 0x4, 16384, 0, 1, 0, 0, 0, 0, 0, 0, .any⟩ (SO_WIN n) = some (n, 0) := by
    rw [RegRow.index_array _ _ (by decide), if_pos (by simp only [SO_WIN]; omega)]
    simp only [SO_WIN, Nat.add_sub_cancel_left, Nat.mul_div_cancel_left n (by norm_num : 0 < 4)]
  rw [regAt, hb, regsSOW, findSome_index_take _ _ _ _ hi]
  rfl

theorem State.csrPut_sync {off : Nat} (hlo : 0x140000 ≤ off) (hhi : off < 0x150000) (hr : (regAt off).isNone = false)
    (s : State) (src : Nat) (v : Word) : s.csrPut src off v = s.soAdd src ((off - 0x140000) / 4) v := by
  have hlow : ∀ k, k ≤ 0x140000 → ¬ off < k := fun k hk => by omega
  simp [State.csrPut, hr, hlow, hhi]

/-- A write to a word of the window is an ADD to its object. -/
theorem State.csrPut_soWindow (s : State) (src : Nat) {n : Nat} (h : n < 16384) (v : Word) :
    s.csrPut src (SO_WIN n) v = s.soAdd src n v := by
  have hr : (regAt (SO_WIN n)).isNone = false := by
    rw [← Option.not_isSome, regAt_soWindow h]
    rfl
  have hn : (0x140000 + 4 * n - 0x140000) / 4 = n := by omega
  rw [State.csrPut_sync (by simp only [SO_WIN]; omega) (by simp only [SO_WIN]; omega) hr, hn]

theorem State.soPut_so (s : State) (n : Nat) (v : Word) : (s.soPut n v).so n = v := by
  have hm : (s.soPut n v).mems.map = s.mems.map.putBytes (soAddr n) (leBytes 4 v.toNat) := rfl
  have hb := Memory.bytes_putBytes_same s.mems.map (soAddr n) (leBytes 4 v.toNat)
  rw [leBytes_length] at hb
  rw [State.so, hm, hb, leNat_leBytes, Nat.mod_eq_of_lt (b := 256 ^ 4) v.isLt, BitVec.ofNat_toNat, BitVec.setWidth_eq]

/-- With no earlier write of its master waiting an ADD is performed at once (R146, R158). -/
theorem State.soAdd_so {s : State} {src n : Nat} (v : Word) (hbad : s.soBad n = false)
    (hw : (s.fab.raised.any fun q => q.src = src && q.op.isWrite) = false) :
    (s.soAdd src n v).so n = s.so n + v := by
  simp only [State.soAdd, hw, State.soAddNow, hbad, Bool.false_eq_true, if_false]
  exact s.soPut_so n _

/-! ### Registers cleared by a read (R32, R33) -/

/-- A read of a register without WO bits whose bits are all RC shows it and clears it. -/
theorem State.plainRead_of_allRc {s : State} {off : Nat} {r : RegRow} {p : Nat × Nat} (h : regAt off = some (r, p))
    (hwo : r.wo = 0) (hrc : r.rc = 0xFFFFFFFF) : s.plainRead off = (s.rd off, s.wr off 0) := by
  have hall : BitVec.ofNat 32 0xFFFFFFFF = BitVec.allOnes 32 := rfl
  simp only [State.plainRead, h, hwo, hrc, hall, BitVec.not_allOnes, BitVec.and_zero,
    BitVec.not_zero, BitVec.and_allOnes]
  rfl

/-- A read of an aligned word of the GLB block by a unit of the device. -/
theorem State.csrReadOp_glb {src off : Nat} (hsrc : src ≠ mPCIe) (hoff : off < 0x10000) (hal : off % 4 = 0)
    (s : State) :
    s.csrReadOp src off = (s.plainRead off).2.answer ST_OK (leBytes 4 (s.plainRead off).1.toNat) := by
  have hhigh : ∀ k, 0x10000 ≤ k → ¬ k ≤ off ∧ off ≠ k := fun k hk => by omega
  have hword : off / 4 * 4 = off := by omega
  have hget : s.csrGet off = s.plainRead off := by
    simp [State.csrGet, PWR_ENERGY_LO, MON_PROC, hhigh]
  simp [State.csrReadOp, State.hostAccess_of_ne hsrc, hsrc, ARB_SO_WAIT, hhigh, hword, hget]

/-- The read of the log's count of losses by the HIP, with an update of the same clock. -/
theorem exec_rcRegisterRead_elogLost {upd : Nat} (h : upd ≠ 0) (s : State) :
    exec (.rcRegisterRead mHIP GLB_ELOG_LOST upd) s = .next
      (((s.wr GLB_ELOG_LOST 0).answer ST_OK (leBytes 4 (s.rd GLB_ELOG_LOST).toNat)).wr GLB_ELOG_LOST
        (BitVec.ofNat 32 upd)) := by
  have hrow : regAt GLB_ELOG_LOST = some (⟨0x808, 0, 1, 0, 1, 0, 0, 0, 0, 0, 0xffffffff, .any⟩, (0, 0)) := rfl
  have hread : s.csrReadOp mHIP GLB_ELOG_LOST =
      (s.wr GLB_ELOG_LOST 0).answer ST_OK (leBytes 4 (s.rd GLB_ELOG_LOST).toNat) := by
    rw [State.csrReadOp_glb (by decide) (by decide) rfl, State.plainRead_of_allRc hrow rfl rfl]
  have hword : GLB_ELOG_LOST / 4 * 4 = GLB_ELOG_LOST := rfl
  have hall : BitVec.ofNat 32 0xFFFFFFFF = BitVec.allOnes 32 := rfl
  change execRcRegisterRead mHIP GLB_ELOG_LOST upd s = _
  rw [execRcRegisterRead, if_neg (by decide), State.hostStalls_of_unit (by decide), if_neg Bool.false_ne_true, hread,
    hword, hrow]
  simp only [h, hall, BitVec.not_allOnes, BitVec.and_zero, BitVec.zero_or, BitVec.and_allOnes]
  simp

end Sys2Proof.Machine

namespace Sys2Proof

open Sys2Proof.Machine

/-- Settles O5: by the block that each offset lies in and its row of the register table. -/
theorem registerAccess : Obligations.RegisterAccess := by
  refine ⟨fun src off be v hw s hoff hbe hs => ?byteEnables, fun v hw s => ?owner, fun n v hw s hbad hq => ?soWindow,
    fun src off v hw r p s hoff hrow => ⟨_, exec_csrWrite_word hoff src v hw s, State.hardwareSets_sets _ _ _ hrow⟩,
    fun upd s hpos hlt => ?rc⟩
  case byteEnables =>
    refine ⟨_, exec_csrWrite_partial hoff hbe src v hw hs, ?_⟩
    obtain ⟨hbytes, hunits, hregs⟩ := s.refuseWrite_frame hs ST_BAD_FIELD src off
    refine ⟨?_, fun o ho hc => ?_, ?_, ?_, fun hfull hlost => ?_⟩
    · rw [State.hardwareSets_reply, State.refuseWrite_reply]
    · rw [State.hardwareSets_rd _ _ _ hc, hregs o ho id]
    · exact hbytes.trans (.of_mems (State.hardwareSets_mems ..))
    · exact hunits.trans (State.hardwareSets_units ..)
    · rw [State.hardwareSets_logIndex, State.refuseWrite, State.hostAccess_of_awake hs, State.answer_rd,
        State.log_writeIndex hfull hlost]
  case owner =>
    have he := exec_csrWrite_word (off := GLB_ELOG_RD) (by decide) mHIP v hw s
    rw [State.hostWrite_of_free (State.hostStalls_of_unit (by decide) s), State.csrWriteOp_of_unit (by decide) rfl,
      State.csrPut_elogRead, State.hardwareSets_of_noW1c _ _ _ (p := (0, 0)) rfl rfl] at he
    exact ⟨_, he, s.rd_wr_same _ v, rfl, fun o ho => (s.rd_wr _ v o).trans (if_neg (Ne.symm ho)), .of_mems rfl,
      rfl, rfl, rfl, rfl, rfl⟩
  case soWindow =>
    have he := exec_csrWrite_word (off := SO_WIN n.val) (by simp only [SO_WIN]; omega) mSCP v hw s
    rw [State.hostWrite_of_free (State.hostStalls_of_unit (by decide) s),
      State.csrWriteOp_of_unit (by decide) (by simp only [SO_WIN]; omega), State.csrPut_soWindow _ _ n.isLt] at he
    exact ⟨_, he, (State.so_hardwareSets ..).trans (State.soAdd_so v hbad hq)⟩
  case rc =>
    refine ⟨_, exec_rcRegisterRead_elogLost hpos.ne' s, rfl, State.rd_wr_same .., fun o ho => ?_, .of_mems rfl,
      rfl, rfl, rfl, rfl, rfl⟩
    simp [Ne.symm ho]

/-- Settles O6: in a quiet fabric a request is performed as it arrives, at the bank that its address names. -/
theorem mapAccess : Obligations.MapAccess := by
  refine ⟨⟨?read, ?write⟩, fun src off d s hq hoff hline hb hs hbad => ⟨?set, ?clear⟩⟩
  case read =>
    intro src off n s hq hseal hoff hline hb hs
    have ht := s.target_normal src hoff
    have hl := (lineOk_normal hoff n).trans hline
    refine ⟨_, exec_meshRead_of_quiet hq hl (by simp [ht]) hseal (State.readAt_map ht hb hs) hq, ?_⟩
    exact ⟨by simp, by simp, .replied (.of_mems rfl), (s.mapRead_units src .normal off).replied,
      (s.mapRead_regs src .normal off).replied⟩
  case write =>
    intro src off d s hq hoff hline hb hs hpart
    have ht := s.target_normal src hoff
    have hl := (lineOk_normal hoff d.length).trans hline
    refine ⟨_, exec_meshWrite_of_quiet hq hl (by simp [ht]) (by simp [State.writeOp, ht])
      (State.writeAt_map 0 ht hb hs hpart (by simp)) hq, by simp, ?_⟩
    exact s.mapWritten_replied src .normal off d _ _
  case set =>
    have hw := State.writeAt_map 0 (s.target_set src hoff) hb hs (Memory.partBad_of_not_anyBad hbad) fun _ => hbad
    exact ⟨_, exec_setAliasWrite_of_quiet hq hoff hline hw hq, s.mapWritten_replied src .set off d _ _⟩
  case clear =>
    have hw := State.writeAt_map 0 (s.target_clear src hoff) hb hs (Memory.partBad_of_not_anyBad hbad) fun _ => hbad
    exact ⟨_, exec_clearAliasWrite_of_quiet hq hoff hline hw hq, s.mapWritten_replied src .clear off d _ _⟩

/-- Settles O7: a refusal leaves the memories as they were; the log takes it and, at a bank, a counter. -/
theorem requestRefusals : Obligations.RequestRefusals := by
  refine ⟨fun src addr n d s ht hq => ⟨fun hline hseal => ?_, fun hline => ?_⟩,
    fun src off n d s hoff hb hsn hsd hq => ⟨fun hline hseal => ?_, fun hline => ?_⟩,
    fun src off d s hoff hline hq => ?_⟩
  · have hr := State.readAt_of_region (s := s) (src := src) (a := addr) (n := n) (by simp [ht, State.regionCheck])
    refine ⟨_, exec_meshRead_of_quiet hq hline (by simp [ht]) hseal hr hq, ?_⟩
    exact ⟨by simp [ht, State.regionCheck], by simp, s.replied_frame ..⟩
  · have hw := State.writeAt_of_region (s := s) (src := src) (a := addr) (d := d) 0xFFFF 0
      (by simp [ht, State.regionCheck])
    refine ⟨_, exec_meshWrite_of_quiet hq hline (by simp [ht]) (by simp [State.writeOp, ht]) hw hq, ?_⟩
    exact ⟨by simp [ht, State.regionCheck], s.replied_frame ..⟩
  · have ht := s.target_normal src hoff
    have hl := (lineOk_normal hoff n).trans hline
    refine ⟨_, exec_meshRead_of_quiet hq hl (by simp [ht]) hseal (State.readAt_of_bank ht hb hsn) hq, ?_⟩
    obtain ⟨hbytes, -, hcount⟩ := s.bankRej_replied src (off / 0x80000) (aliasAddr 0x10000000 off)
      { st := ST_BANK_OFF, data := List.replicate n 0 }
    exact ⟨by simp, by simp, hbytes, hcount⟩
  · have ht := s.target_normal src hoff
    have hl := (lineOk_normal hoff d.length).trans hline
    refine ⟨_, exec_meshWrite_of_quiet hq hl (by simp [ht]) (by simp [State.writeOp, ht])
      (State.writeAt_of_bank 0xFFFF 0 ht hb hsd) hq, by simp, ?_⟩
    exact s.bankRej_replied ..
  · have ht := s.target_nvm src hoff
    have hl := (lineOk_aliasAddr (n := d.length) (base := 0x60000000) (ofs := off) (by omega) (by decide)).trans hline
    have hw := State.writeAt_of_region (s := s) (src := src) (a := aliasAddr 0x60000000 off) (d := d) 0xFFFF 0
      (by simp [ht, State.regionCheck])
    refine ⟨_, exec_meshWrite_of_quiet hq hl (by simp [ht]) (by simp [State.writeOp, ht]) hw hq, ?_⟩
    obtain ⟨hbytes, hunits, -⟩ := s.replied_frame src (aliasAddr 0x60000000 off) { st := ST_NOT_PERMITTED }
    simpa [ht, State.regionCheck] using ⟨hbytes, hunits⟩

/-- Settles O8: by the line of the request's own address, and for the accesses inside by the rules of map memory. -/
theorem bar2Window : Obligations.Bar2Window := by
  refine ⟨fun v s hw hh => ?base, fun off n s hw hh hok hout => ?readOut, fun off d s hw hh hd hok hout => ?writeOut,
    fun off n o s hw hd hq ha ho hline hwin hb hs hseal hbad => ?readIn,
    fun off o d s hw hd hq ha ho hline hwin hb hs hpart => ?writeIn⟩
  case base =>
    have hp : s.plainWrite PCI_BAR2_BASE_HI v = s.wr PCI_BAR2_BASE_HI v :=
      State.plainWrite_of_allRw (p := (0, 0)) rfl rfl rfl rfl
    have hr : s.pciWrite mPCIe PCI_BAR2_BASE_HI v = { (s.wr PCI_BAR2_BASE_HI v).answer ST_OK with
        fab := { s.fab with bar2Hi := v, bar2Lo := s.rd PCI_BAR2_BASE_LO } } := by
      simp [State.pciWrite, State.hostAccess_of_awake hw, hp]
    refine ⟨_, exec_pciBar2BaseHiWrite .., ?_⟩
    rw [State.hostWrite_of_free hh, hr]
    exact ⟨rfl, rfl, s.rd_wr_same _ v, fun o _ ho => (s.rd_wr _ v o).trans (if_neg (Ne.symm ho)), .of_mems rfl,
      rfl, rfl, rfl, rfl, rfl⟩
  case readOut =>
    refine ⟨_, exec_hostBar2Read_awake hw hh hok, ?_⟩
    simp only [State.bar2Read, State.bar2_outside (bar2Ok_ne_zero hok) hout]
    simp
  case writeOut =>
    refine ⟨_, exec_hostBar2Write_awake hw hh hok, ?_⟩
    simp only [State.bar2Write, State.bar2_outside (bar2Ok_ne_zero hok) hout, hd, Bool.not_false, Bool.false_eq_true,
      if_true, if_false]
    exact ⟨rfl, s.log_answer_frame ..⟩
  case readIn =>
    have ht := s.target_normal mPCIe ho
    have hl := (lineOk_normal ho n).trans hline
    have hok : bar2Ok maxRead off n = true := bar2Ok_of_line (by decide) hline hwin
    have hr : ({ s with reply := {} } : State).request mPCIe (aliasAddr 0x10000000 o) (.read n) = _ :=
      State.request_of_quiet hq (State.perform_read (State.readAt_map ht hb hs)) hq
    refine ⟨_, exec_hostBar2Read_awake hw (State.hostStalls_of_quiet hq _) hok, ?_⟩
    rw [ha, State.bar2Read_of_line hd hl (State.bar2Inside_map ht) hseal hr hbad]
    exact ⟨rfl, rfl, rfl, .of_mems rfl⟩
  case writeIn =>
    have ht := s.target_normal mPCIe ho
    have hl := (lineOk_normal ho d.length).trans hline
    have hok : bar2Ok maxWrite off d.length = true := bar2Ok_of_line (by decide) hline hwin
    have hr := State.request_of_quiet hq (State.perform_write (State.writeAt_map 0 ht hb hs hpart (by simp))) hq
    have hop : s.writeOp mPCIe (aliasAddr 0x10000000 o) d 0xFFFF 0 = .write d 0xFFFF 0 := by simp [State.writeOp, ht]
    rw [← hop] at hr
    refine ⟨_, exec_hostBar2Write_awake hw (State.hostStalls_of_quiet hq _) hok, ?_⟩
    rw [ha, State.bar2Write_of_line hd hl (State.bar2Inside_map ht) hr rfl]
    obtain ⟨hbytes, hbut, hunits, -⟩ := s.mapWritten_frame mPCIe .normal o d
    exact ⟨hbytes, hbut, hunits⟩

end Sys2Proof

/-! PROOF. A command with well-formed operands ends in a next state (log entry 8): the meaning of a command is a tree of
branches whose leaves are next states, but for the checks of its operands. -/

namespace Sys2Proof.Machine

/-! ### Commands that end in a next state (log entry 8) -/

/-- The outcome is a next state, neither a fault nor a refusal. -/
def EndsNext (o : Out) : Prop := ∃ t, o = .next t

theorem EndsNext.next (t : State) : EndsNext (.next t) := ⟨t, rfl⟩

theorem EndsNext.ite {c : Prop} [Decidable c] {x y : Out} (hx : EndsNext x) (hy : EndsNext y) :
    EndsNext (if c then x else y) := ite_cases hx hy

/-- Where a check on the operands holds, its fault does not occur. -/
theorem EndsNext.ite_of_not {c : Prop} [Decidable c] {x y : Out} (hc : ¬ c) (hy : EndsNext y) :
    EndsNext (if c then x else y) := by
  rwa [if_neg hc]

theorem EndsNext.ite_of {c : Prop} [Decidable c] {x y : Out} (hc : c) (hx : EndsNext x) :
    EndsNext (if c then x else y) := by
  rwa [if_pos hc]

section Ends

variable (s : State)

/-! #### Commands whose operands are checked -/

theorem exec_csrWrite_endsNext {off : Nat} (h : off < 0x4000000) (src : Nat) (be : BitVec 4) (v : RegWrite) :
    EndsNext (exec (.csrWrite src off be v) s) :=
  .ite_of_not (Nat.not_le.2 h) (.ite (.next _) (.next _))

theorem exec_rcRegisterRead_endsNext {off : Nat} (h : off < 0x4000000) (src upd : Nat) :
    EndsNext (exec (.rcRegisterRead src off upd) s) := by
  refine .ite_of_not (Nat.not_le.2 h) (.ite (.next _) ?_)
  dsimp only
  split <;> exact .next _

theorem exec_meshRead_endsNext {a : BitVec 64} {n : Nat} (h : lineOk a.toNat n = true) (src : Nat) :
    EndsNext (exec (.meshRead src a n) s) := .ite_of h (.next _)

theorem exec_meshWrite_endsNext {a : BitVec 64} {d : List Byte} (h : lineOk a.toNat d.length = true) (src : Nat)
    (win epoch : BitVec 16) : EndsNext (exec (.meshWrite src a d win epoch) s) := .ite_of h (.next _)

theorem exec_setAliasWrite_endsNext {ofs : Nat} {d : List Byte} (h : mapOfsOk ofs d.length = true) (src : Nat) :
    EndsNext (exec (.setAliasWrite src ofs d) s) := .ite_of h (.next _)

theorem exec_clearAliasWrite_endsNext {ofs : Nat} {d : List Byte} (h : mapOfsOk ofs d.length = true) (src : Nat) :
    EndsNext (exec (.clearAliasWrite src ofs d) s) := .ite_of h (.next _)

theorem exec_hostBar2Read_endsNext {off n : Nat} (h : bar2Ok maxRead off n = true) :
    EndsNext (exec (.hostBar2Read off n) s) := .ite_of h (.next _)

theorem exec_hostBar2Write_endsNext {off : Nat} {d : List Byte} (h : bar2Ok maxWrite off d.length = true) :
    EndsNext (exec (.hostBar2Write off d) s) := .ite_of h (.next _)

theorem exec_claspOpen_endsNext {src beats : Nat} (h : (beats = 0 || 16 < beats || !claspMaster src) = false)
    (a : BitVec 64) : EndsNext (exec (.claspOpen src a beats) s) := by
  refine .ite_of_not (by rw [h]; exact Bool.false_ne_true) (.ite (.next _) ?_)
  split
  · exact .next _
  · exact .ite (.next _) (.ite (.next _) (.ite (.next _) (.next _)))

theorem exec_debugMemoryAccess_endsNext {a : BitVec 64} {n : Nat} (h : lineOk a.toNat n = true)
    {data : Option (List Byte)} (hd : ∀ d, data = some d → d.length = n) :
    EndsNext (exec (.debugMemoryAccess a n data) s) := by
  refine .ite_of_not (by simp [h]) ?_
  split
  · exact .ite (.next _) (.next _)
  next d =>
    refine .ite_of_not (by simp [hd d rfl]) (.ite (.next _) ?_)
    split
    · exact .ite (.next _) (.next _)
    · exact .next _

theorem exec_pcieLinkUp_endsNext {link : PcieLink} {cfg : PciCfg} (h : linkOk link cfg = true) :
    EndsNext (exec (.pcieLinkUp link cfg) s) :=
  .ite (.next _) (.ite_of_not (by simp [h]) (.next _))

theorem mapOfsOk_of_wf {ofs : Nat} {d : List Byte}
    (h : (meshShape (BitVec.ofNat 64 ofs) d.length && ofs + d.length ≤ 0x8000000) = true) :
    mapOfsOk ofs d.length = true := by
  simp only [meshShape, Bool.and_eq_true, decide_eq_true_eq, BitVec.toNat_ofNat] at h
  simp only [mapOfsOk, lineOk, Bool.and_eq_true, decide_eq_true_eq]
  omega

theorem claspChecks_of_wf {src beats : Nat} (h : (1 ≤ beats && beats ≤ 16 && claspShape src) = true) :
    (beats = 0 || 16 < beats || !claspMaster src) = false := by
  simp [claspShape, claspMaster, mSCP, mSFP, mHIP] at h ⊢
  omega

/-! #### Meanings that other commands share -/

theorem State.ext_endsNext (n : Nat) (f : ExtForm) (ty : BitVec 2) (rd rs1 rs2 : BitVec 5)
    (run : Nat → Nat → Nat → Nat → State) : EndsNext (s.ext n f ty rd rs1 rs2 run) :=
  .ite (.next _) (.ite (.next _) (.next _))

theorem execBeadBaseInstruction_endsNext (n : Fin 4096) : EndsNext (execBeadBaseInstruction n s) := by
  refine .ite (.next _) ?_
  split <;> exact .next _

theorem State.anyInstr_endsNext (n : Fin 4096) : EndsNext (s.anyInstr n) := by
  unfold State.anyInstr
  split
  · dsimp only
    split <;> first | exact State.ext_endsNext .. | exact .next _
  · exact execBeadBaseInstruction_endsNext s n

theorem execDebugStep_endsNext (t : DebugTarget) : EndsNext (execDebugStep t s) := by
  refine .ite (.next _) ?_
  cases t with
  | proc p => exact .ite (.next _) (.next _)
  | bead n =>
    refine .ite (.next _) ?_
    obtain ⟨t, ht⟩ := (s.setBeadState n.val bdRUNNING).anyInstr_endsNext n
    rw [ht]
    exact .next _

/-! #### Every command -/

theorem execWindowInstanceOpen_endsNext (w : Fin 64) : EndsNext (execWindowInstanceOpen w s) := by
  fun_cases execWindowInstanceOpen w s <;> exact .next _

theorem execStoFb_endsNext (p : StoPath) (level other : Bool) : EndsNext (execStoFb p level other s) := by
  unfold execStoFb
  extract_lets _ s' since
  cases since with
  | none => exact .next _
  | some t => exact .ite (.next _) (.next _)

/-- Where a command's meaning checks its operands the checks hold; every other leaf of it is a next state. -/
theorem exec_endsNext (c : Instr) (h : c.wf = true) : EndsNext (exec c s) := by
  cases c
  case csrWrite =>
    simp only [Instr.wf, Bool.and_eq_true, decide_eq_true_eq] at h
    exact exec_csrWrite_endsNext s h.2 ..
  case rcRegisterRead =>
    simp only [Instr.wf, Bool.and_eq_true, decide_eq_true_eq] at h
    exact exec_rcRegisterRead_endsNext s h.2 ..
  case meshRead => exact exec_meshRead_endsNext s h _
  case meshWrite => exact exec_meshWrite_endsNext s h ..
  case setAliasWrite => exact exec_setAliasWrite_endsNext s (mapOfsOk_of_wf h) _
  case clearAliasWrite => exact exec_clearAliasWrite_endsNext s (mapOfsOk_of_wf h) _
  case hostBar2Read => exact exec_hostBar2Read_endsNext s h
  case hostBar2Write => exact exec_hostBar2Write_endsNext s h
  case claspOpen => exact exec_claspOpen_endsNext s (claspChecks_of_wf h) _
  case pcieLinkUp => exact exec_pcieLinkUp_endsNext s h
  case debugMemoryAccess addr n data =>
    simp only [Instr.wf, Bool.and_eq_true] at h
    refine exec_debugMemoryAccess_endsNext s h.1 fun d hd => ?_
    subst hd
    simpa using h.2
  case windowInstanceOpen => exact execWindowInstanceOpen_endsNext ..
  case stoFb => exact execStoFb_endsNext ..
  case debugStep => exact execDebugStep_endsNext ..
  case cycleBoundary => exact .ite (.next _) (.next _)
  case vadd | vsub | vmul | vmac | vmax | vmin | vcvt | vsplat | vext | wclr | wdot | wsum | wadd | wrnd | wld | wst |
      vld | vst | vgather | vscatter | cmpset | count | yield =>
    exact .ite (.next _) (.ite (.next _) (.next _))
  case beadBaseInstruction => exact execBeadBaseInstruction_endsNext ..
  -- no operand of the others is checked: the names are those whose meaning matches or binds, not conditions alone
  all_goals
    dsimp -zeta only [exec, execYieldLimitExpired, execBankDrained, execBankDrainTimeout, execBankTransitionComplete,
      execPatrolScrub, execSoWait, execDescriptorFetch, execFacetCommandComplete, execKSegmentEnd,
      execPreemptSaveComplete, execFacetContextRestored, execCsi2Line, execCsi2FrameEnd, execFrameTimeout,
      execJxsDecodeStart, execJxsDecodeComplete, execCutTask, execCutTaskComplete, execDeferredBatchCut,
      execCanFrameTransmitted, execCanFrameReceived, execEthFrameReceived, execEthFrameTransmit, execFnStartAxis,
      execFnStopAxis, execFollowingErrorLimit, execStopTimeExpired, execCommandedGateEdge, execFeedbackEdge,
      execEdgeWindowClose, execTdcCalComplete, execGtlTrigger, execBindingApplied, execWindowDeadline,
      execTaskDispatch, execShareDispatch, execTaskComplete, execPreemptForWindow, execYieldForWindow,
      execSoWaitTimeout, execHallmarkVerdict, execTriageDispatch, execTriageCompare, execFaultLocalisation,
      execAgmLimitExpired, execSelftestPartStart, execSelftestPartComplete, execSs1TimerExpired, execAckMessage,
      execEstopDisc, execPairLinkTrained, execCycleHeartbeatSend, execCycleHeartbeatReceived,
      execPairHeartbeatTimeout, execCrossCheckRecord, execShutdownPowerOff, execMsixCoalesceExpired, execTelemetry,
      execSettingsStore, execSettingsCommit, execProcessorRestartComplete, execFirmwareSetLoad, execLpEntryComplete,
      execLockoutEnd, execKeyRevoke, execClaspTimeout, execRemoteLoadResponse, execRemoteStoreAck,
      execMoverTransferEnd, execLpExitComplete]
    repeat' first
      | with_reducible exact .next _
      | with_reducible refine .ite ?_ ?_
      | extract_lets
      | split
      | exact .next _
      | refine .ite ?_ ?_

end Ends

end Sys2Proof.Machine

namespace Sys2Proof

open Sys2Proof.Machine

/-- Settles O60: by cases over the commands. -/
theorem wellFormedCommandsComplete : Obligations.WellFormedCommandsComplete :=
  fun c s h => exec_endsNext s c h

end Sys2Proof

/-! PROOF. Bead cores: what completes and what stops an instruction (R110–R114), accesses to the own local memory
(R113, R123) and the base instructions. -/

namespace Sys2Proof.Machine

/-! ### Registers of a core (R110, R115) -/

@[simp] theorem BeadSt.xr_zero (b : BeadSt) : b.xr 0 = 0 := rfl

/-- A register reads as it was set, x0 as zero. -/
theorem BeadSt.xr_setX (b : BeadSt) (r : Nat) (v : Word) : (b.setX r v).xr r = if r = 0 then 0 else v := by
  by_cases h : r = 0 <;> simp [BeadSt.xr, BeadSt.setX, h]

theorem BeadSt.xr_setX_ne (b : BeadSt) {r q : Nat} (h : q ≠ r) (v : Word) : (b.setX r v).xr q = b.xr q := by
  by_cases hr : r = 0 <;> simp [BeadSt.xr, BeadSt.setX, hr, kget_kput_ne _ _ _ (Ne.symm h)]

section SetX

variable (b : BeadSt) (r : Nat) (v : Word)

@[simp] theorem BeadSt.setX_pc : (b.setX r v).pc = b.pc := ite_cases (P := fun c : BeadSt => c.pc = b.pc) rfl rfl
@[simp] theorem BeadSt.setX_v : (b.setX r v).v = b.v := ite_cases (P := fun c : BeadSt => c.v = b.v) rfl rfl
@[simp] theorem BeadSt.setX_stall : (b.setX r v).stall = b.stall :=
  ite_cases (P := fun c : BeadSt => c.stall = b.stall) rfl rfl

end SetX

theorem BeadSt.vr_setV (b : BeadSt) (r : Nat) (v : BitVec 128) (q : Nat) :
    (b.setV r v).vr q = if r = q then v else b.vr q := kget_kput ..

/-! ### An instruction completes (R110, R119) -/

/-- The instruction at node `n` has completed: beside its frame it goes on at `pc` and has left the memories. -/
def Retires (s t : State) (n : Nat) (f : BeadSt → BeadSt) (pc : Word) : Prop :=
  CoreFrame s t n f ∧ (t.bead n).pc = pc ∧ t.mems = s.mems

/-- Clocks that pass are charged to the power model. -/
theorem State.beadClocks_eq (s : State) (n k : Nat) : ∃ p, s.beadClocks n k =
    { s.setBead n { s.bead n with
        cycle := (s.bead n).cycle + (if (s.bead n).inhibits 0 then 0 else BitVec.ofNat 64 k)
        activeClk := (s.bead n).activeClk + BitVec.ofNat 64 k } with power := p } := by
  unfold State.beadClocks
  dsimp only
  split
  · exact ⟨_, rfl⟩
  · exact ⟨s.power, rfl⟩

/-- An instruction that completes leaves its core at `pc`, with its counters advanced. -/
theorem State.retire_retires (s : State) (n : Nat) (pc : Word) (least : Nat) :
    Retires s (s.retire n pc least) n id pc := by
  unfold State.retire
  extract_lets b u
  change Retires s (u.fresh.2.beadClocks n (least + u.fresh.1.toNat)) n id pc
  have hbead : u.fresh.2.bead n = { b with pc := pc, instret := b.instret + (if b.inhibits 2 then 0 else 1) } :=
    kget_kput_same ..
  obtain ⟨p, hp⟩ := u.fresh.2.beadClocks_eq n (least + u.fresh.1.toNat)
  rw [hp, hbead]
  refine ⟨⟨⟨BitVec.ofNat 64 (least + u.fresh.1.toNat), ?_⟩, fun m hm => ?_, fun o ho => ?_, rfl, rfl, rfl⟩, ?_, rfl⟩
  · simp only [State.bead, State.setBead, kget_kput_same]
    rfl
  · exact (kget_kput_ne _ _ _ (Ne.symm hm)).trans (kget_kput_ne _ _ _ (Ne.symm hm))
  · exact (State.rd_wr ..).trans (if_neg (Ne.symm ho))
  · simp only [State.bead, State.setBead, kget_kput_same]

/-- What the core took before it completed is part of its frame. -/
theorem Retires.of_setBead {s t : State} {n : Nat} {f g : BeadSt → BeadSt} {pc : Word}
    (h : Retires (s.setBead n (g (s.bead n))) t n f pc) : Retires s t n (f ∘ g) pc := by
  obtain ⟨⟨hbead, hother, hregs, hfacets, hfab, hreply⟩, hpc, hmems⟩ := h
  rw [State.bead_setBead, if_pos rfl] at hbead
  refine ⟨⟨hbead, fun m hm => ?_, hregs, hfacets, hfab, hreply⟩, hpc, hmems⟩
  rw [hother m hm, State.bead_setBead, if_neg (Ne.symm hm)]

/-- The instruction's result is written and the next one follows. -/
theorem State.setBead_goOn (s : State) (n ilen : Nat) (f : BeadSt → BeadSt) (least : Nat)
    (hpc : (f (s.bead n)).pc = (s.bead n).pc) :
    Retires s ((s.setBead n (f (s.bead n))).goOn n ilen least) n f ((s.bead n).pc + BitVec.ofNat 32 ilen) := by
  have h := Retires.of_setBead ((s.setBead n (f (s.bead n))).retire_retires n
    (((s.setBead n (f (s.bead n))).bead n).pc + BitVec.ofNat 32 ilen) least)
  rw [State.bead_setBead, if_pos rfl, hpc] at h
  rw [State.goOn, State.bead_setBead, if_pos rfl, hpc]
  exact h

/-- An instruction without a result in a register. -/
theorem State.goOn_retires (s : State) (n ilen : Nat) (least : Nat) :
    Retires s (s.goOn n ilen least) n id ((s.bead n).pc + BitVec.ofNat 32 ilen) := s.retire_retires n _ least

/-- A loaded value. -/
theorem State.deliver_retires (s : State) (n rd ilen : Nat) (v : Word) :
    Retires s (s.deliver n false rd ilen v) n (fun b => b.setX rd v) ((s.bead n).pc + BitVec.ofNat 32 ilen) :=
  s.setBead_goOn n ilen (fun b => b.setX rd v) 1 (BeadSt.setX_pc ..)

section Retires

variable {s t : State} {n : Nat} {f : BeadSt → BeadSt} {pc : Word} (h : Retires s t n f pc)

include h

theorem Retires.frame : CoreFrame s t n f := h.1

theorem Retires.pc_eq : (t.bead n).pc = pc := h.2.1

theorem Retires.mems_eq : t.mems = s.mems := h.2.2

theorem Retires.sameBytes : SameBytes s t := .of_mems h.mems_eq

/-- A part of the core that neither the pc nor the counters enter. -/
theorem Retires.bead_part {α : Type} (g : BeadSt → α)
    (hg : ∀ (b : BeadSt) pc cycle act ret,
      g { b with pc := pc, cycle := cycle, activeClk := act, instret := ret } = g b) : g (t.bead n) = g (f (s.bead n)) := by
  obtain ⟨⟨⟨k, hk⟩, -⟩, -⟩ := h
  rw [hk, hg]

theorem Retires.other {m : Nat} (hm : m ≠ n) : t.bead m = s.bead m := h.1.2.1 m hm

theorem Retires.rd_eq {o : Nat} (ho : o ≠ BEAD_ECC n) : t.rd o = s.rd o := h.1.2.2.1 o ho

theorem Retires.facets_eq : t.facets = s.facets := h.1.2.2.2.1

end Retires

/-! ### An exception (R112) -/

/-- The log's registers are not a node's. -/
theorem elogReg_bead {n o : Nat} (h : BEAD_CTL n ≤ o) : elogReg o = false := by
  simp only [BEAD_CTL] at h
  simp [elogReg, GLB_ELOG_WR, GLB_ELOG_LOST, GLB_ELOG_ENT]
  omega

/-- An exception records its cause and the pc, and changes nothing else. -/
theorem State.beadFault_stops (s : State) (n : Nat) {cause : Nat} (hc : cause < 256) :
    let t := s.beadFault n cause
    t.beadState n = bdFAULT ∧ t.fld (BEAD_STATUS_CAUSE n) = cause ∧ t.rd (BEAD_PC n) = (s.bead n).pc ∧
      t.beads = s.beads ∧ SameBytes s t ∧ OnlyRegs (fun o => o = BEAD_STATUS n ∨ o = BEAD_PC n) s t ∧
      t.facets = s.facets := by
  have hoff : BEAD_PC n ≠ BEAD_STATUS n := by simp only [BEAD_PC, BEAD_STATUS]; omega
  refine ⟨?_, ?_, ?_, rfl, .of_mems rfl, fun o _ ho => ?_, rfl⟩
  · exact State.fld_setF_same _ (BEAD_STATUS_STATE n) _ (by simp)
  · rw [State.beadFault, State.setBeadState, State.fld_setF_other _ _ _ _ (by simp), State.fld_wr_off _ _ _ _ hoff,
      State.fld_setF_same _ _ _ (by simp)]
    exact Nat.mod_eq_of_lt hc
  · rw [State.beadFault, State.setBeadState, State.rd_setF, if_neg (Ne.symm hoff), State.rd_wr_same]
  · obtain ⟨hst, hpc⟩ := not_or.1 ho
    rw [State.beadFault, State.setBeadState, State.rd_setF, if_neg (Ne.symm hst), State.rd_wr, if_neg (Ne.symm hpc),
      State.rd_setF, if_neg (Ne.symm hst)]

/-! ### The instruction at the pc (R110, R113) -/

section Fetch

variable {n : Fin 4096} {s : State}

theorem exec_base_op {i : Rv} {len : Nat} (h : FetchesWord s n.val i len) :
    exec (.beadBaseInstruction n) s = .next (s.rvExec n.val len i) := by
  obtain ⟨hready, hfetch⟩ := h
  change execBeadBaseInstruction n s = _
  simp [execBeadBaseInstruction, hready, hfetch]

theorem exec_base_stop {c : Nat} (hready : s.beadReady n.val = true) (hfetch : s.beadFetch n.val = .stop c) :
    exec (.beadBaseInstruction n) s = .next (s.beadFault n.val c) := by
  change execBeadBaseInstruction n s = _
  simp [execBeadBaseInstruction, hready, hfetch]

/-- No instruction is fetched from outside the local memory. -/
theorem State.beadFetch_outside {n : Nat} (heven : (s.bead n).pc.toNat % 2 = 0) (hout : 0x10000 ≤ (s.bead n).pc.toNat) :
    s.beadFetch n = .stop 1 := by
  simp [State.beadFetch, heven, hout]

end Fetch

/-! ### The own local memory (R113, R123) -/

theorem State.coreAddr_blm (s : State) (n : Nat) {a : Word} (h : a.toNat < 0x10000) : s.coreAddr n a = .blm a.toNat :=
  if_pos h

theorem State.coreAddr_none (s : State) (n : Nat) {a : Word} (hlo : 0x10400 ≤ a.toNat) (hhi : a.toNat < 0x80000000) :
    s.coreAddr n a = .none := by
  unfold State.coreAddr
  dsimp only
  rw [if_neg (by omega), if_neg (by omega), if_neg (by omega)]

theorem State.blmRead_clean {s : State} {n off len : Nat} (h : s.mems.blm.anyBad 4 (s.blmAt n off) len = false) :
    s.blmRead n off len = some (leNat (s.mems.blm.bytes (s.blmAt n off) len)) := by
  simp [State.blmRead, h]

/-- The local memories after node `n` has stored `d` from byte `off` of its own. -/
def State.blmStored (s : State) (n off : Nat) (d : List Byte) : State :=
  s.setMem .blm ((s.mems.blm.clean 4 (s.blmAt n off) d.length).putBytes (s.blmAt n off) d)

theorem State.blmWrite_clean {s : State} {n off : Nat} {d : List Byte}
    (h : s.mems.blm.partBad 4 (s.blmAt n off) d.length = false) : s.blmWrite n off d = s.blmStored n off d := by
  rw [State.blmWrite, Memory.store_of_not_partBad h]
  rfl

/-- A store that completes writes its bytes and no other. -/
theorem State.blmStored_retires {s t : State} {n m off len : Nat} {d : List Byte} {f : BeadSt → BeadSt} {pc : Word}
    (hlen : d.length = len) (h : Retires (s.blmStored n off d) t m f pc) :
    CoreFrame s t m f ∧ (t.bead m).pc = pc ∧ t.mems.blm.bytes (s.blmAt n off) len = d ∧
      SameBytesBut .blm (s.blmAt n off) len s t := by
  subst hlen
  obtain ⟨hframe, hpc, hmems⟩ := h
  refine ⟨hframe, hpc, ?_, fun sp a ha => ?_⟩
  · rw [hmems]
    exact Memory.bytes_putBytes_same ..
  · rw [SameBytes.of_mems hmems sp a]
    cases sp with
    | blm =>
      have ho : ¬ (s.blmAt n off ≤ a ∧ a < s.blmAt n off + d.length) := by simpa using ha
      exact (Memory.byte_putBytes ..).trans ((if_neg ho).trans (Memory.clean_byte ..))
    | _ => rfl

theorem State.coreLoad_clean {s : State} {n len : Nat} {a : Word} (signed : Bool) (rd ilen : Nat)
    (hal : a.toNat % len = 0) (ha : a.toNat < 0x10000)
    (hclean : s.mems.blm.anyBad 4 (s.blmAt n a.toNat) len = false) :
    s.coreLoad n len signed false rd ilen a =
      s.deliver n false rd ilen (loadVal len signed (leNat (s.mems.blm.bytes (s.blmAt n a.toNat) len))) := by
  simp only [State.coreLoad, hal, State.coreAddr_blm s n ha, State.blmRead_clean hclean]
  rfl

theorem State.coreStore_clean {s : State} {n len : Nat} {a : Word} (ilen : Nat) (v : Word) (hal : a.toNat % len = 0)
    (ha : a.toNat < 0x10000) (hclean : s.mems.blm.partBad 4 (s.blmAt n a.toNat) len = false) :
    s.coreStore n len ilen a v = (s.blmStored n a.toNat (leBytes len v.toNat)).goOn n ilen := by
  have hw := State.blmWrite_clean (s := s) (n := n) (off := a.toNat) (d := leBytes len v.toNat)
    (by rwa [leBytes_length])
  simp only [State.coreStore, hal, State.coreAddr_blm s n ha, hw]
  rfl

end Sys2Proof.Machine

namespace Sys2Proof

open Sys2Proof.Machine

/-- Settles O17: by cases over the instruction, each of which completes. -/
theorem beadIntegerInstructions : Obligations.BeadIntegerInstructions := by
  refine fun n s => ⟨fun op rd rs1 rs2 len h => ?alu, fun op rd rs1 imm len h => ?alui,
    fun c rs1 rs2 imm len h => ?branch, fun rd imm len h => ?jal⟩
  case alu =>
    have hr := s.setBead_goOn n.val len (fun b => b.setX rd (op.eval (b.xr rs1) (b.xr rs2))) 1 (BeadSt.setX_pc ..)
    exact ⟨_, exec_base_op h, hr.frame, hr.pc_eq, hr.sameBytes⟩
  case alui =>
    have hr := s.setBead_goOn n.val len (fun b => b.setX rd (op.eval (b.xr rs1) imm)) 1 (BeadSt.setX_pc ..)
    exact ⟨_, exec_base_op h, hr.frame, hr.pc_eq, hr.sameBytes⟩
  case branch =>
    have hr : Retires s (s.rvExec n.val len (.branch c rs1 rs2 imm)) n.val id
        (if c.holds ((s.bead n.val).xr rs1) ((s.bead n.val).xr rs2) then (s.bead n.val).pc + imm
          else (s.bead n.val).pc + BitVec.ofNat 32 len) := by
      unfold State.rvExec
      dsimp only
      split
      · exact s.retire_retires ..
      · exact s.goOn_retires ..
    exact ⟨_, exec_base_op h, hr.frame, hr.sameBytes, hr.pc_eq⟩
  case jal =>
    have hr := Retires.of_setBead (f := id) (g := fun b => b.setX rd (b.pc + BitVec.ofNat 32 len))
      (State.retire_retires (s.setBead n.val _) n.val ((s.bead n.val).pc + imm) 1)
    exact ⟨_, exec_base_op h, hr.frame, hr.sameBytes, hr.pc_eq⟩

/-- Settles O18: each of these ends in the exception of its cause. -/
theorem beadExceptions : Obligations.BeadExceptions := by
  refine fun n s => ⟨fun h => ⟨_, exec_base_op h, s.beadFault_stops n.val (by decide)⟩,
    fun h => ⟨_, exec_base_op h, s.beadFault_stops n.val (by decide)⟩,
    fun hready hfetch => ⟨_, exec_base_stop hready hfetch, s.beadFault_stops n.val (by decide)⟩,
    fun hready heven hout => ⟨_, exec_base_stop hready (State.beadFetch_outside heven hout),
      s.beadFault_stops n.val (by decide)⟩,
    fun len signed fp rd rs1 imm ilen h hal => ⟨_, exec_base_op h, ?misaligned⟩,
    fun len signed fp rd rs1 imm ilen h hal hlo hhi => ⟨_, exec_base_op h, ?unmapped⟩⟩
  case misaligned =>
    rw [State.rvExec, State.coreLoad, if_pos hal]
    exact s.beadFault_stops n.val (by decide)
  case unmapped =>
    rw [State.rvExec, State.coreLoad, if_neg (by simpa using hal), State.coreAddr_none s n.val hlo hhi]
    exact s.beadFault_stops n.val (by decide)

/-- Settles O19: the load delivers what the clean words hold, and the store changes its own bytes. -/
theorem beadLocalAccess : Obligations.BeadLocalAccess := by
  refine fun n s => ⟨fun len signed rd rs1 imm ilen h hal ha hclean => ⟨_, exec_base_op h, ?load⟩,
    fun len rs1 rs2 imm ilen h hal ha hclean => ⟨_, exec_base_op h, ?store⟩⟩
  case load =>
    rw [State.rvExec, State.coreLoad_clean signed rd ilen hal ha hclean]
    have hr := s.deliver_retires n.val rd ilen
      (loadVal len signed (leNat (s.mems.blm.bytes (s.blmAt n.val ((s.bead n.val).xr rs1 + imm).toNat) len)))
    exact ⟨hr.frame, hr.pc_eq, hr.sameBytes⟩
  case store =>
    rw [State.rvExec, if_neg (by simp), State.coreStore_clean ilen _ hal ha hclean]
    exact State.blmStored_retires (leBytes_length ..) (State.goOn_retires _ n.val ilen 1)

end Sys2Proof

/-! PROOF. Vector instructions of the Bead extension (R115–R117). -/

namespace Sys2Proof.Machine

/-! ### Lanes (R115) -/

@[simp] theorem lanesOf_length (w : Nat) (v : BitVec 128) : (lanesOf w v).length = 128 / w := by simp [lanesOf]

theorem lanesOf_lt {w c : Nat} {v : BitVec 128} (h : c ∈ lanesOf w v) : c < 2 ^ w := by
  obtain ⟨i, -, rfl⟩ := List.mem_map.1 h
  exact bitsN_lt ..

/-- Lane `i` of the number that lanes spell. -/
theorem bitsN_laneNat (w : Nat) (l : List Nat) (i : Nat) : bitsN (laneNat w l) (w * i) w = l.getD i 0 % 2 ^ w := by
  induction l generalizing i with
  | nil => simp [laneNat, bitsN]
  | cons x xs ih =>
    cases i with
    | zero => simp [laneNat, bitsN]
    | succ i =>
      have hshift : laneNat w (x :: xs) / 2 ^ w = laneNat w xs := by
        rw [laneNat, Nat.add_mul_div_left _ _ (by positivity), Nat.div_eq_of_lt (Nat.mod_lt _ (by positivity)), Nat.zero_add]
      rw [bitsN, Nat.mul_succ, Nat.add_comm, Nat.pow_add, ← Nat.div_div_eq_div_mul, hshift]
      exact ih i

/-- A register reads back in the lanes that it was made of, each cut to its width. -/
theorem lanesOf_ofLanes {w : Nat} {l : List Nat} (h : w * l.length = 128) :
    lanesOf w (ofLanes w l) = l.map (· % 2 ^ w) := by
  have hw : 0 < w := Nat.pos_of_ne_zero fun h0 => by simp [h0] at h
  have hlen : 128 / w = l.length := Nat.div_eq_of_eq_mul_right hw h.symm
  refine List.ext_getElem (by simp [hlen]) fun i hi hi' => ?_
  have hil : i < l.length := by simpa using hi'
  have hsum : w * i + w ≤ 128 := by
    rw [← h, ← Nat.mul_succ]
    exact Nat.mul_le_mul_left w hil
  have hcut : bitsN (laneNat w l % 2 ^ 128) (w * i) w = bitsN (laneNat w l) (w * i) w := by
    refine Nat.eq_of_testBit_eq fun j => ?_
    simp only [testBit_bitsN, Nat.testBit_mod_two_pow]
    by_cases hj : j < w
    · simp [hj, show w * i + j < 128 by omega]
    · simp [hj]
  simp only [lanesOf, ofLanes, List.getElem_map, List.getElem_range, BitVec.toNat_ofNat, hcut, bitsN_laneNat]
  simp [List.getD_eq_getElem?_getD, hil]

/-- Lanes enter a register cut to their width. -/
theorem ofLanes_mod (w : Nat) (l : List Nat) : ofLanes w (l.map (· % 2 ^ w)) = ofLanes w l := by
  have h : laneNat w (l.map (· % 2 ^ w)) = laneNat w l := by
    induction l with
    | nil => rfl
    | cons x xs ih => simp only [List.map_cons, laneNat, Nat.mod_mod, ih]
  rw [ofLanes, h, ofLanes]

theorem lanesOf_ofLanes_of_lt {w : Nat} {l : List Nat} (h : w * l.length = 128) (hl : ∀ c ∈ l, c < 2 ^ w) :
    lanesOf w (ofLanes w l) = l := by
  rw [lanesOf_ofLanes h]
  exact (List.map_congr_left fun c hc => Nat.mod_eq_of_lt (hl c hc)).trans l.map_id'

/-! ### An instruction of the extension (R116) -/

section Ext

variable {s : State} {n : Nat} {form : ExtForm} {ty : BitVec 2} {rd rs1 rs2 : BitVec 5}
  {run : Nat → Nat → Nat → Nat → State}

theorem State.ext_of_legal (hready : s.beadReady n = true)
    (h : form.legal ty.toNat rd.toNat rs1.toNat rs2.toNat = true) :
    s.ext n form ty rd rs1 rs2 run = .next (run ty.toNat rd.toNat rs1.toNat rs2.toNat) := by
  simp [State.ext, hready, h]

/-- Fields that are not legal raise an illegal-instruction exception. -/
theorem State.ext_of_illegal (hready : s.beadReady n = true)
    (h : form.legal ty.toNat rd.toNat rs1.toNat rs2.toNat = false) :
    s.ext n form ty rd rs1 rs2 run = .next (s.beadFault n 2) := by
  simp [State.ext, hready, h]

end Ext

/-! ### A vector result (R117) -/

section VectorResult

variable (s : State) (n rd : Nat)

/-- A vector result is written with its flags. -/
theorem State.vDone_retires (w : Nat) (rs : List FRes) :
    Retires s (s.vDone n rd w rs) n
      (fun b => (b.setV rd (ofLanes w (rs.map FRes.code))).accrue (rs.foldl (fun a r => a ||| r.fl) 0))
      ((s.bead n).pc + 4) := by
  have h := s.setBead_goOn n 4
    (fun b => (b.setV rd (ofLanes w (rs.map FRes.code))).accrue (rs.foldl (fun a r => a ||| r.fl) 0)) 1 rfl
  exact h

/-- Nothing but the destination, the flags, the pc and the counters changes. -/
theorem State.vDone_frame (w : Nat) (rs : List FRes) :
    let t := s.vDone n rd w rs
    (t.bead n).vr rd = ofLanes w (rs.map FRes.code) ∧
      (t.bead n).fcsr = (s.bead n).fcsr ||| BitVec.ofNat 8 (rs.foldl (fun a r => a ||| r.fl) 0 % 32) ∧
      (∀ r, r ≠ rd → (t.bead n).vr r = (s.bead n).vr r) ∧ (t.bead n).x = (s.bead n).x ∧
      (∀ m, m ≠ n → t.bead m = s.bead m) ∧ SameBytes s t ∧ ∀ o, o ≠ BEAD_ECC n → t.rd o = s.rd o := by
  have hr := s.vDone_retires n rd w rs
  have hv := hr.bead_part BeadSt.v fun _ _ _ _ _ => rfl
  refine ⟨?_, hr.bead_part BeadSt.fcsr fun _ _ _ _ _ => rfl, fun r hne => ?_,
    hr.bead_part BeadSt.x fun _ _ _ _ _ => rfl, fun m hm => hr.other hm, hr.sameBytes, fun o ho => hr.rd_eq ho⟩
  · rw [BeadSt.vr, hv]
    exact kget_kput_same ..
  · rw [BeadSt.vr, hv]
    exact kget_kput_ne _ _ _ (Ne.symm hne)

/-- An integer result raises no flag. -/
theorem State.vDone_int_retires (w : Nat) (xs : List Nat) :
    Retires s (s.vDone n rd w (xs.map fun x => ⟨x, 0⟩)) n (fun b => b.setV rd (ofLanes w xs)) ((s.bead n).pc + 4) := by
  have hfl : (xs.map fun x => (⟨x, 0⟩ : FRes)).foldl (fun a r => a ||| r.fl) 0 = 0 := by
    induction xs with
    | nil => rfl
    | cons x xs ih => simpa using ih
  have hcode : (xs.map fun x => (⟨x, 0⟩ : FRes)).map FRes.code = xs := by simp [Function.comp_def]
  have haccrue : ∀ b : BeadSt, b.accrue 0 = b := fun b => by simp [BeadSt.accrue]
  have h := s.vDone_retires n rd w (xs.map fun x => ⟨x, 0⟩)
  simpa only [hfl, hcode, haccrue] using h

/-! #### Integer lanes -/

variable (rs1 rs2 : Nat)

/-- Integer lanes wrap modulo 2^16. -/
theorem State.vArith_int_retires (int : Nat → Nat → Nat) (fp : Bin → Rm → FVal → FVal → FRes) :
    Retires s (s.vArith n 0 rd rs1 rs2 int fp) n
      (fun b => b.setV rd (ofLanes 16 (List.zipWith (fun x y => int x y % 65536) (s.vl n 0 rs1) (s.vl n 0 rs2))))
      ((s.bead n).pc + 4) := by
  have h := s.vDone_int_retires n rd 16 (List.zipWith int (s.vl n 0 rs1) (s.vl n 0 rs2))
  rw [← ofLanes_mod, List.map_zipWith, List.map_zipWith] at h
  exact h

theorem State.vMac_int_retires :
    Retires s (s.vMac n 0 rd rs1 rs2) n
      (fun b => b.setV rd (ofLanes 16 (List.zipWith (fun d p => (d + p) % 65536) (s.vl n 0 rd)
        (List.zipWith (fun x y => x * y) (s.vl n 0 rs1) (s.vl n 0 rs2))))) ((s.bead n).pc + 4) := by
  have h := s.vDone_int_retires n rd 16 (List.zipWith (fun d p => d + p) (s.vl n 0 rd)
    (List.zipWith (fun x y => x * y) (s.vl n 0 rs1) (s.vl n 0 rs2)))
  rw [← ofLanes_mod, List.map_zipWith, List.map_zipWith] at h
  have hrun : s.vMac n 0 rd rs1 rs2 = s.vDone n rd 16 (List.zipWith (fun d p => ⟨d + p, 0⟩) (s.vl n 0 rd)
      (List.zipWith (fun x y => x * y) (s.vl n 0 rs1) (s.vl n 0 rs2))) := by
    simp only [State.vMac, tyFmt, ← List.map_uncurry_zip_eq_zipWith, List.zip_map_right, List.map_map]
    rfl
  rw [hrun]
  exact h

/-- VMAX and VMIN compare integer lanes signed. -/
theorem State.vPick_int_retires (isMax : Bool) :
    Retires s (s.vPick n 0 rd rs1 rs2 isMax) n
      (fun b => b.setV rd (ofLanes 16 (List.zipWith
        (fun x y => if decide (signedN 16 y < signedN 16 x) = isMax then x else y) (s.vl n 0 rs1) (s.vl n 0 rs2))))
      ((s.bead n).pc + 4) := by
  have h := s.vDone_int_retires n rd 16 (List.zipWith
    (fun x y => if decide (signedN 16 y < signedN 16 x) = isMax then x else y) (s.vl n 0 rs1) (s.vl n 0 rs2))
  rw [List.map_zipWith] at h
  have hrun : s.vPick n 0 rd rs1 rs2 isMax = s.vDone n rd 16 (List.zipWith
      (fun x y => ⟨if decide (signedN 16 y < signedN 16 x) = isMax then x else y, 0⟩) (s.vl n 0 rs1) (s.vl n 0 rs2)) := by
    simp only [State.vPick, tyFmt, List.zip, List.map_zipWith]
  rw [hrun]
  exact h

end VectorResult

end Sys2Proof.Machine

namespace Sys2Proof.Machine

/-! ### The rows of the extension -/

section Rows

variable (n : Fin 4096) (ty : BitVec 2) (rd rs1 rs2 : BitVec 5) (s : State)

theorem exec_vadd : exec (.vadd n ty rd rs1 rs2) s = execVadd n ty rd rs1 rs2 s := rfl
theorem exec_vsub : exec (.vsub n ty rd rs1 rs2) s = execVsub n ty rd rs1 rs2 s := rfl
theorem exec_vmul : exec (.vmul n ty rd rs1 rs2) s = execVmul n ty rd rs1 rs2 s := rfl
theorem exec_vmac : exec (.vmac n ty rd rs1 rs2) s = execVmac n ty rd rs1 rs2 s := rfl
theorem exec_vmax : exec (.vmax n ty rd rs1 rs2) s = execVmax n ty rd rs1 rs2 s := rfl
theorem exec_vmin : exec (.vmin n ty rd rs1 rs2) s = execVmin n ty rd rs1 rs2 s := rfl
theorem exec_vcvt : exec (.vcvt n ty rd rs1 rs2) s = execVcvt n ty rd rs1 rs2 s := rfl
theorem exec_vsplat : exec (.vsplat n ty rd rs1 rs2) s = execVsplat n ty rd rs1 rs2 s := rfl
theorem exec_vext : exec (.vext n ty rd rs1 rs2) s = execVext n ty rd rs1 rs2 s := rfl
theorem exec_vld : exec (.vld n ty rd rs1 rs2) s = execVld n ty rd rs1 rs2 s := rfl
theorem exec_vst : exec (.vst n ty rd rs1 rs2) s = execVst n ty rd rs1 rs2 s := rfl
theorem exec_wclr : exec (.wclr n ty rd rs1 rs2) s = execWclr n ty rd rs1 rs2 s := rfl
theorem exec_wdot : exec (.wdot n ty rd rs1 rs2) s = execWdot n ty rd rs1 rs2 s := rfl
theorem exec_wsum : exec (.wsum n ty rd rs1 rs2) s = execWsum n ty rd rs1 rs2 s := rfl
theorem exec_wadd : exec (.wadd n ty rd rs1 rs2) s = execWadd n ty rd rs1 rs2 s := rfl
theorem exec_cmpset : exec (.cmpset n ty rd rs1 rs2) s = execCmpset n ty rd rs1 rs2 s := rfl
theorem exec_count : exec (.count n ty rd rs1 rs2) s = execCount n ty rd rs1 rs2 s := rfl
theorem exec_yield : exec (.yield n ty rd rs1 rs2) s = execYield n ty rd rs1 rs2 s := rfl

end Rows

/-! ### Legal fields (R116) -/

theorem legal_of_vecReady {s : State} {n : Nat} {rd rs1 rs2 : BitVec 5} (h : VecReady s n [rd, rs1, rs2]) (ty : Nat) :
    formVVV.legal ty rd.toNat rs1.toNat rs2.toNat = true := by
  obtain ⟨-, hregs⟩ := h
  simpa [ExtForm.legal, FieldKind.ok, and_assoc] using hregs

/-- An instruction whose fields are not legal stops the core with cause 2. -/
theorem State.illegal_stops {s : State} {n : Nat} {i : Instr} {form : ExtForm} {ty : BitVec 2} {rd rs1 rs2 : BitVec 5}
    {run : Nat → Nat → Nat → Nat → State} (hi : exec i s = s.ext n form ty rd rs1 rs2 run)
    (hready : s.beadReady n = true) (hill : form.legal ty.toNat rd.toNat rs1.toNat rs2.toNat = false) :
    Completes i s fun t => t.beadState n = bdFAULT ∧ t.fld (BEAD_STATUS_CAUSE n) = 2 ∧ t.beads = s.beads ∧
      SameBytes s t ∧ OnlyRegs (fun o => o = BEAD_STATUS n ∨ o = BEAD_PC n) s t := by
  obtain ⟨hstate, hcause, -, hbeads, hbytes, hregs, -⟩ := s.beadFault_stops n (cause := 2) (by decide)
  exact ⟨_, hi.trans (State.ext_of_illegal hready hill), hstate, hcause, hbeads, hbytes, hregs⟩

theorem ty_ne_zero {ty : BitVec 2} (h : ty ≠ 0) : ty.toNat ≠ 0 := fun h0 => h (BitVec.eq_of_toNat_eq h0)

/-- What VSUB adds is the opposite of a lane. -/
theorem zipWith_sub_lanes {l m : List Nat} (h : ∀ c ∈ m, c ≤ 65536) :
    List.zipWith (fun a b => (a + 65536 - b) % 65536) l m = List.zipWith (fun a b => (a + (65536 - b)) % 65536) l m := by
  refine List.ext_getElem (by simp) fun i hi hi' => ?_
  have him : i < m.length := (List.length_zipWith ▸ hi).trans_le (min_le_right ..)
  rw [List.getElem_zipWith, List.getElem_zipWith, Nat.add_sub_assoc (h _ (List.getElem_mem him))]

/-- A command that retires completes with its frame. -/
theorem Retires.completes {s t : State} {n : Nat} {i : Instr} {f : BeadSt → BeadSt} {pc : Word} (hi : exec i s = .next t)
    (h : Retires s t n f pc) :
    Completes i s fun t => CoreFrame s t n f ∧ (t.bead n).pc = pc ∧ SameBytes s t :=
  ⟨t, hi, h.frame, h.pc_eq, h.sameBytes⟩

end Sys2Proof.Machine

namespace Sys2Proof

open Sys2Proof.Machine

/-- Settles O20: legal words give lanes that wrap or compare signed; in every other clause a field is not legal. -/
theorem vectorInteger : Obligations.VectorInteger := by
  refine ⟨fun n rd rs1 rs2 s h => ?lanes, fun n ty rd rs1 rs2 s hready => ?illegal⟩
  case lanes =>
    have hlegal := legal_of_vecReady h 0
    refine ⟨?add, ?sub, ?mul, ?mac, ?max, ?min⟩
    case add =>
      exact (s.vArith_int_retires n.val rd.toNat rs1.toNat rs2.toNat (fun x y => x + y) _).completes
        ((exec_vadd ..).trans (State.ext_of_legal h.1 hlegal))
    case sub =>
      have hr := s.vArith_int_retires n.val rd.toNat rs1.toNat rs2.toNat (fun x y => x + (65536 - y))
        fun f rm x y => f.addV rm x y.flip
      rw [← zipWith_sub_lanes (m := s.vl n.val 0 rs2.toNat) fun c hc => (lanesOf_lt (w := 16) hc).le] at hr
      exact hr.completes ((exec_vsub ..).trans (State.ext_of_legal h.1 hlegal))
    case mul =>
      exact (s.vArith_int_retires n.val rd.toNat rs1.toNat rs2.toNat (fun x y => x * y) _).completes
        ((exec_vmul ..).trans (State.ext_of_legal h.1 hlegal))
    case mac =>
      exact (s.vMac_int_retires n.val rd.toNat rs1.toNat rs2.toNat).completes ((exec_vmac ..).trans (State.ext_of_legal h.1 hlegal))
    case max =>
      have hr := s.vPick_int_retires n.val rd.toNat rs1.toNat rs2.toNat true
      simp only [decide_eq_true_eq] at hr
      exact hr.completes ((exec_vmax ..).trans (State.ext_of_legal h.1 hlegal))
    case min =>
      have hr := s.vPick_int_retires n.val rd.toNat rs1.toNat rs2.toNat false
      simp only [decide_eq_false_iff_not, ite_not] at hr
      exact hr.completes ((exec_vmin ..).trans (State.ext_of_legal h.1 hlegal))
  case illegal =>
    refine ⟨fun h => ⟨?_, ?_, ?_⟩, fun h => ⟨?_, ?_⟩, fun h => ⟨?_, ?_⟩, fun h => ⟨?_, ?_, ?_, ?_⟩⟩
    · exact State.illegal_stops (exec_vadd ..) hready (by simp [ExtForm.legal, FieldKind.ok, h])
    · exact State.illegal_stops (exec_vmac ..) hready (by simp [ExtForm.legal, FieldKind.ok, h])
    · exact State.illegal_stops (exec_vld ..) hready (by simp [ExtForm.legal, FieldKind.ok, h])
    · exact State.illegal_stops (exec_vmax ..) hready (by simp [ExtForm.legal, FieldKind.ok, h])
    · exact State.illegal_stops (exec_wdot ..) hready (by simp [ExtForm.legal, FieldKind.ok, h])
    · exact State.illegal_stops (exec_wclr ..) hready (by simp [ExtForm.legal, FieldKind.ok, h])
    · exact State.illegal_stops (exec_wsum ..) hready (by simp [ExtForm.legal, FieldKind.ok, h])
    · exact State.illegal_stops (exec_vst ..) hready (by simp [ExtForm.legal, ty_ne_zero h])
    · exact State.illegal_stops (exec_wadd ..) hready (by simp [ExtForm.legal, ty_ne_zero h])
    · exact State.illegal_stops (exec_cmpset ..) hready (by simp [ExtForm.legal, ty_ne_zero h])
    · exact State.illegal_stops (exec_yield ..) hready (by simp [ExtForm.legal, ty_ne_zero h])

end Sys2Proof

namespace Sys2Proof.Machine

/-! ### Floating lanes (R111, R117) -/

/-- A rounded magnitude is at most infinity's. -/
theorem Bin.pack_code_le (f : Bin) (rm : Rm) (neg : Bool) (q : Fr) :
    (f.pack rm neg q).code ≤ f.infCode + f.signBit neg := by
  unfold Bin.pack
  extract_lets sg a c
  split_ifs with hzero hover hinf
  · exact Nat.le_add_left ..
  · exact le_rfl
  · exact Nat.add_le_add_right (Nat.sub_le ..) _
  all_goals exact Nat.add_le_add_right (Nat.le_of_not_le hover) _

/-- A lane converted to FP16 has 16 bits. -/
theorem Bin.convert_fp16_lt (f : Bin) (rm : Rm) (c : Nat) : (f.convert fFP16 rm c).code < 2 ^ 16 := by
  have hsign : ∀ neg, fFP16.infCode + fFP16.signBit neg < 2 ^ 16 := by decide
  unfold Bin.convert
  split
  · exact (by decide : fFP16.nanCode < 2 ^ 16)
  · exact hsign _
  · exact (fFP16.pack_code_le ..).trans_lt (hsign _)

/-- A floating operation of two lanes rounds under fcsr.frm. -/
theorem State.vArith_fp {s : State} {n ty : Nat} {f : Bin} {rm : Rm} (hf : tyFmt ty = some f)
    (hrm : rmOf ((s.bead n).fcsr.toNat / 32) = some rm) (rd rs1 rs2 : Nat) (int : Nat → Nat → Nat)
    (fp : Bin → Rm → FVal → FVal → FRes) :
    s.vArith n ty rd rs1 rs2 int fp = s.vDone n rd (tyBits ty)
      (List.zipWith (fun a b => fp f rm (f.read a) (f.read b)) (s.vl n ty rs1) (s.vl n ty rs2)) := by
  simp [State.vArith, hf, State.withRm, BeadSt.rm, hrm]

/-- What VCVT from FP32 to FP16 in the high half writes: four lanes kept, four converted. -/
def State.cvtHigh (s : State) (n : Nat) (rm : Rm) (rd rs1 : Nat) : List FRes :=
  ((lanesOf 16 ((s.bead n).vr rd)).map fun c => ⟨c, 0⟩).take 4 ++
    (lanesOf 32 ((s.bead n).vr rs1)).map (fFP32.convert fFP16 rm)

theorem State.vCvt_high {s : State} {n : Nat} {rm : Rm} (hrm : rmOf ((s.bead n).fcsr.toNat / 32) = some rm)
    (rd rs1 : Nat) : s.vCvt n 3 rd rs1 6 = s.vDone n rd 16 (s.cvtHigh n rm rd rs1) := by
  have hmode : (s.bead n).rm 7 = some rm := hrm
  have hrun : s.vCvt n 3 rd rs1 6 = s.withRm n 7 fun rm => s.vDone n rd 16
      (s.cvtHigh n rm rd rs1 ++ ((lanesOf 16 ((s.bead n).vr rd)).map fun c => ⟨c, 0⟩).drop 8) := rfl
  have hnone : ((lanesOf 16 ((s.bead n).vr rd)).map fun c => (⟨c, 0⟩ : FRes)).drop 8 = [] :=
    List.drop_eq_nil_of_le (by simp)
  simp only [hrun, State.withRm, hmode, hnone, List.append_nil]

theorem State.cvtHigh_codes (s : State) (n : Nat) (rm : Rm) (rd rs1 : Nat) :
    (s.cvtHigh n rm rd rs1).map FRes.code = (lanesOf 16 ((s.bead n).vr rd)).take 4 ++
      (lanesOf 32 ((s.bead n).vr rs1)).map fun c => (fFP32.convert fFP16 rm c).code := by
  simp [State.cvtHigh, Function.comp_def]

/-- Each of them fits its lane. -/
theorem State.cvtHigh_lanes (s : State) (n : Nat) (rm : Rm) (rd rs1 : Nat) :
    lanesOf 16 (ofLanes 16 ((s.cvtHigh n rm rd rs1).map FRes.code)) = (s.cvtHigh n rm rd rs1).map FRes.code := by
  refine lanesOf_ofLanes_of_lt (by simp [State.cvtHigh]) fun c hc => ?_
  rw [State.cvtHigh_codes] at hc
  rcases List.mem_append.1 hc with hold | hnew
  · exact lanesOf_lt (List.mem_of_mem_take hold)
  · obtain ⟨x, -, rfl⟩ := List.mem_map.1 hnew
    exact Bin.convert_fp16_lt ..

theorem signedN_lane_bounds (c : Nat) : -32768 ≤ signedN 16 c ∧ signedN 16 c < 32768 := by
  have h : c % 2 ^ 16 < 2 ^ 16 := Nat.mod_lt _ (by norm_num)
  rw [signedN_congr (Nat.mod_mod c (2 ^ 16)).symm, signedN_of_lt h]
  split <;> omega

/-- A lane of 16 bits extends to a register with its sign. -/
theorem immS_toInt (c : Nat) : (immS 16 c).toInt = signedN 16 c := by
  obtain ⟨hlo, hhi⟩ := signedN_lane_bounds c
  rw [immS, BitVec.toInt_ofInt]
  exact Int.bmod_eq_of_le (by norm_num; omega) (by norm_num; omega)

theorem execVext_int {n : Fin 4096} {rd rs1 rs2 : BitVec 5} {s : State} (h : VecReady s n.val [rs1])
    (hlane : rs2.toNat < 8) :
    exec (.vext n 0 rd rs1 rs2) s = .next ((s.setBead n.val ((s.bead n.val).setX rd.toNat
      (immS 16 ((lanesOf 16 ((s.bead n.val).vr rs1.toNat)).getD rs2.toNat 0)))).goOn n.val 4) := by
  obtain ⟨hready, hregs⟩ := h
  have hlegal : formXV.legal (0 : BitVec 2).toNat rd.toNat rs1.toNat rs2.toNat = true := by
    simpa [ExtForm.legal, FieldKind.ok] using hregs
  have hi : rs2.toNat < (lanesOf 16 ((s.bead n.val).vr rs1.toNat)).length := by simpa using hlane
  have hget : (s.vl n.val 0 rs1.toNat)[rs2.toNat % 8]? =
      some ((lanesOf 16 ((s.bead n.val).vr rs1.toNat)).getD rs2.toNat 0) := by
    rw [Nat.mod_eq_of_lt hlane, List.getD_eq_getElem _ _ hi]
    exact List.getElem?_eq_getElem hi
  refine (exec_vext ..).trans ((State.ext_of_legal hready hlegal).trans ?_)
  change Host.Outcome.next (match (s.vl n.val 0 rs1.toNat)[rs2.toNat % 8]? with | some c => _ | none => _) = _
  rw [hget]
  rfl

end Sys2Proof.Machine

namespace Sys2Proof

open Sys2Proof.Machine

/-- Settles O21: each result is the list of lanes that its operation gives. -/
theorem vectorFloat : Obligations.VectorFloat := by
  refine ⟨fun n ty f rm rd rs1 rs2 s h hf hrm => ?add, fun n rd rs1 rm s h hrm => ?cvt, fun n rd rs1 rs2 s h => ?splat,
    fun n rd rs1 rs2 s h hlane hrd => ?ext⟩
  case add =>
    refine ⟨_, (exec_vadd ..).trans (State.ext_of_legal h.1 (legal_of_vecReady h _)), ?_⟩
    rw [State.vArith_fp hf hrm]
    exact s.vDone_frame ..
  case cvt =>
    have hlegal : formVV.legal (3 : BitVec 2).toNat rd.toNat rs1.toNat (6 : BitVec 5).toNat = true := by
      simpa [ExtForm.legal, FieldKind.ok] using h.2
    have hexec : exec (.vcvt n 3 rd rs1 6) s = .next (s.vCvt n.val 3 rd.toNat rs1.toNat 6) :=
      (exec_vcvt ..).trans (State.ext_of_legal h.1 hlegal)
    rw [State.vCvt_high hrm] at hexec
    obtain ⟨hrd, -, hother, -, -, hbytes, hregs⟩ := s.vDone_frame n.val rd.toNat 16 (s.cvtHigh n.val rm rd.toNat rs1.toNat)
    refine ⟨_, hexec, ?_, ?_, hother, hbytes, hregs⟩
    · rw [hrd, State.cvtHigh_lanes, State.cvtHigh_codes, List.take_left' (by simp)]
    · rw [hrd, State.cvtHigh_lanes, State.cvtHigh_codes, List.drop_left' (by simp)]
  case splat =>
    have hlegal : formVX.legal (3 : BitVec 2).toNat rd.toNat rs1.toNat rs2.toNat = true := by
      simpa [ExtForm.legal, FieldKind.ok] using h.2
    have hexec : exec (.vsplat n 3 rd rs1 rs2) s =
        .next (s.vDone n.val rd.toNat 32 (List.replicate 4 ⟨((s.bead n.val).xr rs1.toNat).toNat, 0⟩)) :=
      (exec_vsplat ..).trans (State.ext_of_legal h.1 hlegal)
    obtain ⟨hrd, -, hother, -, -, hbytes, hregs⟩ := s.vDone_frame n.val rd.toNat 32 (List.replicate 4 ⟨((s.bead n.val).xr rs1.toNat).toNat, 0⟩)
    refine ⟨_, hexec, ?_, hother, hbytes, hregs⟩
    rw [hrd, List.map_replicate, lanesOf_ofLanes_of_lt (by simp) fun c hc => ?_]
    rw [List.eq_of_mem_replicate hc]
    exact BitVec.isLt _
  case ext =>
    have hne : rd.toNat ≠ 0 := fun h0 => hrd (BitVec.eq_of_toNat_eq h0)
    have hr := s.setBead_goOn n.val 4 (fun b => b.setX rd.toNat
      (immS 16 ((lanesOf 16 ((s.bead n.val).vr rs1.toNat)).getD rs2.toNat 0))) 1 (BeadSt.setX_pc ..)
    refine ⟨_, execVext_int h hlane, ?_, ?_, hr.sameBytes, fun o ho => hr.rd_eq ho⟩
    · rw [hr.bead_part (fun b => b.xr rd.toNat) fun _ _ _ _ _ => rfl, BeadSt.xr_setX, if_neg hne, immS_toInt]
    · exact (hr.bead_part BeadSt.v fun _ _ _ _ _ => rfl).trans (BeadSt.setX_v ..)

end Sys2Proof

/-! PROOF. Read-modify-writes on Bead local memories (R127), and control of a Bead (R129, R130, R133). -/

namespace Sys2Proof.Machine

/-! ### CMPSET and COUNT at a Bead local memory (R127) -/

theorem State.target_blm (s : State) (src : Nat) {n off : Nat} (hn : n < 4096) (hoff : off < 0x10000) :
    s.target src (aliasAddr 0x40000000 (n * 0x10000 + off)) = .blm n off := by
  obtain ⟨hchip, hlocal⟩ := aliasAddr_chip_local (base := 0x40000000) (ofs := n * 0x10000 + off) (by omega)
  have hnode : (0x40000000 + (n * 0x10000 + off) - 0x40000000) / 0x10000 = n := by omega
  have hbyte : (0x40000000 + (n * 0x10000 + off)) % 0x10000 = off := by omega
  simp only [State.target, hchip, hlocal, hnode, hbyte]
  grind

/-- A word reads as it was written. -/
theorem Memory.word_putBytes (m : Memory) (a : Nat) (v : Word) :
    BitVec.ofNat 32 (leNat ((m.putBytes a (leBytes 4 v.toNat)).bytes a 4)) = v := by
  have hb := m.bytes_putBytes_same a (leBytes 4 v.toNat)
  rw [leBytes_length] at hb
  rw [hb, leNat_leBytes, Nat.mod_eq_of_lt (b := 256 ^ 4) v.isLt, BitVec.ofNat_toNat, BitVec.setWidth_eq]

theorem State.replied_ok {s : State} {r : Reply} (h : r.st = ST_OK) (src : Nat) (a : BitVec 64) :
    s.replied src a r = { s with reply := r } := if_pos h

/-- The word of node `n`'s local memory at byte `off`. -/
def State.blmWord (s : State) (n off : Nat) : Word := BitVec.ofNat 32 (leNat (s.mems.blm.bytes (s.blmAt n off) 4))

/-- The state after a granted read-modify-write of that word by `src`. -/
def State.blmRmw (s : State) (src n off : Nat) (f : Word → Word) : State :=
  (s.granted (.blm n) src).setMem .blm (s.mems.blm.putBytes (s.blmAt n off) (leBytes 4 (f (s.blmWord n off)).toNat))

section MeshRmw

variable {s : State} {src n off : Nat}

/-- A read-modify-write of a clean word, as its target performs it. -/
theorem State.rmw_blm {a : BitVec 64} (f : Word → Word) (ht : s.target src a = .blm n off)
    (hclean : s.mems.blm.bad (s.blmAt n off / 4) = false) :
    (s.grantAt (s.target src a) src).rmw src a f =
      ({ st := ST_OK, data := leBytes 4 (s.blmWord n off).toNat }, s.blmRmw src n off f) := by
  have htarget : (s.granted (.blm n) src).target src a = .blm n off := ht
  have hbad : (s.granted (.blm n) src).mems.blm.bad
      (((s.granted (.blm n) src).physBead n * 0x10000 + off) / 4) = false := hclean
  rw [ht]
  change (s.granted (.blm n) src).rmw src a f = _
  simp only [State.rmw, htarget, hbad]
  rfl

/-- In a quiet fabric the mesh answers a read-modify-write with the old word and writes the new one. -/
theorem State.completes_meshRmw {i : Instr} {op : ReqOp} {f : Word → Word} (hq : FabricQuiet s) (hn : n < 4096)
    (hoff : off < 0x10000) (hal : off % 4 = 0) (hclean : s.mems.blm.bad (s.blmAt n off / 4) = false)
    (hi : exec i s = .next (s.rmwRequest src (aliasAddr 0x40000000 (n * 0x10000 + off)) op).hostFree)
    (hop : s.perform src (aliasAddr 0x40000000 (n * 0x10000 + off)) op =
      (s.grantAt (s.target src (aliasAddr 0x40000000 (n * 0x10000 + off))) src).rmw src
        (aliasAddr 0x40000000 (n * 0x10000 + off)) f) :
    Completes i s fun t => t.reply.st = ST_OK ∧ t.reply.data = leBytes 4 (s.blmWord n off).toNat ∧
      BitVec.ofNat 32 (leNat (t.mems.blm.bytes (s.blmAt n off) 4)) = f (s.blmWord n off) ∧
      SameBytesBut .blm (s.blmAt n off) 4 s t ∧ SameUnits s t ∧ OnlyRegs (fun _ => False) s t := by
  have haligned : (aliasAddr 0x40000000 (n * 0x10000 + off)).toNat % 4 = 0 := by
    rw [aliasAddr_toNat (by omega)]
    omega
  have hquiet : FabricQuiet (s.blmRmw src n off f) := hq
  rw [State.rmw_blm f (s.target_blm src hn hoff) hclean] at hop
  rw [State.rmwRequest, if_neg (by simpa using haligned), State.memRequest_of_quiet hq hop hquiet,
    State.hostFree_of_quiet hquiet.replied, State.replied_ok rfl] at hi
  refine ⟨_, hi, rfl, rfl, Memory.word_putBytes .., fun sp x hx => ?_, ⟨rfl, rfl, rfl, rfl, rfl⟩, fun _ _ _ => rfl⟩
  cases sp with
  | blm => exact (Memory.byte_putBytes ..).trans (if_neg (by simpa using hx))
  | _ => rfl

end MeshRmw

/-- A read-modify-write by the core of an aligned clean word of its own. -/
theorem State.coreRmw_clean {s : State} {n : Nat} {a : Word} (rd : Nat) (op : ReqOp) (f : Word → Word)
    (ha : a.toNat < 0x10000) (hal : a.toNat % 4 = 0) (hclean : s.mems.blm.anyBad 4 (s.blmAt n a.toNat) 4 = false) :
    s.coreRmw n rd a op f =
      (s.blmStored n a.toNat (leBytes 4 (f (s.blmWord n a.toNat)).toNat)).deliver n false rd 4 (s.blmWord n a.toNat) := by
  have hw := State.blmWrite_clean (s := s) (n := n) (off := a.toNat) (d := leBytes 4 (f (s.blmWord n a.toNat)).toNat)
    (by rw [leBytes_length]; exact Memory.partBad_of_not_anyBad hclean)
  rw [State.coreRmw, if_neg (by simpa using hal), State.coreAddr_blm s n ha, ← hw]
  simp only [State.blmRead_clean hclean]
  rfl

/-- It writes the new word and delivers the old one. -/
theorem State.completes_coreRmw {s : State} {n : Nat} {a : Word} {rd : Nat} {i : Instr} {op : ReqOp} {f : Word → Word}
    (ha : a.toNat < 0x10000) (hal : a.toNat % 4 = 0) (hclean : s.mems.blm.anyBad 4 (s.blmAt n a.toNat) 4 = false)
    (hi : exec i s = .next (s.coreRmw n rd a op f)) :
    Completes i s fun t =>
      BitVec.ofNat 32 (leNat (t.mems.blm.bytes (s.blmAt n a.toNat) 4)) = f (s.blmWord n a.toNat) ∧
      CoreFrame s t n (fun b => b.setX rd (s.blmWord n a.toNat)) ∧ SameBytesBut .blm (s.blmAt n a.toNat) 4 s t := by
  rw [State.coreRmw_clean rd op f ha hal hclean] at hi
  obtain ⟨hframe, -, hbytes, hbut⟩ := State.blmStored_retires (leBytes_length ..) (State.deliver_retires
    (s.blmStored n a.toNat (leBytes 4 (f (s.blmWord n a.toNat)).toNat)) n rd 4 (s.blmWord n a.toNat))
  refine ⟨_, hi, ?_, hframe, hbut⟩
  rw [hbytes, leNat_leBytes, Nat.mod_eq_of_lt (b := 256 ^ 4) (BitVec.isLt _), BitVec.ofNat_toNat, BitVec.setWidth_eq]

end Sys2Proof.Machine

namespace Sys2Proof

open Sys2Proof.Machine

/-- Settles O24: both are one word read, changed by their function and written back. -/
theorem readModifyWrite : Obligations.ReadModifyWrite := by
  refine ⟨fun src n off x y s hq hoff hal hclean => ⟨?_, ?_⟩,
    fun n rd rs1 rs2 s hready ha hal hclean => ⟨?_, ?_⟩⟩
  · exact State.completes_meshRmw (f := cmpsetF x y) (op := .cmpset x y) hq n.isLt hoff hal hclean rfl rfl
  · exact State.completes_meshRmw (f := countF x) (op := .count x) hq n.isLt hoff hal hclean rfl rfl
  · exact State.completes_coreRmw (f := cmpsetF ((s.bead n.val).xr rd.toNat) ((s.bead n.val).xr rs2.toNat)) ha hal hclean
      ((exec_cmpset ..).trans (State.ext_of_legal hready rfl))
  · exact State.completes_coreRmw (f := countF ((s.bead n.val).xr rs2.toNat)) ha hal hclean
      ((exec_count ..).trans (State.ext_of_legal hready rfl))

end Sys2Proof

namespace Sys2Proof

open Sys2Proof.Machine

/-! ### Registers that an update may change -/

section Chg

variable {s t : State} {chg : Nat → Prop}

theorem OnlyRegs.refl (s : State) (chg : Nat → Prop) : OnlyRegs chg s s := fun _ _ _ => rfl

theorem OnlyRegs.wr (h : OnlyRegs chg s t) {o : Nat} (v : Word) (ho : chg o) : OnlyRegs chg s (t.wr o v) := by
  intro p hp hc
  have hne : o ≠ p := fun e => hc (e ▸ ho)
  rw [State.rd_wr, if_neg hne]
  exact h p hp hc

theorem OnlyRegs.setF (h : OnlyRegs chg s t) {F : Fld} (v : Nat) (hF : chg F.off) : OnlyRegs chg s (t.setF F v) :=
  h.wr _ hF

end Chg

end Sys2Proof

namespace Sys2Proof.Machine

/-! ### Control of a Bead (R129, R130, R133) -/

/-- The registers that the control of node `n` changes. -/
def beadControlRegs (n o : Nat) : Prop := o = BEAD_STATUS n ∨ o = BEAD_CTL n ∨ o = BEAD_PC n ∨ o = BEAD_ECC n

theorem beadControlRegs_status (n : Nat) : beadControlRegs n (BEAD_STATUS n) := .inl rfl
theorem beadControlRegs_ctl (n : Nat) : beadControlRegs n (BEAD_CTL n) := .inr (.inl rfl)
theorem beadControlRegs_pc (n : Nat) : beadControlRegs n (BEAD_PC n) := .inr (.inr (.inl rfl))
theorem beadControlRegs_ecc (n : Nat) : beadControlRegs n (BEAD_ECC n) := .inr (.inr (.inr rfl))

/-- What the control of node `n` leaves: the other nodes, the Facets, and the registers but those few. -/
def BeadControlled (s t : State) (n : Nat) : Prop :=
  (∀ m, m ≠ n → t.bead m = s.bead m) ∧ t.facets = s.facets ∧ OnlyRegs (beadControlRegs n) s t

section Control

variable {s t : State} {n : Nat}

theorem BeadControlled.setBead (s : State) (n : Nat) (b : BeadSt) : BeadControlled s (s.setBead n b) n :=
  ⟨fun m hm => by rw [State.bead_setBead, if_neg (Ne.symm hm)], rfl, .refl s _⟩

theorem BeadControlled.wr (h : BeadControlled s t n) {o : Nat} (v : Word) (ho : beadControlRegs n o) :
    BeadControlled s (t.wr o v) n := ⟨h.1, h.2.1, h.2.2.wr v ho⟩

theorem BeadControlled.setF (h : BeadControlled s t n) {F : Fld} (v : Nat) (hF : beadControlRegs n F.off) :
    BeadControlled s (t.setF F v) n := h.wr _ hF

theorem BeadControlled.setBeadState (h : BeadControlled s t n) (v : Nat) : BeadControlled s (t.setBeadState n v) n :=
  h.setF v (beadControlRegs_status n)

theorem BeadControlled.answer (h : BeadControlled s t n) (st : St) (d : List Byte) : BeadControlled s (t.answer st d) n := h

/-- An instruction that retires counts corrected errors. -/
theorem Retires.controlled {f : BeadSt → BeadSt} {pc : Word} (h : Retires s t n f pc) : BeadControlled s t n :=
  ⟨fun _ hm => h.other hm, h.facets_eq, fun _ _ ho => h.rd_eq fun e => ho (e ▸ beadControlRegs_ecc n)⟩

end Control

theorem State.beadState_setBeadState (s : State) (n : Nat) {v : Nat} (h : v < 8) :
    (s.setBeadState n v).beadState n = v :=
  (s.fld_setF_same (BEAD_STATUS_STATE n) v (by simp)).trans (Nat.mod_eq_of_lt h)

/-! #### The commands -/

@[simp] theorem State.answer_bead (s : State) (st : St) (d : List Byte) (n : Nat) : (s.answer st d).bead n = s.bead n := rfl

@[simp] theorem State.setBeadState_bead (s : State) (n v m : Nat) : (s.setBeadState n v).bead m = s.bead m := rfl

theorem State.beadState_answer_setBeadState (s : State) (st : St) (n : Nat) {v : Nat} (h : v < 8) :
    ((s.setBeadState n v).answer st).beadState n = v := State.beadState_setBeadState s n h

/-- The core that START sets going. -/
def BeadSt.started (b : BeadSt) (entry arg : Word) : BeadSt :=
  BeadSt.setX { b with pc := entry, stall := none, fencing := false, parking := false } 10 arg

/-- The core that STOP leaves. -/
def BeadSt.stopped (b : BeadSt) : BeadSt := { b with stall := none, fencing := false, parking := false, ylimFrom := none }

/-- The core whose state has been saved. -/
def BeadSt.parked (b : BeadSt) (now : Nat) : BeadSt :=
  { b with parking := false, ylimFrom := none, outAt := some now, saved := some ⟨b.pc, b.x, b.f, b.fcsr, b.v, b.ws⟩ }

/-- The core that a saved context gives. -/
def BeadSt.restored (b : BeadSt) (c : SavedCore) (now : Nat) : BeadSt :=
  { b with
    pc := c.pc, x := c.x, f := c.f, fcsr := c.fcsr, v := c.v, ws := c.ws, saved := none, outAt := none
    outNs := b.outNs + (match b.outAt with | some t => sinceNs now t | none => 0)
    stall := none, fencing := false, parking := false }

section Commands

variable {s : State} {n : Fin 4096}

theorem exec_beadStart_idle (h : s.beadState n.val = bdIDLE) :
    exec (.beadStart mSCP n) s = .next (((s.setBead n.val ((s.bead n.val).started (s.rd (BEAD_ENTRY n.val))
      (s.rd (BEAD_ARG n.val)))).setBeadState n.val bdRUNNING).answer ST_OK) := by
  change Host.Outcome.next (s.beadStartOp mSCP n.val) = _
  rw [State.beadStartOp, if_neg (by simp), if_neg (by simp [h])]
  rfl

theorem exec_beadStop_running (h : s.beadState n.val = bdRUNNING) :
    exec (.beadStop mSCP n) s = .next (((((s.setBead n.val (s.bead n.val).stopped).setF (BEAD_STATUS_YPEND n.val) 0).setF
      (BEAD_CTL_YIELD_REQ n.val) 0).setBeadState n.val bdIDLE).answer ST_OK) := by
  change Host.Outcome.next (s.beadStopOp mSCP n.val) = _
  rw [State.beadStopOp, if_neg (by simp), if_pos (by simp [h])]
  rfl

theorem exec_yieldReq_scp :
    exec (.yieldReq mSCP n) s = .next ((((s.setBead n.val { s.bead n.val with
      ylimFrom := some ((s.bead n.val).ylimFrom.getD s.now) }).setF (BEAD_CTL_YIELD_REQ n.val) 1).setF
        (BEAD_STATUS_YPEND n.val) 1).answer ST_OK) := rfl

theorem exec_beadResume_parked {c : SavedCore} (h : s.beadState n.val = bdPARKED) (hc : (s.bead n.val).saved = some c) :
    exec (.beadResume mSCP n) s =
      .next (((s.setBead n.val ((s.bead n.val).restored c s.now)).setBeadState n.val bdRUNNING).answer ST_OK) := by
  change Host.Outcome.next (s.beadResumeOp mSCP n.val) = _
  rw [State.beadResumeOp, if_neg (by simp), if_neg (by simp [h]), State.beadRestore, hc]
  rfl

/-- What the save area then holds is free. -/
theorem exec_beadParked (hp : (s.bead n.val).parking = true) (hs : (s.bead n.val).posted = [])
    (hst : s.beadState n.val = bdRUNNING) :
    ∃ area, exec (.beadParked n) s = .next ((((({ s.setMem .blm area with free := s.free + 1 }.setBead n.val
      ((s.bead n.val).parked s.now)).wr (BEAD_PC n.val) (s.bead n.val).pc).setF (BEAD_CTL_YIELD_REQ n.val) 0).setF
        (BEAD_STATUS_YPEND n.val) 0).setBeadState n.val bdPARKED) := by
  have hexec : exec (.beadParked n) s = execBeadParked n s := rfl
  rw [hexec, execBeadParked, if_neg (by simp [hp, hs, hst])]
  exact ⟨_, rfl⟩

theorem exec_yieldLimitExpired {t0 : Nat} (h : (s.bead n.val).ylimFrom = some t0)
    (hlate : (s.rd (BEAD_YLIM n.val)).toNat < sinceNs s.now t0) :
    exec (.yieldLimitExpired n) s = .next ((s.setF (BEAD_FLAGS_YLATE n.val) 1).report (.yieldLate n.val)) := by
  change execYieldLimitExpired n s = _
  simp only [execYieldLimitExpired, h, hlate, if_true]

theorem exec_yield_legal (hready : s.beadReady n.val = true) :
    exec (.yield n 0 0 0 0) s = .next (if s.flag (BEAD_STATUS_YPEND n.val) then
      (s.goOn n.val 4).setBead n.val { (s.goOn n.val 4).bead n.val with parking := true } else s.goOn n.val 4) :=
  (exec_yield ..).trans (State.ext_of_legal hready rfl)

end Commands

end Sys2Proof.Machine

namespace Sys2Proof

open Sys2Proof.Machine

/-- Settles O25: each command sets the node's core and its few registers, and nothing else. -/
theorem beadControl : Obligations.BeadControl := by
  refine fun n s => ⟨fun hidle => ?start, ?request, fun hready hno => ?yields, fun hready hpend => ?parks,
    fun hpark hposted hrun => ?parked, fun c hparked hsaved => ?resume, fun hrun => ?stop, fun t0 hfrom hlate => ?limit⟩
  case start =>
    refine ⟨_, exec_beadStart_idle hidle, State.beadState_answer_setBeadState _ _ _ (by decide), ?_, ?_, fun r hr => ?_,
      ((BeadControlled.setBead s n.val _).setBeadState bdRUNNING).answer ST_OK [], .of_mems rfl⟩
    all_goals simp only [State.answer_bead, State.setBeadState_bead, State.bead_setBead, if_true]
    · exact BeadSt.setX_pc ..
    · exact BeadSt.xr_setX ..
    · exact BeadSt.xr_setX_ne _ hr _
  case request =>
    refine ⟨_, exec_yieldReq_scp, ?_, ?_, (((BeadControlled.setBead s n.val _).setF 1 (beadControlRegs_ctl n.val)).setF 1
      (beadControlRegs_status n.val)).answer ST_OK [], .of_mems rfl⟩
    · rw [State.answer_fld, State.fld_setF_off _ _ _ _ (by simp), State.fld_setF_same _ _ _ (by simp)]
      rfl
    · rw [State.answer_fld, State.fld_setF_same _ _ _ (by simp)]
      rfl
  case yields =>
    have hexec := exec_yield_legal hready
    rw [hno, if_neg Bool.false_ne_true] at hexec
    exact (s.goOn_retires n.val 4 1).completes hexec
  case parks =>
    have hr := s.goOn_retires n.val 4 1
    rw [Completes, exec_yield_legal hready, if_pos hpend]
    refine ⟨_, rfl, ?_, ?_, ?_, hr.sameBytes⟩
    · simp
    · simpa using hr.pc_eq
    · obtain ⟨hother, hfacets, hregs⟩ := hr.controlled
      exact ⟨fun m hm => by rw [State.bead_setBead, if_neg (Ne.symm hm), hother m hm], hfacets, hregs⟩
  case parked =>
    obtain ⟨area, hexec⟩ := exec_beadParked hpark hposted hrun
    have hcontrol : ∀ u : State, BeadControlled u (u.setBead n.val ((s.bead n.val).parked s.now)) n.val :=
      fun u => .setBead u n.val _
    refine ⟨_, hexec, State.beadState_setBeadState _ _ (by decide), ?_, ?_, ?_,
      ((((hcontrol { s.setMem .blm area with free := s.free + 1 }).wr _ (beadControlRegs_pc n.val)).setF 0
        (beadControlRegs_ctl n.val)).setF 0 (beadControlRegs_status n.val)).setBeadState bdPARKED⟩
    · simp [State.setBeadState, State.rd_setF, State.rd_wr]
    · simp [State.bead_setBead, BeadSt.parked]
    · rw [State.setBeadState, State.fld_setF_off _ _ _ _ (by simp), State.fld_setF_off _ _ _ _ (by simp),
        State.fld_setF_same _ _ _ (by simp)]
      rfl
  case resume =>
    have hb : (s.setBead n.val ((s.bead n.val).restored c s.now)).bead n.val = (s.bead n.val).restored c s.now :=
      (State.bead_setBead ..).trans (if_pos rfl)
    have hothers := (BeadControlled.setBead s n.val ((s.bead n.val).restored c s.now)).setBeadState bdRUNNING |>.answer ST_OK []
    refine ⟨_, exec_beadResume_parked hparked hsaved, State.beadState_answer_setBeadState _ _ _ (by decide), ?_, ?_, ?_, ?_, ?_, ?_,
      hothers, ?_⟩
    · exact congrArg BeadSt.pc hb
    · exact congrArg BeadSt.x hb
    · exact congrArg BeadSt.f hb
    · exact congrArg BeadSt.fcsr hb
    · exact congrArg BeadSt.v hb
    · exact congrArg BeadSt.ws hb
    · exact .of_mems rfl
  case stop =>
    exact ⟨_, exec_beadStop_running hrun, State.beadState_answer_setBeadState _ _ _ (by decide),
      ((((BeadControlled.setBead s n.val _).setF 0 (beadControlRegs_status n.val)).setF 0
        (beadControlRegs_ctl n.val)).setBeadState bdIDLE).answer ST_OK [], .of_mems rfl⟩
  case limit =>
    exact ⟨_, exec_yieldLimitExpired hfrom hlate, State.fld_setF_same _ (BEAD_FLAGS_YLATE n.val) 1 (by simp), rfl,
      (OnlyRegs.refl s _).setF 1 rfl, .of_mems rfl⟩

end Sys2Proof

/-! PROOF. Remote accesses of a Bead core and its node mover (R114, R131, R132). -/

namespace Sys2Proof.Machine

/-! ### One is added to a sync object (R146) -/

section BumpSo

variable {s : State} {n : Nat}

/-- Where no earlier request waits and the count is clean, the object is incremented at once. -/
theorem State.bumpSo_now (src k : Nat) (hn : n < 16384) (hraised : s.fab.raised = []) (hclean : s.soBad n = false) :
    s.bumpSo src n k = s.soPut n (s.so n + BitVec.ofNat 32 k) := by
  have hadd : s.soAdd src n (BitVec.ofNat 32 k) = (s.soPut n (s.so n + BitVec.ofNat 32 k)).answer ST_OK := by
    simp [State.soAdd, State.soAddNow, hraised, hclean]
  rw [State.bumpSo, if_pos hn, hadd]
  rfl

variable (s n) (v : Word)

@[simp] theorem State.soPut_bead (m : Nat) : (s.soPut n v).bead m = s.bead m := rfl

@[simp] theorem State.soPut_fld (F : Fld) : (s.soPut n v).fld F = s.fld F := rfl

/-- Only the count's four bytes differ. -/
theorem State.soPut_bytes : SameBytesBut .map (soAddr n) 4 s (s.soPut n v) := fun sp a ha => by
  cases sp with
  | map =>
    have ho : ¬ (soAddr n ≤ a ∧ a < soAddr n + (leBytes 4 v.toNat).length) := by
      rw [leBytes_length]
      simpa using ha
    exact (Memory.byte_putBytes ..).trans (if_neg ho)
  | _ => rfl

end BumpSo

theorem State.bead_of_beads {s t : State} (h : t.beads = s.beads) (n : Nat) : t.bead n = s.bead n := by
  rw [State.bead, h, State.bead]

/-! ### The answer to a remote load (R114) -/

section Respond

variable {s : State} {n : Nat} {q : RemoteLoad}

/-- A good answer is delivered, and the core goes on. -/
theorem State.respond_good (v : Nat) (hfp : q.fp = false) :
    let t := s.respond n q ST_OK v false
    (t.bead n).xr q.rd = (if q.rd = 0 then 0 else loadVal q.len q.signed v) ∧ (t.bead n).stall = none ∧
      (t.bead n).pc = (s.bead n).pc + BitVec.ofNat 32 q.ilen ∧ SameBytes s t ∧ ∀ o, o ≠ BEAD_ECC n → t.rd o = s.rd o := by
  have ht : s.respond n q ST_OK v false =
      (s.setBead n { s.bead n with stall := none }).deliver n false q.rd q.ilen (loadVal q.len q.signed v) := by
    rw [State.respond, hfp]
    rfl
  have hr := State.deliver_retires (s.setBead n { s.bead n with stall := none }) n q.rd q.ilen
    (loadVal q.len q.signed v)
  rw [← ht, State.bead_setBead, if_pos rfl] at hr
  have hs := hr.of_setBead (g := fun b => { b with stall := none })
  refine ⟨?_, ?_, hs.pc_eq, hs.sameBytes, fun _ ho => hs.rd_eq ho⟩
  · exact (hs.bead_part (fun b => b.xr q.rd) fun _ _ _ _ _ => rfl).trans (BeadSt.xr_setX ..)
  · exact (hs.bead_part BeadSt.stall fun _ _ _ _ _ => rfl).trans (BeadSt.setX_stall ..)

/-- A failed one stops it. -/
theorem State.respond_failed {st : St} (v : Nat) (hst : st ≠ ST_OK) (hecc : st ≠ ST_ECC_UNCORRECTED) :
    s.respond n q st v false = (s.setBead n { s.bead n with stall := none }).beadFault n 0x19 := by
  have hpoison : ¬ (false || decide (st = ST_ECC_UNCORRECTED)) = true := by simpa using hecc
  rw [State.respond, if_neg hpoison, if_pos hst]

end Respond

section Load

variable {s : State} {n : Fin 4096} {q : RemoteLoad} (ext : RemoteReply)

/-- Another chip's answer. -/
theorem exec_remoteLoadResponse_remote {c : Nat} (hstall : (s.bead n.val).stall = some q) (hwait : q.waiting = false)
    (ht : s.target n.val q.addr = .remote c) (hup : s.routeUp c = true) :
    exec (.remoteLoadResponse n ext) s = .next (s.respond n.val q ext.st ext.data.toNat ext.poison) := by
  change execRemoteLoadResponse n ext s = _
  simp [execRemoteLoadResponse, hstall, hwait, ht, hup]

/-- The answer of map memory in a quiet fabric. -/
theorem exec_remoteLoadResponse_map {o : Nat} (hstall : (s.bead n.val).stall = some q) (hwait : q.waiting = false)
    (hunit : q.unit = 0) (hop : q.op = .read q.len) (hq : FabricQuiet s)
    (ht : s.target n.val q.addr = .map .normal o) (hserve : s.bankServes (o / 0x80000) = true)
    (hsync : syncArea o q.len = false) (hclean : s.mems.map.anyBad 8 o q.len = false) :
    ∃ r, exec (.remoteLoadResponse n ext) s = .next ({ s.mapRead n.val .normal o with reply := r }.respond n.val q ST_OK
      (leNat (s.mems.map.bytes o q.len)) false) := by
  have hquiet : FabricQuiet (s.mapRead n.val .normal o) := hq
  have hask : s.remoteAsk n.val q = (false, { s.mapRead n.val .normal o with
      reply := { st := ST_OK, data := s.mems.map.bytes o q.len, ep := false } }) := by
    have hperf := State.perform_read (State.readAt_map ht hserve hsync)
    rw [hclean] at hperf
    rw [State.remoteAsk, ht, hop]
    simp only [State.mustWait_of_quiet hq, State.memRequest_of_quiet hq hperf hquiet, State.replied_ok]
  have hat : s.atUnit (s.target n.val q.addr) q.unit (fun s => s.remoteAsk n.val q) = s.remoteAsk n.val q := by
    have hserved : s.unitAt (s.target n.val q.addr) = q.unit := by
      rw [ht, hunit]
      rfl
    exact if_pos hserved
  refine ⟨s.reply, ?_⟩
  change execRemoteLoadResponse n ext s = _
  simp only [execRemoteLoadResponse, hstall, hwait, hat, hask]
  simp [ht]

end Load

/-! ### The acknowledgement of a posted store (R114) -/

/-- The state once the oldest posted store of node `n` has left its queue. -/
def State.unposted (s : State) (n : Nat) (rest : List (Option St)) : State :=
  s.setBead n { s.bead n with posted := rest }

section Store

variable {s : State} {n : Nat} {rest : List (Option St)}

@[simp] theorem State.unposted_bead : (s.unposted n rest).bead n = { s.bead n with posted := rest } :=
  (State.bead_setBead ..).trans (if_pos rfl)

theorem exec_remoteStoreAck_posted {n : Fin 4096} {st : St} (h : (s.bead n.val).posted = some st :: rest) :
    exec (.remoteStoreAck n) s = .next (s.storeAcked n.val rest st) := by
  change execRemoteStoreAck n s = _
  simp only [execRemoteStoreAck, h]

/-- The store's acknowledgement gives `u`; the last one lets a FENCE continue. -/
theorem State.storeAcked_of {st : St} {u : State}
    (hu : (if st = ST_OK then s.unposted n rest else ((s.unposted n rest).setF (BEAD_FLAGS_REMOTE_ERR n) 1).bumpSo n
      ((s.rd (BEAD_ERR_SO n)).toNat % 16384) 1) = u) :
    s.storeAcked n rest st = if (u.bead n).fencing && rest.isEmpty then
      (u.setBead n { u.bead n with fencing := false }).goOn n 4 else u := by
  subst hu
  rfl

theorem State.storeAcked_good (hf : (s.bead n).fencing = false) : s.storeAcked n rest ST_OK = s.unposted n rest := by
  rw [State.storeAcked_of (if_pos rfl), State.unposted_bead, hf]
  rfl

theorem State.storeAcked_fence (hf : (s.bead n).fencing = true) : s.storeAcked n [] ST_OK =
    ((s.unposted n []).setBead n { s.bead n with posted := [], fencing := false }).goOn n 4 := by
  rw [State.storeAcked_of (if_pos rfl), State.unposted_bead, hf]
  rfl

theorem State.storeAcked_failed {st : St} {k : Nat} (hf : (s.bead n).fencing = false) (hst : st ≠ ST_OK)
    (hk : (s.rd (BEAD_ERR_SO n)).toNat % 16384 = k) (hclean : s.soBad k = false) (hraised : s.fab.raised = []) :
    s.storeAcked n rest st = ((s.unposted n rest).setF (BEAD_FLAGS_REMOTE_ERR n) 1).soPut k (s.so k + 1) := by
  have hbump : ((s.unposted n rest).setF (BEAD_FLAGS_REMOTE_ERR n) 1).bumpSo n k 1 =
      ((s.unposted n rest).setF (BEAD_FLAGS_REMOTE_ERR n) 1).soPut k (s.so k + 1) :=
    State.bumpSo_now n 1 (by omega) hraised hclean
  rw [State.storeAcked_of (if_neg hst), hk, hbump, State.soPut_bead, State.setF_bead, State.unposted_bead, hf]
  rfl

end Store

end Sys2Proof.Machine

namespace Sys2Proof

open Sys2Proof.Machine

/-- Settles O26: each answer is either delivered or stops the core, and each acknowledgement leaves its queue. -/
theorem remoteAccess : Obligations.RemoteAccess := by
  refine fun n s => ⟨fun q ext c hstall hwait ht hup => ⟨fun hpois hst hfp => ?loaded, fun hpois hst hecc => ?failed⟩,
    fun q ext o hstall hwait hunit hop hfp hq haddr ho hlen hal hserve hsync hclean => ?mapLoad,
    fun rest hposted hf => ?acked, fun st rest hposted hst hf hclean hraised => ?storeFailed,
    fun hposted hf => ?fence⟩
  case loaded =>
    have hexec := exec_remoteLoadResponse_remote ext hstall hwait ht hup
    rw [hst, hpois] at hexec
    exact ⟨_, hexec, State.respond_good _ hfp⟩
  case failed =>
    have hexec := exec_remoteLoadResponse_remote ext hstall hwait ht hup
    rw [hpois, State.respond_failed _ hst hecc] at hexec
    obtain ⟨hstate, hcause, -, hbeads, hbytes, -⟩ :=
      (s.setBead n.val { s.bead n.val with stall := none }).beadFault_stops n.val (cause := 0x19) (by decide)
    refine ⟨_, hexec, hstate, hcause, ?_, hbytes⟩
    have hb : (s.setBead n.val { s.bead n.val with stall := none }).bead n.val = { s.bead n.val with stall := none } :=
      (State.bead_setBead ..).trans (if_pos rfl)
    rw [State.bead_of_beads hbeads, hb]
  case mapLoad =>
    have ht : s.target n.val q.addr = .map .normal o := by rw [haddr, State.target_normal s n.val ho]
    obtain ⟨r, hexec⟩ := exec_remoteLoadResponse_map ext hstall hwait hunit hop hq ht hserve hsync hclean
    obtain ⟨hxr, hst, hpc, hbytes, -⟩ := State.respond_good (s := { s.mapRead n.val .normal o with reply := r })
      (n := n.val) (q := q) (leNat (s.mems.map.bytes o q.len)) hfp
    exact ⟨_, hexec, hxr, hst, hpc, hbytes⟩
  case acked =>
    have hexec := exec_remoteStoreAck_posted hposted
    rw [State.storeAcked_good hf] at hexec
    exact ⟨_, hexec, by rw [State.unposted_bead], rfl, .of_mems rfl⟩
  case storeFailed =>
    have hexec := exec_remoteStoreAck_posted hposted
    rw [State.storeAcked_failed hf hst rfl hclean hraised] at hexec
    refine ⟨_, hexec, ?_, ?_, State.soPut_so .., State.soPut_bytes _ _ _⟩
    · rw [State.soPut_bead]
      exact congrArg BeadSt.posted State.unposted_bead
    · rw [State.soPut_fld]
      exact State.fld_setF_same _ (BEAD_FLAGS_REMOTE_ERR n.val) 1 (by simp)
  case fence =>
    have hexec := exec_remoteStoreAck_posted hposted
    rw [State.storeAcked_fence hf] at hexec
    have hr := State.goOn_retires ((s.unposted n.val []).setBead n.val
      { s.bead n.val with posted := [], fencing := false }) n.val 4 1
    rw [State.bead_setBead, if_pos rfl] at hr
    refine ⟨_, hexec, ?_, hr.pc_eq⟩
    rw [hr.bead_part BeadSt.fencing fun _ _ _ _ _ => rfl, id, State.bead_setBead, if_pos rfl]

end Sys2Proof

namespace Sys2Proof.Machine

/-! ### Counts of sync objects and the bytes of the map -/

/-- The counts lie in the last eight banks. -/
theorem soAddr_ge (k : Nat) : 0x7C00000 ≤ soAddr k := by
  unfold soAddr
  omega

/-- Two objects have different words. -/
theorem soAddr_disjoint {j k : Nat} (h : j ≠ k) : soAddr j + 4 ≤ soAddr k ∨ soAddr k + 4 ≤ soAddr j := by
  unfold soAddr
  omega

theorem Memory.bytes_congr {m m' : Memory} {a n : Nat} (h : ∀ x, a ≤ x → x < a + n → m'.byte x = m.byte x) :
    m'.bytes a n = m.bytes a n :=
  List.map_congr_left fun i hi => h (a + i) (by omega) (by have := List.mem_range.1 hi; omega)

@[simp] theorem Memory.putBytes_poison (m : Memory) (a : Nat) (l : List Byte) : (m.putBytes a l).poison = m.poison := by
  induction l generalizing m a with
  | nil => rfl
  | cons v vs ih => exact ih (m.put a v) (a + 1)

/-- There is nothing to clean where nothing is poisoned. -/
theorem Memory.clean_of_none {m : Memory} (h : m.poison = []) (w a n : Nat) : (m.clean w a n).poison = [] := by
  unfold Memory.clean
  generalize wordsOf w a n = l
  induction l generalizing m with
  | nil => exact h
  | cons k ks ih =>
    refine ih (ite_cases (P := fun m' : Memory => m'.poison = []) ?_ h)
    simp [Memory.setBad, h, kdel]

theorem Memory.bad_of_none {m : Memory} (h : m.poison = []) (k : Nat) : m.bad k = false := by
  rw [Memory.bad, h]
  rfl

theorem Memory.anyBad_of_none {m : Memory} (h : m.poison = []) (w a n : Nat) : m.anyBad w a n = false :=
  List.any_eq_false.2 fun k _ => by simp [Memory.bad_of_none h k]

section SoPut

variable (s : State) (k : Nat) (v : Word)

theorem State.soPut_map : (s.soPut k v).mems.map = s.mems.map.putBytes (soAddr k) (leBytes 4 v.toNat) := rfl

@[simp] theorem State.soPut_soBad (j : Nat) : (s.soPut k v).soBad j = s.soBad j := by
  simp only [State.soBad, Memory.bad, State.soPut_map, Memory.putBytes_poison]

theorem State.soPut_so_ne {j : Nat} (h : j ≠ k) : (s.soPut k v).so j = s.so j := by
  rw [State.so, State.soPut_map, Memory.bytes_putBytes_other _ _ _ _ _ (by rw [leBytes_length]; exact soAddr_disjoint h)]
  rfl

/-- A range below the counts. -/
theorem State.soPut_below {b n : Nat} (h : b + n ≤ 0x7C00000) : (s.soPut k v).mems.map.bytes b n = s.mems.map.bytes b n :=
  Memory.bytes_putBytes_other _ _ _ _ _ (.inl (Nat.le_trans h (soAddr_ge k)))

end SoPut

/-! ### GO of a node mover (R131, R133) -/

@[simp] theorem State.setMovers_bead (s : State) (n : Nat) (l : List Mover) :
    (s.setMovers n l).bead n = { s.bead n with movers := l } :=
  (State.bead_setBead ..).trans (if_pos rfl)

/-- The transfer that the registers of node `n` describe, with the sync objects of `v`. -/
def State.moverOf (s : State) (n : Nat) (v : Word) : Mover where
  src := s.rd64 (BEAD_MOV_SRC_LO n) (BEAD_MOV_SRC_HI n)
  dst := s.rd64 (BEAD_MOV_DST_LO n) (BEAD_MOV_DST_HI n)
  len := (s.rd (BEAD_MOV_LEN n)).toNat
  doneSo := v.toNat % 16384
  errSo := v.toNat / 16384 % 16384
  win := BitVec.ofNat 16 (s.fld (BEAD_WIN_WIN n))
  epoch := BitVec.ofNat 16 (s.fld (BEAD_WIN_EPOCH n))

/-- The bits of a GO that BEAD_MOV_CTL keeps. -/
theorem moverCtl_toNat (v : Word) : (v &&& 0x0FFFFFFF).toNat = v.toNat % 2 ^ 28 := by
  rw [BitVec.toNat_and]
  exact Nat.and_two_pow_sub_one_eq_mod v.toNat 28

section Go

variable {s : State} {n : Fin 4096} {v : Word} (hgo : v.getLsbD 31 = true)

include hgo

theorem exec_moverGo_queued (hq : (s.bead n.val).movers.length < 2) :
    exec (.moverGo mSCP n v) s = .next (((s.wr (BEAD_MOV_CTL n.val) (v &&& 0x0FFFFFFF)).setMovers n.val
      ((s.bead n.val).movers ++ [s.moverOf n.val v])).answer ST_OK) := by
  have hm : (s.wr (BEAD_MOV_CTL n.val) (v &&& 0x0FFFFFFF)).moverOf n.val v = s.moverOf n.val v := by
    simp [State.moverOf, State.rd64, State.fld]
  have hdone : (s.wr (BEAD_MOV_CTL n.val) (v &&& 0x0FFFFFFF)).fld (BEAD_MOV_CTL_DONE_SO n.val) = v.toNat % 16384 := by
    simp only [State.fld, State.rd_wr_same, Fld.get, moverCtl_toNat, bitsN]
    omega
  have herr : (s.wr (BEAD_MOV_CTL n.val) (v &&& 0x0FFFFFFF)).fld (BEAD_MOV_CTL_ERR_SO n.val) =
      v.toNat / 16384 % 16384 := by
    simp only [State.fld, State.rd_wr_same, Fld.get, moverCtl_toNat, bitsN]
    omega
  change Host.Outcome.next (s.moverGoOp mSCP n.val v) = _
  rw [← hm, State.moverGoOp, if_neg (by simp), if_neg (by simp [hgo]), if_neg (by omega)]
  dsimp only
  rw [hdone, herr]
  rfl

theorem exec_moverGo_full (hq : 2 ≤ (s.bead n.val).movers.length) :
    exec (.moverGo mSCP n v) s = .next ((s.setF (BEAD_FLAGS_MOV_ERR n.val) 1).answer ST_OK) := by
  change Host.Outcome.next (s.moverGoOp mSCP n.val v) = _
  rw [State.moverGoOp, if_neg (by simp), if_neg (by simp [hgo]), if_pos hq]

end Go

/-! ### The end of a transfer (R132) -/

/-- The state once the running transfer of node `n` has left its slot with status `st`. -/
def State.moverDone (s : State) (n : Nat) (rest : List Mover) (st : St) : State :=
  (s.setMovers n rest).setF (BEAD_MOV_STAT_ST n) st.toNat

section End

variable {s : State} {n : Fin 4096} {m : Mover} {rest : List Mover}

@[simp] theorem State.moverDone_bead (s : State) (n : Nat) (rest : List Mover) (st : St) :
    (s.moverDone n rest st).bead n = { s.bead n with movers := rest } := by
  rw [State.moverDone, State.setF_bead, State.setMovers_bead]

theorem State.moverDone_status (s : State) (n : Nat) (rest : List Mover) (st : St) :
    (s.moverDone n rest st).fld (BEAD_MOV_STAT_ST n) = st.toNat := by
  rw [State.moverDone, State.fld_setF_same _ _ _ (by simp)]
  exact Nat.mod_eq_of_lt st.isLt

/-- A transfer of none of R131's lengths. -/
theorem exec_moverTransferEnd_refused (hrun : (s.bead n.val).movers = m :: rest) (hbad : m.ok = false)
    (hq : FabricQuiet s) (hd : m.doneSo < 16384) (he : m.errSo < 16384) (hne : m.doneSo ≠ m.errSo)
    (hdc : s.soBad m.doneSo = false) (hec : s.soBad m.errSo = false) :
    exec (.moverTransferEnd n) s = .next ((((s.moverDone n.val rest ST_BAD_FIELD).setF (BEAD_FLAGS_MOV_ERR n.val) 1).soPut
      m.errSo (s.so m.errSo + 1)).soPut m.doneSo (s.so m.doneSo + 1)) := by
  obtain ⟨hclasps, hraised, hheld⟩ := hq
  have herr := State.bumpSo_now (s := (s.moverDone n.val rest ST_BAD_FIELD).setF (BEAD_FLAGS_MOV_ERR n.val) 1)
    n.val 1 he hraised hec
  have hdone := State.bumpSo_now (s := ((s.moverDone n.val rest ST_BAD_FIELD).setF (BEAD_FLAGS_MOV_ERR n.val) 1).soPut
    m.errSo (s.so m.errSo + 1)) n.val 1 hd hraised ((State.soPut_soBad ..).trans hdc)
  rw [State.soPut_so_ne _ _ _ hne] at hdone
  have hquiet : FabricQuiet ((((s.moverDone n.val rest ST_BAD_FIELD).setF (BEAD_FLAGS_MOV_ERR n.val) 1).soPut
      m.errSo (s.so m.errSo + 1)).soPut m.doneSo (s.so m.doneSo + 1)) := ⟨hclasps, hraised, hheld⟩
  have hexec : exec (.moverTransferEnd n) s = .next (((((s.moverDone n.val rest ST_BAD_FIELD).setF
      (BEAD_FLAGS_MOV_ERR n.val) 1).bumpSo n.val m.errSo 1).bumpSo n.val m.doneSo 1).hostFree) := by
    change execMoverTransferEnd n s = _
    simp only [execMoverTransferEnd, hrun, hbad]
    rfl
  rw [hexec, herr]
  exact congrArg Host.Outcome.next ((congrArg State.hostFree hdone).trans (State.hostFree_of_quiet hquiet))

end End

/-! ### A transfer of one word inside map memory (R131, R132) -/

theorem syncArea_below {o n : Nat} (h : o < 0x7C00000) : syncArea o n = false := by
  have hb : ¬ 248 ≤ o / 0x80000 := by omega
  simp [syncArea, hb]

/-- A read leaves the banks' states. -/
theorem State.bankServes_mapRead (s : State) (src : Nat) (al : Alias) (off b : Nat) :
    (s.mapRead src al off).bankServes b = s.bankServes b := by
  have hstate : (s.mapRead src al off).fld (MM_STATUS_STATE b) = s.fld (MM_STATUS_STATE b) :=
    State.fld_wr_off _ _ (MM_ECC (off / 0x80000)) _ (by simp only [MM_ECC, MM_STATUS]; omega)
  rw [State.bankServes, hstate, State.bankServes]

/-- The state once node `n` has read the word at `a` and written it at `b`. -/
def State.wordMoved (s : State) (n a b : Nat) : State :=
  { (s.mapRead n .normal a).mapWritten n .normal b (s.mems.map.bytes a 4) with reply := s.reply }

section Word

variable {s : State} {n a b : Nat}

theorem State.moverRead_map {x : BitVec 64} (hq : FabricQuiet s) (ht : s.target n x = .map .normal a)
    (ha : a < 0x7C00000) (hserve : s.bankServes (a / 0x80000) = true) :
    s.moverRead n x 4 = ((ST_OK, s.mems.map.bytes a 4), s.mapRead n .normal a) := by
  have hquiet : FabricQuiet (s.mapRead n .normal a) := hq
  have hperf := State.perform_read (State.readAt_map (n := 4) ht hserve (syncArea_below ha))
  rw [State.moverRead, ht]
  simp only [State.request_of_quiet hq hperf hquiet]
  rfl

theorem State.moverWrite_map {x : BitVec 64} {d : List Byte} (e : BitVec 16) (hq : FabricQuiet s)
    (ht : s.target n x = .map .normal b) (hb : b < 0x7C00000) (hserve : s.bankServes (b / 0x80000) = true)
    (hclean : s.mems.map.poison = []) :
    s.moverWrite n x d 0xFFFF e = (ST_OK, { s.mapWritten n .normal b d with reply := s.reply }) := by
  have hquiet : FabricQuiet (s.mapWritten n .normal b d) := hq
  have hperf := State.perform_write (State.writeAt_map (d := d) e ht hserve (syncArea_below hb)
    (Memory.partBad_of_not_anyBad (Memory.anyBad_of_none hclean ..)) fun h => absurd rfl h)
  have hop : s.writeOp n x d 0xFFFF e = .write d 0xFFFF e := by rw [State.writeOp, ht]
  have hmesh : s.meshWriteOp n x d 0xFFFF e = { s.mapWritten n .normal b d with reply := { st := ST_OK } } := by
    rw [State.meshWriteOp_of_memory _ _ (by simp [ht]), hop, State.memRequest_of_quiet hq hperf hquiet,
      State.replied_ok rfl]
  rw [State.moverWrite, hmesh]

/-- Its one part is read, then written. -/
theorem State.moverPart_word {m : Mover} (hq : FabricQuiet s) (hsrc : m.src = aliasAddr 0x10000000 a)
    (hdst : m.dst = aliasAddr 0x10000000 b) (hwin : m.win = 0xFFFF) (ha : a < 0x7C00000) (hb : b < 0x7C00000)
    (hsa : s.bankServes (a / 0x80000) = true) (hsb : s.bankServes (b / 0x80000) = true)
    (hclean : s.mems.map.poison = []) : State.moverPart n m (ST_OK, s) (0, 4) = (ST_OK, s.wordMoved n a b) := by
  have htsrc : s.target n m.src = .map .normal a := hsrc ▸ s.target_normal n (by omega)
  have htdst : (s.mapRead n .normal a).target n m.dst = .map .normal b := hdst ▸ State.target_normal _ n (by omega)
  have hgood : s.wordBad n m.src = false := by
    rw [State.wordBad, htsrc]
    exact Memory.anyBad_of_none hclean ..
  have hfetch : State.moverFetch n m (ST_OK, [], s) (0, 4) =
      (ST_OK, [⟨0, s.mems.map.bytes a 4, []⟩], s.mapRead n .normal a) := by
    simp [State.moverFetch, moverOn, hgood, State.moverRead_map hq htsrc ha hsa, List.range_succ]
  have hstore : State.moverStore n m (ST_OK, s.mapRead n .normal a) ⟨0, s.mems.map.bytes a 4, []⟩ =
      (ST_OK, s.wordMoved n a b) := by
    have hwrite := State.moverWrite_map (s := s.mapRead n .normal a) (n := n) (d := s.mems.map.bytes a 4) m.epoch
      hq htdst hb ((s.bankServes_mapRead ..).trans hsb) hclean
    simp only [State.moverStore, BitVec.add_zero, hwin, hwrite]
    rfl
  rw [State.moverPart, hfetch]
  exact hstore

theorem Mover.ok_word {m : Mover} (hsrc : m.src = aliasAddr 0x10000000 a) (hdst : m.dst = aliasAddr 0x10000000 b)
    (hlen : m.len = 4) (ha : a < 0x7C00000) (hb : b < 0x7C00000) (ha4 : a % 4 = 0) (hb4 : b % 4 = 0) :
    m.ok = true := by
  have hs : m.src.toNat % 4 = 0 := by
    rw [hsrc, aliasAddr_toNat (by omega)]
    omega
  have hd : m.dst.toNat % 4 = 0 := by
    rw [hdst, aliasAddr_toNat (by omega)]
    omega
  simp [Mover.ok, hlen, hs, hd]

end Word

theorem State.wordMoved_map (s : State) (n a b : Nat) :
    (s.wordMoved n a b).mems.map = s.mems.map.aliasStore .normal b (s.mems.map.bytes a 4) := rfl

theorem State.wordMoved_bytes (s : State) (n a b : Nat) :
    (s.wordMoved n a b).mems.map.bytes b 4 = s.mems.map.bytes a 4 := by
  have h := s.mems.map.aliasStore_bytes .normal b (s.mems.map.bytes a 4)
  rw [Memory.bytes_length] at h
  exact h

/-- The counts stay. -/
theorem State.wordMoved_so (s : State) (n a : Nat) {b : Nat} (hb : b + 4 ≤ 0x7C00000) (k : Nat) :
    (s.wordMoved n a b).so k = s.so k := by
  have hk := soAddr_ge k
  have hbytes : (s.wordMoved n a b).mems.map.bytes (soAddr k) 4 = s.mems.map.bytes (soAddr k) 4 :=
    Memory.bytes_congr fun x hx _ => Memory.aliasStore_byte _ _ _ _ (by rw [Memory.bytes_length]; omega)
  rw [State.so, hbytes, State.so]

theorem State.wordMoved_soBad {s : State} (hclean : s.mems.map.poison = []) (n a b k : Nat) :
    (s.wordMoved n a b).soBad k = false := by
  rw [State.soBad, State.wordMoved_map, Memory.aliasStore]
  exact Memory.bad_of_none ((Memory.putBytes_poison ..).trans (Memory.clean_of_none hclean ..)) _

/-- The end of the transfer is counted at its sync object. -/
theorem State.wordMoved_counted {s : State} {n a b k : Nat} {rest : List Mover} (hq : FabricQuiet s)
    (hclean : s.mems.map.poison = []) (hb : b + 4 ≤ 0x7C00000) (hk : k < 16384) :
    (((s.wordMoved n a b).moverDone n rest ST_OK).bumpSo n k 1).hostFree =
      ((s.wordMoved n a b).moverDone n rest ST_OK).soPut k (s.so k + 1) := by
  obtain ⟨hclasps, hraised, hheld⟩ := hq
  have hbump := State.bumpSo_now (s := (s.wordMoved n a b).moverDone n rest ST_OK) n 1 hk hraised
    (State.wordMoved_soBad hclean n a b k)
  have hso : ((s.wordMoved n a b).moverDone n rest ST_OK).so k = s.so k := s.wordMoved_so n a hb k
  have hquiet : FabricQuiet (((s.wordMoved n a b).moverDone n rest ST_OK).soPut k (s.so k + 1)) :=
    ⟨hclasps, hraised, hheld⟩
  rw [hbump, hso]
  exact State.hostFree_of_quiet hquiet

/-- A word is one part. -/
theorem State.moverParts_word (s : State) (n : Nat) {m : Mover} (hlen : m.len = 4) : s.moverParts n m = [(0, 4)] := by
  have hlines : (if m.src.toNat % 64 = 0 && m.dst.toNat % 64 = 0 && !(s.target n m.src).isCsr &&
      !(s.target n m.dst).isCsr then m.len / 64 else 0) = 0 := by
    rw [hlen]
    exact ite_self 0
  rw [State.moverParts, hlines, hlen]
  rfl

theorem State.blocked_of_quiet {s : State} (hq : FabricQuiet s) (src : Nat) (r : Option Resource) :
    s.blocked src r = false := by
  obtain ⟨hclasps, hraised, -⟩ := hq
  cases r <;> simp [State.blocked, State.claspedFrom, State.claspOn, hclasps, hraised]

theorem exec_moverTransferEnd_word {s : State} {n : Fin 4096} {m : Mover} {rest : List Mover} {a b : Nat}
    (hrun : (s.bead n.val).movers = m :: rest) (hq : FabricQuiet s) (hsrc : m.src = aliasAddr 0x10000000 a)
    (hdst : m.dst = aliasAddr 0x10000000 b) (hlen : m.len = 4) (hwin : m.win = 0xFFFF) (ha4 : a % 4 = 0)
    (hb4 : b % 4 = 0) (ha : a < 0x7C00000) (hb : b < 0x7C00000) (hsa : s.bankServes (a / 0x80000) = true)
    (hsb : s.bankServes (b / 0x80000) = true) (hclean : s.mems.map.poison = []) :
    exec (.moverTransferEnd n) s =
      .next ((((s.wordMoved n.val a b).moverDone n.val rest ST_OK).bumpSo n.val m.doneSo 1).hostFree) := by
  have hpart := State.moverPart_word (n := n.val) hq hsrc hdst hwin ha hb hsa hsb hclean
  have hwaits : s.moverWaits n.val m = false := by
    simp [State.moverWaits, State.blocked_of_quiet hq]
  have hclasp : s.moverClasp n.val m = false := by simp [State.moverClasp, hlen]
  change execMoverTransferEnd n s = _
  simp only [execMoverTransferEnd, hrun, Mover.ok_word hsrc hdst hlen ha hb ha4 hb4, hwaits, hclasp,
    State.moverParts_word s n.val hlen, List.foldl_cons, List.foldl_nil, hpart]
  rfl

end Sys2Proof.Machine

namespace Sys2Proof

open Sys2Proof.Machine

/-- Settles O27: GO fills a free slot, and a transfer that ends leaves its slot and counts at its sync objects. -/
theorem nodeMover : Obligations.NodeMover := by
  refine ⟨fun n v s hgo hfree => ?queued, fun n v s hgo hfull => ?full,
    fun n m rest s hrun hbad hq hd he hne hdc hec => ?refused,
    fun n m rest a b s hrun hq hsrc hdst hlen hwin ha4 hb4 ha hb hsa hsb hclean hd => ?word⟩
  case queued =>
    refine ⟨_, exec_moverGo_queued hgo hfree, ⟨s.moverOf n.val v, ?_, rfl, rfl, rfl, rfl, rfl⟩, ?_, fun o _ ho => ?_,
      .of_mems rfl⟩
    · rw [State.answer_bead, State.setMovers_bead]
    · rw [State.answer_fld, State.setMovers, State.fld_setF_same _ _ _ (by simp)]
      simp only [List.length_append, List.length_singleton]
      omega
    · obtain ⟨hctl, hstat⟩ := not_or.1 ho
      exact (State.rd_setF ..).trans ((if_neg (Ne.symm hstat)).trans ((State.rd_wr ..).trans (if_neg (Ne.symm hctl))))
  case full =>
    refine ⟨_, exec_moverGo_full hgo hfull, ?_, rfl, (OnlyRegs.refl s _).setF 1 rfl, .of_mems rfl⟩
    rw [State.answer_fld, State.fld_setF_same _ _ _ (by simp)]
    rfl
  case refused =>
    refine ⟨_, exec_moverTransferEnd_refused hrun hbad hq hd he hne hdc hec, ?_, ?_, ?_, ?_, State.soPut_so ..⟩
    · rw [State.soPut_bead, State.soPut_bead, State.setF_bead, State.moverDone_bead]
    · rw [State.soPut_fld, State.soPut_fld, State.fld_setF_off _ _ _ _ (by simp), State.moverDone_status]
    · rw [State.soPut_fld, State.soPut_fld, State.fld_setF_same _ _ _ (by simp)]
      rfl
    · rw [State.soPut_so_ne _ _ _ (Ne.symm hne), State.soPut_so]
  case word =>
    have hexec := exec_moverTransferEnd_word hrun hq hsrc hdst hlen hwin ha4 hb4 ha hb hsa hsb hclean
    rw [State.wordMoved_counted hq hclean (by omega) hd] at hexec
    refine ⟨_, hexec, ?_, ?_, ?_, State.soPut_so ..⟩
    · rw [State.soPut_bead, State.moverDone_bead]
    · rw [State.soPut_fld, State.moverDone_status]
      rfl
    · exact (State.soPut_below _ _ _ (by omega)).trans (s.wordMoved_bytes n.val a b)

end Sys2Proof

/-! PROOF. Who may write the registers of a Bead block (R133). -/

namespace Sys2Proof.Machine

section BlockWrite

variable {s : State} {src n off : Nat} {v : Word}

/-- The registers that only the SCP writes. -/
theorem beadScpOnly_iff (n off : Nat) : beadScpOnly n off = true ↔
    off = BEAD_CTL n ∨ off = BEAD_ENTRY n ∨ off = BEAD_ARG n ∨ off = BEAD_SAVE n ∨ off = BEAD_YLIM n := by
  simp only [beadScpOnly, Bool.or_eq_true, beq_iff_eq, or_assoc]

theorem beadScpOnly_ctl (n : Nat) : beadScpOnly n (BEAD_CTL n) = true := (beadScpOnly_iff ..).2 (.inl rfl)

theorem beadScpOnly_movCtl (n : Nat) : beadScpOnly n (BEAD_MOV_CTL n) = false := by
  simp [beadScpOnly]

/-- A write to BEAD_MOV_CTL by a source that may write it is answered, whatever it queues. -/
theorem State.moverGoOp_reply (h : src = mSCP ∨ src = n) : (s.moverGoOp src n v).reply = { st := ST_OK } := by
  have hsrc : ¬ (decide (src ≠ mSCP) && decide (src ≠ n)) = true := by
    simp only [Bool.and_eq_true, decide_eq_true_eq]
    exact fun hne => h.elim hne.1 hne.2
  rw [State.moverGoOp, if_neg hsrc]
  split_ifs <;> rfl

theorem State.beadBlockWrite_reply (h : src = mSCP ∨ src = n ∧ beadScpOnly n off = false) :
    (s.beadBlockWrite src n off v).reply = { st := ST_OK } := by
  unfold State.beadBlockWrite
  split_ifs with hctl hmov hdeny
  · have hscp : src = mSCP := h.resolve_right fun hn => by simp [hctl, beadScpOnly_ctl] at hn
    rw [State.beadCtlWrite, if_neg (not_not_intro hscp)]
    rfl
  · exact State.moverGoOp_reply (h.imp_right And.left)
  · obtain rfl | ⟨rfl, hfree⟩ := h
    · simp at hdeny
    · simp [hfree] at hdeny
  · rfl

theorem State.beadBlockWrite_refused (hscp : src ≠ mSCP) (h : src ≠ n ∨ beadScpOnly n off = true) :
    s.beadBlockWrite src n off v = s.refuseWrite ST_NOT_PERMITTED src off := by
  unfold State.beadBlockWrite
  split_ifs with hctl hmov hdeny
  · rw [State.beadCtlWrite, if_pos hscp, State.beadRefuse, hctl]
  · have hn : src ≠ n := h.resolve_right fun ho => by simp [hmov, beadScpOnly_movCtl] at ho
    rw [State.moverGoOp, if_pos (by simp [hscp, hn]), State.beadRefuse, hmov]
  · rfl
  · exact absurd (by simpa [hscp, or_comm] using h) hdeny

end BlockWrite

/-- Hardware that sets nothing changes nothing. -/
theorem State.hardwareSets_zero (s : State) (off : Nat) : s.hardwareSets off 0 = s :=
  (s.hardwareSets_eq off 0).resolve_right fun ⟨_, _, _, _, hne, _⟩ => hne rfl

theorem State.csrPut_bead {off : Nat} (hlo : 0x400000 ≤ off) (hhi : off < 0x800000) (hr : (regAt off).isNone = false)
    (s : State) (src : Nat) (v : Word) : s.csrPut src off v = s.beadBlockWrite src ((off - 0x400000) / 0x400) off v := by
  have hlow : ∀ k, k ≤ 0x400000 → ¬ off < k := fun k hk => by omega
  simp [State.csrPut, hr, hlow, hhi]

/-- The BAR0 window reaches the Bead blocks (R25). -/
theorem bar0Refuses_bead {off : Nat} (hlo : 0x400000 ≤ off) (hhi : off < 0x800000) : bar0Refuses off = false := by
  have hlow : ¬ off < 0x50000 := by omega
  have hhigh : ¬ 0xA00000 ≤ off := by omega
  simp [bar0Refuses, hlow, hhigh]

/-- A word written into the block of node `n` goes to that block. -/
theorem exec_csrWrite_beadBlock {s : State} {src off n : Nat} {v : Word} (hlo : 0x400000 + 0x400 * n ≤ off)
    (hhi : off < 0x400400 + 0x400 * n) (hn : n < 4096) (hal : off % 4 = 0) (hreg : (regAt off).isSome = true)
    (hawake : s.inStandby = false) (hfree : s.hostStalls src = false) :
    exec (.csrWrite src off 0xF ⟨v, 0⟩) s = .next (s.beadBlockWrite src n off v) := by
  have hnode : (off - 0x400000) / 0x400 = n := by omega
  have hput := State.csrPut_bead (off := off) (by omega) (by omega) (by rw [← Option.not_isSome, hreg]; rfl) s src v
  rw [hnode] at hput
  have hop : s.csrWriteOp src off 0xF v = s.csrPut src off v := by
    simp [State.csrWriteOp, State.hostAccess_of_awake hawake, hal, bar0Refuses_bead (off := off) (by omega) (by omega)]
  rw [exec_csrWrite_word (by omega), State.hostWrite_of_free hfree, State.hardwareSets_zero, hop, hput]

end Sys2Proof.Machine

namespace Sys2Proof

open Sys2Proof.Machine

/-- A refusal is logged and answered, and nothing else. -/
theorem State.refuseWrite_refused {s : State} (hawake : s.inStandby = false) (src off : Nat) :
    WriteRefused s (s.refuseWrite ST_NOT_PERMITTED src off) := by
  obtain ⟨-, hunits, hregs⟩ := State.refuseWrite_frame hawake ST_NOT_PERMITTED src off
  have ht : s.refuseWrite ST_NOT_PERMITTED src off = ((s.log ST_NOT_PERMITTED src EV_WRITE_REFUSED (off / 65536)
      (BitVec.ofNat 64 off)).answer ST_NOT_PERMITTED) := by
    rw [State.refuseWrite, State.hostAccess_of_awake hawake]
  refine ⟨State.refuseWrite_reply .., hregs, ?_, ?_, hunits, fun hfull hlost => ?_⟩
  · rw [ht, State.answer_mems, State.log_mems]
  · rw [ht, State.answer_fab, State.log_fab]
  · rw [ht, State.answer_rd, State.log_writeIndex hfull hlost]

/-- Settles O59: the block's one rule decides each write, and the four commands are writes of BEAD_CTL. -/
theorem beadRegisterWriters : Obligations.BeadRegisterWriters := by
  refine ⟨fun src off n v s hlo hhi hal hreg hawake hfree => ⟨fun hsrc => ?accepted, fun hscp hsrc => ?refused⟩,
    fun src n s hscp hawake c hc => ?command, beadScpOnly_iff⟩
  case accepted =>
    exact ⟨_, exec_csrWrite_beadBlock hlo hhi n.isLt hal hreg hawake hfree, State.beadBlockWrite_reply hsrc⟩
  case refused =>
    have hexec := exec_csrWrite_beadBlock (v := v) hlo hhi n.isLt hal hreg hawake hfree
    rw [State.beadBlockWrite_refused hscp hsrc] at hexec
    exact ⟨_, hexec, State.refuseWrite_refused hawake ..⟩
  case command =>
    refine ⟨s.refuseWrite ST_NOT_PERMITTED src (BEAD_CTL n.val), ?_, State.refuseWrite_refused hawake ..⟩
    obtain rfl | rfl | rfl | rfl := hc
    all_goals exact congrArg Host.Outcome.next (if_pos hscp)

end Sys2Proof

/-! PROOF. Every step keeps the memories in canonical form, and at reset they are in that form (R138, R398).

One lemma for each function of the model, in the model's order and under the function's own name: from a state whose
memories are in canonical form the function makes one whose memories are. Most functions change other parts of the
state only (`upd`) or hand the state on to others, whose lemmas are then chained as their calls are; the memories
themselves change by the operations of `Memory`, which keep the form by the laws about them. The lemma of a command
says that its outcome, where it is a state, is such a state (`OutWf`).

Where a proof puts a variable for a callee, or for the state that a callee returns, before it takes the function
apart, it keeps the kernel from running that callee. -/

namespace Sys2Proof
open Sys2Proof.Machine

theorem Memory.empty_wf : ({} : Memory).wf := ⟨.nil, fun _ hp => absurd hp List.not_mem_nil⟩

/-- Where a command ends in a next state, the memories of that state are in canonical form. -/
def OutWf (o : Out) : Prop := ∀ t, o = .next t → MemoriesWf t

namespace OutWf

theorem next {t : State} (h : MemoriesWf t) : OutWf (.next t) := fun _ e => by
  cases e
  exact h

theorem fault {f : Fault} : OutWf (.fault f) := fun _ e => by cases e

theorem ite {c : Prop} [Decidable c] {x y : Out} (hx : OutWf x) (hy : OutWf y) : OutWf (if c then x else y) :=
  ite_cases hx hy

end OutWf

/-- Where an access of a processor's core gives a value, the memories of the state with it are in canonical form. -/
def AccWf (r : ProcAcc) : Prop := ∀ v t, r = .value v t → MemoriesWf t

namespace AccWf

theorem value {v : Nat} {t : State} (h : MemoriesWf t) : AccWf (.value v t) := fun _ _ e => by
  cases e
  exact h

theorem trap {cause : Nat} : AccWf (.trap cause) := fun _ _ e => by cases e

theorem ecc : AccWf .ecc := fun _ _ e => by cases e

theorem waits : AccWf .waits := fun _ _ e => by cases e

theorem ite {c : Prop} [Decidable c] {x y : ProcAcc} (hx : AccWf x) (hy : AccWf y) : AccWf (if c then x else y) :=
  ite_cases hx hy

end AccWf

namespace MemoriesWf

variable {s t : State}

theorem of_mems (h : MemoriesWf s) (e : t.mems = s.mems) : MemoriesWf t := by
  unfold MemoriesWf at *; rw [e]; exact h

theorem ofIte {c : Prop} [Decidable c] (hs : MemoriesWf s) (ht : MemoriesWf t) :
    MemoriesWf (if c then s else t) := ite_cases hs ht

theorem ofIte_snd {α : Type} {c : Prop} [Decidable c] {x y : α × State} (hx : MemoriesWf x.2) (hy : MemoriesWf y.2) :
    MemoriesWf (if c then x else y).2 := ite_cases (P := fun z : α × State => MemoriesWf z.2) hx hy

theorem ofIte_fst {α : Type} {c : Prop} [Decidable c] {x y : State × α} (hx : MemoriesWf x.1) (hy : MemoriesWf y.1) :
    MemoriesWf (if c then x else y).1 := ite_cases (P := fun z : State × α => MemoriesWf z.1) hx hy

theorem ofIte_snd_snd {α β : Type} {c : Prop} [Decidable c] {x y : α × β × State} (hx : MemoriesWf x.2.2)
    (hy : MemoriesWf y.2.2) : MemoriesWf (if c then x else y).2.2 :=
  ite_cases (P := fun z : α × β × State => MemoriesWf z.2.2) hx hy

theorem foldl {α : Type} {f : State → α → State} {l : List α} (h : MemoriesWf s)
    (hf : ∀ u x, MemoriesWf u → MemoriesWf (f u x)) : MemoriesWf (l.foldl f s) :=
  List.foldlRecOn l f h fun u hu x _ => hf u x hu

theorem foldl_snd {α β : Type} {f : β × State → α → β × State} {l : List α} {b : β} (h : MemoriesWf s)
    (hf : ∀ u x, MemoriesWf u.2 → MemoriesWf (f u x).2) : MemoriesWf (l.foldl f (b, s)).2 :=
  List.foldlRecOn (motive := fun u => MemoriesWf u.2) l f h fun u hu x _ => hf u x hu

/-- A state that took its memories from `s`, whatever its other parts are. -/
theorem upd {pending csr reply facets beads fab model cams jxs jxsCur axes health safety host procs time eth cans pair
    power reset_ dport sec elogLost free} (h : MemoriesWf s) :
    MemoriesWf (.mk pending csr s.mems reply facets beads fab model cams jxs jxsCur axes health safety host procs time
      eth cans pair power reset_ dport sec elogLost free) := h

theorem mem (h : MemoriesWf s) (sp : Space) : (s.mem sp).wf := by
  obtain ⟨hmap, hblm, hfom, hddr, hnvm, hdmem⟩ := h
  cases sp <;> assumption

/-- The state of a pair that a `let` has taken apart. -/
theorem of_snd {α : Type} {p : α × State} {a : α} {u : State} (h : MemoriesWf p.2) (e : p = (a, u)) : MemoriesWf u := by
  rw [e] at h
  exact h

theorem foldl_snd_snd {α β γ : Type} {f : β × γ × State → α → β × γ × State} {l : List α} {b : β} {c : γ}
    (h : MemoriesWf s) (hf : ∀ u x, MemoriesWf u.2.2 → MemoriesWf (f u x).2.2) :
    MemoriesWf (l.foldl f (b, c, s)).2.2 :=
  List.foldlRecOn (motive := fun u => MemoriesWf u.2.2) l f h fun u hu x _ => hf u x hu

theorem of_snd_snd {α β : Type} {p : α × β × State} {a : α} {b : β} {u : State} (h : MemoriesWf p.2.2)
    (e : p = (a, b, u)) : MemoriesWf u := by
  rw [e] at h
  exact h

/-! ### The functions of `Machine/Ops.lean` -/

theorem wr {off : Nat} {v : Word} (h : MemoriesWf s) : MemoriesWf (s.wr off v) := h.upd

theorem setF {F : Fld} {v : Nat} (h : MemoriesWf s) : MemoriesWf (s.setF F v) := h.wr

theorem wrN {off v : Nat} (h : MemoriesWf s) : MemoriesWf (s.wrN off v) := h.wr

theorem incN {off n : Nat} (h : MemoriesWf s) : MemoriesWf (s.incN off n) := h.wrN

theorem inc {off : Nat} (h : MemoriesWf s) : MemoriesWf (s.inc off) := h.incN

theorem incF {F : Fld} {n : Nat} (h : MemoriesWf s) : MemoriesWf (s.incF F n) := h.setF

theorem answer {st : St} {data : List Byte} (h : MemoriesWf s) : MemoriesWf (s.answer st data) := h.upd

theorem plainWrite {off : Nat} {v : Word} (h : MemoriesWf s) : MemoriesWf (s.plainWrite off v) := by
  unfold State.plainWrite
  split
  · exact h
  · exact h.wr

theorem plainRead {off : Nat} (h : MemoriesWf s) : MemoriesWf (s.plainRead off).2 := by
  unfold State.plainRead
  split
  · exact h
  · exact ofIte h h.wr

theorem rephase (h : MemoriesWf s) : MemoriesWf s.rephase := h.upd

theorem wrList {off : Nat} {l : List Nat} (h : MemoriesWf s) : MemoriesWf (s.wrList off l) := by
  induction l generalizing s off with
  | nil => exact h
  | cons v vs ih => exact ih h.wr

theorem logPut {ws : List Nat} (h : MemoriesWf s) : MemoriesWf (s.logPut ws) := h.wrList.wrN

theorem logLose (h : MemoriesWf s) : MemoriesWf s.logLose := h.inc.upd

theorem log {st : St} {source event aux : Nat} {addr : BitVec 64} (h : MemoriesWf s) : MemoriesWf (s.log st source
    event aux addr) :=
  ofIte h.logLose (ofIte h.logPut (ofIte h.logPut.upd.logLose h.logPut.upd.logPut))

theorem wake (h : MemoriesWf s) : MemoriesWf s.wake := ofIte h.setF.upd (ofIte h.upd h)

theorem hostAccess {src : Nat} (h : MemoriesWf s) : MemoriesWf (s.hostAccess src) := ofIte h.wake h

theorem refuseWrite {st : St} {src off : Nat} (h : MemoriesWf s) : MemoriesWf (s.refuseWrite st src off) :=
  h.hostAccess.log.answer

theorem report {r : Report} (h : MemoriesWf s) : MemoriesWf (s.report r) := h.upd

theorem setMem {sp : Space} {m : Memory} (h : MemoriesWf s) (hm : m.wf) : MemoriesWf (s.setMem sp m) := by
  obtain ⟨hmap, hblm, hfom, hddr, hnvm, hdmem⟩ := h
  cases sp with
  | map => exact ⟨hm, hblm, hfom, hddr, hnvm, hdmem⟩
  | blm => exact ⟨hmap, hm, hfom, hddr, hnvm, hdmem⟩
  | fom => exact ⟨hmap, hblm, hm, hddr, hnvm, hdmem⟩
  | nvm => exact ⟨hmap, hblm, hfom, hddr, hm, hdmem⟩
  | ddr => exact ⟨hmap, hblm, hfom, hm, hnvm, hdmem⟩
  | dmem => exact ⟨hmap, hblm, hfom, hddr, hnvm, hm⟩

theorem soWake {n : Nat} (h : MemoriesWf s) : MemoriesWf (s.soWake n) := h.upd

theorem agmSee {n : Nat} (h : MemoriesWf s) : MemoriesWf (s.agmSee n) := h.upd

theorem soPut {n : Nat} {v : Word} (h : MemoriesWf s) : MemoriesWf (s.soPut n v) :=
  (h.setMem (Memory.putBytes_wf (h.mem .map) ..)).soWake.agmSee

theorem soPoison {src n : Nat} {data : List Byte} (h : MemoriesWf s) : MemoriesWf (s.soPoison src n data) :=
  h.log.answer

theorem soAddNow {src n : Nat} {v : Word} (h : MemoriesWf s) : MemoriesWf (s.soAddNow src n v) :=
  ofIte h.soPoison h.soPut.answer

theorem soAdd {src n : Nat} {v : Word} (h : MemoriesWf s) : MemoriesWf (s.soAdd src n v) := ofIte h.upd h.soAddNow

theorem holdHost {q : HostReq} (h : MemoriesWf s) : MemoriesWf (s.holdHost q) := h.upd

theorem hostWrite {src off : Nat} {v : Word} {f : State → State} (h : MemoriesWf s) (hf : ∀ u, MemoriesWf u →
    MemoriesWf (f u)) : MemoriesWf (s.hostWrite src off v f) :=
  ofIte h.holdHost (hf _ h)

theorem hostRead {src off : Nat} {f : State → State} (h : MemoriesWf s) (hf : ∀ u, MemoriesWf u → MemoriesWf (f u)) :
    MemoriesWf (s.hostRead src off f) :=
  ofIte h.holdHost (hf _ h)

theorem soSet {src n : Nat} {v : Word} (h : MemoriesWf s) : MemoriesWf (s.soSet src n v) :=
  (h.setMem (Memory.setBad_wf (h.mem .map) ..)).soPut.answer

theorem soRead {src n : Nat} (h : MemoriesWf s) : MemoriesWf (s.soRead src n) := ofIte h.soPoison h.answer

theorem soWait {src n : Nat} {target : Word} {tmoUs : Nat} {aliased : Bool} (h : MemoriesWf s) : MemoriesWf (s.soWait
    src n target tmoUs aliased) :=
  ofIte h.soRead (ofIte h.answer (ofIte h.soPoison (ofIte h.answer (ofIte h.inc.answer h.upd))))

theorem setFacet {f : Nat} {x : FacetSt} (h : MemoriesWf s) : MemoriesWf (s.setFacet f x) := h.upd

theorem setBead {n : Nat} {x : BeadSt} (h : MemoriesWf s) : MemoriesWf (s.setBead n x) := h.upd

theorem setCam {c : Nat} {x : CamSt} (h : MemoriesWf s) : MemoriesWf (s.setCam c x) := h.upd

theorem setAxis {a : Nat} {x : AxisSt} (h : MemoriesWf s) : MemoriesWf (s.setAxis a x) := h.upd

theorem setCan {n : Nat} {x : CanSt} (h : MemoriesWf s) : MemoriesWf (s.setCan n x) := h.upd

theorem setProc {p : Nat} {x : ProcSt} (h : MemoriesWf s) : MemoriesWf (s.setProc p x) := h.upd

theorem fresh (h : MemoriesWf s) : MemoriesWf s.fresh.2 := h.upd

theorem each {α : Type} {l : List α} {f : State → α → State} (h : MemoriesWf s)
    (hf : ∀ u x, MemoriesWf u → MemoriesWf (f u x)) : MemoriesWf (s.each l f) := h.foldl hf

/-! ### The functions of `Machine/Access.lean` -/

theorem countRej {x : Target} (h : MemoriesWf s) : MemoriesWf (s.countRej x) := by
  unfold State.countRej
  split
  · exact h.inc
  · exact h

theorem countWinRej {w : BitVec 16} (h : MemoriesWf s) : MemoriesWf (s.countWinRej w) := ofIte h.inc h

theorem remoteSt {chip : Nat} (h : MemoriesWf s) : MemoriesWf (s.remoteSt chip).2 := ofIte_snd h.fresh h

theorem granted {r : Resource} {src : Nat} (h : MemoriesWf s) : MemoriesWf (s.granted r src) := h.upd

theorem grantAt {t : Target} {src : Nat} (h : MemoriesWf s) : MemoriesWf (s.grantAt t src) := by
  unfold State.grantAt
  split
  · exact h.granted
  · exact h

theorem corrected {t : Target} (h : MemoriesWf s) : MemoriesWf (s.corrected t) := by
  unfold State.corrected
  dsimp only
  split
  · exact h.upd.incN
  · exact h.upd.incN
  · exact h.upd.incN
  · exact h

theorem readAt {src : Nat} {addr : BitVec 64} {n : Nat} (h : MemoriesWf s) : MemoriesWf (s.readAt src addr n).2 := by
  unfold State.readAt
  refine ofIte_snd h (ofIte_snd h.countRej ?_)
  dsimp only
  split
  · exact h.grantAt.corrected.remoteSt
  · exact h.grantAt.corrected
  · exact ofIte h.grantAt.corrected h.grantAt.corrected.incN
  · exact h.grantAt.corrected
  · exact h.grantAt.corrected

theorem writeAt {src : Nat} {addr : BitVec 64} {data : List Byte} {w epoch : BitVec 16} (h : MemoriesWf s) :
    MemoriesWf (s.writeAt src addr data w epoch).2 := by
  unfold State.writeAt
  refine ofIte_snd h (ofIte_snd h.countRej (ofIte_snd h.countWinRej ?_))
  dsimp only
  split
  · exact h.grantAt.remoteSt
  · exact h.grantAt
  · refine ofIte_snd h.grantAt ?_
    split
    · exact h.grantAt
    next m e => exact h.grantAt.setMem (Memory.store_wf (h.grantAt.mem _) e)

theorem readLong {src : Nat} {addr : BitVec 64} {n : Nat} (h : MemoriesWf s) : MemoriesWf (s.readLong src addr n).2 :=
  h.foldl_snd fun _ _ hu => hu.readAt

theorem writeLong {src : Nat} {addr : BitVec 64} {data : List Byte} {w epoch : BitVec 16} (h : MemoriesWf s) :
    MemoriesWf (s.writeLong src addr data w epoch).2 :=
  h.foldl_snd fun _ _ hu => ofIte_snd hu hu.writeAt

theorem poke {addr : Nat} {d : List Byte} (h : MemoriesWf s) : MemoriesWf (s.poke addr d) := by
  unfold State.poke
  split
  · exact h.setMem (Memory.putBytes_wf (Memory.clean_wf (h.mem _) ..) ..)
  · exact h

/-! ### The functions of `Machine/BeadOps.lean` -/

theorem setBeadState {n v : Nat} (h : MemoriesWf s) : MemoriesWf (s.setBeadState n v) := h.setF

theorem beadFault {n cause : Nat} (h : MemoriesWf s) : MemoriesWf (s.beadFault n cause) := h.setF.wr.setBeadState

theorem beadEcc {n : Nat} {addr : BitVec 64} (h : MemoriesWf s) : MemoriesWf (s.beadEcc n addr) :=
    h.setF.log.beadFault

theorem beadRefuse {src off : Nat} (h : MemoriesWf s) : MemoriesWf (s.beadRefuse src off) := h.refuseWrite

theorem beadStartOp {src n : Nat} (h : MemoriesWf s) : MemoriesWf (s.beadStartOp src n) :=
  ofIte h.beadRefuse (ofIte h.answer h.setBead.setBeadState.answer)

theorem beadStopOp {src n : Nat} (h : MemoriesWf s) : MemoriesWf (s.beadStopOp src n) :=
  ofIte h.beadRefuse (ofIte h.setBead.setF.setF.setBeadState.answer h.answer)

theorem yieldReqOp {src n : Nat} (h : MemoriesWf s) : MemoriesWf (s.yieldReqOp src n) :=
  ofIte h.beadRefuse h.setBead.setF.setF.answer

theorem beadRestore {n : Nat} (h : MemoriesWf s) : MemoriesWf (s.beadRestore n) := by
  unfold State.beadRestore
  dsimp only
  split
  · exact h
  · exact h.setBead.setBeadState

theorem beadResumeOp {src n : Nat} (h : MemoriesWf s) : MemoriesWf (s.beadResumeOp src n) :=
  ofIte h.beadRefuse (ofIte h.answer h.beadRestore.answer)

theorem beadCtlWrite {src n : Nat} {v : Word} (h : MemoriesWf s) : MemoriesWf (s.beadCtlWrite src n v) :=
  ofIte h.beadRefuse (ofIte (ofIte (ofIte (ofIte h.beadStartOp h).yieldReqOp (ofIte h.beadStartOp h)).beadResumeOp
      (ofIte (ofIte h.beadStartOp h).yieldReqOp (ofIte h.beadStartOp h))).beadStopOp (ofIte (ofIte (ofIte
      h.beadStartOp h).yieldReqOp (ofIte h.beadStartOp h)).beadResumeOp (ofIte (ofIte h.beadStartOp h).yieldReqOp
      (ofIte h.beadStartOp h)))).answer

theorem setMovers {n : Nat} {l : List Mover} (h : MemoriesWf s) : MemoriesWf (s.setMovers n l) := h.setBead.setF

theorem moverGoOp {src n : Nat} {v : Word} (h : MemoriesWf s) : MemoriesWf (s.moverGoOp src n v) :=
  ofIte h.beadRefuse (ofIte h.wr.answer (ofIte h.setF.answer h.wr.setMovers.answer))

theorem beadBlockWrite {src n off : Nat} {v : Word} (h : MemoriesWf s) : MemoriesWf (s.beadBlockWrite src n off v) :=
  ofIte h.beadCtlWrite (ofIte h.moverGoOp (ofIte h.beadRefuse h.plainWrite.answer))

theorem beadBlockRead {n off : Nat} (h : MemoriesWf s) : MemoriesWf (s.beadBlockRead n off).2 :=
  ofIte_snd h.wr h.plainRead

theorem exec_beadParked {n : Fin 4096} (h : MemoriesWf s) : OutWf (execBeadParked n s) :=
  .ite (.next h) (.next (h.setMem (Memory.lose_wf (h.mem .blm) ..)).upd.setBead.wr.setF.setF.setBeadState)

theorem exec_beadStart {src : Nat} {n : Fin 4096} (h : MemoriesWf s) : OutWf (execBeadStart src n s) :=
  .next h.beadStartOp

theorem exec_beadStop {src : Nat} {n : Fin 4096} (h : MemoriesWf s) : OutWf (execBeadStop src n s) := .next
    h.beadStopOp

theorem exec_yieldReq {src : Nat} {n : Fin 4096} (h : MemoriesWf s) : OutWf (execYieldReq src n s) := .next
    h.yieldReqOp

theorem exec_beadResume {src : Nat} {n : Fin 4096} (h : MemoriesWf s) : OutWf (execBeadResume src n s) :=
  .next h.beadResumeOp

theorem exec_yieldLimitExpired {n : Fin 4096} (h : MemoriesWf s) : OutWf (execYieldLimitExpired n s) := by
  unfold execYieldLimitExpired
  dsimp only
  split
  · exact .next h
  · exact .ite (.next h.setF.report) (.next h)

theorem exec_moverGo {src : Nat} {n : Fin 4096} {v : Word} (h : MemoriesWf s) : OutWf (execMoverGo src n v s) :=
  .next h.moverGoOp

/-! ### The functions of `Machine/Fabric.lean` -/

theorem rmw {src : Nat} {addr : BitVec 64} {f : Word → Word} (h : MemoriesWf s) : MemoriesWf (s.rmw src addr f).2 :=
    by
  unfold State.rmw
  split
  · exact ofIte_snd h (h.setMem (Memory.putBytes_wf (h.mem .blm) ..))
  · exact h.remoteSt.fresh
  · exact ofIte_snd h.countRej h

theorem perform {src : Nat} {addr : BitVec 64} {op : ReqOp} (h : MemoriesWf s) : MemoriesWf (s.perform src addr op).2
    := by
  unfold State.perform
  split
  · exact h.readAt
  · exact h.writeAt
  · exact h.writeAt
  · exact h.writeAt
  · exact h.grantAt.rmw
  · exact h.grantAt.rmw
  · exact h
  · exact h.soAddNow.upd

theorem atUnit {α : Type} {t : Target} {u : Nat} {f : State → α × State} (h : MemoriesWf s) (hf : ∀ u, MemoriesWf u →
    MemoriesWf (f u).2) : MemoriesWf (s.atUnit t u f).2 := by
  unfold State.atUnit
  refine ofIte_snd (hf _ h) ?_
  split
  · exact (hf _ h.setF).wr
  · exact (hf _ h.setF).wr
  · exact hf _ h

theorem setRaised {l : List Req} (h : MemoriesWf s) : MemoriesWf (s.setRaised l) := h.upd.each fun _ _ hu => hu.setF

theorem conflict {ms : List Nat} (h : MemoriesWf s) : MemoriesWf (s.conflict ms) := h.each fun _ _ hu => hu.inc

theorem waited {m : Nat} (h : MemoriesWf s) : MemoriesWf (s.waited m) := h.incN.upd

theorem claspBeat {src : Nat} {r : Resource} (h : MemoriesWf s) : MemoriesWf (s.claspBeat src r) := h.upd

theorem openClasp {r : Resource} {src beats : Nat} {addr : BitVec 64} (h : MemoriesWf s) : MemoriesWf (s.openClasp r
    src beats addr) :=
  h.upd

theorem answerLater {src : Nat} {a : Reply} (h : MemoriesWf s) : MemoriesWf (s.answerLater src a) := h.upd

theorem grantOne {r : Resource} {q : Req} (h : MemoriesWf s) : MemoriesWf (s.grantOne r q) := by
  unfold State.grantOne
  split
  · exact h.answerLater
  · split
    · exact ofIte h.answerLater h.granted.openClasp.answerLater
    · exact (h.atUnit fun _ hu => hu.perform).claspBeat.answerLater

theorem grantRaised {r : Resource} {k : Nat} (h : MemoriesWf s) : MemoriesWf (State.grantRaised r k s) := by
  induction k generalizing s with
  | zero => exact h
  | succ k ih =>
    unfold State.grantRaised
    dsimp only
    split
    · exact h
    · exact ih h.setRaised.waited.conflict.grantOne

theorem addsDue {k : Nat} (h : MemoriesWf s) : MemoriesWf (State.addsDue k s) := by
  induction k generalizing s with
  | zero => exact h
  | succ k ih =>
    unfold State.addsDue
    dsimp only
    split
    · exact h
    · exact ih h.setRaised.perform.answerLater

theorem serve {r : Resource} (h : MemoriesWf s) : MemoriesWf (s.serve r) := ofIte h h.grantRaised.addsDue

theorem raise {src : Nat} {addr : BitVec 64} {op : ReqOp} (h : MemoriesWf s) : MemoriesWf (s.raise src addr op) :=
  ofIte h.setRaised.conflict h.perform.setRaised

theorem request {src : Nat} {addr : BitVec 64} {op : ReqOp} (h : MemoriesWf s) : MemoriesWf (s.request src addr op).2
    := by
  unfold State.request
  refine ofIte_snd h.raise ?_
  dsimp only
  split
  · exact h.perform
  · exact h.perform.claspBeat.serve

theorem postWrite {src : Nat} {addr : BitVec 64} {data : List Byte} {w epoch : BitVec 16} (h : MemoriesWf s) :
    MemoriesWf (s.postWrite src addr data w epoch).2 :=
  ofIte_snd h.raise h.writeAt

theorem postLong {src : Nat} {addr : BitVec 64} {data : List Byte} {w epoch : BitVec 16} (h : MemoriesWf s) :
    MemoriesWf (s.postLong src addr data w epoch).2 :=
  h.foldl_snd fun _ _ hu => ofIte_snd hu hu.postWrite

theorem setMove {b : Nat} {m : BankMove} (h : MemoriesWf s) : MemoriesWf (s.setMove b m) := h.upd

theorem lastSt {b : Nat} {st : St} (h : MemoriesWf s) : MemoriesWf (s.lastSt b st) := h.setF

theorem bankApply {src b req : Nat} (h : MemoriesWf s) : MemoriesWf (s.bankApply src b req) :=
  ofIte h.setF.lastSt (ofIte (ofIte h.setF.lastSt.setMove h.setF.lastSt.setF.setMove.upd) (ofIte
      h.setF.lastSt.setF.setMove h.setF.lastSt.setMove))

theorem bankReq {src b req : Nat} (h : MemoriesWf s) : MemoriesWf (s.bankReq src b req) :=
  ofIte h.refuseWrite (ofIte h.answer.lastSt (ofIte h.answer.lastSt (ofIte h.answer.lastSt (ofIte h.answer.lastSt
      h.answer.bankApply))))

theorem bankZero {b : Nat} (h : MemoriesWf s) : MemoriesWf (s.bankZero b) := h.setMem (Memory.zero_wf (h.mem .map) ..)

theorem groupCheck {b : Nat} (h : MemoriesWf s) : MemoriesWf (s.groupCheck b) := ofIte h.upd h

theorem winCtlWrite {src w : Nat} {v : Word} (h : MemoriesWf s) : MemoriesWf (s.winCtlWrite src w v) :=
  ofIte h.refuseWrite (ofIte (ofIte h.setF h).answer.setF (ofIte (ofIte (ofIte h.setF h).answer.setF.setF (ofIte
      h.setF h).answer.setF) (ofIte (ofIte h.setF h).answer.setF.setF.upd (ofIte h.setF h).answer)))

theorem winRangeWrite {src w off : Nat} {v : Word} (h : MemoriesWf s) : MemoriesWf (s.winRangeWrite src w off v) :=
  ofIte h.refuseWrite (ofIte h.answer h.plainWrite.answer)

theorem setArmed {src n : Nat} {v : Option Word} (h : MemoriesWf s) : MemoriesWf (s.setArmed src n v) := h.upd

theorem soAliasRead {src n : Nat} (h : MemoriesWf s) : MemoriesWf (s.soAliasRead src n) := by
  unfold State.soAliasRead
  split
  · exact h.soRead
  · exact h.setArmed.soWait

theorem exec_bankReqOn {src : Nat} {b : Fin 256} (h : MemoriesWf s) : OutWf (execBankReqOn src b s) := .next h.bankReq

theorem exec_bankReqRetention {src : Nat} {b : Fin 256} (h : MemoriesWf s) : OutWf (execBankReqRetention src b s) :=
  .next h.bankReq

theorem exec_bankReqOff {src : Nat} {b : Fin 256} (h : MemoriesWf s) : OutWf (execBankReqOff src b s) := .next
    h.bankReq

theorem exec_bankDrained {b : Fin 256} (h : MemoriesWf s) : OutWf (execBankDrained b s) := by
  unfold execBankDrained
  dsimp only
  split
  · exact .ite (.next h) (.ite (.next h.setF.setMove) (.next h.setF.setMove))
  · exact .next h

theorem exec_bankDrainTimeout {b : Fin 256} (h : MemoriesWf s) : OutWf (execBankDrainTimeout b s) := by
  unfold execBankDrainTimeout
  dsimp only
  split
  · exact .ite (.next h) (.next h.setF.setMove.lastSt.log.upd)
  · exact .next h

theorem exec_bankTransitionComplete {b : Fin 256} (h : MemoriesWf s) : OutWf (execBankTransitionComplete b s) := by
  unfold execBankTransitionComplete
  dsimp only
  split
  · exact .next h.setMove
  · exact .next h.setF.setMove.bankZero.groupCheck
  · exact .next h.setF.setMove
  · exact .next h.bankZero.setF.setMove
  · exact .next h

theorem exec_patrolScrub {b : Fin 256} {word : Fin 65536} {found : EccFinding} (h : MemoriesWf s) : OutWf
    (execPatrolScrub b word found s) := by
  unfold execPatrolScrub
  refine .ite (.next h) ?_
  split
  · exact .next h
  · exact .next h.inc
  · exact .next (h.setMem (Memory.setBad_wf (h.mem .map) ..))

theorem exec_soAdd {src : Nat} {n : Fin 16384} {v : Word} (h : MemoriesWf s) : OutWf (execSoAdd src n v s) :=
  .next (h.hostWrite fun _ hu => hu.soAdd)

theorem exec_soSet {src : Nat} {n : Fin 16384} {v : Word} (h : MemoriesWf s) : OutWf (execSoSet src n v s) :=
  .next (h.hostWrite fun _ hu => hu.soSet)

theorem exec_soRead {src : Nat} {n : Fin 16384} (h : MemoriesWf s) : OutWf (execSoRead src n s) :=
  .next (h.hostRead fun _ hu => hu.soRead)

theorem exec_soWait {src : Nat} {n : Fin 16384} {req : Option (Word × BitVec 16)} (h : MemoriesWf s) : OutWf
    (execSoWait src n req s) := by
  unfold execSoWait
  split
  · exact .next (h.hostRead fun _ hu => hu.soWait)
  · exact .next (h.hostRead fun _ hu => hu.soAliasRead)

theorem exec_soWaitArm {src : Nat} {n : Fin 16384} {target : Word} (h : MemoriesWf s) : OutWf (execSoWaitArm src n
    target s) :=
  .next (h.hostWrite fun _ hu => hu.setArmed.answer)

theorem waitTimeout {w : Wait} (h : MemoriesWf s) : MemoriesWf (s.waitTimeout w) := h.inc.upd

theorem exec_windowOpenRequest {src : Nat} {w : Fin 4096} {v : Word} (h : MemoriesWf s) : OutWf
    (execWindowOpenRequest src w v s) :=
  .next h.winCtlWrite

theorem exec_windowClose {src : Nat} {w : Fin 4096} {v : Word} (h : MemoriesWf s) : OutWf (execWindowClose src w v s)
    :=
  .next h.winCtlWrite

theorem exec_windowCloseDrained {w : Fin 4096} (h : MemoriesWf s) : OutWf (execWindowCloseDrained w s) :=
  .ite (.next h) (.next h.setF.upd)

theorem classWrite {src k : Nat} {v : Word} (h : MemoriesWf s) : MemoriesWf (s.classWrite src k v) :=
  ofIte h.refuseWrite h.wr.answer

theorem exec_arbClassWrite {src : Nat} {k : Fin 260} {v : Word} (h : MemoriesWf s) : OutWf (execArbClassWrite src k v
    s) :=
  .next h.classWrite

theorem exec_claspOpen {src : Nat} {addr : BitVec 64} {beats : Nat} (h : MemoriesWf s) : OutWf (execClaspOpen src
    addr beats s) := by
  unfold execClaspOpen
  refine .ite .fault (.ite (.next h.answer) ?_)
  split
  · exact .next h.answer
  · exact .ite (.next h.answer) (.ite (.next h.countRej.answer) (.ite (.next h.setRaised.conflict) (.next
      h.granted.openClasp.answer)))

/-! ### The functions of `Machine/Facet.lean` -/

theorem facWrite {f : Nat} {st : St} {addr : Nat} {d : List Byte} (h : MemoriesWf s) : MemoriesWf (s.facWrite f st
    addr d).2 :=
  h.postLong

theorem putTile {f : Nat} {o : OutSpec} {cmd : FacetCmd} {r c : Nat} {e : TileEnc} (h : MemoriesWf s) : MemoriesWf
    (s.putTile f o cmd r c e).2 :=
  h.foldl_snd fun _ _ hu => hu.facWrite

theorem putPlane {f : Nat} {o : OutSpec} {cmd : FacetCmd} (h : MemoriesWf s) : MemoriesWf (s.putPlane f o cmd).2 :=
  ofIte_snd h (h.foldl_snd fun _ _ hu => hu.facWrite)

theorem finishTile {f : Nat} {d : FacDesc} {cmd : FacetCmd} {r c : Nat} {vs : List (List Outp)} (h : MemoriesWf s) :
    MemoriesWf (s.finishTile f d cmd r c vs).2 :=
  h.putTile

theorem roundTile {f : Nat} {d : FacDesc} {cmd : FacetCmd} {r c : Nat} {bad : Bool} {ws : List (List WideSum)} (h :
    MemoriesWf s) : MemoriesWf (s.roundTile f d cmd r c bad ws).2 :=
  h.finishTile

theorem wideTile {f : Nat} {d : FacDesc} {cmd : FacetCmd} {r c : Nat} {bad : Bool} {ws : List (List WideSum)} (h :
    MemoriesWf s) : MemoriesWf (s.wideTile f d cmd r c bad ws).2 :=
  h.putTile

theorem leaveTile {f : Nat} {d : FacDesc} {cmd : FacetCmd} {r c : Nat} {bad : Bool} {ws : List (List WideSum)} (h :
    MemoriesWf s) : MemoriesWf (s.leaveTile f d cmd r c bad ws).2 :=
  ofIte_snd h.wideTile h.roundTile

theorem poolTile {f : Nat} {d : FacDesc} {cmd : FacetCmd} {r c : Nat} (h : MemoriesWf s) : MemoriesWf (s.poolTile f d
    cmd r c).2 :=
  h.finishTile

theorem combineTile {f : Nat} {d : FacDesc} {cmd : FacetCmd} {r c : Nat} (h : MemoriesWf s) : MemoriesWf
    (s.combineTile f d cmd r c).2 :=
  h.leaveTile

theorem putDelta {f : Nat} {d : FacDesc} {cmd : FacetCmd} (h : MemoriesWf s) : MemoriesWf (s.putDelta f d cmd).2 :=
  h.foldl_snd fun _ _ hu => hu.facWrite

theorem load {f : Nat} {ls : List Nat} (h : MemoriesWf s) : MemoriesWf (s.load f ls) :=
  h.each fun _ _ hu => ofIte hu hu.readAt

/-! ### The functions of `Machine/Attention.lean` -/

theorem attnDrain {f : Nat} {d : AttnDesc} {qt hd sl : Nat} {u : AttnRun} {cmd : FacetCmd} (h : MemoriesWf s) :
    MemoriesWf (s.attnDrain f d qt hd sl u cmd).2 :=
  h.foldl_snd fun _ _ hu => hu.facWrite

theorem attnPass {f : Nat} {d : AttnDesc} {cmd : FacetCmd} {u : AttnRun} (h : MemoriesWf s) : MemoriesWf (s.attnPass
    f d cmd u).2 :=
  ofIte_snd h (ofIte_snd h.attnDrain h)

theorem attnBegin {f : Nat} {d : AttnDesc} {cmd : FacetCmd} (h : MemoriesWf s) : MemoriesWf (s.attnBegin f d cmd).2
    := by
  unfold State.attnBegin
  split
  · exact h
  · exact h.load

theorem attnSteps {f k : Nat} {d : AttnDesc} {x : (FacetCmd × Nat) × State} (h : MemoriesWf x.2) :
    MemoriesWf (State.attnSteps f d k x).2 := by
  induction k generalizing x with
  | zero => exact h
  | succ k ih => exact ih h.attnBegin.attnPass

theorem attnFinish {f : Nat} {d : AttnDesc} {cmd : FacetCmd} (h : MemoriesWf s) : MemoriesWf (s.attnFinish f d cmd).2
    :=
  ofIte_snd (h.attnBegin.attnSteps.foldl_snd fun _ _ hu => hu.attnDrain) h.attnBegin.attnSteps

/-! ### The functions of `Machine/HostOps.lean` -/

theorem setRing {r : Nat} {x : RingSt} (h : MemoriesWf s) : MemoriesWf (s.setRing r x) := h.upd

theorem ringError {r cause : Nat} (h : MemoriesWf s) : MemoriesWf (s.ringError r cause) := h.setF.setF

theorem ringWrite {r i : Nat} {ls : List (List Byte)} (h : MemoriesWf s) : MemoriesWf (s.ringWrite r i ls).2 :=
  State.ringWrite_keeps (fun _ _ _ hu => hu.postWrite) r ls i h

theorem msix {v : Nat} (h : MemoriesWf s) : MemoriesWf (s.msix v) := ofIte h.upd (ofIte h h.upd)

theorem ringIrq {p : Nat} (h : MemoriesWf s) : MemoriesWf (s.ringIrq p) := ofIte h (ofIte h.msix h.setRing)

theorem entryWrite {p i : Nat} {ls : List (List Byte)} (h : MemoriesWf s) : MemoriesWf (s.entryWrite p i ls).2 :=
  ofIte_snd h.ringWrite h.ringWrite.ringWrite

theorem ringPut {p : Nat} {entry : List Byte} (h : MemoriesWf s) : MemoriesWf (s.ringPut p entry) :=
  ofIte h.entryWrite.ringError h.entryWrite.wrN.ringIrq

theorem putEvent {p func code : Nat} {st : St} {aux : Nat} (h : MemoriesWf s) : MemoriesWf (s.putEvent p func code st
    aux) :=
  h.ringPut.setRing

theorem flushWithheld {p : Nat} (h : MemoriesWf s) : MemoriesWf (s.flushWithheld p) := ofIte h h.setRing.putEvent

theorem withhold {p : Nat} (h : MemoriesWf s) : MemoriesWf (s.withhold p) := h.setRing.inc

theorem event {func code : Nat} {st : St} {aux : Nat} (h : MemoriesWf s) : MemoriesWf (s.event func code st aux) := by
  unfold State.event
  split
  · exact h
  · exact h.withhold
  · exact ofIte h.flushWithheld.putEvent h.flushWithheld.withhold

theorem fnEvent {func old new : Nat} {st : St} (h : MemoriesWf s) : MemoriesWf (s.fnEvent func old new st) :=
  ofIte h h.event

theorem wrBytes {off : Nat} {b : List Byte} (h : MemoriesWf s) : MemoriesWf (s.wrBytes off b) := h.wrList

theorem mbxComplete {m : Nat} {c : HostCmd} {st : St} {aux : Nat} {res : List Byte} (h : MemoriesWf s) : MemoriesWf
    (s.mbxComplete m c st aux res) :=
  ofIte h.wrBytes.setF.setF.msix h.wrBytes.setF.setF

theorem ringComplete {r : Nat} {seq : Word} {c : HostCmd} {st : St} {aux : Nat} {res : List Byte} (h : MemoriesWf s)
    : MemoriesWf (s.ringComplete r seq c st aux res) :=
  (ofIte h.setRing.flushWithheld h.setRing).ringPut.setRing

theorem complete {c : HostCmd} {st : St} {aux : Nat} {res : List Byte} (h : MemoriesWf s) : MemoriesWf (s.complete c
    st aux res) := by
  unfold State.complete
  dsimp only
  split
  · exact h.upd.ringComplete
  · exact h.upd.mbxComplete
  · exact h.upd.answer

theorem completeVia {via : Via} {st : St} {aux : Nat} (h : MemoriesWf s) : MemoriesWf (s.completeVia via st aux) := by
  unfold State.completeVia
  split
  · exact h
  · split
    · exact ofIte h.complete h.upd
    · exact h

theorem hostCmd {via : Via} {op func : Nat} {k : HostCmd → State} (h : MemoriesWf s) (hk : ∀ u, MemoriesWf (k u)) :
    MemoriesWf (s.hostCmd via op func k) := by
  unfold State.hostCmd
  split
  · exact h
  · exact hk _

theorem fnPlain {via : Via} {op func : Nat} {stateOk : Bool} {k : HostCmd → State} (h : MemoriesWf s) (hk : ∀ u,
    MemoriesWf (k u)) : MemoriesWf (s.fnPlain via op func stateOk k) :=
  h.hostCmd fun _ => ofIte h.complete (ofIte h.complete (hk _))

theorem fnConfigRun {c : HostCmd} {stateOk : Bool} {itemOk : Nat → Word → Bool} {kept : Nat → Bool} {apply : State →
    Nat → Word → State} {own : State → Bool} {enter : State → State} (h : MemoriesWf s) (happly : ∀ u x y, MemoriesWf
    u → MemoriesWf (apply u x y)) (henter : ∀ u, MemoriesWf u → MemoriesWf (enter u)) : MemoriesWf (s.fnConfigRun c
    stateOk itemOk kept apply own enter) :=
  ofIte h.complete (ofIte h.complete (ofIte h.complete (ofIte h.complete (ofIte (henter _ (h.foldl fun _ _ hu =>
      happly _ _ _ hu)).complete h.complete))))

theorem fnConfig {via : Via} {func : Nat} {stateOk : Bool} {itemOk : Nat → Word → Bool} {apply : State → Nat → Word →
    State} {own : State → Bool} {enter : State → State} (h : MemoriesWf s) (happly : ∀ u x y, MemoriesWf u →
    MemoriesWf (apply u x y)) (henter : ∀ u, MemoriesWf u → MemoriesWf (enter u)) : MemoriesWf (s.fnConfig via func
    stateOk itemOk apply own enter) :=
  h.hostCmd fun _ => h.fnConfigRun (fun _ _ _ hv => happly _ _ _ hv) (fun _ hv => henter _ hv)

/-! ### The functions of `Machine/AxisOps.lean` -/

theorem freshSt (h : MemoriesWf s) : MemoriesWf s.freshSt.2 := h.fresh

theorem completeFree {v : Option Via} (h : MemoriesWf s) : MemoriesWf (s.completeFree v) := by
  unfold State.completeFree
  split
  · exact h
  · exact h.freshSt.completeVia

theorem gatesLow {a : Nat} (h : MemoriesWf s) : MemoriesWf (s.gatesLow a) := h.setAxis.setF

theorem axEnter {a new : Nat} {st : St} (h : MemoriesWf s) : MemoriesWf (s.axEnter a new st) := h.setF.fnEvent

theorem axEnd {a : Nat} {toFault : Bool} {st : St} (h : MemoriesWf s) : MemoriesWf (s.axEnd a toFault st) :=
  (h.gatesLow.setF.setAxis.axEnter.each fun _ _ hu => ofIte hu.completeFree hu.completeVia).completeFree

theorem axStop {a : Nat} {toFault : Bool} {via : Option Via} (h : MemoriesWf s) : MemoriesWf (s.axStop a toFault via)
    := by
  unfold State.axStop
  dsimp only
  split
  · exact h.setAxis
  · exact h.setAxis.setF

theorem axFaultBit {a bit : Nat} (h : MemoriesWf s) : MemoriesWf (s.axFaultBit a bit) := (ofIte h.setF h).setF.log

theorem axFaults {a : Nat} {bits : List Nat} {off : Bool} (h : MemoriesWf s) : MemoriesWf (s.axFaults a bits off) :=
    by
  unfold State.axFaults
  refine ofIte h (ofIte (h.each fun _ _ hu => hu.axFaultBit).axEnd ?_)
  split
  · exact h.each fun _ _ hu => hu.axFaultBit
  · exact (h.each fun _ _ hu => hu.axFaultBit).axStop

theorem stoApply (h : MemoriesWf s) : MemoriesWf s.stoApply :=
  ofIte (h.each fun _ _ hu => ofIte hu.setF.axFaults hu.setF.setAxis) (h.each fun _ _ hu => hu.setF)

theorem ss1All (h : MemoriesWf s) : MemoriesWf s.ss1All := h.each fun _ _ hu => ofIte hu.axStop hu

/-! ### The functions of `Machine/NetOps.lean` -/

theorem setPort {p : Nat} {x : PortSt} (h : MemoriesWf s) : MemoriesWf (s.setPort p x) := h.upd

theorem ethDrop {p r : Nat} (h : MemoriesWf s) : MemoriesWf (s.ethDrop p r) := h.inc

theorem macLearn {src : BitVec 48} {vlan p : Nat} (h : MemoriesWf s) : MemoriesWf (s.macLearn src vlan p) :=
  ofIte h (ofIte h.upd h)

theorem enqueue {p : Nat} {q : QFrame} (h : MemoriesWf s) : MemoriesWf (s.enqueue p q) := h.setPort

theorem ethForward {p : Nat} {fr : EthFrame} (h : MemoriesWf s) : MemoriesWf (s.ethForward p fr) :=
  ofIte (ofIte h.upd h).macLearn.ethDrop ((ofIte h.upd h).macLearn.each fun _ _ hu => hu.enqueue)

/-! ### The functions of `Machine/SafetyOps.lean` -/

theorem putDesc {src a : Nat} {d : Desc} (h : MemoriesWf s) : MemoriesWf (s.putDesc src a d) := by
  generalize hf : State.putDesc = f
  delta State.putDesc at hf
  subst hf
  beta_reduce
  split
  next st u e =>
    have hu := of_snd h.writeAt e
    exact ofIte hu hu.log

theorem descFail {src a : Nat} {cyc : Word} {st : St} (h : MemoriesWf s) : MemoriesWf (s.descFail src a cyc st) :=
  ofIte h (ofIte h.putDesc h.log)

theorem descFlagged {src a : Nat} {cyc : Word} (h : MemoriesWf s) : MemoriesWf (s.descFlagged src a cyc) :=
  ofIte h.putDesc h

theorem descFlag {src a : Nat} {cyc : Word} {fl : Nat} (h : MemoriesWf s) : MemoriesWf (s.descFlag src a cyc fl) :=
  ofIte h h.putDesc

theorem clearValid (h : MemoriesWf s) : MemoriesWf s.clearValid := by
  unfold State.clearValid
  split
  · exact h
  · exact h.each fun _ _ hu => hu.each fun _ _ hv => ofIte hv.putDesc hv

theorem fbUpdate (h : MemoriesWf s) : MemoriesWf s.fbUpdate := h.upd

theorem paths (h : MemoriesWf s) : MemoriesWf s.paths := h.setF.setF.fbUpdate.stoApply

theorem hold {a b : Bool} (h : MemoriesWf s) : MemoriesWf (s.hold a b) := h.upd.paths

theorem safetyTx {n : Nat} (h : MemoriesWf s) : MemoriesWf (s.safetyTx n) := by
  unfold State.safetyTx
  split
  · exact h
  · exact ofIte h h.wrN.wrN.wrBytes.setF.upd

theorem sendSafety (h : MemoriesWf s) : MemoriesWf s.sendSafety :=
  ofIte h.upd.upd.safetyTx (ofIte h.upd.ethForward h.upd)

theorem safeEvent {st : St} (h : MemoriesWf s) : MemoriesWf (s.safeEvent st) := h.event

theorem ss1Assert (h : MemoriesWf s) : MemoriesWf s.ss1Assert := h.upd.setF.paths

theorem ss1Check (h : MemoriesWf s) : MemoriesWf s.ss1Check := by
  unfold State.ss1Check
  split
  · exact h
  · exact ofIte h.ss1Assert h

theorem ss1Start {estop : Bool} (h : MemoriesWf s) : MemoriesWf (s.ss1Start estop) := h.ss1All.upd.setF.ss1Check

theorem safeEnter {cause : Nat} (h : MemoriesWf s) : MemoriesWf (s.safeEnter cause) :=
  ofIte h (ofIte (ofIte h.log.setF.hold h.log.setF) (ofIte (ofIte (ofIte h.log.setF.wr.setF.upd.hold
      h.log.setF.wr.setF.upd.ss1Start).clearValid (ofIte h.log.setF.wr.setF.upd.hold
      h.log.setF.wr.setF.upd.ss1Start).clearValid.sendSafety).safeEvent (ofIte (ofIte h.log.setF.wr.setF.upd.hold
      h.log.setF.wr.setF.upd.ss1Start).clearValid (ofIte h.log.setF.wr.setF.upd.hold
      h.log.setF.wr.setF.upd.ss1Start).clearValid.sendSafety).safeEvent.upd))

theorem safeExit (h : MemoriesWf s) : MemoriesWf s.safeExit :=
  (ofIte h.upd.upd h.upd.upd.setF).paths.upd.setF.setF.sendSafety.safeEvent

theorem sfpEvent {src row : Nat} {st : St} (h : MemoriesWf s) : MemoriesWf (s.sfpEvent src row st) := h.log

/-! ### The functions of `Machine/PowerOps.lean` -/

theorem setDom {d : Nat} {x : DomSt} (h : MemoriesWf s) : MemoriesWf (s.setDom d x) := h.upd

theorem regrant {d : Nat} (h : MemoriesWf s) : MemoriesWf (s.regrant d) := ofIte h.setF.setDom h.setDom

theorem railsSet (h : MemoriesWf s) : MemoriesWf s.railsSet := h.upd

theorem pairTell (h : MemoriesWf s) : MemoriesWf s.pairTell := ofIte h (h.each fun _ _ hu => ofIte hu hu.upd)

theorem regrantAll (h : MemoriesWf s) : MemoriesWf s.regrantAll :=
  (h.each fun _ _ hu => hu.regrant).railsSet.pairTell.setF.setF

theorem powerUpdate (h : MemoriesWf s) : MemoriesWf s.powerUpdate :=
  ((h.each fun _ _ hu => hu.setF).each fun _ _ hu => hu.setF).regrantAll

theorem noteActive {task charge : Nat} (h : MemoriesWf s) : MemoriesWf (s.noteActive task charge) := h.upd

theorem clockStart {k : Nat} (h : MemoriesWf s) : MemoriesWf (s.clockStart k) := h.upd

/-! ### The functions of `Machine/FacetRun.lean` -/

theorem setFacState {f v : Nat} (h : MemoriesWf s) : MemoriesWf (s.setFacState f v) := h.setFacet.setF

theorem setFacQueue {f : Nat} {q : List QDesc} (h : MemoriesWf s) : MemoriesWf (s.setFacQueue f q) := h.setFacet.setF

theorem setCur {f : Nat} {c : Option FacetCmd} (h : MemoriesWf s) : MemoriesWf (s.setCur f c) := h.setFacet

theorem facClocks {f n : Nat} (h : MemoriesWf s) : MemoriesWf (s.facClocks f n) := by
  unfold State.facClocks
  dsimp only
  split
  · exact h.setFacet.noteActive
  · exact h.setFacet

theorem bumpSo {src n k : Nat} (h : MemoriesWf s) : MemoriesWf (s.bumpSo src n k) := ofIte h.soAdd.upd h

theorem tileLoad {f : Nat} {c : FacetCmd} (h : MemoriesWf s) : MemoriesWf (s.tileLoad f c) := ofIte h.load h

theorem doReduce {f : Nat} {c : FacetCmd} (h : MemoriesWf s) : MemoriesWf (s.doReduce f c).2 := h.leaveTile.facClocks

theorem doTile {f : Nat} {c : FacetCmd} (h : MemoriesWf s) : MemoriesWf (s.doTile f c).2 :=
  ofIte_snd h.attnFinish.facClocks (ofIte_snd h.tileLoad.poolTile.facClocks (ofIte_snd
      h.tileLoad.combineTile.facClocks h.tileLoad.doReduce))

theorem doTiles {f k : Nat} {x : FacetCmd × State} (h : MemoriesWf x.2) : MemoriesWf (State.doTiles f k x).2 := by
  induction k generalizing x with
  | zero => exact h
  | succ k ih => exact ih h.doTile

theorem facEnd {f : Nat} {c : FacetCmd} (h : MemoriesWf s) : MemoriesWf (s.facEnd f c).2 :=
  ofIte_snd h.putPlane (ofIte_snd h.putPlane.putDelta h.putPlane).facClocks

theorem attnArea {f : Nat} (h : MemoriesWf s) : MemoriesWf (s.attnArea f) :=
  (h.setMem (Memory.lose_wf (h.mem .fom) ..)).upd

theorem stopAtTile {f : Nat} {c : FacetCmd} (h : MemoriesWf s) : MemoriesWf (s.stopAtTile f c) :=
  h.setFacet.setF.setF.setFacState

theorem partTile {f : Nat} {c : FacetCmd} {n : Nat} (h : MemoriesWf s) : MemoriesWf (s.partTile f c n) :=
  ofIte (ofIte_snd h.attnSteps h.tileLoad).setCur.facClocks.setFacet (ofIte_snd h.attnSteps
      h.tileLoad).setCur.facClocks

theorem segment {f : Nat} {c : FacetCmd} {blocks : Nat} (h : MemoriesWf s) : MemoriesWf (s.segment f c blocks) :=
  ofIte (ofIte (ofIte h.attnArea h).doTile.facEnd.setCur (ofIte (ofIte h.attnArea h).doTile.stopAtTile (ofIte
      h.attnArea h).doTile.setCur)) (ofIte h.attnArea h).partTile

theorem facGo {f : Nat} {c : FacetCmd} {go : FacetCmd → State} (h : MemoriesWf s) (hgo : ∀ u, MemoriesWf (go u)) :
    MemoriesWf (s.facGo f c go) :=
  ofIte h.setCur (ofIte h.setCur.waited (hgo _))

theorem facWork {f op : Nat} (h : MemoriesWf s) : MemoriesWf (s.facWork f op) := by
  unfold State.facWork
  split
  · exact h
  · exact ofIte h (h.facGo fun _ => ofIte h.segment (ofIte h.attnArea h).doTiles.facEnd.setCur)

theorem noteCutVoid {task : Nat} {cyc : Word} (h : MemoriesWf s) : MemoriesWf (s.noteCutVoid task cyc) := h.upd

theorem noteEnd {task cyc : Nat} {st : St} (h : MemoriesWf s) : MemoriesWf (s.noteEnd task cyc st) := h.upd

theorem facFinish {f : Nat} {c : FacetCmd} {st0 : St} {ran : Bool} (h : MemoriesWf s) :
    MemoriesWf (s.facFinish f c st0 ran) := by
  unfold State.facFinish
  extract_lets d
  split
  next st u e =>
    have hu : MemoriesWf u := by
      refine of_snd (ofIte_snd ?_ h) e
      dsimp only
      exact h.facWrite
    extract_lets s1 s2 s3 s4 s5 s6
    have h1 : MemoriesWf s1 := ofIte hu.log hu
    have h2 : MemoriesWf s2 := ofIte h1.log h1
    have h4 : MemoriesWf s4 := ofIte h2.wr.wrN h2.wr
    have h5 : MemoriesWf s5 := ofIte h4.wrN h4
    have h6 : MemoriesWf s6 := h5.wrN.noteEnd
    exact (ofIte h6 h6.bumpSo).bumpSo

theorem facAfter {f : Nat} (h : MemoriesWf s) : MemoriesWf (s.facAfter f) :=
  ofIte h.setCur.setFacState (ofIte h.setCur.setFacState.setF h.setCur.setFacState)

theorem facEndEarly {f : Nat} {c : FacetCmd} {st : St} (h : MemoriesWf s) : MemoriesWf (s.facEndEarly f c st) :=
  (ofIte_snd h.putPlane h).facFinish

theorem facPowerOff {f : Nat} (h : MemoriesWf s) : MemoriesWf (s.facPowerOff f) := by
  unfold State.facPowerOff
  dsimp only
  split <;> split
  · exact h.facEndEarly.facEndEarly.setFacet.setF.setF.setFacState
  · exact h.facEndEarly.setFacet.setF.setF.setFacState
  · exact h.facEndEarly.setFacet.setF.setF.setFacState
  · exact h.setFacet.setF.setF.setFacState

theorem fetchDesc {f : Nat} {q : QDesc} (h : MemoriesWf s) : MemoriesWf (s.fetchDesc f q).2 := by
  unfold State.fetchDesc
  split
  · exact h
  · exact h.readLong

theorem scpUnreadable {f : Nat} {st : St} (h : MemoriesWf s) : MemoriesWf (s.scpUnreadable f st) := by
  unfold State.scpUnreadable
  dsimp only
  split
  · split
    · exact h.report
    · exact h.report.noteEnd.bumpSo.bumpSo
  · exact h.report

theorem descError {f : Nat} {a : BitVec 64} {st : St} (h : MemoriesWf s) : MemoriesWf (s.descError f a st) :=
  (ofIte h.setF.wrN.log h.setF.wrN.log).scpUnreadable

theorem submit {src f : Nat} {hi : Word} (h : MemoriesWf s) : MemoriesWf (s.submit src f hi) :=
  ofIte h.refuseWrite (ofIte h.setF.refuseWrite h.setFacQueue.answer)

theorem exec_submitDescriptor {src : Nat} {f : Fin 32} {hi : Word} (h : MemoriesWf s) : OutWf (execSubmitDescriptor
    src f hi s) :=
  .next h.submit

theorem exec_descriptorFetch {f : Fin 32} (h : MemoriesWf s) : OutWf (execDescriptorFetch f s) := by
  unfold execDescriptorFetch
  dsimp only
  split
  · exact .next h
  · exact .ite (.next h) (.ite (.next h.waited) (.ite (.next h.setFacQueue.fetchDesc.descError) (.next
      h.setFacQueue.fetchDesc.setCur.setFacState)))

theorem exec_matmul {f : Fin 32} (h : MemoriesWf s) : OutWf (execMatmul f s) := .next h.facWork

theorem exec_conv {f : Fin 32} (h : MemoriesWf s) : OutWf (execConv f s) := .next h.facWork

theorem exec_pool {f : Fin 32} (h : MemoriesWf s) : OutWf (execPool f s) := .next h.facWork

theorem exec_attn {f : Fin 32} (h : MemoriesWf s) : OutWf (execAttn f s) := .next h.facWork

theorem exec_wcombine {f : Fin 32} (h : MemoriesWf s) : OutWf (execWcombine f s) := .next h.facWork

theorem exec_facetCommandComplete {f : Fin 32} (h : MemoriesWf s) : OutWf (execFacetCommandComplete f s) := by
  unfold execFacetCommandComplete
  dsimp only
  split
  · exact .next h
  · exact .ite (.next h) (.ite (.next h.waited) (.next h.facFinish.facAfter))

theorem preemptReq {src f : Nat} (h : MemoriesWf s) : MemoriesWf (s.preemptReq src f) :=
  ofIte h.refuseWrite (ofIte h.setF.answer h.answer)

theorem exec_preempt {src : Nat} {f : Fin 32} (h : MemoriesWf s) : OutWf (execPreempt src f s) := .next h.preemptReq

theorem exec_kSegmentEnd {f : Fin 32} {blocks : Nat} (h : MemoriesWf s) : OutWf (execKSegmentEnd f blocks s) := by
  unfold execKSegmentEnd
  split
  · exact .next h
  · exact .next (h.facGo fun _ => h.segment)

theorem saveSums {f cols : Nat} {ws : List WideSum} (h : MemoriesWf s) : MemoriesWf (s.saveSums f cols ws) :=
  h.setMem (Memory.putBytes_wf (Memory.clean_wf (h.mem .fom) ..) ..)

theorem exec_preemptSaveComplete {f : Fin 32} (h : MemoriesWf s) : OutWf (execPreemptSaveComplete f s) := by
  unfold execPreemptSaveComplete
  dsimp only
  split
  · exact .next h
  · exact .ite (.next h) (.next h.saveSums.facClocks.setFacet.setF.setF.setFacState)

theorem urgentTake {f : Nat} {q : QDesc} (h : MemoriesWf s) : MemoriesWf (s.urgentTake f q) :=
  ofIte h.fetchDesc.descError (ofIte h.fetchDesc.facFinish h.fetchDesc.setCur.setFacState)

theorem urgent {src f : Nat} {hi : Word} (h : MemoriesWf s) : MemoriesWf (s.urgent src f hi) :=
  ofIte h.refuseWrite (ofIte h.refuseWrite h.urgentTake.answer)

theorem exec_facUrgent {src : Nat} {f : Fin 32} {hi : Word} (h : MemoriesWf s) : OutWf (execFacUrgent src f hi s) :=
  .next h.urgent

theorem facResume {src f : Nat} (h : MemoriesWf s) : MemoriesWf (s.facResume src f) := by
  unfold State.facResume
  refine ofIte h.refuseWrite (ofIte h.answer ?_)
  split
  · exact h.setFacState.answer
  · exact h.setFacet.setFacState.answer

theorem exec_facetResume {src : Nat} {f : Fin 32} (h : MemoriesWf s) : OutWf (execFacetResume src f s) :=
  .next h.facResume

theorem exec_facetContextRestored {f : Fin 32} (h : MemoriesWf s) : OutWf (execFacetContextRestored f s) := by
  unfold execFacetContextRestored
  dsimp only
  split
  · exact .next h.setFacet.facClocks.setF
  · exact .next h

theorem facAbort {src f : Nat} (h : MemoriesWf s) : MemoriesWf (s.facAbort src f) := by
  unfold State.facAbort
  refine ofIte h.refuseWrite (ofIte h.answer ?_)
  split
  · exact h.setFacState.answer
  · exact h.facEndEarly.setFacet.setF.setFacState.answer

theorem exec_facetAbort {src : Nat} {f : Fin 32} (h : MemoriesWf s) : OutWf (execFacetAbort src f s) := .next
    h.facAbort

theorem facCtlWrite {src f : Nat} {v : Word} (h : MemoriesWf s) : MemoriesWf (s.facCtlWrite src f v) :=
  ofIte h.refuseWrite (ofIte (ofIte h.preemptReq h).facAbort (ofIte (ofIte h.preemptReq h).facResume (ofIte
      h.preemptReq h).answer))

/-! ### The functions of `Machine/Outputs.lean` -/

theorem putOut {o : OutSt} (h : MemoriesWf s) : MemoriesWf (s.putOut o) := h.upd

theorem markOut {src k : Nat} {cyc : Word} {fl : Nat} {st : Option St} (h : MemoriesWf s) :
    MemoriesWf (s.markOut src k cyc fl st) := by
  unfold State.markOut
  split
  · exact h
  · cases st with
    | none => exact ofIte h.descFlag h.putOut
    | some st => exact ofIte h.descFail.descFlag h.putOut

theorem openOut {k : Nat} {cyc : Word} (h : MemoriesWf s) : MemoriesWf (s.openOut k cyc) := by
  unfold State.openOut
  split
  · exact h
  · exact h.putOut.putDesc

theorem validateOut {k : Nat} {cyc : Word} (h : MemoriesWf s) : MemoriesWf (s.validateOut k cyc) := by
  unfold State.validateOut
  split
  · exact h
  · exact ofIte h.descFlag h

theorem setNet {n : Nat} {x : NetSt} (h : MemoriesWf s) : MemoriesWf (s.setNet n x) := h.upd

theorem judgeInvalid {n : Net} {cyc : Word} (h : MemoriesWf s) : MemoriesWf (s.judgeInvalid n cyc) :=
  ofIte h (ofIte h.setNet.safeEnter h.setNet)

theorem judgeValid {n : Net} {cyc : Word} (h : MemoriesWf s) : MemoriesWf (s.judgeValid n cyc) := ofIte h h.setNet

theorem reportOut {src k : Nat} {cyc : Word} {st : St} (h : MemoriesWf s) : MemoriesWf (s.reportOut src k cyc st) :=
    by
  unfold State.reportOut
  split
  · exact h.sfpEvent.judgeInvalid
  · exact h

theorem staleOut {k : Nat} {cyc : Word} {st : Option St} (h : MemoriesWf s) : MemoriesWf (s.staleOut k cyc st) :=
  h.markOut.reportOut

theorem completeOut {k : Nat} {cyc : Word} {st : St} {void : Bool} (h : MemoriesWf s) : MemoriesWf (s.completeOut k
    cyc st void) := by
  unfold State.completeOut
  split
  · exact h
  · exact (ofIte (ofIte (ofIte (ofIte h (ofIte h.descFlagged h.descFail)).descFail (ofIte h (ofIte h.descFlagged
      h.descFail))) (ofIte (ofIte h (ofIte h.descFlagged h.descFail)).descFail (ofIte h (ofIte h.descFlagged
      h.descFail))).descFlag) (ofIte (ofIte (ofIte h (ofIte h.descFlagged h.descFail)).descFail (ofIte h (ofIte
      h.descFlagged h.descFail))) (ofIte (ofIte h (ofIte h.descFlagged h.descFail)).descFail (ofIte h (ofIte
      h.descFlagged h.descFail))).descFlag).reportOut).putOut.validateOut

theorem agmOpen {k : Nat} {e : AgmEnt} {t0 : Nat} {cyc : Word} (h : MemoriesWf s) : MemoriesWf (s.agmOpen k e t0 cyc)
    :=
  h.upd

theorem agmOrigin {origin src t0 : Nat} {cyc : Word} {once : Bool} (h : MemoriesWf s) : MemoriesWf (s.agmOrigin
    origin src t0 cyc once) := by
  unfold State.agmOrigin
  refine ofIte h ?_
  split
  · exact h
  · refine h.each fun _ _ hu => ?_
    split
    · exact hu
    · exact ofIte hu hu.agmOpen

theorem agmArm (h : MemoriesWf s) : MemoriesWf s.agmArm := by
  unfold State.agmArm
  split
  · exact h
  · exact h.upd

theorem agmDisarm (h : MemoriesWf s) : MemoriesWf s.agmDisarm := h.upd

/-! ### The functions of `Machine/Schedule.lean` -/

theorem setModelFn {x : FnState} {st : St} (h : MemoriesWf s) : MemoriesWf (s.setModelFn x st) := h.upd.fnEvent

theorem setInsts {l : List Inst} (h : MemoriesWf s) : MemoriesWf (s.setInsts l) := h.upd

theorem putInst {i : Inst} (h : MemoriesWf s) : MemoriesWf (s.putInst i) := h.setInsts

theorem reqUpdate (h : MemoriesWf s) : MemoriesWf s.reqUpdate := (h.each fun _ _ hu => hu.setF).powerUpdate

theorem boundaryDom {d : Nat} (h : MemoriesWf s) : MemoriesWf (s.boundaryDom d) := h.setDom.setF

theorem collUpdate (h : MemoriesWf s) : MemoriesWf s.collUpdate := by
  unfold State.collUpdate
  split
  · exact h.upd
  · exact h.upd

theorem engineBoundary {ks : List Nat} (h : MemoriesWf s) : MemoriesWf (s.engineBoundary ks) :=
  (h.each fun _ _ hu => hu.boundaryDom).collUpdate.powerUpdate

theorem startNode {n : Nat} {d : List Byte} (h : MemoriesWf s) : MemoriesWf (s.startNode n d) :=
  (ofIte h h.beadStopOp).wrN.wrN.wrN.wrN.wrN.wrN.wrN.setBead.beadStartOp

theorem startMover {n : Nat} {d : List Byte} (h : MemoriesWf s) : MemoriesWf (s.startMover n d) :=
  h.wrN.wrN.wrN.wrN.wrN.setMovers

theorem send {p : Package} {t : Machine.Task} {cyc : Word} {r : RunTask} (h : MemoriesWf s) : MemoriesWf (s.send p t
    cyc r) :=
  ofIte (ofIte h.urgentTake h.setFacQueue) (ofIte (h.each fun _ _ hu => hu.startNode) (ofIte h.startMover (ofIte
      h.upd h.setCam)))

theorem sendAll {p : Package} {t : Task} {cyc : Word} {tt : Bool} {k : Nat} {x : State × RunTask} (h : MemoriesWf x.1) :
    MemoriesWf (State.sendAll p t cyc tt k x).1 := by
  induction k generalizing x with
  | zero => exact h
  | succ k ih => exact ofIte_fst (ih h.send) h

theorem setGroup {g : Nat} {x : GroupAcc} (h : MemoriesWf s) : MemoriesWf (s.setGroup g x) := h.upd

theorem setWinAcc {w : Nat} {x : WinAcc} (h : MemoriesWf s) : MemoriesWf (s.setWinAcc w x) := h.upd

theorem charge {p : Package} {t : Machine.Task} {r : RunTask} (h : MemoriesWf s) : MemoriesWf (s.charge p t r) :=
  h.setGroup

theorem runStatus {t : Machine.Task} {cyc : Word} {r : RunTask} (h : MemoriesWf s) : MemoriesWf (s.runStatus t cyc
    r).2 := by
  unfold State.runStatus
  dsimp only
  split
  · exact h.upd
  · exact ofIte_snd h.upd (ofIte_snd (ofIte_snd h.upd h.upd.freshSt) h.upd)

theorem stopCheck (h : MemoriesWf s) : MemoriesWf s.stopCheck := by
  unfold State.stopCheck
  split
  · exact h
  · refine ofIte h ?_
    dsimp only
    split
    · exact h.upd.agmDisarm.reqUpdate.setModelFn.completeVia
    · exact h.upd.agmDisarm.reqUpdate.setModelFn

theorem instCheck {p : Package} {w : Nat} {cyc : Word} (h : MemoriesWf s) : MemoriesWf (s.instCheck p w cyc) := by
  unfold State.instCheck
  split
  · exact h
  · exact ofIte h (ofIte (ofIte h.setWinAcc h).setInsts (ofIte h.setWinAcc h)).stopCheck

theorem handBack {k : Nat} (h : MemoriesWf s) : MemoriesWf (s.handBack k) :=
  ofIte h (ofIte (ofIte h.facResume h) (ofIte h (ofIte h.beadStopOp.beadRestore (ofIte h.beadRestore h))))

theorem taskEnd {p : Package} {w : Nat} {cyc : Word} {t : Machine.Task} {cand : Nat} {st : St} (h : MemoriesWf s) :
    MemoriesWf (s.taskEnd p w cyc t cand st) := by
  unfold State.taskEnd
  split
  · exact h
  · exact (ofIte ((ofIte ((h.putInst.each fun _ _ hu => (ofIte hu.markOut hu).completeOut).each fun _ _ hu => ofIte
      hu.beadStopOp hu) (h.putInst.each fun _ _ hu => (ofIte hu.markOut hu).completeOut)).engineBoundary.each fun _ _
      hu => hu.handBack) (ofIte ((h.putInst.each fun _ _ hu => (ofIte hu.markOut hu).completeOut).each fun _ _ hu =>
      ofIte hu.beadStopOp hu) (h.putInst.each fun _ _ hu => (ofIte hu.markOut
      hu).completeOut)).engineBoundary).instCheck

theorem requeue {p : Package} {i : Inst} {r : RunTask} (h : MemoriesWf s) : MemoriesWf (s.requeue p i r) := by
  unfold State.requeue
  split
  · exact h
  · exact h.charge.setGroup.putInst.upd

theorem claimFacet {p : Package} {w f : Nat} (h : MemoriesWf s) : MemoriesWf (s.claimFacet p w f).2 := by
  unfold State.claimFacet
  refine ofIte_snd h (ofIte_snd ?_ h)
  dsimp only
  split
  · exact h.facAbort.requeue
  · exact h.facAbort

theorem waitOver {p : Package} {w : Nat} {cyc : Word} {t : Machine.Task} (h : MemoriesWf s) : MemoriesWf (s.waitOver
    p w cyc t) :=
  (h.each fun _ _ hu => hu.staleOut).taskEnd

theorem handoverEnd {p : Package} {w : Nat} {cyc : Word} {t : Machine.Task} {cand : Nat} {bar : St} (h : MemoriesWf
    s) : MemoriesWf (s.handoverEnd p w cyc t cand bar) :=
  (h.each fun _ _ hu => hu.bumpSo).taskEnd

theorem dispatchTT {p : Package} {w : Nat} {cyc : Word} {t : Machine.Task} {i : Inst} (h : MemoriesWf s) : MemoriesWf
    (s.dispatchTT p w cyc t i) := by
  unfold State.dispatchTT
  split
  · dsimp only
    split
    · exact h.sendAll.putInst
    · exact h.sendAll
  · refine ofIte h.waitOver (ofIte h (ofIte h.handoverEnd ?_))
    dsimp only
    split
    · exact (ofIte_snd h.claimFacet h).sendAll.putInst.engineBoundary
    · exact (ofIte_snd h.claimFacet h).sendAll

theorem liftGroups {p : Package} {ready : List Nat} (h : MemoriesWf s) : MemoriesWf (s.liftGroups p ready) :=
  h.each fun _ _ hu => ofIte hu hu.setGroup

theorem dispatchShare {p : Package} {i : Inst} {t : Machine.Task} {cand : Nat} (h : MemoriesWf s) : MemoriesWf
    (s.dispatchShare p i t cand) := by
  unfold State.dispatchShare
  refine ofIte h.upd.handoverEnd ?_
  dsimp only
  split
  · exact h.upd.sendAll.putInst.engineBoundary
  · exact h.upd.sendAll

theorem unrun {cyc : Word} {ks : List Nat} (h : MemoriesWf s) : MemoriesWf (s.unrun cyc ks) :=
  h.each fun _ _ hu => (ofIte hu hu.openOut).staleOut

theorem scpRestart (h : MemoriesWf s) : MemoriesWf s.scpRestart := by
  unfold State.scpRestart
  split
  · exact h
  next p _ =>
    extract_lets redo s1 s2
    have hredo : ∀ u k, MemoriesWf u → MemoriesWf (redo u k) := by
      intro u k hu
      unfold redo
      split
      · exact hu.requeue
      · exact hu
    have h1 : MemoriesWf s1 := h.each fun u f hu => ofIte (hredo _ _ hu.facAbort) hu
    have h2 : MemoriesWf s2 := h1.each fun u n hu => ofIte (hredo _ _ hu.beadStopOp.setBead) hu
    refine ofIte h2.upd (MemoriesWf.upd (MemoriesWf.each (MemoriesWf.each (h2.each fun u i hu => ?_) fun u j hu => ?_)
      fun u i hu => hu.instCheck))
    · dsimp only
      split
      · exact hu.unrun.putInst
      · exact hu.unrun
    · refine hu.each fun v w hv => ?_
      split
      · exact hv
      · exact ofIte hv.unrun hv

/-! ### The functions of `Machine/Camera.lean` -/

theorem setCamState {c v : Nat} {st : St} (h : MemoriesWf s) : MemoriesWf (s.setCamState c v st) := h.setF.fnEvent

theorem putDsc {c e : Nat} {d : Option DscEnt} (h : MemoriesWf s) : MemoriesWf (s.putDsc c e d) := h.setCam

theorem camPut_wf {c : Nat} {x : St × State} {a : Nat} {d : List Byte} (h : MemoriesWf x.2) : MemoriesWf (camPut c x
    a d).2 :=
  ofIte_snd h h.postLong

theorem camRefused {c : Nat} {st : St} {a : Nat} (h : MemoriesWf s) : MemoriesWf (s.camRefused c st a) := h.log

theorem camRead {c a n : Nat} (h : MemoriesWf s) : MemoriesWf (s.camRead c a n).2.2 :=
  ofIte_snd_snd h.readLong.log (ofIte_snd_snd h.readLong.camRefused h.readLong)

theorem imgRow {c : Nat} {im : Img} {y : Nat} {v : List Nat} {runs : List (Nat × Nat)} (h : MemoriesWf s) :
    MemoriesWf (s.imgRow c im y v runs).2 :=
  ofIte_snd (ofIte_snd (ofIte_snd_snd h h.camRead) ((ofIte_snd_snd h h.camRead).foldl_snd fun _ _ hu => hu.foldl_snd
      fun _ _ hv => ofIte_snd hv.camPut_wf.camPut_wf hv.camPut_wf)) (h.foldl_snd fun _ _ hu => ofIte_snd hu.camPut_wf
      hu.camPut_wf)

theorem voidImg {c : Nat} {im : Img} (h : MemoriesWf s) : MemoriesWf (s.voidImg c im).2 :=
  ofIte_snd h.camPut_wf.camPut_wf h.camPut_wf

theorem dscRow {c e y : Nat} {v : List Nat} (h : MemoriesWf s) : MemoriesWf (s.dscRow c e y v).2 :=
  h.camPut_wf

theorem dscRead {c e : Nat} (h : MemoriesWf s) : MemoriesWf (s.dscRead c e).2 := h.camRead

theorem roiList {c : Nat} (h : MemoriesWf s) : MemoriesWf (s.roiList c).2 := by
  unfold State.roiList
  refine ofIte_snd h ?_
  split
  next st b u e =>
    have hu : MemoriesWf u := of_snd_snd h.camRead e
    exact ofIte_snd hu hu

theorem roiSelect {c : Nat} {k : Word} (h : MemoriesWf s) : MemoriesWf (s.roiSelect c k).2 := by
  unfold State.roiSelect
  refine ofIte_snd h ?_
  dsimp only
  split
  · exact h.roiList
  · exact h.roiList

theorem openFrame {c : Nat} {num : BitVec 16} {cause : Nat} (h : MemoriesWf s) : MemoriesWf (s.openFrame c num
    cause).2 := by
  unfold State.openFrame
  dsimp only
  split
  · exact h.roiSelect.setCam.putDsc
  · exact h.roiSelect.setCam

theorem refreshAfter {c : Nat} {k : Word} (h : MemoriesWf s) : MemoriesWf (s.refreshAfter c k) := h.setCam.upd

theorem noteVoid {c : Nat} {k : Word} (h : MemoriesWf s) : MemoriesWf (s.noteVoid c k) := h.setCam.refreshAfter

theorem sealWith {c : Nat} {f : Frame} {cause : Nat} (h : MemoriesWf s) : MemoriesWf (s.sealWith c f cause) := by
  generalize hf : State.sealWith = f
  delta State.sealWith at hf
  subst hf
  beta_reduce
  extract_lets void s1 flags smp x s2 s3 s4 s5
  have h1 : MemoriesWf s1 := by
    unfold s1
    split
    · exact h.putDsc
    · exact h
  have h3 : MemoriesWf s3 := ofIte h1.setCam.noteVoid h1.setCam
  have h5 : MemoriesWf s5 := ofIte h3.wr.inc h3.wr
  exact h5.agmOrigin

theorem camFault {c : Nat} {st : St} (h : MemoriesWf s) : MemoriesWf (s.camFault c st) := ofIte h h.setCamState

theorem unmake {c : Nat} {smp : Sample} {cause : Nat} (h : MemoriesWf s) : MemoriesWf (s.unmake c smp cause).2 :=
  (ofIte h.voidImg h.voidImg.camRefused.camFault).putDsc.inc.setCam.noteVoid

theorem putSample {c : Nat} {smp : Sample} (h : MemoriesWf s) : MemoriesWf (s.putSample c smp) := by
  generalize hf : State.putSample = f
  delta State.putSample at hf
  subst hf
  beta_reduce
  extract_lets a
  split
  next st u e =>
    have hu := of_snd (p := camPut c (ST_OK, s) a (s.recordBytes c smp)) h.camPut_wf e
    exact ofIte hu (ofIte hu.camRefused.camFault.unmake hu.camRefused.camFault)

theorem handOver {c j : Nat} (h : MemoriesWf s) : MemoriesWf (s.handOver c j) :=
  (h.each fun _ _ hu => hu.putSample).setCam.bumpSo

theorem batchCheck {c : Nat} {idx : Word} (h : MemoriesWf s) : MemoriesWf (s.batchCheck c idx) := ofIte h h.handOver

theorem sealVoid {c : Nat} {f : Frame} {cause : Nat} (h : MemoriesWf s) : MemoriesWf (s.sealVoid c f cause) :=
  ofIte (ofIte_snd h h.voidImg).sealWith.batchCheck (ofIte_snd h h.voidImg).camRefused.sealWith.camFault.batchCheck

theorem closeAll {c cause : Nat} (h : MemoriesWf s) : MemoriesWf (s.closeAll c cause) :=
  h.setCam.upd.each fun _ _ hu => hu.sealVoid

theorem faultCheck {c : Nat} (h : MemoriesWf s) : MemoriesWf (s.faultCheck c) := ofIte h.closeAll h

theorem closeVoid {c : Nat} {f : Frame} {cause : Nat} (h : MemoriesWf s) : MemoriesWf (s.closeVoid c f cause) :=
  h.sealVoid.faultCheck

theorem closeValid {c : Nat} {f : Frame} (h : MemoriesWf s) : MemoriesWf (s.closeValid c f) :=
  h.sealWith.batchCheck.faultCheck

theorem camFail {c : Nat} {f : Frame} {st : St} {a : Nat} (h : MemoriesWf s) : MemoriesWf (s.camFail c f st a) :=
  h.camRefused.camFault.closeVoid

theorem hdrCount {c : Nat} {hd : HeaderEcc} (h : MemoriesWf s) : MemoriesWf (s.hdrCount c hd) := ofIte h.inc h

theorem discardPacket {c : Nat} (h : MemoriesWf s) : MemoriesWf (s.discardPacket c) := h.inc

theorem exec_csi2FrameStart {c : Fin 4} {hdr : HeaderEcc} {pkt : ShortPacket} (h : MemoriesWf s) :
    OutWf (execCsi2FrameStart c hdr pkt s) := by
  refine .ite (.next h) (.ite (.next h.hdrCount.discardPacket) ?_)
  dsimp only
  split
  · exact .ite (.next h.hdrCount.setCam.closeVoid) (.next h.hdrCount.setCam.closeVoid.openFrame.setCam)
  · exact .ite (.next h.hdrCount) (.next h.hdrCount.openFrame.setCam)

theorem frameCause {c : Nat} {f : Frame} {cause : Nat} (h : MemoriesWf s) : MemoriesWf (s.frameCause c f cause) :=
  h.setCam

theorem putRow {c : Nat} {f : Frame} {y : Nat} {v : List Nat} (h : MemoriesWf s) : MemoriesWf (s.putRow c f y v).2 :=
  ofIte_snd h.dscRow (ofIte_snd h.dscRow h.dscRow.imgRow)

theorem exec_csi2Line {c : Fin 4} {hdr : HeaderEcc} {id : DataId} {crcOk : Bool} {data : List Byte} (h : MemoriesWf s) :
    OutWf (execCsi2Line c hdr id crcOk data s) := by
  have hu := h.hdrCount (c := c.val) (hd := hdr)
  refine .ite (.next h) (.ite (.next hu.discardPacket) ?_)
  dsimp only
  split
  · exact .next hu
  · exact .ite (.next hu) (.ite (.next hu.frameCause) (.ite (.next hu.frameCause) (.ite (.next hu.frameCause)
      (.ite (.next hu.setCam) (.ite (.next hu.putRow.setCam) (.next hu.putRow.setCam.camFail))))))

theorem exec_csi2FrameEnd {c : Fin 4} {hdr : HeaderEcc} {pkt : ShortPacket} (h : MemoriesWf s) : OutWf
    (execCsi2FrameEnd c hdr pkt s) := by
  unfold execCsi2FrameEnd
  refine .ite (.next h) (.ite (.next h.hdrCount.discardPacket) ?_)
  dsimp only
  split
  · exact .next h.hdrCount.setCam
  · exact .next (ofIte h.hdrCount.setCam.setCam.closeValid h.hdrCount.setCam.setCam.closeVoid)

theorem exec_csi2PacketDiscard {c : Fin 4} (h : MemoriesWf s) : OutWf (execCsi2PacketDiscard c s) :=
  .next (ofIte h.discardPacket h)

theorem exec_frameTimeout {c : Fin 4} (h : MemoriesWf s) : OutWf (execFrameTimeout c s) := by
  unfold execFrameTimeout
  refine .ite (.next h) ?_
  dsimp only
  refine .ite (.next h.setCam.openFrame.closeVoid) ?_
  split
  · exact .next h.setCam.setCam.closeVoid
  · exact .next (ofIte h.setCam.setCam h.setCam).openFrame.closeVoid

theorem jxsEnd {c : Fin 4} (h : MemoriesWf s) : MemoriesWf (s.jxsEnd c) := by
  unfold State.jxsEnd
  extract_lets x cause u
  split
  next f v e =>
    have hv := of_snd (h.setCam (c := c.val)).openFrame e
    exact ofIte hv.upd hv.closeVoid

theorem jxsPacket {c : Fin 4} {seq : BitVec 16} {data : List Byte} {marker : Bool} (h : MemoriesWf s) : MemoriesWf
    (s.jxsPacket c seq data marker) :=
  ofIte h.setCam.jxsEnd h.setCam

theorem exec_jxsRtpPacket {port seq : BitVec 16} {data : List Byte} {marker : Bool} (h : MemoriesWf s) : OutWf
    (execJxsRtpPacket port seq data marker s) :=
  .next (h.each fun _ _ hu => ofIte hu.jxsPacket hu)

theorem exec_jxsDecodeStart (h : MemoriesWf s) : OutWf (execJxsDecodeStart s) := by
  unfold execJxsDecodeStart
  split
  · exact .next h.upd
  · exact .next h

theorem putRows {c : Nat} {f : Frame} {px : List Nat} (h : MemoriesWf s) : MemoriesWf (s.putRows c f px).2 :=
  h.foldl_snd fun _ _ hu => ofIte_snd hu hu.putRow

theorem exec_jxsDecodeComplete {c : Fin 4} (h : MemoriesWf s) : OutWf (execJxsDecodeComplete c s) := by
  unfold execJxsDecodeComplete
  split
  · exact .next h
  · refine .ite (.next h) ?_
    dsimp only
    split
    · exact .next h.upd.closeVoid
    · exact .next (ofIte h.upd.putRows.closeValid h.upd.putRows.camFail)

theorem exec_dataPutCam {c : Fin 4} {via : Via} (h : MemoriesWf s) : OutWf (execDataPutCam c via s) := by
  refine .next (h.hostCmd fun cmd => ?_)
  refine ofIte h.complete (ofIte h.complete (ofIte h.complete ?_))
  extract_lets cause
  split
  next f u e =>
    have hu := (of_snd h.openFrame e).setCam (c := c.val) (x := { u.cam c.val with lastEnd := u.tbNs 7 })
    refine ofIte hu.closeVoid.complete ?_
    extract_lets n px
    split
    next st a v ev =>
      have hv := of_snd hu.putRows ev
      exact ofIte hv.closeValid.complete hv.camFail.complete

theorem exec_dataGetCam {c : Fin 4} {via : Via} (h : MemoriesWf s) : OutWf (execDataGetCam c via s) := by
  unfold execDataGetCam
  refine .next (h.hostCmd fun _ => ofIte h.complete ?_)
  split
  · exact h.complete
  · refine ofIte h ?_
    dsimp only
    split
    · exact h.complete
    · exact h.log.complete

theorem cutRows {c e : Nat} {d : Draw} {im : Img} {refresh : Bool} {rects : List Rect} (h : MemoriesWf s) :
    MemoriesWf (s.cutRows c e d im refresh rects).2 :=
  h.foldl_snd fun _ _ hu => ofIte_snd hu hu.imgRow

theorem cut {c : Nat} {d : List Byte} (h : MemoriesWf s) : MemoriesWf (s.cut c d).2 := by
  unfold State.cut
  dsimp only
  split
  · exact ofIte h.voidImg h.voidImg.camRefused
  · exact ofIte_snd (ofIte h.dscRead.voidImg h.dscRead.voidImg.camRefused) (ofIte h.dscRead.cutRows
      h.dscRead.cutRows.camRefused)

theorem exec_cutTask {c : Fin 4} (h : MemoriesWf s) : OutWf (execCutTask c s) := by
  unfold execCutTask
  dsimp only
  split
  · exact .ite (.next h) (.next h.cut.setCam)
  · exact .next h

theorem camStopCheck {c : Nat} (h : MemoriesWf s) : MemoriesWf (s.camStopCheck c) := by
  unfold State.camStopCheck
  split
  · exact h
  · exact ofIte h h.setCam.setCamState.completeVia

theorem exec_cutTaskComplete {c : Fin 4} (h : MemoriesWf s) : OutWf (execCutTaskComplete c s) := by
  unfold execCutTaskComplete
  dsimp only
  split
  · exact .next (ofIte (ofIte h.setCam.noteEnd.noteCutVoid h.setCam.noteEnd) (ofIte h.setCam.noteEnd.noteCutVoid
      h.setCam.noteEnd).bumpSo).bumpSo.camStopCheck
  · exact .next h

theorem cutSample {c : Nat} {smp : Sample} (h : MemoriesWf s) : MemoriesWf (s.cutSample c smp) :=
  ofIte (ofIte h.voidImg h.voidImg.camRefused.camFault) (ofIte h.dscRead.unmake (ofIte h.dscRead.cutRows
      h.dscRead.cutRows.camRefused.camFault.unmake))

theorem exec_deferredBatchCut {c : Fin 4} (h : MemoriesWf s) : OutWf (execDeferredBatchCut c s) := by
  unfold execDeferredBatchCut
  dsimp only
  split
  · exact .next h
  · exact .ite (.next h) (.next (h.each fun _ _ hu => hu.cutSample).setCam.handOver.faultCheck)

theorem camWrite {src c off : Nat} {v : Word} (h : MemoriesWf s) : MemoriesWf (s.camWrite src c off v) :=
  ofIte h.plainWrite.answer h.refuseWrite

theorem exec_fnConfigCam {c : Fin 4} {via : Via} (h : MemoriesWf s) : OutWf (execFnConfigCam c via s) :=
  .next (h.fnConfig (fun _ _ _ hu => hu.plainWrite) (fun _ hu => hu.setCamState))

theorem camSet {n : Nat} {v : Word} (h : MemoriesWf s) : MemoriesWf (s.camSet n v) := h.soSet.upd

theorem exec_fnStartCam {c : Fin 4} {via : Via} (h : MemoriesWf s) : OutWf (execFnStartCam c via s) :=
  .next (h.fnPlain fun _ => h.camSet.camSet.setCam.setCamState.complete)

theorem exec_fnStopCam {c : Fin 4} {via : Via} (h : MemoriesWf s) : OutWf (execFnStopCam c via s) := by
  refine .next (h.fnPlain fun cmd => ?_)
  dsimp only
  exact (ofIte h.closeAll.openFrame.closeVoid h.closeAll).setCam.camStopCheck

/-! ### The functions of `Machine/Bar2.lean` -/

theorem bar2Read {addr : BitVec 64} {n : Nat} (h : MemoriesWf s) : MemoriesWf (s.bar2Read addr n) := by
  unfold State.bar2Read
  extract_lets ls ur bad clean
  refine ofIte h.upd ?_
  split
  next parts u e =>
    have hu : MemoriesWf u := by
      refine of_snd (foldl_snd h.upd fun v l hv => ?_) e
      exact hv.request
    exact ofIte hu.upd.log hu.upd

theorem bar2Write {addr : BitVec 64} {d : List Byte} (h : MemoriesWf s) : MemoriesWf (s.bar2Write addr d) :=
  ofIte h.upd (ofIte h.log.answer (h.each fun _ _ hu => ofIte hu.request.upd hu.request.upd.log))

theorem bar2 {off n : Nat} {d : Option (List Byte)} (h : MemoriesWf s) : MemoriesWf (s.bar2 off n d) := by
  unfold State.bar2
  refine ofIte h.wake.holdHost (ofIte h.holdHost ?_)
  split
  · exact h.bar2Read
  · exact h.bar2Write

theorem exec_hostBar2Read {off len : Nat} (h : MemoriesWf s) : OutWf (execHostBar2Read off len s) :=
  .ite (.next h.bar2) .fault

theorem exec_hostBar2Write {off : Nat} {data : List Byte} (h : MemoriesWf s) : OutWf (execHostBar2Write off data s) :=
  .ite (.next h.bar2) .fault

theorem pciWrite {src off : Nat} {v : Word} (h : MemoriesWf s) : MemoriesWf (s.pciWrite src off v) :=
  ofIte h.answer (ofIte h.refuseWrite (ofIte h.hostAccess.plainWrite.answer.upd h.hostAccess.plainWrite.answer))

theorem exec_pciBar2BaseHiWrite {src : Nat} {v : Word} (h : MemoriesWf s) : OutWf (execPciBar2BaseHiWrite src v s) :=
  .next (h.hostWrite fun _ hu => hu.pciWrite)

/-! ### The functions of `Machine/Records.lean` -/

theorem putRecord {src base size : Nat} {seq wr rd : Word} {body : List Byte} (h : MemoriesWf s) : MemoriesWf
    (s.putRecord src base size seq wr rd body).2 :=
  ofIte_snd h (ofIte_snd h.postLong (ofIte h.postLong.postWrite h.postLong.postWrite.log))

/-! ### The functions of `Machine/Can.lean` -/

theorem setCanFn {n : Nat} {x : FnState} (h : MemoriesWf s) : MemoriesWf (s.setCanFn n x) := h.setCan.fnEvent

theorem canPut {n : Nat} {f : CanFrame} {tx ref : Bool} {buf filt : Nat} (h : MemoriesWf s) :
    MemoriesWf (s.canPut n f tx ref buf filt) := by
  generalize hg : State.canPut = g
  delta State.canPut at hg
  subst hg
  beta_reduce
  extract_lets c base size body
  generalize hp : s.putRecord mHIP base size c.seq c.wr (s.rd (CAN_RING_RD n)) body = p
  have hu : MemoriesWf p.2 := hp ▸ h.putRecord
  obtain ⟨ok, u⟩ := p
  exact MemoriesWf.setCan hu

theorem canSof {n : Nat} (h : MemoriesWf s) : MemoriesWf (s.canSof n) := h.setCan

theorem canErrState {n : Nat} (h : MemoriesWf s) : MemoriesWf (s.canErrState n) := ofIte h h.setF

theorem refReceived {n : Nat} {f : CanFrame} (h : MemoriesWf s) : MemoriesWf (s.refReceived n f) := h.setCan.setF

theorem canTxReq {src n : Nat} {v : Word} (h : MemoriesWf s) : MemoriesWf (s.canTxReq src n v) :=
  ofIte h.refuseWrite h.wr.answer

theorem canTxAbort {src n : Nat} {v : Word} (h : MemoriesWf s) : MemoriesWf (s.canTxAbort src n v) :=
  ofIte h.refuseWrite (h.each fun _ _ hu => ofIte hu (ofIte hu.setF hu.setF)).answer

theorem canRecover {src n : Nat} (h : MemoriesWf s) : MemoriesWf (s.canRecover src n) :=
  ofIte h.refuseWrite (ofIte h.setF.setCan.answer h.answer)

theorem canApply {n o : Nat} {v : Word} (h : MemoriesWf s) : MemoriesWf (s.canApply n o v) :=
  ofIte h.wr (ofIte (ofIte h.wr h) h.plainWrite)

theorem canWrite {src n off : Nat} {v : Word} (h : MemoriesWf s) : MemoriesWf (s.canWrite src n off v) := by
  unfold State.canWrite
  refine ofIte h.canTxReq (ofIte h.canTxAbort (ofIte h.canRecover (ofIte h.wr.answer (ofIte (ofIte
      h.plainWrite.answer h.refuseWrite) ?_))))
  split
  · exact ofIte h.refuseWrite (ofIte h.refuseWrite h.plainWrite.answer)
  · exact ofIte h.canApply.answer h.refuseWrite

theorem exec_canTxreq {src : Nat} {n : Fin 8} {v : Word} (h : MemoriesWf s) : OutWf (execCanTxreq src n v s) :=
  .next h.canTxReq

theorem exec_canTxabort {src : Nat} {n : Fin 8} {v : Word} (h : MemoriesWf s) : OutWf (execCanTxabort src n v s) :=
  .next h.canTxAbort

theorem exec_canFrameStart {n : Fin 8} (h : MemoriesWf s) : OutWf (execCanFrameStart n s) :=
  .ite (.next h) (.next h.canSof.setCan)

theorem canTxEnd {n b : Nat} {clear : Bool} (h : MemoriesWf s) : MemoriesWf (s.canTxEnd n b clear) :=
  ofIte (ofIte h.setF h).setF.setCan.safetyTx (ofIte h.setF h).setF.setCan

theorem exec_canFrameTransmitted {n : Fin 8} {res : CanTxResult} (h : MemoriesWf s) : OutWf (execCanFrameTransmitted
    n res s) := by
  unfold execCanFrameTransmitted
  dsimp only
  split
  · exact .next h
  · split
    · exact .next h.canPut.setCan.setF.canErrState.canTxEnd
    · exact .next h.canTxEnd
    · exact .next h.incF.canErrState.setCan.canTxEnd

theorem recGood {n : Nat} (h : MemoriesWf s) : MemoriesWf (s.recGood n) := ofIte h.setF h.fresh.setF

theorem exec_canFrameReceived {n : Fin 8} {fr : CanFrame} (h : MemoriesWf s) : OutWf (execCanFrameReceived n fr s) :=
    by
  unfold execCanFrameReceived
  refine .ite (.next h) ?_
  dsimp only
  split
  · exact .next (ofIte (ofIte h.recGood.canErrState.setCan.refReceived h.recGood.canErrState.setCan).upd (ofIte
      h.recGood.canErrState.setCan.refReceived h.recGood.canErrState.setCan)).canPut
  · exact .ite (.next (ofIte (ofIte h.recGood.canErrState.setCan.refReceived h.recGood.canErrState.setCan).upd (ofIte
      h.recGood.canErrState.setCan.refReceived h.recGood.canErrState.setCan)).canPut) (.next (ofIte (ofIte
      h.recGood.canErrState.setCan.refReceived h.recGood.canErrState.setCan).upd (ofIte
      h.recGood.canErrState.setCan.refReceived h.recGood.canErrState.setCan)))

theorem exec_canBusOff {n : Fin 8} (h : MemoriesWf s) : OutWf (execCanBusOff n s) :=
  .ite (.next h) (.next (h.setF.setF.inc.each fun _ _ hu => ofIte hu.setF.setF hu).setCan)

theorem exec_canBusOffRecovery {n : Fin 8} (h : MemoriesWf s) : OutWf (execCanBusOffRecovery n s) :=
  .ite (.next h) (.next h.setF.setF.setF.setF.setCan)

theorem exec_recover {src : Nat} {n : Fin 8} (h : MemoriesWf s) : OutWf (execRecover src n s) := .next h.canRecover

theorem exec_referenceMessage {n : Fin 2} (h : MemoriesWf s) : OutWf (execReferenceMessage n s) :=
  .ite (.next h) (.next h.canSof.fresh.canPut.setCan)

theorem exec_ttcLost {n : Fin 2} (h : MemoriesWf s) : OutWf (execTtcLost n s) := .ite (.next h.setF) (.next h)

theorem exec_fnConfigCan {n : Fin 8} {via : Via} (h : MemoriesWf s) : OutWf (execFnConfigCan n via s) :=
  .next (h.hostCmd fun _ => h.fnConfigRun (fun _ _ _ hv => hv.canApply) (fun _ hv => hv.setCanFn))

theorem canBegin {n : Nat} (h : MemoriesWf s) : MemoriesWf (s.canBegin n) := h.setCan.setCanFn

theorem exec_fnStartCan {n : Fin 8} {via : Via} (h : MemoriesWf s) : OutWf (execFnStartCan n via s) :=
  .next (h.fnPlain fun _ => h.canBegin.complete)

theorem exec_fnStopCan {n : Fin 8} {via : Via} (h : MemoriesWf s) : OutWf (execFnStopCan n via s) :=
  .next (h.fnPlain fun _ => ofIte h.complete h.setCan.setCanFn.complete)

/-! ### The functions of `Machine/Eth.lean` -/

theorem setEthFn {x : FnState} (h : MemoriesWf s) : MemoriesWf (s.setEthFn x) := h.upd.fnEvent

theorem gateEnter {p i t : Nat} (h : MemoriesWf s) : MemoriesWf (s.gateEnter p i t) := by
  unfold State.gateEnter
  dsimp only
  split
  · exact h
  · exact h.setPort

theorem ethOut {p : Nat} {fr : EthFrame} (h : MemoriesWf s) : MemoriesWf (s.ethOut p fr) :=
  ofIte h.upd (ofIte h.upd.upd h.upd.upd)

theorem ethStart {p tc : Nat} {frag : Bool} (h : MemoriesWf s) : MemoriesWf (s.ethStart p tc frag) := by
  unfold State.ethStart
  extract_lets x
  split
  · exact h
  · extract_lets u fr uncorr v q
    have hu : MemoriesWf u := by
      dsimp only [u]
      split
      · exact h.upd
      · exact h
    have hv : MemoriesWf v := ofIte hu.inc hu
    exact ofIte hv.setPort hv.setPort.ethOut

theorem ethWrite {src off : Nat} {v : Word} (h : MemoriesWf s) : MemoriesWf (s.ethWrite src off v) :=
  ofIte h.plainWrite.answer h.refuseWrite

theorem exec_ethFrameReceived {p : Fin 7} {fr : EthFrame} {verdict : Option (Fin 8)} (h : MemoriesWf s) : OutWf
    (execEthFrameReceived p fr verdict s) := by
  unfold execEthFrameReceived
  refine .ite (.next h) (.ite (.next h.ethDrop) (.ite (.next h.ethDrop) ?_))
  split
  · exact .next h.ethDrop
  · exact .next h.ethForward

theorem exec_ethFrameTransmit {p : Fin 7} {tc : Fin 8} (h : MemoriesWf s) : OutWf (execEthFrameTransmit p tc s) := by
  unfold execEthFrameTransmit
  refine .ite (.next h) ?_
  split
  · exact .next h
  · exact .next h.ethStart
  · exact .next h.ethStart

theorem exec_gateControlEntry {p : Fin 7} (h : MemoriesWf s) : OutWf (execGateControlEntry p s) :=
  .ite (.next h) (.next h.gateEnter)

theorem exec_gclConfigChange {p : Fin 7} (h : MemoriesWf s) : OutWf (execGclConfigChange p s) :=
  .ite (.next h) (.next h.setPort.gateEnter)

theorem exec_fnConfigEth {via : Via} (h : MemoriesWf s) : OutWf (execFnConfigEth via s) :=
  .next (h.fnConfig (fun _ _ _ hu => hu.plainWrite) (fun _ hu => hu.setEthFn))

theorem portUp {p : Nat} (h : MemoriesWf s) : MemoriesWf (s.portUp p) := h.setPort

theorem ethBegin (h : MemoriesWf s) : MemoriesWf s.ethBegin := (h.each fun _ _ hu => hu.portUp).setEthFn

theorem exec_fnStartEth {via : Via} (h : MemoriesWf s) : OutWf (execFnStartEth via s) :=
  .next (h.fnPlain fun _ => h.ethBegin.complete)

theorem exec_fnStopEth {via : Via} (h : MemoriesWf s) : OutWf (execFnStopEth via s) :=
  .next (h.fnPlain fun _ => ofIte h.complete (h.each fun _ _ hv => hv.setPort).setEthFn.complete)

theorem exec_macAddressAgeing {mac : BitVec 48} (h : MemoriesWf s) : OutWf (execMacAddressAgeing mac s) := .next h.upd

/-! ### The functions of `Machine/Servo.lean` -/

theorem exec_fnConfigAxis {a : Fin 16} {via : Via} (h : MemoriesWf s) : OutWf (execFnConfigAxis a via s) :=
  .next (h.fnConfig (fun _ _ _ hu => hu.wr) (fun _ hu => hu.axEnter))

theorem axBegin {a : Nat} {via : Via} (h : MemoriesWf s) : MemoriesWf (s.axBegin a via) :=
  h.setAxis.wr.setF.setF.axEnter

theorem exec_fnStartAxis {a : Fin 16} {via : Via} (h : MemoriesWf s) : OutWf (execFnStartAxis a via s) := by
  unfold execFnStartAxis
  dsimp only
  split
  · exact .ite (.next h.refuseWrite) (.ite (.next h.answer) (.next h.axBegin.answer))
  · exact .next (h.hostCmd fun _ => ofIte h.complete (ofIte h.complete (ofIte h.complete h.axBegin)))

theorem axStopCmd {a : Nat} {via : Via} (h : MemoriesWf s) : MemoriesWf (s.axStopCmd a via) :=
  ofIte h.axStop h.axEnter.completeVia

theorem exec_fnStopAxis {a : Fin 16} {via : Via} (h : MemoriesWf s) : OutWf (execFnStopAxis a via s) := by
  unfold execFnStopAxis
  dsimp only
  split
  · exact .ite (.next h.refuseWrite) (.ite (.next h.answer) (.next h.axStopCmd.answer))
  · exact .next (h.fnPlain fun _ => h.axStopCmd)

theorem exec_sdClkFault {a : Fin 16} {khz : Nat} (h : MemoriesWf s) : OutWf (execSdClkFault a khz s) :=
  .ite (.next h.axFaults.ss1Check) (.next h)

theorem exec_ocTrip {a : Fin 16} {ch : Fin 3} {sum : Nat} (h : MemoriesWf s) : OutWf (execOcTrip a ch sum s) :=
  .ite (.next h) (.next (ofIte h.setAxis.axFaults.ss1Check h.setAxis))

theorem latchPos {a : Nat} (h : MemoriesWf s) : MemoriesWf (s.latchPos a) := h.setAxis.wrN

theorem posRead {a : Nat} {good : Bool} {pos : BitVec 48} {change : Int} (h : MemoriesWf s) : MemoriesWf (s.posRead a
    good pos change) :=
  ofIte h.setAxis.setF (ofIte h.setAxis.inc.setF.axFaults h.setAxis.inc.setF)

theorem takeSetpoint {a : Nat} (h : MemoriesWf s) : MemoriesWf (s.takeSetpoint a) := by
  unfold State.takeSetpoint
  dsimp only
  split
  · exact h.setAxis.wrN.setF
  · exact ofIte h h.setAxis

theorem takeCmp {a : Nat} (h : MemoriesWf s) : MemoriesWf (s.takeCmp a) := by
  unfold State.takeCmp
  dsimp only
  split
  · exact h.setAxis.setF
  · exact h.setAxis

theorem stopRamp {a : Nat} (h : MemoriesWf s) : MemoriesWf (s.stopRamp a) := by
  unfold State.stopRamp
  dsimp only
  split
  · exact h
  · exact h.setAxis

theorem exec_loopBoundary {a : Fin 16} {sd : SdSums} {highClks : Nat} (h : MemoriesWf s) :
    OutWf (execLoopBoundary a sd highClks s) := by
  unfold execLoopBoundary
  extract_lets a n first u v x w r y z g
  have hr : MemoriesWf r := h.wrN.takeCmp.takeSetpoint.wrN.latchPos.setAxis.stopRamp
  have hz : MemoriesWf z := ofIte hr hr.posRead
  have hg : MemoriesWf g := by
    dsimp only [g]
    split
    · exact hz.completeVia
    · exact hz
  exact .ite (.next h) (.next hg.ss1Check)

theorem exec_ssiReadComplete {a : Fin 16} {raw : BitVec 40} {err : BitVec 4} {par : Bool} (h : MemoriesWf s) : OutWf
    (execSsiReadComplete a raw err par s) :=
  .ite (.next h) (.next (ofIte (ofIte h.setAxis.posRead h.posRead) h.posRead).ss1Check)

theorem exec_abzTransition {a : Fin 16} {la lb : Bool} (h : MemoriesWf s) : OutWf (execAbzTransition a la lb s) :=
  .ite (.next h.setAxis) (.next h.setAxis)

theorem exec_abzZEdge {a : Fin 16} (h : MemoriesWf s) : OutWf (execAbzZEdge a s) := .ite (.next h) (.next h.wrN.wrN)

theorem followErr {a : Nat} (h : MemoriesWf s) : MemoriesWf (s.followErr a) := h.wr.setAxis

theorem loopRef {a : Nat} (h : MemoriesWf s) : MemoriesWf (s.loopRef a).2 := by
  unfold State.loopRef
  dsimp only
  split
  · exact h
  · exact h.setAxis

theorem stillCheck {a : Nat} (h : MemoriesWf s) : MemoriesWf (s.stillCheck a) := by
  unfold State.stillCheck
  split
  · exact ofIte h.axEnd h
  · exact h

theorem dataPath {a : Nat} {ia ib ic vdc : Int} (h : MemoriesWf s) : MemoriesWf (s.dataPath a ia ib ic vdc) :=
  h.loopRef.setAxis.wrN

theorem exec_currentLoopCompute {a : Fin 16} (h : MemoriesWf s) : OutWf (execCurrentLoopCompute a s) :=
  .ite (.next h) (.ite (.next h.setAxis.axFaults.ss1Check) (.next h.setAxis.dataPath.followErr.stillCheck.ss1Check))

theorem spCommit {src a : Nat} {v : Word} (h : MemoriesWf s) : MemoriesWf (s.spCommit src a v) :=
  ofIte h.refuseWrite (ofIte h.refuseWrite (ofIte h.refuseWrite (ofIte h.inc h).setAxis.answer))

theorem exec_setpointCommit {src : Nat} {a : Fin 16} {v : Word} (h : MemoriesWf s) : OutWf (execSetpointCommit src a
    v s) :=
  .next h.spCommit

theorem exec_setpointTimeout {a : Fin 16} (h : MemoriesWf s) : OutWf (execSetpointTimeout a s) :=
  .ite (.next h) (.next h.setAxis.setF.sfpEvent)

theorem exec_followingErrorLimit {a : Fin 16} (h : MemoriesWf s) : OutWf (execFollowingErrorLimit a s) := by
  unfold execFollowingErrorLimit
  refine .ite (.next h) ?_
  split
  · exact .ite (.next h) (.next h.setF.sfpEvent)
  · exact .next h.axFaults.ss1Check
  · exact .next h.axFaults.ss1Check

theorem ss1Write {src a : Nat} (h : MemoriesWf s) : MemoriesWf (s.ss1Write src a) :=
  ofIte h.refuseWrite (ofIte h.answer (ofIte h.axFaults.answer h.axStop.answer))

theorem exec_ss1 {src : Nat} {a : Fin 16} (h : MemoriesWf s) : OutWf (execSs1 src a s) := .next h.ss1Write

theorem stoWrite {src a : Nat} (h : MemoriesWf s) : MemoriesWf (s.stoWrite src a) :=
  ofIte h.refuseWrite h.axFaults.ss1Check.answer

theorem exec_sto {src : Nat} {a : Fin 16} (h : MemoriesWf s) : OutWf (execSto src a s) := .next h.stoWrite

theorem exec_stopTimeExpired {a : Fin 16} (h : MemoriesWf s) : OutWf (execStopTimeExpired a s) := by
  unfold execStopTimeExpired
  dsimp only
  split
  · exact .next h
  · exact .ite (.next h) (.next h.axFaults.ss1Check)

theorem sleCtlWrite {src a : Nat} {v : Word} (h : MemoriesWf s) : MemoriesWf (s.sleCtlWrite src a v) :=
  ofIte (ofIte (ofIte (ofIte (ofIte h.stoWrite h).ss1Write (ofIte h.stoWrite h)).axStopCmd (ofIte (ofIte h.stoWrite
      h).ss1Write (ofIte h.stoWrite h))).axBegin (ofIte (ofIte (ofIte h.stoWrite h).ss1Write (ofIte h.stoWrite
      h)).axStopCmd (ofIte (ofIte h.stoWrite h).ss1Write (ofIte h.stoWrite h)))).refuseWrite (ofIte (ofIte (ofIte
      (ofIte h.stoWrite h).ss1Write (ofIte h.stoWrite h)).axStopCmd (ofIte (ofIte h.stoWrite h).ss1Write (ofIte
      h.stoWrite h))).axBegin (ofIte (ofIte (ofIte h.stoWrite h).ss1Write (ofIte h.stoWrite h)).axStopCmd (ofIte
      (ofIte h.stoWrite h).ss1Write (ofIte h.stoWrite h)))).answer

theorem sleWrite {src a off : Nat} {v : Word} (h : MemoriesWf s) : MemoriesWf (s.sleWrite src a off v) :=
  ofIte h.sleCtlWrite (ofIte h.spCommit (ofIte (ofIte h.plainWrite.answer h.refuseWrite) (ofIte (ofIte
      h.plainWrite.answer h.refuseWrite) (ofIte (ofIte h.plainWrite.setF h.plainWrite).answer (ofIte (ofIte
      h.plainWrite.answer h.refuseWrite) h.answer)))))

/-! ### The functions of `Machine/Bindings.lean` -/

theorem setLeg {l : Nat} {x : LegSt} (h : MemoriesWf s) : MemoriesWf (s.setLeg l x) := h.upd

theorem bindNow {l : Nat} (h : MemoriesWf s) : MemoriesWf (s.bindNow l) := h.setLeg

theorem rebind {l : Nat} (h : MemoriesWf s) : MemoriesWf (s.rebind l) := ofIte h.bindNow h.setLeg

theorem rebindNode {n : Nat} (h : MemoriesWf s) : MemoriesWf (s.rebindNode n) := h.each fun _ _ hu => hu.rebind

/-! ### The functions of `Machine/Health.lean` -/

theorem setHlt {v : Nat} {st : St} (h : MemoriesWf s) : MemoriesWf (s.setHlt v st) := h.setF.fnEvent

theorem setEdgeIn {m : Nat} {x : EdgeIn} (h : MemoriesWf s) : MemoriesWf (s.setEdgeIn m x) := h.upd

theorem putEdge {l : Nat} {r : EdgeRec} (h : MemoriesWf s) : MemoriesWf (s.putEdge l r) := by
  unfold State.putEdge
  refine ofIte h ?_
  extract_lets x
  split
  next ok u e =>
    have hu := of_snd h.putRecord e
    exact ofIte hu.setLeg hu.setLeg.inc

theorem putGtl {l data flags : Nat} (h : MemoriesWf s) : MemoriesWf (s.putGtl l data flags) := by
  unfold State.putGtl
  refine ofIte h ?_
  extract_lets x body
  split
  next ok u e =>
    have hu := of_snd h.putRecord e
    exact ofIte hu.setLeg hu.setLeg.inc

theorem flushRecs {l : Nat} (h : MemoriesWf s) : MemoriesWf (s.flushRecs l) := h.setLeg.each fun _ _ hu => hu.putEdge

theorem addRec {l : Nat} {r : EdgeRec} (h : MemoriesWf s) : MemoriesWf (s.addRec l r) := h.setLeg.flushRecs

theorem closeMissing {m : Nat} (h : MemoriesWf s) : MemoriesWf (s.closeMissing m) := by
  unfold State.closeMissing
  dsimp only
  split
  · exact h
  · exact h.setEdgeIn.addRec

theorem setGate {a j : Nat} {dev : Device} {v : Bool} (h : MemoriesWf s) : MemoriesWf (s.setGate a j dev v) := by
  unfold State.setGate
  dsimp only
  split
  · exact h.setAxis
  · exact h.setAxis

theorem trigDecide {l : Nat} {dev : Device} {t : Nat} {len : Int} (h : MemoriesWf s) : MemoriesWf (s.trigDecide l dev
    t len).2 :=
  ofIte_snd h.setLeg (ofIte_snd h.setLeg.inc h.setLeg)

theorem openWin {l : Nat} {dev : Device} {on : Bool} {t : Nat} {len : Int} (h : MemoriesWf s) : MemoriesWf (s.openWin
    l dev on t len) :=
  ofIte h (ofIte_snd h.closeMissing.trigDecide h.closeMissing).setEdgeIn

theorem exec_commandedGateEdge {a : Fin 16} {j : Fin 3} {dev : Device} {on : Bool} {k : Nat} (h : MemoriesWf s) :
    OutWf (execCommandedGateEdge a j dev on k s) := by
  unfold execCommandedGateEdge
  dsimp only
  split
  · exact .next h
  · exact .ite (.next h) (.ite (.next h.inc) (.next h.setGate.openWin))

theorem exec_feedbackEdge {m : Fin 96} {rising : Bool} {t : Nat} (h : MemoriesWf s) : OutWf (execFeedbackEdge m
    rising t s) := by
  unfold execFeedbackEdge
  refine .ite (.next h) ?_
  dsimp only
  split
  · exact .next h.addRec.inc
  · exact .ite (.next h.addRec.inc) (.next h.setEdgeIn.addRec)

theorem exec_edgeWindowClose {m : Fin 96} (h : MemoriesWf s) : OutWf (execEdgeWindowClose m s) := by
  unfold execEdgeWindowClose
  split
  · exact .next h
  · exact .next (ofIte h.closeMissing h)

theorem exec_tdcCalExchange {m : Fin 96} (h : MemoriesWf s) : OutWf (execTdcCalExchange m s) :=
  .ite (.next h) (.next h.setEdgeIn)

theorem exec_tdcCalComplete {m : Fin 96} {ok : Bool} (h : MemoriesWf s) : OutWf (execTdcCalComplete m ok s) := by
  unfold execTdcCalComplete
  dsimp only
  split
  · exact .next h
  · exact .ite (.next h) (.ite (.next h.setEdgeIn.setF) (.next (ofIte h.setEdgeIn.setHlt h.setEdgeIn)))

theorem exec_tdcCalibrationExpired {m : Fin 96} (h : MemoriesWf s) : OutWf (execTdcCalibrationExpired m s) :=
  .ite (.next h.setEdgeIn.setF) (.next h)

theorem exec_gtlTrigger {l : Fin 48} {dev : Device} (h : MemoriesWf s) : OutWf (execGtlTrigger l dev s) := by
  unfold execGtlTrigger
  dsimp only
  split
  · exact .next h
  · exact .ite (.next h) (.next h.setLeg)

theorem exec_gtlFrame {l : Fin 48} {bits : BitVec 64} {codingOk : Bool} (h : MemoriesWf s) : OutWf (execGtlFrame l
    bits codingOk s) :=
  .ite (.next h) (.ite (.next h.inc) (.ite (.next h.putGtl.inc) (.next h.setLeg.setF.putGtl)))

theorem exec_gtlLinkTimeout {l : Fin 48} (h : MemoriesWf s) : OutWf (execGtlLinkTimeout l s) :=
  .ite (.next h.setF.sfpEvent) (.next h)

theorem bindWrite {src l : Nat} {v : Word} (h : MemoriesWf s) : MemoriesWf (s.bindWrite src l v) :=
  ofIte h.refuseWrite (ofIte h.refuseWrite h.plainWrite.rebind.answer)

theorem exec_hltBindWrite {src : Nat} {l : Fin 48} {v : Word} (h : MemoriesWf s) : OutWf (execHltBindWrite src l v s)
    :=
  .next h.bindWrite

theorem exec_bindingApplied {l : Fin 48} (h : MemoriesWf s) : OutWf (execBindingApplied l s) := by
  unfold execBindingApplied
  split
  · exact .next h
  · exact .next (ofIte h.bindNow h)

theorem healthAct {l : Nat} (h : MemoriesWf s) : MemoriesWf (s.healthAct l) := ofIte h.sfpEvent.ss1Write.setF
    h.sfpEvent

theorem commitWrite {src l : Nat} {v : Word} (h : MemoriesWf s) : MemoriesWf (s.commitWrite src l v) :=
  ofIte h.refuseWrite (ofIte h.setF.setLeg.setF.healthAct h.setF.setLeg.setF).answer

theorem exec_hltCommit {src : Nat} {l : Fin 48} {v : Word} (h : MemoriesWf s) : OutWf (execHltCommit src l v s) :=
  .next h.commitWrite

theorem exec_resultTimeout {l : Fin 48} (h : MemoriesWf s) : OutWf (execResultTimeout l s) :=
  .ite (.next h.setF.sfpEvent) (.next h)

theorem hltWrite {src off : Nat} {v : Word} (h : MemoriesWf s) : MemoriesWf (s.hltWrite src off v) := by
  generalize hf : State.hltWrite = f
  delta State.hltWrite at hf
  subst hf
  dsimp only
  generalize legOf (off - hltBase) = x
  cases x with
  | none => exact ofIte h.plainWrite.answer h.refuseWrite
  | some x =>
    exact ofIte h.bindWrite (ofIte h.commitWrite (ofIte (ofIte h.plainWrite.answer h.refuseWrite)
      (ofIte h.plainWrite.answer (ofIte h.plainWrite.answer h.refuseWrite))))

theorem exec_fnConfigHealth {via : Via} (h : MemoriesWf s) : OutWf (execFnConfigHealth via s) :=
  .next (h.fnConfig (fun _ _ _ hu => hu.wr) (fun _ hu => hu.setHlt))

theorem exec_fnStartHealth {via : Via} (h : MemoriesWf s) : OutWf (execFnStartHealth via s) :=
  .next (h.fnPlain fun _ => ((h.each fun _ _ hv => hv.setEdgeIn.setF).each fun _ _ hv => hv.setLeg).setHlt.complete)

theorem exec_fnStopHealth {via : Via} (h : MemoriesWf s) : OutWf (execFnStopHealth via s) :=
  .next (h.fnPlain fun _ => ((h.each fun _ _ hv => hv.setEdgeIn).each fun _ _ hv => hv.setLeg).setHlt.complete)

/-! ### The functions of `Machine/Model.lean` -/

theorem modelCmd {via : Via} {op : Nat} {k : State} (h : MemoriesWf s) (h' : MemoriesWf k) : MemoriesWf (s.modelCmd
    via op k) := by
  unfold State.modelCmd
  refine h.hostCmd fun _ => ?_
  split
  · exact h.complete
  · exact h'

theorem unstage (h : MemoriesWf s) : MemoriesWf s.unstage := h.upd

theorem stageCheck (h : MemoriesWf s) : MemoriesWf s.stageCheck.2 := by
  unfold State.stageCheck
  dsimp only
  split
  · exact h.upd
  · exact h.unstage

theorem stageChunk {payload : List Byte} (h : MemoriesWf s) : MemoriesWf (s.stageChunk payload).2 :=
  ofIte_snd h (ofIte_snd (ofIte h.unstage h) (ofIte_snd (ofIte h.upd h).writeLong (ofIte_snd (ofIte h.upd
      h).writeLong.upd.stageCheck (ofIte h.upd h).writeLong.upd)))

theorem exec_pkgLoad {via : Via} (h : MemoriesWf s) : OutWf (execPkgLoad via s) := by
  unfold execPkgLoad
  refine .next (h.hostCmd fun _ => ?_)
  split
  · exact h.complete
  · exact ofIte h.complete h.stageChunk.complete

theorem release (h : MemoriesWf s) : MemoriesWf s.release := h.agmDisarm.upd

theorem freshFail (h : MemoriesWf s) : MemoriesWf s.freshFail.2 := h.freshSt

theorem steps {α : Type} {l : List α} {f : State → α → St × State} (h : MemoriesWf s) (hf : ∀ u x, MemoriesWf u →
    MemoriesWf (f u x).2) : MemoriesWf (s.steps l f).2 :=
  h.foldl_snd fun _ _ hu => ofIte_snd hu (hf _ _ hu)

theorem placeTensors {p : Package} (h : MemoriesWf s) : MemoriesWf (s.placeTensors p).2 := by
  unfold State.placeTensors
  refine h.steps fun _ _ hu => ?_
  split
  · exact hu
  · exact hu.writeLong

theorem clearDelta {a : Nat} (h : MemoriesWf s) : MemoriesWf (s.clearDelta a).2 := ofIte_snd h.readAt h.readAt.writeAt

theorem loadClasses {p : Package} {k : Nat} (h : MemoriesWf s) : MemoriesWf (s.loadClasses p k) := by
  unfold State.loadClasses
  split
  · exact h
  · exact h.each fun _ _ hu => hu.wr

theorem closeWindows (h : MemoriesWf s) : MemoriesWf s.closeWindows := h.each fun _ _ hu => ofIte hu.winCtlWrite hu

theorem openWindow {d : WinDef} (h : MemoriesWf s) : MemoriesWf (s.openWindow d).2 := by
  unfold State.openWindow
  split
  · exact h
  · exact ofIte_snd h.wrN.wrN.winCtlWrite h.wrN.wrN.winCtlWrite.freshFail

theorem place5 {p : Package} (h : MemoriesWf s) : MemoriesWf (s.place5 p).2 := by
  unfold State.place5
  refine ofIte_snd h ?_
  split
  next st u e =>
    have hu := of_snd h.placeTensors e
    refine ofIte_snd hu ?_
    split
    next st v e =>
      have hv := of_snd (hu.steps fun _ _ hw => hw.clearDelta) e
      refine ofIte_snd hv ?_
      split
      next st w e =>
        have hw := of_snd (hv.loadClasses.closeWindows.steps fun _ _ hx => hx.openWindow) e
        exact ofIte_snd hw (hw.each fun _ _ hx => hx.soSet)

theorem loadParams {p : Package} (h : MemoriesWf s) : MemoriesWf (s.loadParams p) := h.wrBytes.upd

theorem setOwners {p : Package} (h : MemoriesWf s) : MemoriesWf (s.setOwners p) :=
  h.each fun _ _ hu => ofIte hu.wrN hu

theorem exec_pkgActivate {via : Via} (h : MemoriesWf s) : OutWf (execPkgActivate via s) := by
  unfold execPkgActivate
  refine .next (h.modelCmd (h.fnPlain fun _ => ?_))
  split
  · exact h
  · exact ofIte h.complete (ofIte (ofIte_snd (ofIte_snd h.release.unstage.log h.release.unstage.place5).freshSt
      (ofIte_snd h.release.unstage.log h.release.unstage.place5)).rephase.setModelFn.complete (ofIte_snd (ofIte_snd
      h.release.unstage.log h.release.unstage.place5).freshSt (ofIte_snd h.release.unstage.log
      h.release.unstage.place5)).upd.rephase.loadParams.setOwners.setModelFn.complete)

theorem modelStop {via : Option Via} (h : MemoriesWf s) : MemoriesWf (s.modelStop via) := by
  unfold State.modelStop
  refine ofIte ?_ h.upd.stopCheck
  dsimp only
  split
  · exact h.upd.agmDisarm.reqUpdate.setModelFn.completeVia
  · exact h.upd.agmDisarm.reqUpdate.setModelFn

theorem exec_fnStopModel {via : Via} (h : MemoriesWf s) : OutWf (execFnStopModel via s) :=
  .next (h.modelCmd (h.fnPlain fun _ => h.modelStop))

theorem modelApply {off : Nat} {v : Word} (h : MemoriesWf s) : MemoriesWf (s.modelApply off v) := by
  unfold State.modelApply
  split
  · exact h
  · exact h.upd

theorem exec_fnConfigModel {via : Via} (h : MemoriesWf s) : OutWf (execFnConfigModel via s) :=
  .next (h.modelCmd (h.fnConfig (fun _ _ _ hu => hu.modelApply) fun _ hu => hu))

theorem exec_fnStartModel {via : Via} (h : MemoriesWf s) : OutWf (execFnStartModel via s) :=
  .next (h.modelCmd (h.fnPlain fun _ => h.upd))

theorem tableStart (h : MemoriesWf s) : MemoriesWf s.tableStart := by
  unfold State.tableStart
  refine ofIte h ?_
  split
  · exact h.upd.agmArm.setModelFn.completeVia
  · exact ofIte h.upd h

theorem staleSlots (h : MemoriesWf s) : MemoriesWf s.staleSlots := by
  unfold State.staleSlots
  split
  · exact h
  · exact ofIte h (h.each fun _ _ hu => ofIte hu.openOut.staleOut hu)

theorem exec_cycleBoundary (h : MemoriesWf s) : OutWf (execCycleBoundary s) :=
  .ite (.next h) (.next (ofIte h.upd.upd.agmDisarm.stopCheck h.upd.tableStart).agmOrigin.staleSlots)

theorem countLater {p : Package} {w : Nat} (h : MemoriesWf s) : MemoriesWf (s.countLater p w) :=
  h.each fun _ _ hu => ofIte hu.putInst (ofIte hu.putInst.setWinAcc.sfpEvent.safeEnter hu.putInst.setWinAcc.sfpEvent)

theorem openInst {p : Package} {w : Nat} {x : Window} {cyc : Word} (h : MemoriesWf s) : MemoriesWf (s.openInst p w x
    cyc) :=
  ofIte ((ofIte h.countLater.upd h.countLater.upd.loadClasses).each fun _ _ hu => hu.openOut).reqUpdate ((((ofIte
      h.countLater.upd h.countLater.upd.loadClasses).each fun _ _ hu => hu.openOut).reqUpdate.each fun _ _ hu =>
      ofIte hu.handBack hu).each fun _ _ hu => ofIte hu.handBack hu)

theorem exec_windowInstanceOpen {w : Fin 64} (h : MemoriesWf s) : OutWf (execWindowInstanceOpen w s) := by
  fun_cases execWindowInstanceOpen w s
  · exact .next h
  · exact .next h
  · exact .next (ofIte h.agmOrigin h)
  · exact .next (ofIte h.agmOrigin h).openInst
  · exact .next (ofIte h.agmOrigin h)

theorem exec_windowDeadline {w : Fin 64} {cyc : Word} (h : MemoriesWf s) : OutWf (execWindowDeadline w cyc s) := by
  unfold execWindowDeadline
  split
  · split
    · exact .next h
    · exact .ite (.next h) (.next (ofIte (h.putInst.setWinAcc.each fun _ _ hu => ofIte hu hu.markOut)
        h.putInst).reqUpdate.instCheck)
  · exact .next h

theorem exec_taskDispatch {w : Fin 64} {cyc : Word} {t : Nat} (h : MemoriesWf s) : OutWf (execTaskDispatch w cyc t s)
    := by
  unfold execTaskDispatch
  split
  · split
    · exact .next h
    · exact .ite (.next h) (.next h.dispatchTT)
  · exact .next h

theorem exec_shareDispatch {e : Engine} (h : MemoriesWf s) : OutWf (execShareDispatch e s) := by
  unfold execShareDispatch
  dsimp only
  split
  · exact .next h
  next p _ =>
    have hl : MemoriesWf (s.liftGroups p (((s.readyShares p).map fun x => x.2.group).eraseDups)) := h.liftGroups
    refine .ite (.next h) ?_
    split
    · split
      · exact .next hl
      · refine .ite (.next hl) ?_
        have hsent : ∀ t c n r, MemoriesWf (State.sendAll p t c false n (_, r)).1 := fun _ _ _ _ => sendAll hl
        split
        · exact .next (hsent ..).putInst
        · exact .next (hsent ..)
    · split
      · exact .next hl
      · split
        · exact .next hl.dispatchShare
        · exact .next hl

theorem faultStatus {n : Nat} (h : MemoriesWf s) : MemoriesWf (s.faultStatus n).2 := ofIte_snd h h.freshFail

theorem exec_taskComplete {w : Fin 64} {cyc : Word} {t : Nat} (h : MemoriesWf s) :
    OutWf (execTaskComplete w cyc t s) := by
  unfold execTaskComplete
  split
  · split
    · extract_lets dead s1 g s2
      have h2 : MemoriesWf s2 := ofIte h (h.charge (s := s)).setGroup
      clear_value dead
      refine .ite (.next h) ?_
      split
      next st u e =>
        have hu : MemoriesWf u := by
          refine of_snd ?_ e
          split
          · exact h2.faultStatus
          · exact h2.runStatus
        exact .next hu.taskEnd
    · exact .next h
  · exact .next h

theorem exec_preemptForWindow {w : Fin 64} (h : MemoriesWf s) : OutWf (execPreemptForWindow w s) := by
  unfold execPreemptForWindow
  split
  · exact .next h
  · split
    · exact .next h
    · exact .ite (.next h) (.next (h.each fun _ _ hu => ofIte hu.preemptReq hu))

theorem exec_yieldForWindow {w : Fin 64} (h : MemoriesWf s) : OutWf (execYieldForWindow w s) := by
  unfold execYieldForWindow
  split
  · exact .next h
  · split
    · exact .next h
    · exact .ite (.next h) (.next (h.each fun _ _ hu => ofIte hu.yieldReqOp hu))

theorem waitMissed {src : Nat} (h : MemoriesWf s) : MemoriesWf (s.waitMissed src) := by
  unfold State.waitMissed
  split
  · exact h
  · refine ofIte h (h.each fun _ _ hu => ?_)
    split
    · exact ofIte (hu.each fun _ _ hv => hv.staleOut) hu
    · exact hu

theorem exec_soWaitTimeout {src : Nat} (h : MemoriesWf s) : OutWf (execSoWaitTimeout src s) := by
  unfold execSoWaitTimeout
  split
  · exact .next h
  · exact .ite (.next h) (.next h.waitTimeout.waitMissed)

/-! ### The functions of `Machine/Hallmark.lean` -/

theorem setJobs {l : List HmkJob} (h : MemoriesWf s) : MemoriesWf (s.setJobs l) := h.upd

theorem putJob {j : HmkJob} (h : MemoriesWf s) : MemoriesWf (s.putJob j) := h.setJobs

theorem hmkRead {rs : List RangeEnt} (h : MemoriesWf s) : MemoriesWf (s.hmkRead rs).2 :=
  h.foldl_snd fun _ _ hu => ofIte hu.readLong.log (ofIte hu.readLong.log hu.readLong)

theorem signature {n : Net} {x : Nat} {cyc : Word} (h : MemoriesWf s) : MemoriesWf (s.signature n x cyc).2 :=
    h.hmkRead

theorem hmkLast {net v : Nat} {cyc : Word} (h : MemoriesWf s) : MemoriesWf (s.hmkLast net v cyc) :=
  h.setF.setF.setF

theorem mismatch {n : Net} {cyc : Word} (h : MemoriesWf s) : MemoriesWf (s.mismatch n cyc) :=
  (h.each fun _ _ hu => hu.markOut).sfpEvent.judgeInvalid

theorem crossCompare {n : Net} {cyc : Word} (h : MemoriesWf s) : MemoriesWf (s.crossCompare n cyc) := by
  unfold State.crossCompare
  split
  · exact ofIte (h.each fun _ _ hu => hu.putOut.validateOut) h.mismatch
  · exact h

theorem exec_hallmarkVerdict {net : Fin 64} (h : MemoriesWf s) : OutWf (execHallmarkVerdict net s) := by
  unfold execHallmarkVerdict
  split
  · split
    next a u ea =>
      split
      next b v eb =>
        have hv := of_snd (of_snd h.signature ea).signature eb
        extract_lets eq j s1 s2 s3
        have h2 : MemoriesWf s2 := hv.putJob.hmkLast.setJobs
        have h3 : MemoriesWf s3 := h2.each fun _ _ hw => hw.putOut.validateOut
        exact .ite (.ite (.next h3.upd.crossCompare) (.next h3)) (.next h2.inc.mismatch)
  · exact .next h

theorem setTest {u : Nat} {x : TestSt} (h : MemoriesWf s) : MemoriesWf (s.setTest u x) := h.upd

theorem testFirst {us : List Nat} (h : MemoriesWf s) : MemoriesWf (s.testFirst us) := h.upd

theorem reload {k : Nat} (h : MemoriesWf s) : MemoriesWf (s.reload k) := by
  unfold State.reload
  split
  · exact h
  · refine h.each fun _ _ hu => ?_
    split
    · exact ofIte hu.writeLong hu
    · exact ofIte hu.writeLong hu
    · exact hu

theorem freshCore {n : Nat} (h : MemoriesWf s) : MemoriesWf (s.freshCore n) := ofIte h h.setBead

theorem quarantine {k : Nat} (h : MemoriesWf s) : MemoriesWf (s.quarantine k) := by
  unfold State.quarantine
  dsimp only
  split
  · exact h.setTest.safeEnter
  · exact ((ofIte h.setTest.setF.setF h.setTest.setF.setF.setF.setF.freshCore.rebindNode).wr.inc.setMem
      (Memory.lose_wf ((ofIte h.setTest.setF.setF h.setTest.setF.setF.setF.setF.freshCore.rebindNode).wr.inc.mem
      .nvm) ..)).upd.reload.event

theorem endShare {p : Package} {k : Nat} (h : MemoriesWf s) : MemoriesWf (s.endShare p k).2 := by
  unfold State.endShare
  split
  · exact h
  · exact ofIte_snd (ofIte_snd h.preemptReq (ofIte h.facAbort (ofIte h h.setFacQueue)).requeue) (ofIte_snd (ofIte h
      h.yieldReqOp) h.beadStopOp.setBead.requeue)

theorem quarantineAll {ks : List Nat} (h : MemoriesWf s) : MemoriesWf (s.quarantineAll ks).2 := by
  unfold State.quarantineAll
  split
  · exact h.each fun _ _ hu => hu.quarantine
  next p _ =>
    split
    next ok u e =>
      have hu : MemoriesWf u := by
        refine of_snd (foldl_snd h fun v k hv => ?_) e
        exact hv.endShare
      exact ofIte (hu.each fun _ _ hw => hw.quarantine) hu

theorem triageOpen {n : Net} {j : HmkJob} {verdict : Nat} (h : MemoriesWf s) : MemoriesWf (s.triageOpen n j verdict)
    :=
  h.putJob.hmkLast.setInsts.testFirst

theorem triageTask {p : Package} {w : Nat} {cyc : Word} {t : Machine.Task} (h : MemoriesWf s) : MemoriesWf
    (s.triageTask p w cyc t) := by
  unfold State.triageTask
  split
  · exact h
  · refine ofIte h ?_
    split
    · split
      · exact h.faultStatus.taskEnd
      · exact ofIte h.runStatus.taskEnd h.sendAll.putInst
    · refine ofIte h ?_
      dsimp only
      split
      · exact (ofIte_snd h.claimFacet h).sendAll.putInst.engineBoundary
      · exact (ofIte_snd h.claimFacet h).sendAll

theorem triageDisplace {p : Package} {n : Net} (h : MemoriesWf s) : MemoriesWf (s.triageDisplace p n) :=
  h.each fun _ _ hu => ofIte hu (ofIte (ofIte hu.preemptReq hu) (ofIte hu.yieldReqOp hu))

theorem exec_triageDispatch {net : Fin 64} (h : MemoriesWf s) : OutWf (execTriageDispatch net s) := by
  unfold execTriageDispatch
  split
  · exact .ite (.next h) (.ite (.ite (.next h.triageOpen) (.ite (.next h) (.next
      (h.putJob.triageDisplace.setInsts.each fun _ _ hu => hu.triageTask)))) (.ite (.next (h.each fun _ _ hu =>
      hu.triageTask)) (.next h)))
  · exact .next h

theorem exec_triageCompare {net : Fin 64} (h : MemoriesWf s) : OutWf (execTriageCompare net s) := by
  unfold execTriageCompare
  split
  · split
    · exact .next h
    · refine .ite (.next h) (.ite (.next h.triageOpen) ?_)
      split
      next c u e =>
        have hu := of_snd h.signature e
        exact .ite (.next hu.triageOpen) (.next hu.setInsts.putJob.hmkLast)
  · exact .next h

theorem badCheckpoint {n : Net} {x : Nat} (h : MemoriesWf s) : MemoriesWf (s.badCheckpoint n x).2 :=
  h.foldl_snd fun _ _ hu => ofIte_snd hu hu.hmkRead.hmkRead

theorem badUnits {n : Net} {x k : Nat} (h : MemoriesWf s) : MemoriesWf (s.badUnits n x k).2 := by
  unfold State.badUnits
  split
  next c u e =>
    refine foldl_snd (of_snd h.hmkRead e) fun v r hv => ?_
    obtain ⟨l, v⟩ := v
    dsimp only at hv ⊢
    exact ofIte_snd hv.hmkRead hv.hmkRead

theorem exec_faultLocalisation {net : Fin 64} (h : MemoriesWf s) : OutWf (execFaultLocalisation net s) := by
  unfold execFaultLocalisation
  split
  · exact .ite (.next h) (.next (ofIte h.badCheckpoint.badUnits.quarantineAll.putJob
      h.badCheckpoint.badUnits.quarantineAll))
  · exact .next h

theorem judgeAt {n : Net} {cyc : Word} {stale : Bool} (h : MemoriesWf s) : MemoriesWf (s.judgeAt n cyc stale) :=
  ofIte h.judgeInvalid (ofIte h.judgeValid h)

theorem exec_agmLimitExpired {e : Fin 256} (h : MemoriesWf s) : OutWf (execAgmLimitExpired e s) := by
  unfold execAgmLimitExpired
  split
  · exact .next h
  · exact .next ((ofIte ((ofIte (ofIte h.inc.sfpEvent h.inc) h).each fun _ _ hu => hu.markOut) (ofIte (ofIte
      h.inc.sfpEvent h.inc) h)).each fun _ _ hu => hu.judgeAt).upd

theorem overdueCount (h : MemoriesWf s) : MemoriesWf s.overdueCount := h.wrN

theorem exec_selftestPartStart {u : PhysUnit} (h : MemoriesWf s) : OutWf (execSelftestPartStart u s) := by
  unfold execSelftestPartStart
  refine .ite (.next h) ?_
  split
  · exact .next h.setTest
  · exact .ite (.next h) (.ite (.ite (.next h.setTest.setFacState.setFacet) (.next h)) (.ite (.next
      h.setTest.setBeadState.setBead) (.next h)))

theorem testReturn {u : Nat} (h : MemoriesWf s) : MemoriesWf (s.testReturn u) := by
  unfold State.testReturn
  split
  · exact h
  · exact ofIte (ofIte h.setFacState h) (ofIte h.setBeadState h)

theorem exec_selftestPartComplete {u : PhysUnit} {pass : Bool} (h : MemoriesWf s) : OutWf (execSelftestPartComplete u
    pass s) := by
  unfold execSelftestPartComplete
  refine .ite (.next h) (.ite (.ite (.next h.testReturn.setTest) (.next h.testReturn.setTest.upd.upd.overdueCount))
      ?_)
  dsimp only
  split
  · exact .next h.testReturn.setTest.setTest.overdueCount
  · exact .next h.testReturn.setTest.quarantineAll.overdueCount

theorem exec_selftestDeferred {u : PhysUnit} (h : MemoriesWf s) : OutWf (execSelftestDeferred u s) :=
  .ite (.next h) (.next h.setTest.testFirst.overdueCount.sfpEvent)

theorem exec_selftestLate {u : PhysUnit} (h : MemoriesWf s) : OutWf (execSelftestLate u s) :=
  .ite (.next h) (.next h.safeEnter)

theorem exec_hmkTest {unequal equal : Bool} (h : MemoriesWf s) : OutWf (execHmkTest unequal equal s) :=
  .ite (.next h) (.next h.safeEnter)

/-! ### The functions of `Machine/ProcOps.lean` -/

theorem scpLost {failed : Bool} (h : MemoriesWf s) : MemoriesWf (s.scpLost failed) :=
  ofIte (ofIte h h.upd).upd.setModelFn (ofIte h h.upd).upd

theorem crash {p : Proc} {c : CrashCause} (h : MemoriesWf s) : MemoriesWf (s.crash p c) := by
  unfold State.crash
  refine ofIte h ?_
  dsimp only
  split
  · exact ((ofIte h.log.log h.log).setMem (Memory.zero_wf ((ofIte h.log.log h.log).mem .dmem)
      ..)).setProc.setF.setF.scpLost
  · exact ((ofIte h.log.log h.log).setMem (Memory.zero_wf ((ofIte h.log.log h.log).mem .dmem)
      ..)).setProc.setF.setF.safeEnter.paths
  · exact ofIte (((ofIte h.log.log h.log).setMem (Memory.zero_wf ((ofIte h.log.log h.log).mem .dmem)
      ..)).setProc.setF.setF.setF.each fun _ _ hu => ofIte hu.setF hu) ((ofIte h.log.log h.log).setMem
      (Memory.zero_wf ((ofIte h.log.log h.log).mem .dmem) ..)).setProc.setF.setF.setF

theorem kick {p : Proc} {v : Word} (h : MemoriesWf s) : MemoriesWf (s.kick p v) := ofIte h.setProc h.crash

theorem kickWrite {src : Nat} {p : Proc} {v : Word} (h : MemoriesWf s) : MemoriesWf (s.kickWrite src p v) :=
  ofIte h.refuseWrite h.kick.answer

theorem reloadImage {n : Nat} (h : MemoriesWf s) : MemoriesWf (s.reloadImage n) := by
  unfold State.reloadImage
  refine ofIte h ?_
  split
  · exact h
  · exact h

theorem procStart {n : Nat} (h : MemoriesWf s) : MemoriesWf (s.procStart n) := h.setProc.setF.incF

/-! ### The functions of `Machine/Safety.lean` -/

theorem exec_stoPathAssert {p : StoPath} (h : MemoriesWf s) : OutWf (execStoPathAssert p s) := .next h.hold

theorem exec_stoPathRelease {p : StoPath} (h : MemoriesWf s) : OutWf (execStoPathRelease p s) :=
  .ite (.next h) (.next h.upd.paths)

theorem exec_ss1TimerExpired (h : MemoriesWf s) : OutWf (execSs1TimerExpired s) := by
  unfold execSs1TimerExpired
  split
  · exact .next h
  · exact .ite (.next h) (.next h.ss1Assert)

theorem exec_safWdog {src : Nat} {v : Word} (h : MemoriesWf s) : OutWf (execSafWdog src v s) := .next h.kickWrite

theorem exec_sfpWd (h : MemoriesWf s) : OutWf (execSfpWd s) := .next (ofIte h.crash h)

theorem exec_sfpLockstep {ecc : Bool} (h : MemoriesWf s) : OutWf (execSfpLockstep ecc s) := .next h.crash

theorem exec_safetyMessage (h : MemoriesWf s) : OutWf (execSafetyMessage s) := .ite (.next h) (.next h.sendSafety)

theorem acknowledge (h : MemoriesWf s) : MemoriesWf s.acknowledge :=
  ofIte h (ofIte h.upd.setF (ofIte h.safeExit h.upd))

theorem exec_safeAck {lowUs : Nat} (h : MemoriesWf s) : OutWf (execSafeAck lowUs s) :=
  .ite (.next h.acknowledge) (.next h)

theorem exec_ackMessage {ch id : Nat} {data : List Byte} (h : MemoriesWf s) : OutWf (execAckMessage ch id data s) :=
    by
  unfold execAckMessage
  split
  · exact .next h
  · exact .ite (.next h) (.ite (.next h.upd.log) (.next h.upd.upd.acknowledge))

theorem discUpdate (h : MemoriesWf s) : MemoriesWf s.discUpdate := h.upd

theorem checksPass (h : MemoriesWf s) : MemoriesWf s.checksPass := h.wrN.upd.discUpdate

theorem exec_startChecksComplete {ok : Bool} (h : MemoriesWf s) : OutWf (execStartChecksComplete ok s) :=
  .ite (.next h) (.next h.checksPass.upd.setF.paths.sendSafety)

theorem exec_madderRestartComplete {ok : Bool} (h : MemoriesWf s) : OutWf (execMadderRestartComplete ok s) :=
  .ite (.next h) (.ite (.next h.reloadImage.procStart.checksPass.safeExit.event) (.next h.setF))

theorem estopReact {p : StoPath} (h : MemoriesWf s) : MemoriesWf (s.estopReact p) := by
  unfold State.estopReact
  refine ofIte h.ss1Start ?_
  split
  · exact h.upd.paths
  · exact h.upd.paths

theorem estopLift (h : MemoriesWf s) : MemoriesWf s.estopLift := ofIte h.upd.paths h

theorem exec_estopInputChange {p : StoPath} {level : Bool} (h : MemoriesWf s) :
    OutWf (execEstopInputChange p level s) := by
  cases p with
  | a => exact .ite (.next h.upd.setF) (.next (ofIte h.upd.setF.discUpdate.estopLift h.upd.setF.discUpdate.estopReact))
  | b => exact .ite (.next h.upd.setF) (.next (ofIte h.upd.setF.discUpdate.estopLift h.upd.setF.discUpdate.estopReact))

theorem exec_estopDisc (h : MemoriesWf s) : OutWf (execEstopDisc s) := by
  unfold execEstopDisc
  split
  · exact .next h
  · exact .ite (.next h) (.next h.safeEnter)

theorem exec_stoFb {p : StoPath} {level other : Bool} (h : MemoriesWf s) : OutWf (execStoFb p level other s) := by
  unfold execStoFb
  dsimp only
  split
  · cases p with
    | a => exact .next h.upd.fbUpdate
    | b => exact .next h.upd.fbUpdate
  · cases p with
    | a => exact .ite (.next h.upd.fbUpdate) (.next h.upd.fbUpdate.safeEnter)
    | b => exact .ite (.next h.upd.fbUpdate) (.next h.upd.fbUpdate.safeEnter)

/-! ### The functions of `Machine/Time.lean` -/

theorem setTb {n : Nat} {v : BitVec 96} (h : MemoriesWf s) : MemoriesWf (s.setTb n v) := h.upd

theorem tbStep {n : Nat} {hi lo : Word} (h : MemoriesWf s) : MemoriesWf (s.tbStep n hi lo) :=
  (ofIte h.setTb.rephase h.setTb).setF

theorem stepWrite {src n : Nat} {hi : Word} (h : MemoriesWf s) : MemoriesWf (s.stepWrite src n hi) :=
  ofIte h.setF.refuseWrite h.tbStep.answer

theorem setRate {n : Nat} {v : Word} (h : MemoriesWf s) : MemoriesWf (s.setRate n v) := ofIte h.wr.wr h.wr

theorem rateWrite {src n : Nat} {v : Word} (h : MemoriesWf s) : MemoriesWf (s.rateWrite src n v) :=
  ofIte h.refuseWrite h.setRate.answer

theorem snapshot (h : MemoriesWf s) : MemoriesWf s.snapshot := h.each fun _ _ hu => hu.wrN.wrN

theorem tbRead {n : Nat} (h : MemoriesWf s) : MemoriesWf (s.tbRead n).2 := h.wrN

theorem setPulse {p : Nat} {x : PulseSt} (h : MemoriesWf s) : MemoriesWf (s.setPulse p x) := h.upd

theorem armPulse {p : Nat} (h : MemoriesWf s) : MemoriesWf (s.armPulse p) := (ofIte h.inc h).setPulse

theorem disarmPulse {p : Nat} (h : MemoriesWf s) : MemoriesWf (s.disarmPulse p) := h.setF.setPulse

theorem pulseCfgWrite {src p : Nat} {v : Word} (h : MemoriesWf s) : MemoriesWf (s.pulseCfgWrite src p v) :=
  ofIte h.refuseWrite (ofIte (ofIte h.disarmPulse.answer (ofIte h.answer h.setF.armPulse.answer)) (ofIte
      h.refuseWrite h.plainWrite.answer))

theorem pulseFire {p : Nat} (h : MemoriesWf s) : MemoriesWf (s.pulseFire p) := (ofIte h.incN h).setPulse

theorem setCapture {c : Nat} {x : CaptureSt} (h : MemoriesWf s) : MemoriesWf (s.setCapture c x) := h.upd

theorem setFifo {c : Nat} {x : CaptureSt} (h : MemoriesWf s) : MemoriesWf (s.setFifo c x) := h.setCapture.setF

theorem capRead {c : Nat} (h : MemoriesWf s) : MemoriesWf (s.capRead c).2 := by
  unfold State.capRead
  dsimp only
  split
  · exact h.fresh
  · exact h.setFifo.wrN.wrN.wrN.wrN.setF

theorem timApply {o : Nat} {v : Word} (h : MemoriesWf s) : MemoriesWf (s.timApply o v) := by
  unfold State.timApply
  dsimp only
  split
  · exact ofIte h h.setRate
  · exact ofIte h.tbStep (ofIte h h.plainWrite)

theorem setTimeFn {x : FnState} (h : MemoriesWf s) : MemoriesWf (s.setTimeFn x) := h.upd.fnEvent

theorem timWrite {src off : Nat} {v : Word} (h : MemoriesWf s) : MemoriesWf (s.timWrite src off v) := by
  unfold State.timWrite
  split
  · exact ofIte h.stepWrite (ofIte h.rateWrite h.pulseCfgWrite)
  · exact ofIte (ofIte h.snapshot h).answer (ofIte h.refuseWrite (ofIte h.plainWrite.answer (ofIte
      h.plainWrite.answer (ofIte h.plainWrite.answer h.refuseWrite))))

theorem timRead {off : Nat} (h : MemoriesWf s) : MemoriesWf (s.timRead off).2 := by
  unfold State.timRead
  split
  · exact h.tbRead
  · split
    · exact h.capRead
    · exact h.plainRead

theorem exec_tbStep {src : Nat} {n : Fin 8} {hi : Word} (h : MemoriesWf s) : OutWf (execTbStep src n hi s) :=
  .next h.stepWrite

theorem exec_tbRateWrite {src : Nat} {n : Fin 8} {v : Word} (h : MemoriesWf s) : OutWf (execTbRateWrite src n v s) :=
  .next h.rateWrite

theorem exec_timSnap {src : Nat} (h : MemoriesWf s) : OutWf (execTimSnap src s) := .next h.snapshot.answer

theorem exec_pulseArm {src : Nat} {p : Fin 8} {v : Word} (h : MemoriesWf s) : OutWf (execPulseArm src p v s) :=
  .next h.pulseCfgWrite

theorem exec_pulseInstant {p : Fin 8} (h : MemoriesWf s) : OutWf (execPulseInstant p s) := .next (ofIte h.pulseFire h)

theorem exec_pulseEnd {p : Fin 8} (h : MemoriesWf s) : OutWf (execPulseEnd p s) := .ite (.next h.setPulse) (.next h)

theorem exec_captureEdge {c : Fin 4} {rising : Bool} (h : MemoriesWf s) : OutWf (execCaptureEdge c rising s) :=
  .ite (.next h) (.ite (.next h.incF) (.ite (.next h.setCapture.incF) (.next h.setFifo)))

theorem exec_capturePop {src : Nat} {c : Fin 4} (h : MemoriesWf s) : OutWf (execCapturePop src c s) :=
  .next h.capRead.answer

theorem exec_fnConfigTime {via : Via} (h : MemoriesWf s) : OutWf (execFnConfigTime via s) :=
  .next (h.fnConfig (fun _ _ _ hu => hu.timApply) (fun _ hu => hu.setTimeFn))

theorem timeBegin (h : MemoriesWf s) : MemoriesWf s.timeBegin :=
  (h.each fun _ _ hu => ofIte hu.armPulse hu).setTimeFn

theorem exec_fnStartTime {via : Via} (h : MemoriesWf s) : OutWf (execFnStartTime via s) :=
  .next (h.fnPlain fun _ => h.timeBegin.complete)

theorem exec_fnStopTime {via : Via} (h : MemoriesWf s) : OutWf (execFnStopTime via s) :=
  .next (h.fnPlain fun _ => ((h.each fun _ _ hv => hv.disarmPulse).each fun _ _ hv => hv.setF).setTimeFn.complete)

/-! ### The functions of `Machine/Pair.lean` -/

theorem setPairFn {x : FnState} {st : St} (h : MemoriesWf s) : MemoriesWf (s.setPairFn x st) := h.upd.setF.fnEvent

theorem pairLost (h : MemoriesWf s) : MemoriesWf s.pairLost := by
  have hu : MemoriesWf (s.log ST_OK mSFP EV_PAIR 2) := h.log
  generalize hf : State.pairLost = f
  delta State.pairLost at hf
  subst hf
  beta_reduce
  obtain ⟨u, e⟩ : ∃ u, u = s.log ST_OK mSFP EV_PAIR 2 := ⟨_, rfl⟩
  rw [← e] at hu ⊢
  dsimp only
  split
  · exact hu
  · have hv := hu.each (l := u.pkgAxes) (f := fun s a => if s.axState a = axRUNNING then s.axStop a false none else s)
      fun _ _ hw => ofIte hw.axStop hw
    exact ofIte hu (ofIte hu.safeEnter (ofIte (ofIte hv hv.modelStop) hv))

theorem failLoads {k : Nat} (h : MemoriesWf s) : MemoriesWf (s.failLoads k) := by
  unfold State.failLoads
  refine h.each fun _ _ hu => ?_
  split
  · exact hu
  · split
    · exact ofIte hu.setBead.beadFault hu
    · exact hu

theorem portDown {k : Nat} (h : MemoriesWf s) : MemoriesWf (s.portDown k) :=
  ofIte h (ofIte (ofIte h.setF.upd.failLoads h.setF.upd).pairLost (ofIte (ofIte h.setF.upd.failLoads
      h.setF.upd).setF.log (ofIte h.setF.upd.failLoads h.setF.upd)))

theorem exec_laneLockLoss {k : Fin 2} (h : MemoriesWf s) : OutWf (execLaneLockLoss k s) := .next h.portDown

theorem exec_plkFlit {k : Fin 2} {crcOk : Bool} (h : MemoriesWf s) : OutWf (execPlkFlit k crcOk s) :=
  .ite (.next h) (.ite (.next h.upd) (.next (ofIte h.inc.upd.portDown h.inc.upd)))

theorem exec_fnConfigPair {via : Via} (h : MemoriesWf s) : OutWf (execFnConfigPair via s) :=
  .next (h.fnConfig (fun _ _ _ hu => hu.wr) (fun _ hu => hu.setPairFn))

theorem pairRun (h : MemoriesWf s) : MemoriesWf s.pairRun :=
  ofIte h.setF.upd.setPairFn h.setF.upd.fresh.fresh.fresh.fresh.tbStep.wr.upd.setF.setPairFn

theorem exec_fnStartPair {via : Via} {peers : List PeerReport} (h : MemoriesWf s) : OutWf (execFnStartPair via peers
    s) :=
  .next (h.fnPlain fun _ => ofIte h.pairRun.complete (ofIte h.freshFail.complete h.upd))

theorem exec_pairLinkTrained {ports : BitVec 2} (h : MemoriesWf s) : OutWf (execPairLinkTrained ports s) := by
  unfold execPairLinkTrained
  split
  · exact .next h
  · exact .ite (.next (h.each fun _ _ hu => ofIte hu.setF hu)) (.next (h.each fun _ _ hu => ofIte hu.setF
      hu).setF.upd.pairRun.completeVia)

theorem exec_fnStopPair {via : Via} (h : MemoriesWf s) : OutWf (execFnStopPair via s) :=
  .next (h.fnPlain fun _ => h.setF.setF.setF.setPairFn.complete)

theorem exec_cycleHeartbeatSend (h : MemoriesWf s) : OutWf (execCycleHeartbeatSend s) := by
  unfold execCycleHeartbeatSend
  split
  · exact .next h
  · exact .ite (.next h) (.next h.upd)

theorem exec_cycleHeartbeatReceived {chip : Fin 16} {cyc : Word} (h : MemoriesWf s) : OutWf
    (execCycleHeartbeatReceived chip cyc s) := by
  unfold execCycleHeartbeatReceived
  split
  · exact .next h
  · exact .ite (.next h) (.ite (.next h.upd) (.ite (.next h.upd.wrN.wrN) (.next h.upd.wrN.wrN.inc.log.sfpEvent)))

theorem exec_pairHeartbeatTimeout (h : MemoriesWf s) : OutWf (execPairHeartbeatTimeout s) := by
  unfold execPairHeartbeatTimeout
  split
  · exact .next h
  · exact .ite (.next h) (.next h.pairLost)

theorem exec_crossCheckRecord {net : Fin 64} {cyc : Word} {sig : BitVec 64} (h : MemoriesWf s) : OutWf
    (execCrossCheckRecord net cyc sig s) := by
  unfold execCrossCheckRecord
  split
  · exact .next h
  · exact .ite (.next h) (.next h.upd.crossCompare)

theorem exec_partnerSafeState (h : MemoriesWf s) : OutWf (execPartnerSafeState s) :=
  .ite (.next h) (.next h.safeEnter)

theorem exec_pairEqualisation {d : Fin 50} {op : Option (Fin 8)} (h : MemoriesWf s) : OutWf (execPairEqualisation d
    op s) :=
  .ite (.next h) (.next h.setF.powerUpdate)

/-! ### The functions of `Machine/Power.lean` -/

theorem limitEvent {bit : Nat} (h : MemoriesWf s) : MemoriesWf (s.limitEvent bit) := h.setF.log.event

theorem eachDom {ds : List Nat} {f : DomSt → DomSt} (h : MemoriesWf s) : MemoriesWf (s.eachDom ds f) :=
  h.each fun _ _ hu => hu.setDom

theorem setPower {p : PowerSt} (h : MemoriesWf s) : MemoriesWf (s.setPower p) := h.upd

theorem setRail {r : Nat} {v : Nat × Nat} (h : MemoriesWf s) : MemoriesWf (s.setRail r v) := h.wrN.wrN

theorem avsRail {r : Nat} {v : Option (Nat × Nat)} (h : MemoriesWf s) : MemoriesWf (s.avsRail r v) := by
  unfold State.avsRail
  split
  · exact h.setRail.setPower
  · exact h.setPower

theorem capTo {d v : Nat} (h : MemoriesWf s) : MemoriesWf (s.capTo d v) := ofIte h.setDom.setF h.setDom

theorem capStep (h : MemoriesWf s) : MemoriesWf s.capStep := by
  unfold State.capStep
  refine ofIte ?_ (ofIte (ofIte h.setPower ?_) h.setPower)
  · dsimp only
    split
    · exact h.setPower.capTo
    · exact ofIte h.setPower h.setPower.setF.event
  · split
    · exact h.setPower.capTo
    · exact h.setPower

theorem shortStep {mw : Nat} (h : MemoriesWf s) : MemoriesWf (s.shortStep mw) :=
  ofIte h.setPower.eachDom.limitEvent (ofIte h.setPower.eachDom h.setPower)

theorem longStep (h : MemoriesWf s) : MemoriesWf s.longStep :=
  ofIte h.setPower.eachDom.limitEvent (ofIte (ofIte h.setPower.eachDom h) h.setPower)

theorem currentStep (h : MemoriesWf s) : MemoriesWf s.currentStep :=
  h.each fun _ _ hu => ofIte hu.setPower.eachDom.limitEvent (ofIte hu.setPower.eachDom hu.setPower)

theorem telemStep {allGood : Bool} (h : MemoriesWf s) : MemoriesWf (s.telemStep allGood) :=
  ofIte (ofIte h.setPower.eachDom h.setPower.eachDom.limitEvent) (ofIte h.setPower.eachDom h.setPower)

theorem energyStep {nj : Nat} (h : MemoriesWf s) : MemoriesWf (s.energyStep nj) := by
  unfold State.energyStep
  refine (h.foldl_snd fun _ _ hu => ?_).setPower
  dsimp only
  split
  · exact hu
  · exact ofIte hu.setWinAcc hu.setGroup

theorem exec_powerInterval {avs : AvsReadings} (h : MemoriesWf s) : OutWf (execPowerInterval avs s) :=
  .next
      h.avsRail.avsRail.avsRail.setPower.wrN.wrN.wrN.capStep.shortStep.longStep.currentStep.telemStep.energyStep.powerUpdate

theorem exec_pmbusPoll {rails : List (Nat × Nat)} (h : MemoriesWf s) : OutWf (execPmbusPoll rails s) :=
  .next (h.each fun _ _ hu => hu.setRail)

theorem tempApply (h : MemoriesWf s) : MemoriesWf s.tempApply := h.each fun _ _ hu => hu.setDom

theorem exec_tempSample {sensor : Fin 56} {temp : Int} (h : MemoriesWf s) : OutWf (execTempSample sensor temp s) := by
  unfold execTempSample
  extract_lets n fits clamp shut
  split
  next w u e =>
    have hu : MemoriesWf u := by
      refine of_snd (ofIte_snd h ?_) e
      exact h.fresh
    extract_lets s1 s2 on pw s3 t s5 pw6 s6
    have h2 : MemoriesWf s2 := ofIte hu.wrN.wrN hu.wrN
    have h3 : MemoriesWf s3 := h2.setPower
    have h5 : MemoriesWf s5 := ofIte (ofIte h3 h3.tempApply.limitEvent)
      (ofIte h2 (ofIte h2.setPower (ofIte h2.setPower.tempApply h2.setPower)))
    have h6 : MemoriesWf s6 := ofIte h5.setPower.limitEvent.safeEnter h5
    exact .next h6.powerUpdate

theorem exec_supplyFault {rail : Fin 9} (h : MemoriesWf s) : OutWf (execSupplyFault rail s) :=
  .next h.limitEvent.safeEnter

theorem exec_droop {d : Fin 50} (h : MemoriesWf s) : OutWf (execDroop d s) := .next h.setDom.inc.limitEvent

theorem exec_droopStretchEnd {d : Fin 50} (h : MemoriesWf s) : OutWf (execDroopStretchEnd d s) := .next h.setDom

theorem exec_voltageConfirmed {d : Fin 50} (h : MemoriesWf s) : OutWf (execVoltageConfirmed d s) :=
  .ite (.next h.setF.setDom) (.next h)

theorem beadPowerOff {n : Nat} (h : MemoriesWf s) : MemoriesWf (s.beadPowerOff n) := h.setBead.setF.setBeadState

theorem facStatsOff {f : Nat} (h : MemoriesWf s) : MemoriesWf (s.facStatsOff f) := h.upd.setFacet

theorem beadStatsOff {n : Nat} (h : MemoriesWf s) : MemoriesWf (s.beadStatsOff n) := h.upd

theorem domOff {d : Nat} (h : MemoriesWf s) : MemoriesWf (s.domOff d) :=
  ofIte (((ofIte h.setF.railsSet h.upd).each fun _ _ hu => hu.facPowerOff.setFacQueue.facStatsOff).setMem
      (Memory.zero_wf (((ofIte h.setF.railsSet h.upd).each fun _ _ hu => hu.facPowerOff.setFacQueue.facStatsOff).mem
      .fom) ..)) (ofIte (((ofIte h.setF.railsSet h.upd).each fun _ _ hu => hu.beadPowerOff.beadStatsOff).setMem
      (Memory.zero_wf (((ofIte h.setF.railsSet h.upd).each fun _ _ hu => hu.beadPowerOff.beadStatsOff).mem .blm) ..))
      (ofIte ((ofIte h.setF.railsSet h.upd).each fun _ _ hu => hu.setF.setMove.bankZero) (ofIte ((ofIte
      h.setF.railsSet h.upd).setMem (Memory.lose_wf ((ofIte h.setF.railsSet h.upd).mem .ddr) ..)).upd (ofIte
      h.setF.railsSet h.upd))))

theorem domReady {d : Nat} (h : MemoriesWf s) : MemoriesWf (s.domReady d) :=
  ofIte (h.setF.railsSet.clockStart.each fun _ _ hu => ofIte hu.setFacState hu) (h.setF.railsSet.clockStart.each fun
      _ _ hu => ofIte hu.setBeadState hu)

theorem domCtlWrite {src d : Nat} {v : Word} (h : MemoriesWf s) : MemoriesWf (s.domCtlWrite src d v) :=
  ofIte h.refuseWrite (ofIte (ofIte h.wrN.setF h.wrN) (ofIte h.wrN h.wrN.domOff)).answer

theorem exec_pwrDomCtlWrite {src : Nat} {d : Fin 50} {v : Word} (h : MemoriesWf s) : OutWf (execPwrDomCtlWrite src d
    v s) :=
  .next h.domCtlWrite

theorem exec_domainOnComplete {d : Fin 50} (h : MemoriesWf s) : OutWf (execDomainOnComplete d s) :=
  .ite (.next h.domReady) (.next h)

theorem exec_shutdownPowerOff (h : MemoriesWf s) : OutWf (execShutdownPowerOff s) := by
  unfold execShutdownPowerOff
  split
  · exact .next h
  · exact .ite (.next h) (.next (h.setPower.each fun _ _ hu => hu.domOff))

theorem setPowerFn {x : FnState} (h : MemoriesWf s) : MemoriesWf (s.setPowerFn x) := h.upd.fnEvent

theorem exec_fnConfigPower {via : Via} (h : MemoriesWf s) : OutWf (execFnConfigPower via s) :=
  .next (h.hostCmd fun _ => ofIte h.complete (h.fnConfig (fun _ _ _ hv => hv.wr) (fun _ hv => ofIte
      hv.reqUpdate.setPowerFn hv.reqUpdate)))

theorem exec_fnStartPower {via : Via} (h : MemoriesWf s) : OutWf (execFnStartPower via s) :=
  .next (h.fnPlain fun _ => h.setPowerFn.complete)

theorem exec_fnStopPower {via : Via} (h : MemoriesWf s) : OutWf (execFnStopPower via s) :=
  .next (h.fnPlain fun _ => h.setPowerFn.complete)

/-! ### The functions of `Machine/Rings.lean` -/

theorem take {ring : Option Nat} {c : HostCmd} (h : MemoriesWf s) : MemoriesWf (s.take ring c) :=
  ofIte h.upd.complete (ofIte h.upd.wake h.upd)

theorem holdAnswer {m : Fin 16} (h : MemoriesWf s) : MemoriesWf (s.holdAnswer m) :=
  ofIte h.fresh.fresh.mbxComplete h.mbxComplete

theorem takeGos (h : MemoriesWf s) : MemoriesWf s.takeGos :=
  ofIte h (ofIte (h.upd.each fun _ _ hu => hu.holdAnswer) (ofIte (h.upd.each fun _ _ hu => hu.take) h))

theorem mbxCtlWrite {src m : Nat} {v : Word} (h : MemoriesWf s) : MemoriesWf (s.mbxCtlWrite src m v) :=
  ofIte h.refuseWrite (ofIte h.hostAccess.plainWrite.setF.setF.upd.takeGos h.hostAccess.plainWrite.setF).answer

theorem mbxDataWrite {src m off : Nat} {v : Word} (h : MemoriesWf s) : MemoriesWf (s.mbxDataWrite src m off v) :=
  ofIte h.refuseWrite (ofIte h.refuseWrite h.hostAccess.wr.answer)

theorem exec_mailboxGo {src : Nat} {m : Fin 16} {v : Word} (h : MemoriesWf s) : OutWf (execMailboxGo src m v s) :=
  .next (h.hostWrite fun _ hu => hu.mbxCtlWrite)

theorem ringCtlWrite {src r : Nat} {v : Word} (h : MemoriesWf s) : MemoriesWf (s.ringCtlWrite src r v) :=
  ofIte h.refuseWrite (ofIte h.hostAccess.refuseWrite (ofIte (ofIte
      h.hostAccess.plainWrite.setF.setF.setF.setRing.answer h.hostAccess.setF.answer) (ofIte (ofIte
      h.hostAccess.setF.answer h.hostAccess.plainWrite.setF.setF.answer) h.hostAccess.plainWrite.setF.answer)))

theorem exec_ringEnable {src : Nat} {r : Fin 8192} {v : Word} (h : MemoriesWf s) : OutWf (execRingEnable src r v s) :=
  .next (h.hostWrite fun _ hu => hu.ringCtlWrite)

theorem exec_ringDisable {src : Nat} {r : Fin 8192} {v : Word} (h : MemoriesWf s) : OutWf (execRingDisable src r v s)
    :=
  .next (h.hostWrite fun _ hu => hu.ringCtlWrite)

theorem exec_ringDrained {r : Fin 8192} (h : MemoriesWf s) : OutWf (execRingDrained r s) :=
  .ite (.next h.setF) (.next h)

theorem indexSet {r : Nat} {pi : Bool} {v : Word} (h : MemoriesWf s) : MemoriesWf (s.indexSet r pi v) :=
  ofIte h.ringError (ofIte h.wr (ofIte h.wr.flushWithheld h.wr))

theorem indexWrite {src r : Nat} {pi : Bool} {v : Word} (h : MemoriesWf s) : MemoriesWf (s.indexWrite src r pi v) :=
  ofIte h.refuseWrite (ofIte h.hostAccess.wr.answer (ofIte h.hostAccess.refuseWrite (ofIte h.hostAccess.wr.answer
      (ofIte h.hostAccess.holdHost.answer h.hostAccess.indexSet.answer))))

theorem exec_ringDoorbell {src : Nat} {r : Fin 8192} {pi : Word} (h : MemoriesWf s) : OutWf (execRingDoorbell src r
    pi s) :=
  .next (h.hostWrite fun _ hu => hu.indexWrite)

theorem ringCfgWrite {src r off : Nat} {v : Word} (h : MemoriesWf s) : MemoriesWf (s.ringCfgWrite src r off v) :=
  ofIte h.refuseWrite (ofIte h.refuseWrite h.hostAccess.plainWrite.answer)

theorem ringWriteReg {src off : Nat} {v : Word} (h : MemoriesWf s) : MemoriesWf (s.ringWriteReg src off v) :=
  ofIte h.ringCtlWrite (ofIte h.indexWrite (ofIte h.indexWrite (ofIte h.answer h.ringCfgWrite)))

theorem ringRead {r i n : Nat} (h : MemoriesWf s) : MemoriesWf (s.ringRead r i n).2 := by
  have hread : ∀ u src a n, MemoriesWf u → MemoriesWf (State.readAt u src a n).2 := fun _ _ _ _ hu => hu.readAt
  unfold State.ringRead
  obtain ⟨read, e⟩ : ∃ f, f = State.readAt := ⟨_, rfl⟩
  rw [← e] at hread ⊢
  exact h.foldl_snd fun _ _ hu => hread _ _ _ _ hu

theorem fetch {r : Fin 8192} (h : MemoriesWf s) : MemoriesWf (s.fetch r) := by
  generalize hf : State.fetch = f
  delta State.fetch at hf
  subst hf
  beta_reduce
  extract_lets ci hd big n
  split
  next res u e =>
    have hu := of_snd h.ringRead e
    have hu : MemoriesWf { u with host := { u.host with lastRing := r.val } } := hu
    exact ofIte hu.ringError (ofIte hu.crash (ofIte hu.setRing.setRing.wrN.upd.complete.ringError
      (ofIte hu.setRing.setRing.wrN.upd.complete hu.setRing.setRing.wrN.take)))

theorem exec_commandFetch {r : Fin 8192} (h : MemoriesWf s) : OutWf (execCommandFetch r s) :=
  .ite (.next h.fetch) (.next h)

theorem exec_msixCoalesceExpired {r : Fin 8192} (h : MemoriesWf s) : OutWf (execMsixCoalesceExpired r s) := by
  unfold execMsixCoalesceExpired
  dsimp only
  split
  · exact .next h
  · exact .ite (.next h) (.next (ofIte h.setRing.msix h.setRing))

/-! ### The functions of `Machine/Host.lean` -/

theorem exec_dataPutModel {via : Via} (h : MemoriesWf s) : OutWf (execDataPutModel via s) :=
  .next (h.modelCmd (h.hostCmd fun _ => ofIte h.complete (ofIte h.postLong.soAdd h.postLong).complete))

theorem freeRecords (h : MemoriesWf s) : MemoriesWf s.freeRecords.2 := h.fresh

theorem records {func : Nat} (h : MemoriesWf s) : MemoriesWf (s.records func).2 :=
  ofIte_snd h (ofIte_snd h (ofIte_snd h h.freeRecords))

theorem exec_telemetry {via : Via} (h : MemoriesWf s) : OutWf (execTelemetry via s) := by
  unfold execTelemetry
  split
  · exact .next h
  · exact .next (h.hostCmd fun _ => ofIte h.complete (ofIte h.complete (ofIte h.records.complete h.records.complete)))

theorem heartbeat (h : MemoriesWf s) : MemoriesWf s.heartbeat := h.upd

theorem exec_hostHeartbeat {via : Via} (h : MemoriesWf s) : OutWf (execHostHeartbeat via s) :=
  .next (h.fnPlain fun _ => h.heartbeat.complete)

theorem hbWrite {src : Nat} (h : MemoriesWf s) : MemoriesWf (s.hbWrite src) :=
  ofIte h.refuseWrite h.hostAccess.heartbeat.answer

theorem exec_mbxHb {src : Nat} {v : Word} (h : MemoriesWf s) : OutWf (execMbxHb src v s) :=
  .next (h.hostWrite fun _ hu => hu.hbWrite)

theorem flushRings (h : MemoriesWf s) : MemoriesWf s.flushRings := h.each fun _ _ hu => ofIte hu.wr hu

theorem thawRings (h : MemoriesWf s) : MemoriesWf s.thawRings := h.each fun _ _ hu => ofIte hu.setF hu

theorem exec_attach {via : Via} (h : MemoriesWf s) : OutWf (execAttach via s) :=
  .next (h.hostCmd fun _ => ofIte h.complete (ofIte (ofIte h.setF.setF.setF h.setF.setF).flushRings (ofIte
      h.setF.setF.setF h.setF.setF)).thawRings.setF.setF.upd.heartbeat.complete)

theorem exec_ifaceQuery {via : Via} (h : MemoriesWf s) : OutWf (execIfaceQuery via s) :=
  .next (h.fnPlain fun _ => h.complete)

theorem policyAct (h : MemoriesWf s) : MemoriesWf s.policyAct := by
  unfold State.policyAct
  split
  · exact h.each fun _ _ hu => ofIte hu.ss1Write hu
  · exact h.each fun _ _ hu => ofIte hu.ss1Write hu
  · exact h

theorem hostLost (h : MemoriesWf s) : MemoriesWf s.hostLost :=
  ofIte h (h.setF.each fun _ _ hu => ofIte hu.setF hu).upd.event.policyAct

theorem exec_pcieLinkReset {kind : LinkReset} (h : MemoriesWf s) : OutWf (execPcieLinkReset kind s) := by
  cases kind with
  | linkLoss => exact .next h.upd.setF.hostLost
  | _ => exact .next h.upd.hostLost

theorem exec_hostLoss (h : MemoriesWf s) : OutWf (execHostLoss s) := .ite (.next h.hostLost) (.next h)

/-! ### The functions of `Machine/Settings.lean` -/

theorem cfgApply {f o : Nat} {v : Word} (h : MemoriesWf s) : MemoriesWf (s.cfgApply f o v) :=
  ofIte (ofIte h.setF h.wr) (ofIte h.canApply (ofIte h.timApply (ofIte h.plainWrite h.wr)))

theorem nvmWrite {a : Nat} {b : List Byte} (h : MemoriesWf s) : MemoriesWf (s.nvmWrite a b) :=
  ((h.setMem (Memory.putBytes_wf (h.mem .nvm) ..)).each fun _ _ hu => hu.upd).wrN

theorem exec_settingsStore {via : Via} (h : MemoriesWf s) : OutWf (execSettingsStore via s) := by
  unfold execSettingsStore
  split
  · exact .next h
  · exact .next (h.hostCmd fun _ => ofIte h (ofIte h.complete (ofIte h.complete (ofIte h.complete (ofIte
      h.log.setF.complete (h.each fun _ _ hv => hv.nvmWrite).setF.upd)))))

theorem exec_settingsCommit (h : MemoriesWf s) : OutWf (execSettingsCommit s) := by
  unfold execSettingsCommit
  split
  · exact .next h
  · exact .ite (.next h) (.next h.nvmWrite.wr.wrN.upd.completeVia)

theorem dropStore {st : St} (h : MemoriesWf s) : MemoriesWf (s.dropStore st) := by
  unfold State.dropStore
  split
  · exact h
  · exact h.wrN.upd

theorem loadRecord {f : Nat} (h : MemoriesWf s) : MemoriesWf (s.loadRecord f).2 := by
  unfold State.loadRecord
  split
  · exact h
  · exact ofIte_snd (h.foldl fun _ _ hu => hu.cfgApply) h.log.upd

theorem loadDevice (h : MemoriesWf s) : MemoriesWf s.loadDevice := h.wrN.wrN.loadRecord

theorem loadFunctions (h : MemoriesWf s) : MemoriesWf s.loadFunctions := by
  refine h.each fun u f hu => ?_
  split
  next run v e =>
    have hv := of_snd hu.loadRecord e
    exact ofIte hv.reqUpdate.upd (ofIte hv (ofIte hv.timeBegin (ofIte hv.ethBegin (ofIte hv.canBegin hv))))

/-! ### The functions of `Machine/Procs.lean` -/

theorem exec_watchdogKick {src : Nat} {p : Proc} {v : Word} (h : MemoriesWf s) : OutWf (execWatchdogKick src p v s) :=
  .next h.kickWrite

theorem exec_watchdogExpired {p : Proc} (h : MemoriesWf s) : OutWf (execWatchdogExpired p s) :=
  .ite (.next h.crash) (.next h)

theorem exec_processorCrash {p : Proc} {cause : CrashCause} (h : MemoriesWf s) : OutWf (execProcessorCrash p cause s)
    :=
  .ite (.next h) (.next h.crash)

theorem failInflight (h : MemoriesWf s) : MemoriesWf s.failInflight :=
  h.each fun _ _ hu => ofIte hu.fresh.complete hu.complete

theorem hipRestart (h : MemoriesWf s) : MemoriesWf s.hipRestart :=
  h.setF.failInflight.dropStore.heartbeat.event.takeGos

theorem exec_processorRestartComplete {p : Proc} (h : MemoriesWf s) : OutWf (execProcessorRestartComplete p s) := by
  unfold execProcessorRestartComplete
  refine .ite (.next h) ?_
  split
  · exact .next h.reloadImage.procStart.scpRestart.event
  · exact .next h.reloadImage.procStart.hipRestart
  · exact .ite (.next h.reloadImage.procStart.paths.event) (.next h)

/-! ### The functions of `Machine/Boot.lean` -/

theorem afterReset {kind : Nat} (h : MemoriesWf s) : MemoriesWf (s.afterReset kind) := by
  have hmap : s.mapAfter.wf := List.foldlRecOn (motive := Memory.wf) _ _ (h.mem .map) fun m hm b _ =>
    ite_cases (P := Memory.wf) hm (Memory.zero_wf hm ..)
  unfold State.afterReset
  extract_lets keep t u
  have ht : MemoriesWf t :=
    ⟨ite_cases (P := Memory.wf) hmap Memory.empty_wf, Memory.empty_wf, Memory.empty_wf,
      ite_cases (P := Memory.wf) (h.mem .ddr) (Memory.lose_wf (h.mem .ddr) ..), h.mem .nvm, Memory.empty_wf⟩
  have hu : MemoriesWf u := ofIte ht ht.setF
  exact ofIte hu (hu.foldl fun _ _ hv => hv.setF)

theorem countReset {kind : Nat} (h : MemoriesWf s) : MemoriesWf (s.countReset kind) := h.wrN

theorem bootStart (h : MemoriesWf s) : MemoriesWf s.bootStart := h.upd

theorem exec_coldReset (h : MemoriesWf s) : OutWf (execColdReset s) := .next h.afterReset

theorem exec_coldResetRelease {straps : BitVec 4} (h : MemoriesWf s) : OutWf (execColdResetRelease straps s) :=
  .ite (.next h) (.next (ofIte h.wrN h.wrN.wrN).bootStart)

theorem exec_warmReset {lowNs : Nat} (h : MemoriesWf s) : OutWf (execWarmReset lowNs s) :=
  .ite (.next h) (.ite (.next h.afterReset.countReset) (.next (ofIte h.fresh.afterReset.countReset h.fresh)))

theorem exec_warmResetRelease (h : MemoriesWf s) : OutWf (execWarmResetRelease s) :=
  .ite (.next h.bootStart) (.next h)

theorem rckResetWrite {src : Nat} {v : Word} (h : MemoriesWf s) : MemoriesWf (s.rckResetWrite src v) :=
  ofIte h.hostAccess.refuseWrite (ofIte h.hostAccess.answer (ofIte h.hostAccess.answer (ofIte h.hostAccess.answer
      (ofIte h.hostAccess.setF.refuseWrite h.hostAccess.afterReset.setF.countReset.bootStart.upd))))

theorem exec_deviceReset {src : Nat} {v : Word} (h : MemoriesWf s) : OutWf (execDeviceReset src v s) :=
  .next (h.hostWrite fun _ hu => hu.rckResetWrite)

theorem startImage {p : Nat} {i : FwImage} (h : MemoriesWf s) : MemoriesWf (s.startImage p i) := by
  unfold State.startImage
  extract_lets imem s1 s2 s3 s4
  have h1 : MemoriesWf s1 := h
  have h4 : MemoriesWf s4 := h1.wrN.wrBytes.setProc.setF
  exact ofIte h4.upd h4

theorem domainsOn (h : MemoriesWf s) : MemoriesWf s.domainsOn := (h.each fun _ _ hu => hu.setF).clockStart

theorem exec_firmwareSetLoad (h : MemoriesWf s) : OutWf (execFirmwareSetLoad s) := by
  unfold execFirmwareSetLoad
  refine .ite (.next h) ?_
  extract_lets u
  have hu : MemoriesWf u := h.loadDevice
  split
  · exact .next hu.setF.upd.takeGos
  next k x ovr e _ =>
    split
    next ent v ev =>
      have hv : MemoriesWf v := by
        cases e with
        | some n =>
          cases ev
          exact hu
        | none =>
          cases ev
          exact hu.fresh
      extract_lets s1 s2 s3
      have h2 : MemoriesWf s2 := ofIte hv.wrN.log hv.wrN
      have h3 : MemoriesWf s3 := h2.foldl fun w p hw => by
        split
        · exact hw.startImage
        · exact hw
      exact .next h3.domainsOn.setF.upd

theorem exec_lpddr5xTrained (h : MemoriesWf s) : OutWf (execLpddr5xTrained s) :=
  .ite (.next h) (.next h.wrN.wrN.wrN.upd)

theorem exec_lpddr5xPatrolScrub {word : Nat} {found : EccFinding} {endOfPass : Bool} (h : MemoriesWf s) :
    OutWf (execLpddr5xPatrolScrub word found endOfPass s) := by
  have hbad : MemoriesWf ((s.setMem .ddr (s.mems.ddr.setBad word true)).inc DDR_ECC_UNCORR) :=
    (h.setMem (Memory.setBad_wf (h.mem .ddr) ..)).inc
  cases found with
  | clean => exact .ite (.next h) (.next (ofIte h.inc h))
  | corrected => exact .ite (.next h) (.next (ofIte (ofIte h h.inc).inc (ofIte h h.inc)))
  | uncorrected => exact .ite (.next h) (.next (ofIte hbad.inc hbad))

theorem exec_bootReady (h : MemoriesWf s) : OutWf (execBootReady s) :=
  .ite (.next h) (.next (h.loadFunctions.setF.upd.each fun _ _ hu => hu.event).takeGos)

theorem exec_pcieLinkUp {link : PcieLink} {cfg : PciCfg} (h : MemoriesWf s) : OutWf (execPcieLinkUp link cfg s) :=
  .ite (.next h) (.ite .fault (.next (h.wrN.upd.each fun _ _ hu => hu.msix)))

/-! ### The functions of `Machine/LowPower.lean` -/

theorem lpLast {st : St} (h : MemoriesWf s) : MemoriesWf (s.lpLast st) := h.setF

theorem lpWrite {v : Word} {req : Nat} (h : MemoriesWf s) : MemoriesWf (s.lpWrite v req) :=
  ofIte h.lpLast.answer (ofIte h.setF.setF.lpLast.wake.answer (ofIte h.setF.setF.lpLast.answer (ofIte h.lpLast.answer
      h.setF.setF.lpLast.setF.upd.answer)))

theorem rckLpWrite {src : Nat} {v : Word} {req : Nat} (h : MemoriesWf s) : MemoriesWf (s.rckLpWrite src v req) :=
  ofIte h.lpWrite h.lpWrite

theorem lpRequest {src : Nat} {v : Word} {req : Nat} (h : MemoriesWf s) : MemoriesWf (s.lpRequest src v req) :=
  h.hostWrite fun _ hu => hu.rckLpWrite

theorem exec_lpReqActive {src : Nat} {v : Word} (h : MemoriesWf s) : OutWf (execLpReqActive src v s) :=
  .next h.lpRequest

theorem exec_lpReqLight {src : Nat} {v : Word} (h : MemoriesWf s) : OutWf (execLpReqLight src v s) := .next
    h.lpRequest

theorem exec_lpReqStandby {src : Nat} {v : Word} (h : MemoriesWf s) : OutWf (execLpReqStandby src v s) :=
  .next h.lpRequest

theorem exec_lpReqHibernate {src : Nat} {v : Word} (h : MemoriesWf s) : OutWf (execLpReqHibernate src v s) :=
  .next h.lpRequest

theorem rckWrite {src off : Nat} {v : Word} (h : MemoriesWf s) : MemoriesWf (s.rckWrite src off v) :=
  ofIte h.rckResetWrite (ofIte h.rckLpWrite (ofIte h.refuseWrite h.hostAccess.plainWrite.answer))

theorem lpEvent (h : MemoriesWf s) : MemoriesWf s.lpEvent := h.fresh.event

theorem lightOff (h : MemoriesWf s) : MemoriesWf s.lightOff :=
  ((h.each fun _ _ hu => hu.domOff).each fun _ _ hu => hu.setF.setMove).upd

theorem standbyOff (h : MemoriesWf s) : MemoriesWf s.standbyOff := h.upd.setF

theorem reloadResident (h : MemoriesWf s) : MemoriesWf s.reloadResident := by
  unfold State.reloadResident
  split
  · exact h
  · refine (h.each fun _ _ hu => ?_).each fun _ _ hu => hu.clearDelta
    split
    · exact hu.poke
    · exact hu.poke
    · exact hu

theorem exec_lpEntryComplete (h : MemoriesWf s) : OutWf (execLpEntryComplete s) := by
  unfold execLpEntryComplete
  split
  · exact .next (ofIte h.afterReset.upd.countReset.bootStart h.afterReset.upd)
  · exact .next (ofIte (ofIte h.lightOff.standbyOff h.lightOff).setF.upd.lpEvent.wake (ofIte h.lightOff.standbyOff
      h.lightOff).setF.upd.lpEvent)
  · exact .next h

theorem wakeEvent (h : MemoriesWf s) : MemoriesWf s.wakeEvent := ofIte h.countReset.bootStart h.wake

theorem exec_wakeN {lowNs : Nat} (h : MemoriesWf s) : OutWf (execWakeN lowNs s) := .ite (.next h.wakeEvent) (.next h)

theorem exec_wakeTime (h : MemoriesWf s) : OutWf (execWakeTime s) := .ite (.next h.wakeEvent) (.next h)

/-! ### The functions of `Machine/Security.lean` -/

theorem secLog {st : St} {aux : Nat} (h : MemoriesWf s) : MemoriesWf (s.secLog st aux) := h.log

theorem secRefuse (h : MemoriesWf s) : MemoriesWf s.secRefuse := h.secLog.answer

theorem exec_dbgChalRead (h : MemoriesWf s) : OutWf (execDbgChalRead s) :=
  .ite (.next h.secRefuse) (.next h.upd.answer)

theorem exec_authResponse {perm : Word} {r s' : BitVec 384} (h : MemoriesWf s) : OutWf (execAuthResponse perm r s' s)
    :=
  .ite (.next h.secRefuse) (.ite (.next h.upd.setF.setF.secLog.answer) (.next (ofIte h.upd.setF.inc.secLog.setF.upd
      h.upd.setF.inc.secLog).answer))

theorem exec_challengeExpired (h : MemoriesWf s) : OutWf (execChallengeExpired s) := .ite (.next h.upd) (.next h)

theorem exec_lockoutEnd (h : MemoriesWf s) : OutWf (execLockoutEnd s) := by
  unfold execLockoutEnd
  split
  · exact .next h
  · exact .ite (.next h) (.next h.upd.setF.setF)

theorem eraseSecrets (h : MemoriesWf s) : MemoriesWf s.eraseSecrets := h.setF.upd

theorem exec_lifecycleRequest {target : BitVec 4} (h : MemoriesWf s) : OutWf (execLifecycleRequest target s) :=
  .ite (.next h.secRefuse) (.next (ofIte h.eraseSecrets h).setF.secLog.answer)

theorem exec_keyProvision {slot : KeySlot} {x y : BitVec 384} (h : MemoriesWf s) : OutWf (execKeyProvision slot x y
    s) :=
  .ite (.next h.secRefuse) (.next h.setF.upd.answer)

theorem exec_keyRevoke {slot : KeySlot} (h : MemoriesWf s) : OutWf (execKeyRevoke slot s) := by
  unfold execKeyRevoke
  refine .ite (.next h.secRefuse) ?_
  split
  · exact .ite (.next h.setF.answer) (.next h.secRefuse)
  · exact .next h.setF.answer
  · exact .next h.secRefuse

theorem exec_secPolicyWrite {v : Word} (h : MemoriesWf s) : OutWf (execSecPolicyWrite v s) :=
  .ite (.next h.wr.answer) (.next h.secRefuse)

theorem exec_xspiAccess {slotB : Bool} {content : FlashSlot} (h : MemoriesWf s) : OutWf (execXspiAccess slotB content
    s) :=
  .ite (.next h.upd.answer) (.next h.secRefuse)

theorem exec_boundaryScan {i : ScanInstr} (h : MemoriesWf s) : OutWf (execBoundaryScan i s) :=
  .ite (.next h.upd.answer) (.next h.upd.answer)

/-! ### The functions of `Machine/Csr.lean` -/

theorem ownWrite {src off : Nat} {v : Word} (h : MemoriesWf s) : MemoriesWf (s.ownWrite src off v) := by
  unfold State.ownWrite
  split
  · exact h.answer
  · exact ofIte h.answer (ofIte h.hostAccess.plainWrite.answer h.refuseWrite)

theorem glbWrite {src off : Nat} {v : Word} (h : MemoriesWf s) : MemoriesWf (s.glbWrite src off v) :=
  ofIte h.kickWrite (ofIte h.kickWrite h.ownWrite)

theorem mbxBlockWrite {src off : Nat} {v : Word} (h : MemoriesWf s) : MemoriesWf (s.mbxBlockWrite src off v) :=
  ofIte h.mbxCtlWrite (ofIte h.hbWrite (ofIte h.mbxDataWrite h.answer))

theorem pwrWrite {src off : Nat} {v : Word} (h : MemoriesWf s) : MemoriesWf (s.pwrWrite src off v) :=
  ofIte h.domCtlWrite (ofIte (ofIte h.refuseWrite h.plainWrite.reqUpdate.answer) h.ownWrite)

theorem safWrite {src off : Nat} {v : Word} (h : MemoriesWf s) : MemoriesWf (s.safWrite src off v) :=
  ofIte h.kickWrite (ofIte h.refuseWrite h.plainWrite.answer)

theorem facWriteReg {src off : Nat} {v : Word} (h : MemoriesWf s) : MemoriesWf (s.facWriteReg src off v) :=
  ofIte h.submit (ofIte h.urgent (ofIte h.facCtlWrite h.ownWrite))

theorem arbWrite {src off : Nat} {v : Word} (h : MemoriesWf s) : MemoriesWf (s.arbWrite src off v) :=
  ofIte h.classWrite (ofIte (ofIte h.winCtlWrite (ofIte h.answer h.winRangeWrite)) (ofIte h.soSet (ofIte
      h.setArmed.answer h.ownWrite)))

theorem plkWrite {src off : Nat} {v : Word} (h : MemoriesWf s) : MemoriesWf (s.plkWrite src off v) :=
  ofIte h.answer (ofIte h.plainWrite.answer h.refuseWrite)

theorem csrPut {src off : Nat} {v : Word} (h : MemoriesWf s) : MemoriesWf (s.csrPut src off v) :=
  ofIte h.answer (ofIte h.glbWrite (ofIte h.mbxBlockWrite (ofIte h.pwrWrite (ofIte h.rckWrite (ofIte h.safWrite
      (ofIte h.answer (ofIte h.timWrite (ofIte h.canWrite (ofIte h.ethWrite (ofIte h.sleWrite (ofIte h.hltWrite
      (ofIte h.camWrite (ofIte h.ringWriteReg (ofIte h.soAdd (ofIte h.facWriteReg (ofIte h.beadBlockWrite (ofIte
      (ofIte h.bankReq h.answer) (ofIte h.arbWrite (ofIte h.answer (ofIte h.plkWrite (ofIte h.pciWrite
      h.answer)))))))))))))))))))))

theorem csrWriteOp {src off : Nat} {be : BitVec 4} {v : Word} (h : MemoriesWf s) : MemoriesWf (s.csrWriteOp src off
    be v) :=
  ofIte h.hostAccess.refuseWrite (ofIte h.hostAccess.refuseWrite h.hostAccess.csrPut)

theorem latch {hi : Nat} {c : BitVec 64} (h : MemoriesWf s) : MemoriesWf (s.latch hi c).2 := h.wr

theorem facReadReg {off : Nat} (h : MemoriesWf s) : MemoriesWf (s.facReadReg off).2 := ofIte_snd h.latch h.plainRead

theorem ifeReadReg {off : Nat} (h : MemoriesWf s) : MemoriesWf (s.ifeReadReg off).2 := by
  unfold State.ifeReadReg
  extract_lets c
  split
  next w u e => exact of_snd h.plainRead e

theorem sleReadReg {off : Nat} (h : MemoriesWf s) : MemoriesWf (s.sleReadReg off).2 := ofIte_snd h.latch h.plainRead

theorem csrGet {off : Nat} (h : MemoriesWf s) : MemoriesWf (s.csrGet off).2 :=
  ofIte_snd h.latch (ofIte_snd h (ofIte_snd h.timRead (ofIte_snd h.sleReadReg (ofIte_snd h.ifeReadReg (ofIte_snd
      h.facReadReg (ofIte_snd h.beadBlockRead h.plainRead))))))

theorem csrReadOp {src off : Nat} (h : MemoriesWf s) : MemoriesWf (s.csrReadOp src off) :=
  ofIte h.hostAccess.answer (ofIte h.hostAccess.soRead (ofIte h.hostAccess.soAliasRead h.hostAccess.csrGet.answer))

theorem hardwareSets {off : Nat} {hw : Word} (h : MemoriesWf s) : MemoriesWf (s.hardwareSets off hw) := by
  unfold State.hardwareSets
  split
  · exact ofIte h h.wr
  · exact h

theorem exec_csrWrite {src off : Nat} {be : BitVec 4} {v : RegWrite} (h : MemoriesWf s) : OutWf (execCsrWrite src off
    be v s) :=
  .ite .fault (.ite (.next h.csrWriteOp.hardwareSets) (.next (h.hostWrite fun _ hu => hu.csrWriteOp).hardwareSets))

theorem exec_rcRegisterRead {src off upd : Nat} (h : MemoriesWf s) : OutWf (execRcRegisterRead src off upd s) := by
  unfold execRcRegisterRead
  refine .ite .fault (.ite (.next h.holdHost) ?_)
  dsimp only
  split
  · exact .next (ofIte h.csrReadOp h.csrReadOp.wr)
  · exact .next h.csrReadOp

/-! ### The functions of `Machine/Mesh.lean` -/

theorem refuseRequest {st : St} {src : Nat} {addr : BitVec 64} {n : Nat} (h : MemoriesWf s) : MemoriesWf
    (s.refuseRequest st src addr n) :=
  h.log.answer

theorem replied {src : Nat} {addr : BitVec 64} {r : Reply} (h : MemoriesWf s) : MemoriesWf (s.replied src addr r) :=
  ofIte h.upd h.upd.log

theorem memRequest {src : Nat} {addr : BitVec 64} {op : ReqOp} (h : MemoriesWf s) : MemoriesWf (s.memRequest src addr
    op) :=
  ofIte h.request h.request.replied

theorem meshReadOp {src : Nat} {addr : BitVec 64} {n : Nat} (h : MemoriesWf s) : MemoriesWf (s.meshReadOp src addr n)
    := by
  unfold State.meshReadOp
  refine ofIte h.refuseRequest.upd ?_
  split
  · exact ofIte h.csrReadOp h.refuseRequest
  · exact h.memRequest

theorem meshWriteOp {src : Nat} {addr : BitVec 64} {d : List Byte} {win epoch : BitVec 16} (h : MemoriesWf s) :
    MemoriesWf (s.meshWriteOp src addr d win epoch) := by
  unfold State.meshWriteOp
  split
  · exact ofIte h.csrWriteOp h.refuseWrite
  · exact h.memRequest

theorem hostPerform {x : HostReq} (h : MemoriesWf s) : MemoriesWf (s.hostPerform x) := by
  unfold State.hostPerform
  split
  · exact h.csrWriteOp
  · exact h.csrReadOp.answerLater
  · exact h.bar2Read.answerLater
  · exact h.bar2Write

theorem hostDrain {k : Nat} (h : MemoriesWf s) : MemoriesWf (State.hostDrain k s) := by
  induction k generalizing s with
  | zero => exact h
  | succ k ih =>
    unfold State.hostDrain
    split
    · exact h
    · exact ofIte h (ih h.upd.hostPerform)

theorem hostFree (h : MemoriesWf s) : MemoriesWf s.hostFree := h.hostDrain

theorem exec_meshRead {src : Nat} {addr : BitVec 64} {len : Nat} (h : MemoriesWf s) : OutWf (execMeshRead src addr
    len s) :=
  .ite (.next h.meshReadOp.hostFree) .fault

theorem exec_meshWrite {src : Nat} {addr : BitVec 64} {data : List Byte} {win epoch : BitVec 16} (h : MemoriesWf s) :
    OutWf (execMeshWrite src addr data win epoch s) :=
  .ite (.next h.meshWriteOp.hostFree) .fault

theorem exec_setAliasWrite {src ofs : Nat} {data : List Byte} (h : MemoriesWf s) : OutWf (execSetAliasWrite src ofs
    data s) :=
  .ite (.next h.memRequest.hostFree) .fault

theorem exec_clearAliasWrite {src ofs : Nat} {data : List Byte} (h : MemoriesWf s) : OutWf (execClearAliasWrite src
    ofs data s) :=
  .ite (.next h.memRequest.hostFree) .fault

theorem rmwRequest {src : Nat} {addr : BitVec 64} {op : ReqOp} (h : MemoriesWf s) : MemoriesWf (s.rmwRequest src addr
    op) :=
  ofIte h.refuseRequest h.memRequest

theorem exec_meshCmpset {src : Nat} {addr : BitVec 64} {cmp new : Word} (h : MemoriesWf s) : OutWf (execMeshCmpset
    src addr cmp new s) :=
  .next h.rmwRequest.hostFree

theorem exec_meshCount {src : Nat} {addr : BitVec 64} {inc : Word} (h : MemoriesWf s) : OutWf (execMeshCount src addr
    inc s) :=
  .next h.rmwRequest.hostFree

theorem exec_claspTimeout {src : Nat} (h : MemoriesWf s) : OutWf (execClaspTimeout src s) := by
  unfold execClaspTimeout
  split
  · exact .next h
  · exact .next h.upd.setF.incF.serve.hostFree

/-! ### The functions of `Machine/BeadCore.lean` -/

theorem beadClocks {n k : Nat} (h : MemoriesWf s) : MemoriesWf (s.beadClocks n k) := by
  unfold State.beadClocks
  dsimp only
  split
  · exact h.setBead.noteActive
  · exact h.setBead

theorem retire {n : Nat} {pc : Word} {least : Nat} (h : MemoriesWf s) : MemoriesWf (s.retire n pc least) :=
  h.setBead.corrected.fresh.beadClocks

theorem goOn {n ilen least : Nat} (h : MemoriesWf s) : MemoriesWf (s.goOn n ilen least) := h.retire

theorem blmWrite {n off : Nat} {d : List Byte} (h : MemoriesWf s) : MemoriesWf (s.blmWrite n off d) := by
  unfold State.blmWrite
  split
  next m e => exact h.setMem (Memory.store_wf (h.mem .blm) e)
  · exact h.setF.log

theorem deliver {n : Nat} {fp : Bool} {rd ilen : Nat} {v : Word} (h : MemoriesWf s) : MemoriesWf (s.deliver n fp rd
    ilen v) :=
  h.setBead.goOn

theorem coreLoad {n len : Nat} {signed fp : Bool} {rd ilen : Nat} {a : Word} (h : MemoriesWf s) : MemoriesWf
    (s.coreLoad n len signed fp rd ilen a) := by
  unfold State.coreLoad
  refine ofIte h.beadFault ?_
  split
  · exact h.beadFault
  · split
    · exact h.beadEcc
    · exact h.deliver
  · exact h.csrGet.deliver
  · exact h.setBead

theorem postStore {n : Nat} {d : BitVec 64} {bytes : List Byte} (h : MemoriesWf s) : MemoriesWf (s.postStore n d
    bytes) :=
  h.meshWriteOp.upd.setBead

theorem coreStore {n len ilen : Nat} {a v : Word} (h : MemoriesWf s) : MemoriesWf (s.coreStore n len ilen a v) := by
  unfold State.coreStore
  refine ofIte h.beadFault ?_
  split
  · exact h.beadFault
  · exact h.blmWrite.goOn
  · exact h.csrWriteOp.upd.goOn
  · exact h.postStore.goOn

theorem csrOp {n kind : Nat} {imm : Bool} {rd rs1 c : Nat} (h : MemoriesWf s) : MemoriesWf (s.csrOp n kind imm rd rs1
    c) := by
  unfold State.csrOp
  dsimp only
  split
  · exact h.beadFault
  · exact ofIte h.beadFault h.setBead.goOn

theorem fpDone {n rd : Nat} {r : FRes} (h : MemoriesWf s) : MemoriesWf (s.fpDone n rd r) := h.setBead.goOn

theorem fpInt {n rd : Nat} {v : Word} {fl : Nat} (h : MemoriesWf s) : MemoriesWf (s.fpInt n rd v fl) :=
  h.setBead.goOn

theorem withRm {n field : Nat} {f : Rm → State} (h : MemoriesWf s) (hf : ∀ u, MemoriesWf (f u)) : MemoriesWf
    (s.withRm n field f) := by
  unfold State.withRm
  split
  · exact hf _
  · exact h.beadFault

theorem fenceOp {n : Nat} (h : MemoriesWf s) : MemoriesWf (s.fenceOp n) := ofIte h.goOn h.setBead

theorem mretOp {n : Nat} (h : MemoriesWf s) : MemoriesWf (s.mretOp n) := h.setBead.retire

theorem rvExec {n ilen : Nat} {i : Rv} (h : MemoriesWf s) : MemoriesWf (s.rvExec n ilen i) := by
  unfold State.rvExec
  dsimp only
  split
  · exact h.setBead.goOn
  · exact h.setBead.goOn
  · exact h.setBead.retire
  · exact h.setBead.retire
  · exact ofIte h.retire h.goOn
  · exact h.coreLoad
  · exact h.coreStore
  · exact h.setBead.goOn
  · exact h.setBead.goOn
  · exact h.fenceOp
  · exact h.goOn
  · exact h.beadFault
  · exact h.beadFault
  · exact h.mretOp
  · exact h.csrOp
  · exact h.withRm fun _ => h.fpDone
  · exact h.withRm fun _ => h.fpDone
  · exact h.withRm fun _ => h.fpDone
  · exact h.fpDone
  · exact h.fpDone
  · exact h.fpInt
  · exact h.fpInt
  · exact h.withRm fun _ => h.fpInt
  · exact h.withRm fun _ => h.fpDone
  · exact h.fpInt
  · exact h.fpDone
  · exact ofIte h h.beadFault

theorem exec_beadBaseInstruction {n : Fin 4096} (h : MemoriesWf s) : OutWf (execBeadBaseInstruction n s) := by
  unfold execBeadBaseInstruction
  refine .ite (.next h) ?_
  split
  · exact .next h.rvExec
  · exact .next h.beadFault
  · exact .next h.beadEcc

theorem takeAnswer {n : Nat} {read : Bool} {r : Reply} {u : State} (h : MemoriesWf s)
    (e : s.takeAnswer n read = some (r, u)) : MemoriesWf u := by
  unfold State.takeAnswer at e
  split at e
  · cases e
  · cases e
    exact h.upd

theorem respond {n : Nat} {q : RemoteLoad} {st : St} {v : Nat} {poison : Bool} (h : MemoriesWf s) : MemoriesWf
    (s.respond n q st v poison) :=
  ofIte h.setBead.log.beadFault (ofIte h.setBead.beadFault h.setBead.deliver)

theorem remoteAsk {n : Nat} {q : RemoteLoad} (h : MemoriesWf s) : MemoriesWf (s.remoteAsk n q).2 := by
  unfold State.remoteAsk
  split
  · dsimp only
    split
    · exact h.csrReadOp
    · exact h.refuseRequest
  · exact h.memRequest

theorem exec_remoteLoadResponse {n : Fin 4096} {ext : RemoteReply} (h : MemoriesWf s) :
    OutWf (execRemoteLoadResponse n ext s) := by
  unfold execRemoteLoadResponse
  extract_lets k
  split
  · exact .next h
  next q _ =>
    refine .ite ?_ ?_
    · split
      · exact .next h
      next r u e => exact .next (h.takeAnswer e).respond
    · split
      · exact .ite (.next h.respond) (.next h.respond)
      · split
        next waits u e =>
          have hu := of_snd (h.atUnit fun _ hw => hw.remoteAsk) e
          exact .ite (.next hu.upd.setBead) (.next hu.upd.respond)

theorem storeAcked {n : Nat} {rest : List (Option St)} {st : St} (h : MemoriesWf s) : MemoriesWf (s.storeAcked n rest
    st) :=
  ofIte (ofIte h.setBead h.setBead.setF.bumpSo).setBead.goOn (ofIte h.setBead h.setBead.setF.bumpSo)

theorem exec_remoteStoreAck {n : Fin 4096} (h : MemoriesWf s) : OutWf (execRemoteStoreAck n s) := by
  unfold execRemoteStoreAck
  extract_lets k
  split
  · exact .next h
  · exact .next h.storeAcked
  · split
    · exact .next h
    next r u e => exact .next (h.takeAnswer e).storeAcked

/-! ### The functions of `Machine/DataGet.lean` -/

theorem hipWord {off : Nat} (h : MemoriesWf s) : MemoriesWf (s.hipWord off).2 := ofIte_snd h.csrReadOp
    h.csrReadOp.fresh

theorem hipRead {addr : BitVec 64} {n : Nat} (h : MemoriesWf s) : MemoriesWf (s.hipRead addr n).2 := by
  unfold State.hipRead
  split
  · exact ofIte_snd h (h.foldl_snd fun _ _ hu => hu.hipWord)
  · exact h.readLong

theorem exec_dataGetModel {via : Via} (h : MemoriesWf s) : OutWf (execDataGetModel via s) :=
  .next (h.modelCmd (h.hostCmd fun _ => ofIte h.complete (ofIte h.complete (ofIte h (ofIte h.hipRead.upd.complete
      (ofIte h.hipRead.upd.complete h.hipRead.upd.log.complete))))))

/-! ### The functions of `Machine/Mover.lean` -/

theorem moverRead {n : Nat} {addr : BitVec 64} {k : Nat} (h : MemoriesWf s) : MemoriesWf (s.moverRead n addr k).2 :=
    by
  unfold State.moverRead
  split
  · exact (ofIte h.soRead h.csrReadOp).upd
  · exact ofIte h.request h.request.log

theorem moverWrite {n : Nat} {addr : BitVec 64} {d : List Byte} {win epoch : BitVec 16} (h : MemoriesWf s) :
    MemoriesWf (s.moverWrite n addr d win epoch).2 :=
  h.meshWriteOp.upd

theorem poisonAt {n : Nat} {addr : BitVec 64} (h : MemoriesWf s) : MemoriesWf (s.poisonAt n addr) := by
  unfold State.poisonAt
  split
  · exact h.setMem (Memory.setBad_wf (h.mem _) ..)
  · exact h

theorem moverFetch {n : Nat} {m : Mover} {acc : St × List MoverPart × State} {p : Nat × Nat} (h : MemoriesWf acc.2.2)
    : MemoriesWf (State.moverFetch n m acc p).2.2 :=
  ofIte_snd_snd h (ofIte_snd_snd h.moverRead (ofIte h.moverRead h.moverRead.log))

theorem moverStore {n : Nat} {m : Mover} {acc : St × State} {p : MoverPart} (h : MemoriesWf acc.2) : MemoriesWf
    (State.moverStore n m acc p).2 :=
  ofIte_snd h (ofIte_snd h.moverWrite (h.moverWrite.each fun _ _ hu => hu.poisonAt))

theorem moverPart {n : Nat} {m : Mover} {acc : St × State} {p : Nat × Nat} (h : MemoriesWf acc.2) :
    MemoriesWf (State.moverPart n m acc p).2 := by
  unfold State.moverPart
  have hf := moverFetch (n := n) (m := m) (acc := (acc.1, [], acc.2)) (p := p) h
  generalize State.moverFetch n m (acc.1, [], acc.2) p = x at hf
  obtain ⟨st, ps, u⟩ := x
  exact foldl_snd hf fun _ _ hv => moverStore hv

theorem moverOneClasp {n : Nat} {m : Mover} {parts : List (Nat × Nat)} (h : MemoriesWf s) :
    MemoriesWf (s.moverOneClasp n m parts).2 := by
  unfold State.moverOneClasp
  have hf := h.foldl_snd_snd (b := ST_OK) (c := ([] : List MoverPart)) (f := State.moverFetch n m) (l := parts)
    fun _ _ hu => moverFetch hu
  generalize parts.foldl (State.moverFetch n m) (ST_OK, [], s) = x at hf
  obtain ⟨st, ps, u⟩ := x
  refine ofIte_snd hf (ofIte_snd hf ?_)
  dsimp only
  split
  · exact moverStore (acc := (st, u)) hf
  · exact foldl_snd hf fun _ _ hv => moverStore hv

theorem exec_moverTransferEnd {n : Fin 4096} (h : MemoriesWf s) : OutWf (execMoverTransferEnd n s) := by
  unfold execMoverTransferEnd
  dsimp only
  split
  · exact .next h
  · exact .ite (.next h.waited) (.next (ofIte (ofIte_snd h (ofIte_snd h.moverOneClasp (h.foldl_snd fun _ _ hu =>
      hu.moverPart))).setMovers.setF (ofIte_snd h (ofIte_snd h.moverOneClasp (h.foldl_snd fun _ _ hu =>
      hu.moverPart))).setMovers.setF.setF.bumpSo).bumpSo.hostFree)

/-! ### The functions of `Machine/ProcCore.lean` -/

theorem setCore {p : Nat} {c : CoreSt} (h : MemoriesWf s) : MemoriesWf (s.setCore p c) := h.setProc

theorem coreRetire {p : Nat} {c : CoreSt} {pc : Word} (h : MemoriesWf s) : MemoriesWf (s.coreRetire p c pc) :=
  h.fresh.setCore

theorem coreTrap {p cause : Nat} (h : MemoriesWf s) : MemoriesWf (s.coreTrap p cause) := h.fresh.setCore

theorem coreMret {p : Nat} (h : MemoriesWf s) : MemoriesWf (s.coreMret p) := ofIte h.coreTrap h.coreRetire

theorem procRead {p n : Nat} {a : Word} {cause : Nat} (h : MemoriesWf s) : AccWf (s.procRead p n a cause) := by
  unfold State.procRead
  split
  · exact .value h
  · exact .ite .ecc (.value h)
  · exact .trap
  · dsimp only
    split
    · exact .value h.csrReadOp.upd
    · exact .ite .waits (.ite .ecc (.ite (.value h.memRequest.upd) .trap))

theorem procWrite {p : Nat} {a : Word} {d : List Byte} (h : MemoriesWf s) : AccWf (s.procWrite p a d) := by
  unfold State.procWrite
  split
  · exact .trap
  · split
    next m e => exact .value (h.setMem (Memory.store_wf (h.mem .dmem) e))
    · exact .ecc
  · exact .trap
  · dsimp only
    split
    · exact .value h.csrWriteOp.upd
    · exact .ite .waits (.ite (.value h.memRequest.upd) .trap)

theorem procThen {p : Nat} {r : ProcAcc} {f : Nat → State → State} (h : MemoriesWf s) (hr : AccWf r)
    (hf : ∀ u x, MemoriesWf x → MemoriesWf (f u x)) : MemoriesWf (s.procThen p r f) := by
  cases r with
  | value v t => exact hf v t (hr v t rfl)
  | trap => exact h.coreTrap
  | ecc => exact h.crash
  | waits => exact h

theorem procChecked {p n : Nat} {a : Word} {ks : List AccKind} {mis acc : Nat} {f : State} (h : MemoriesWf s) (h' :
    MemoriesWf f) : MemoriesWf (s.procChecked p n a ks mis acc f) :=
  ofIte h.coreTrap (ofIte h' h.coreTrap)

theorem procDeliver {p rd ilen : Nat} {v : Word} (h : MemoriesWf s) : MemoriesWf (s.procDeliver p rd ilen v) :=
  h.coreRetire

theorem procLoad {p n : Nat} {signed : Bool} {rd ilen : Nat} {a : Word} (h : MemoriesWf s) :
    MemoriesWf (s.procLoad p n signed rd ilen a) :=
  h.procChecked (h.procThen h.procRead fun _ _ hu => hu.procDeliver)

theorem procStore {p n ilen : Nat} {a v : Word} (h : MemoriesWf s) : MemoriesWf (s.procStore p n ilen a v) :=
  h.procChecked (h.procThen h.procWrite fun _ _ hu => hu.procDeliver)

theorem procLr {p rd : Nat} {a : Word} (h : MemoriesWf s) : MemoriesWf (s.procLr p rd a) :=
  h.procChecked (ofIte h.coreTrap (h.procThen h.procRead fun _ _ hu => hu.setCore.procDeliver))

theorem procSc {p rd : Nat} {a v : Word} (h : MemoriesWf s) : MemoriesWf (s.procSc p rd a v) :=
  h.procChecked (ofIte h.coreTrap (ofIte h.setCore.procDeliver
    (h.setCore.procThen h.setCore.procWrite fun _ _ hu => hu.procDeliver)))

theorem procAmo {p : Nat} {op : Amo} {rd : Nat} {a v : Word} (h : MemoriesWf s) :
    MemoriesWf (s.procAmo p op rd a v) :=
  h.procChecked (ofIte h.coreTrap (h.procThen h.procRead fun _ _ hu =>
    h.procThen hu.procWrite fun _ _ hv => hv.procDeliver))

theorem procCsrOp {p kind : Nat} {imm : Bool} {rd rs1 k : Nat} (h : MemoriesWf s) : MemoriesWf (s.procCsrOp p kind
    imm rd rs1 k) := by
  unfold State.procCsrOp
  dsimp only
  split
  · exact h.coreTrap
  · exact ofIte h.coreTrap h.coreRetire

theorem procExec {p ilen : Nat} {i : ProcOp} (h : MemoriesWf s) : MemoriesWf (s.procExec p ilen i) := by
  unfold State.procExec
  dsimp only
  split
  · exact h.procLr
  · exact h.procSc
  · exact h.procAmo
  · exact h.procDeliver
  · exact h.procDeliver
  · exact h.coreRetire
  · exact h.coreRetire
  · exact h.coreRetire
  · exact h.procLoad
  · exact h.procStore
  · exact h.procDeliver
  · exact h.procDeliver
  · exact h.coreRetire
  · exact h.coreRetire
  · exact h.coreTrap
  · exact h.coreTrap
  · exact h.coreMret
  · exact h.procCsrOp
  · exact h.coreTrap

theorem coreStep {p : Nat} (h : MemoriesWf s) : MemoriesWf (s.coreStep p) := by
  unfold State.coreStep
  dsimp only
  split
  · exact h.coreTrap
  · refine ofIte ?_ ?_
    · split
      · exact ofIte h.procExec h.coreTrap
      · exact h.coreTrap
    · split
      · exact h.coreTrap
      · split
        · exact h.procExec
        · exact h.coreTrap

/-! ### The functions of `Machine/Vector.lean` -/

theorem ext {n : Nat} {f : ExtForm} {ty : BitVec 2} {rd rs1 rs2 : BitVec 5} {run : Nat → Nat → Nat → Nat → State} (h
    : MemoriesWf s) (hrun : ∀ u x y z, MemoriesWf (run u x y z)) : OutWf (s.ext n f ty rd rs1 rs2 run) :=
  .ite (.next h) (.ite (.next (hrun _ _ _ _)) (.next h.beadFault))

theorem vDone {n rd w : Nat} {rs : List FRes} (h : MemoriesWf s) : MemoriesWf (s.vDone n rd w rs) :=
  h.setBead.goOn

theorem vArith {n ty rd rs1 rs2 : Nat} {int : Nat → Nat → Nat} {fp : Bin → Rm → FVal → FVal → FRes} (h : MemoriesWf
    s) : MemoriesWf (s.vArith n ty rd rs1 rs2 int fp) := by
  unfold State.vArith
  split
  · exact h.vDone
  · exact h.withRm fun _ => h.vDone

theorem vMac {n ty rd rs1 rs2 : Nat} (h : MemoriesWf s) : MemoriesWf (s.vMac n ty rd rs1 rs2) := by
  unfold State.vMac
  dsimp only
  split
  · exact h.vDone
  · exact h.withRm fun _ => h.vDone

theorem vPick {n ty rd rs1 rs2 : Nat} {isMax : Bool} (h : MemoriesWf s) : MemoriesWf (s.vPick n ty rd rs1 rs2 isMax)
    := by
  unfold State.vPick
  dsimp only
  split
  · exact h.vDone
  · exact h.vDone

theorem vCvt {n ty rd rs1 rs2 : Nat} (h : MemoriesWf s) : MemoriesWf (s.vCvt n ty rd rs1 rs2) :=
  ofIte h.vDone (h.withRm fun _ => h.vDone)

theorem exec_vadd {n : Fin 4096} {ty : BitVec 2} {rd rs1 rs2 : BitVec 5} (h : MemoriesWf s) : OutWf (execVadd n ty rd
    rs1 rs2 s) :=
  h.ext fun _ _ _ _ => h.vArith

theorem exec_vsub {n : Fin 4096} {ty : BitVec 2} {rd rs1 rs2 : BitVec 5} (h : MemoriesWf s) : OutWf (execVsub n ty rd
    rs1 rs2 s) :=
  h.ext fun _ _ _ _ => h.vArith

theorem exec_vmul {n : Fin 4096} {ty : BitVec 2} {rd rs1 rs2 : BitVec 5} (h : MemoriesWf s) : OutWf (execVmul n ty rd
    rs1 rs2 s) :=
  h.ext fun _ _ _ _ => h.vArith

theorem exec_vmac {n : Fin 4096} {ty : BitVec 2} {rd rs1 rs2 : BitVec 5} (h : MemoriesWf s) : OutWf (execVmac n ty rd
    rs1 rs2 s) :=
  h.ext fun _ _ _ _ => h.vMac

theorem exec_vmax {n : Fin 4096} {ty : BitVec 2} {rd rs1 rs2 : BitVec 5} (h : MemoriesWf s) : OutWf (execVmax n ty rd
    rs1 rs2 s) :=
  h.ext fun _ _ _ _ => h.vPick

theorem exec_vmin {n : Fin 4096} {ty : BitVec 2} {rd rs1 rs2 : BitVec 5} (h : MemoriesWf s) : OutWf (execVmin n ty rd
    rs1 rs2 s) :=
  h.ext fun _ _ _ _ => h.vPick

theorem exec_vcvt {n : Fin 4096} {ty : BitVec 2} {rd rs1 rs2 : BitVec 5} (h : MemoriesWf s) : OutWf (execVcvt n ty rd
    rs1 rs2 s) :=
  h.ext fun _ _ _ _ => h.vCvt

theorem exec_vsplat {n : Fin 4096} {ty : BitVec 2} {rd rs1 rs2 : BitVec 5} (h : MemoriesWf s) : OutWf (execVsplat n
    ty rd rs1 rs2 s) :=
  h.ext fun _ _ _ _ => h.vDone

theorem exec_vext {n : Fin 4096} {ty : BitVec 2} {rd rs1 rs2 : BitVec 5} (h : MemoriesWf s) : OutWf (execVext n ty rd
    rs1 rs2 s) := by
  unfold execVext
  refine h.ext fun _ _ _ _ => ?_
  split
  · exact h.setBead.goOn
  · exact h.setBead.goOn

theorem wTerms {n rd : Nat} {ts : List Val} (h : MemoriesWf s) : MemoriesWf (s.wTerms n rd ts) :=
  (ofIte h.setBead.setF h.setBead).goOn

theorem exec_wclr {n : Fin 4096} {ty : BitVec 2} {rd rs1 rs2 : BitVec 5} (h : MemoriesWf s) : OutWf (execWclr n ty rd
    rs1 rs2 s) :=
  h.ext fun _ _ _ _ => h.setBead.goOn

theorem exec_wdot {n : Fin 4096} {ty : BitVec 2} {rd rs1 rs2 : BitVec 5} (h : MemoriesWf s) : OutWf (execWdot n ty rd
    rs1 rs2 s) :=
  h.ext fun _ _ _ _ => h.wTerms

theorem exec_wsum {n : Fin 4096} {ty : BitVec 2} {rd rs1 rs2 : BitVec 5} (h : MemoriesWf s) : OutWf (execWsum n ty rd
    rs1 rs2 s) :=
  h.ext fun _ _ _ _ => h.wTerms

theorem exec_wadd {n : Fin 4096} {ty : BitVec 2} {rd rs1 rs2 : BitVec 5} (h : MemoriesWf s) : OutWf (execWadd n ty rd
    rs1 rs2 s) :=
  h.ext fun _ _ _ _ => ofIte h.setBead.goOn h.setF.goOn

theorem exec_wrnd {n : Fin 4096} {ty : BitVec 2} {rd rs1 rs2 : BitVec 5} (h : MemoriesWf s) : OutWf (execWrnd n ty rd
    rs1 rs2 s) :=
  h.ext fun _ _ _ _ => h.setBead.goOn

theorem blmLoad {n len : Nat} {a : Word} {put : Nat → BeadSt → BeadSt} (h : MemoriesWf s) : MemoriesWf (s.blmLoad n
    len a put) := by
  unfold State.blmLoad
  split
  · exact h.beadFault
  · split
    · exact h.beadEcc
    · exact h.setBead.goOn

theorem blmStore {n : Nat} {a : Word} {d : List Byte} (h : MemoriesWf s) : MemoriesWf (s.blmStore n a d) := by
  unfold State.blmStore
  split
  · exact h.beadFault
  · exact h.blmWrite.goOn

theorem exec_wld {n : Fin 4096} {ty : BitVec 2} {rd rs1 rs2 : BitVec 5} (h : MemoriesWf s) : OutWf (execWld n ty rd
    rs1 rs2 s) :=
  h.ext fun _ _ _ _ => h.blmLoad

theorem exec_wst {n : Fin 4096} {ty : BitVec 2} {rd rs1 rs2 : BitVec 5} (h : MemoriesWf s) : OutWf (execWst n ty rd
    rs1 rs2 s) :=
  h.ext fun _ _ _ _ => h.blmStore

theorem exec_vld {n : Fin 4096} {ty : BitVec 2} {rd rs1 rs2 : BitVec 5} (h : MemoriesWf s) : OutWf (execVld n ty rd
    rs1 rs2 s) :=
  h.ext fun _ _ _ _ => h.blmLoad

theorem exec_vst {n : Fin 4096} {ty : BitVec 2} {rd rs1 rs2 : BitVec 5} (h : MemoriesWf s) : OutWf (execVst n ty rd
    rs1 rs2 s) :=
  h.ext fun _ _ _ _ => h.blmStore

theorem gather {n ty rd rs1 rs2 : Nat} (h : MemoriesWf s) : MemoriesWf (s.gather n ty rd rs1 rs2) := by
  unfold State.gather
  dsimp only
  split
  · exact h.beadFault
  · split
    · exact h.beadEcc
    · exact h.setBead.goOn

theorem scatter {n ty rd rs1 rs2 : Nat} (h : MemoriesWf s) : MemoriesWf (s.scatter n ty rd rs1 rs2) := by
  unfold State.scatter
  dsimp only
  split
  · exact h.beadFault
  · exact (h.foldl fun _ _ hu => hu.blmWrite).goOn

theorem exec_vgather {n : Fin 4096} {ty : BitVec 2} {rd rs1 rs2 : BitVec 5} (h : MemoriesWf s) : OutWf (execVgather n
    ty rd rs1 rs2 s) :=
  h.ext fun _ _ _ _ => h.gather

theorem exec_vscatter {n : Fin 4096} {ty : BitVec 2} {rd rs1 rs2 : BitVec 5} (h : MemoriesWf s) : OutWf (execVscatter
    n ty rd rs1 rs2 s) :=
  h.ext fun _ _ _ _ => h.scatter

theorem coreRmw {n rd : Nat} {a : Word} {op : ReqOp} {f : Word → Word} (h : MemoriesWf s) : MemoriesWf (s.coreRmw n
    rd a op f) := by
  unfold State.coreRmw
  refine ofIte h.beadFault ?_
  split
  · split
    · exact h.beadEcc
    · exact h.blmWrite.deliver
  · exact h.setBead
  · exact h.beadFault

theorem exec_cmpset {n : Fin 4096} {ty : BitVec 2} {rd rs1 rs2 : BitVec 5} (h : MemoriesWf s) : OutWf (execCmpset n
    ty rd rs1 rs2 s) :=
  h.ext fun _ _ _ _ => h.coreRmw

theorem exec_count {n : Fin 4096} {ty : BitVec 2} {rd rs1 rs2 : BitVec 5} (h : MemoriesWf s) : OutWf (execCount n ty
    rd rs1 rs2 s) :=
  h.ext fun _ _ _ _ => h.coreRmw

theorem exec_yield {n : Fin 4096} {ty : BitVec 2} {rd rs1 rs2 : BitVec 5} (h : MemoriesWf s) : OutWf (execYield n ty
    rd rs1 rs2 s) :=
  h.ext fun _ _ _ _ => ofIte h.goOn.setBead h.goOn

/-! ### The functions of `Machine/Debug.lean` -/

theorem procHalt {n : Nat} (h : MemoriesWf s) : MemoriesWf (s.procHalt n) :=
  (h.setMem (Memory.lose_wf (h.mem .dmem) ..)).setProc.upd.setF

theorem haltOp {t : DebugTarget} (h : MemoriesWf s) : MemoriesWf (s.haltOp t) := by
  unfold State.haltOp
  split
  · exact ofIte h.answer (ofIte h.procHalt.paths.answer h.secRefuse)
  · exact ofIte h.answer (ofIte h.procHalt.scpLost h.procHalt).answer
  · exact (ofIte h.setBeadState h).answer

theorem exec_debugHalt {t : DebugTarget} (h : MemoriesWf s) : OutWf (execDebugHalt t s) :=
  .ite (.next h.haltOp) (.next h.secRefuse)

theorem exec_breakpointHit {t : DebugTarget} {k : Fin 6} (h : MemoriesWf s) : OutWf (execBreakpointHit t k s) :=
  .ite (.next h.haltOp) (.next h)

theorem anyInstr {n : Fin 4096} (h : MemoriesWf s) : OutWf (s.anyInstr n) := by
  unfold State.anyInstr
  split
  · dsimp only
    split
    · exact h.exec_vadd
    · exact h.exec_vsub
    · exact h.exec_vmul
    · exact h.exec_vmac
    · exact h.exec_vmax
    · exact h.exec_vmin
    · exact h.exec_vcvt
    · exact h.exec_vsplat
    · exact h.exec_vext
    · exact h.exec_wclr
    · exact h.exec_wdot
    · exact h.exec_wsum
    · exact h.exec_wadd
    · exact h.exec_wrnd
    · exact h.exec_wld
    · exact h.exec_wst
    · exact h.exec_vld
    · exact h.exec_vst
    · exact h.exec_vgather
    · exact h.exec_vscatter
    · exact h.exec_cmpset
    · exact h.exec_count
    · exact h.exec_yield
    · exact .next h.beadFault
  · exact h.exec_beadBaseInstruction

theorem rehalt {n : Nat} (h : MemoriesWf s) : MemoriesWf (s.rehalt n) := ofIte h.setBeadState h

theorem procStep {n : Nat} (h : MemoriesWf s) : MemoriesWf (s.procStep n) := ofIte h.setF.coreStep.setF
    h.setF.coreStep

theorem exec_debugStep {t : DebugTarget} (h : MemoriesWf s) : OutWf (execDebugStep t s) := by
  refine .ite (.next h.secRefuse) ?_
  cases t with
  | proc p => exact .ite (.next h.answer) (.next h.procStep.answer)
  | bead n =>
    refine .ite (.next h.answer) ?_
    have ho := (h.setBeadState (n := n.val) (v := bdRUNNING)).anyInstr (n := n)
    split
    next u e => exact .next (ho u e).rehalt.answer
    · exact ho

theorem haltRestart {p : Proc} (h : MemoriesWf s) : MemoriesWf (s.haltRestart p) := by
  unfold State.haltRestart
  dsimp only
  split
  · exact (h.setMem (Memory.zero_wf (h.mem .dmem) ..)).setProc.setF.setF
  · exact (h.setMem (Memory.zero_wf (h.mem .dmem) ..)).setProc.setF
  · exact ofIte (h.setMem (Memory.zero_wf (h.mem .dmem) ..)).setProc.setF.setF (h.setMem (Memory.zero_wf (h.mem
      .dmem) ..)).setProc.setF

theorem resumeOp {t : DebugTarget} (h : MemoriesWf s) : MemoriesWf (s.resumeOp t) := by
  unfold State.resumeOp
  split
  · exact ofIte h.haltRestart h
  · exact ofIte h.setBeadState h

theorem exec_debugResume {t : DebugTarget} (h : MemoriesWf s) : OutWf (execDebugResume t s) :=
  .ite (.next h.resumeOp.answer) (.next h.secRefuse)

theorem exec_debugReset (h : MemoriesWf s) : OutWf (execDebugReset s) :=
  .next (ofIte (h.wr.upd.each fun _ _ hu => ofIte hu.setBeadState hu).resumeOp.resumeOp.resumeOp (h.wr.upd.each fun _
      _ hu => ofIte hu.setBeadState hu).resumeOp.resumeOp).answer

theorem exec_debugMemoryAccess {addr : BitVec 64} {len : Nat} {data : Option (List Byte)} (h : MemoriesWf s) : OutWf
    (execDebugMemoryAccess addr len data s) := by
  unfold execDebugMemoryAccess
  refine .ite .fault ?_
  split
  · exact .ite (.next h.meshReadOp) (.next h.secRefuse)
  · refine .ite .fault (.ite (.next h.secRefuse) ?_)
    split
    · exact .ite (.next h.refuseWrite) (.next h.meshWriteOp)
    · exact .next h.meshWriteOp

/-! ### The functions of `Machine/LpExit.lean` -/

theorem exec_lpExitComplete (h : MemoriesWf s) : OutWf (execLpExitComplete s) := by
  unfold execLpExitComplete
  split
  · exact .next ((h.setF.upd.setF.each fun _ _ hu => hu.domReady).clockStart.each fun _ _ hu =>
      hu.setF).setProc.reloadResident.lpEvent.hostFree.takeGos
  · exact .next h
/-- Every command that ends in a next state leaves the memories in canonical form. -/
theorem exec_wf (c : Instr) (h : MemoriesWf s) : OutWf (exec c s) := by
  cases c with
  | csrWrite => exact h.exec_csrWrite
  | rcRegisterRead => exact h.exec_rcRegisterRead
  | meshRead => exact h.exec_meshRead
  | meshWrite => exact h.exec_meshWrite
  | setAliasWrite => exact h.exec_setAliasWrite
  | clearAliasWrite => exact h.exec_clearAliasWrite
  | meshCmpset => exact h.exec_meshCmpset
  | meshCount => exact h.exec_meshCount
  | hostBar2Read => exact h.exec_hostBar2Read
  | hostBar2Write => exact h.exec_hostBar2Write
  | pciBar2BaseHiWrite => exact h.exec_pciBar2BaseHiWrite
  | pcieLinkReset => exact h.exec_pcieLinkReset
  | submitDescriptor => exact h.exec_submitDescriptor
  | descriptorFetch => exact h.exec_descriptorFetch
  | matmul => exact h.exec_matmul
  | conv => exact h.exec_conv
  | pool => exact h.exec_pool
  | attn => exact h.exec_attn
  | wcombine => exact h.exec_wcombine
  | facetCommandComplete => exact h.exec_facetCommandComplete
  | preempt => exact h.exec_preempt
  | kSegmentEnd => exact h.exec_kSegmentEnd
  | preemptSaveComplete => exact h.exec_preemptSaveComplete
  | facUrgent => exact h.exec_facUrgent
  | facetResume => exact h.exec_facetResume
  | facetContextRestored => exact h.exec_facetContextRestored
  | facetAbort => exact h.exec_facetAbort
  | beadBaseInstruction => exact h.exec_beadBaseInstruction
  | vadd => exact h.exec_vadd
  | vsub => exact h.exec_vsub
  | vmul => exact h.exec_vmul
  | vmac => exact h.exec_vmac
  | vmax => exact h.exec_vmax
  | vmin => exact h.exec_vmin
  | vcvt => exact h.exec_vcvt
  | vsplat => exact h.exec_vsplat
  | vext => exact h.exec_vext
  | wclr => exact h.exec_wclr
  | wdot => exact h.exec_wdot
  | wsum => exact h.exec_wsum
  | wadd => exact h.exec_wadd
  | wrnd => exact h.exec_wrnd
  | wld => exact h.exec_wld
  | wst => exact h.exec_wst
  | vld => exact h.exec_vld
  | vst => exact h.exec_vst
  | vgather => exact h.exec_vgather
  | vscatter => exact h.exec_vscatter
  | cmpset => exact h.exec_cmpset
  | count => exact h.exec_count
  | yield => exact h.exec_yield
  | beadParked => exact h.exec_beadParked
  | remoteLoadResponse => exact h.exec_remoteLoadResponse
  | remoteStoreAck => exact h.exec_remoteStoreAck
  | beadStart => exact h.exec_beadStart
  | beadStop => exact h.exec_beadStop
  | yieldReq => exact h.exec_yieldReq
  | beadResume => exact h.exec_beadResume
  | yieldLimitExpired => exact h.exec_yieldLimitExpired
  | moverGo => exact h.exec_moverGo
  | moverTransferEnd => exact h.exec_moverTransferEnd
  | bankReqOn => exact h.exec_bankReqOn
  | bankReqRetention => exact h.exec_bankReqRetention
  | bankReqOff => exact h.exec_bankReqOff
  | bankDrained => exact h.exec_bankDrained
  | bankDrainTimeout => exact h.exec_bankDrainTimeout
  | bankTransitionComplete => exact h.exec_bankTransitionComplete
  | patrolScrub => exact h.exec_patrolScrub
  | soAdd => exact h.exec_soAdd
  | soSet => exact h.exec_soSet
  | soRead => exact h.exec_soRead
  | soWait => exact h.exec_soWait
  | soWaitArm => exact h.exec_soWaitArm
  | soWaitTimeout => exact h.exec_soWaitTimeout
  | windowOpenRequest => exact h.exec_windowOpenRequest
  | windowClose => exact h.exec_windowClose
  | windowCloseDrained => exact h.exec_windowCloseDrained
  | arbClassWrite => exact h.exec_arbClassWrite
  | claspOpen => exact h.exec_claspOpen
  | claspTimeout => exact h.exec_claspTimeout
  | pkgLoad => exact h.exec_pkgLoad
  | pkgActivate => exact h.exec_pkgActivate
  | fnStopModel => exact h.exec_fnStopModel
  | fnConfigModel => exact h.exec_fnConfigModel
  | fnStartModel => exact h.exec_fnStartModel
  | cycleBoundary => exact h.exec_cycleBoundary
  | windowInstanceOpen => exact h.exec_windowInstanceOpen
  | windowDeadline => exact h.exec_windowDeadline
  | taskDispatch => exact h.exec_taskDispatch
  | shareDispatch => exact h.exec_shareDispatch
  | taskComplete => exact h.exec_taskComplete
  | preemptForWindow => exact h.exec_preemptForWindow
  | yieldForWindow => exact h.exec_yieldForWindow
  | csi2FrameStart => exact h.exec_csi2FrameStart
  | csi2Line => exact h.exec_csi2Line
  | csi2FrameEnd => exact h.exec_csi2FrameEnd
  | csi2PacketDiscard => exact h.exec_csi2PacketDiscard
  | frameTimeout => exact h.exec_frameTimeout
  | jxsRtpPacket => exact h.exec_jxsRtpPacket
  | jxsDecodeStart => exact h.exec_jxsDecodeStart
  | jxsDecodeComplete => exact h.exec_jxsDecodeComplete
  | dataPutCam => exact h.exec_dataPutCam
  | dataGetCam => exact h.exec_dataGetCam
  | cutTask => exact h.exec_cutTask
  | cutTaskComplete => exact h.exec_cutTaskComplete
  | deferredBatchCut => exact h.exec_deferredBatchCut
  | fnConfigCam => exact h.exec_fnConfigCam
  | fnStartCam => exact h.exec_fnStartCam
  | fnStopCam => exact h.exec_fnStopCam
  | fnConfigAxis => exact h.exec_fnConfigAxis
  | fnStartAxis => exact h.exec_fnStartAxis
  | fnStopAxis => exact h.exec_fnStopAxis
  | sdClkFault => exact h.exec_sdClkFault
  | ocTrip => exact h.exec_ocTrip
  | loopBoundary => exact h.exec_loopBoundary
  | ssiReadComplete => exact h.exec_ssiReadComplete
  | abzTransition => exact h.exec_abzTransition
  | abzZEdge => exact h.exec_abzZEdge
  | currentLoopCompute => exact h.exec_currentLoopCompute
  | commandedGateEdge => exact h.exec_commandedGateEdge
  | setpointCommit => exact h.exec_setpointCommit
  | setpointTimeout => exact h.exec_setpointTimeout
  | followingErrorLimit => exact h.exec_followingErrorLimit
  | ss1 => exact h.exec_ss1
  | sto => exact h.exec_sto
  | stopTimeExpired => exact h.exec_stopTimeExpired
  | stoPathAssert => exact h.exec_stoPathAssert
  | stoPathRelease => exact h.exec_stoPathRelease
  | fnConfigHealth => exact h.exec_fnConfigHealth
  | fnStartHealth => exact h.exec_fnStartHealth
  | fnStopHealth => exact h.exec_fnStopHealth
  | feedbackEdge => exact h.exec_feedbackEdge
  | edgeWindowClose => exact h.exec_edgeWindowClose
  | tdcCalExchange => exact h.exec_tdcCalExchange
  | tdcCalComplete => exact h.exec_tdcCalComplete
  | gtlTrigger => exact h.exec_gtlTrigger
  | gtlFrame => exact h.exec_gtlFrame
  | gtlLinkTimeout => exact h.exec_gtlLinkTimeout
  | hltBindWrite => exact h.exec_hltBindWrite
  | bindingApplied => exact h.exec_bindingApplied
  | hltCommit => exact h.exec_hltCommit
  | resultTimeout => exact h.exec_resultTimeout
  | hallmarkVerdict => exact h.exec_hallmarkVerdict
  | triageDispatch => exact h.exec_triageDispatch
  | triageCompare => exact h.exec_triageCompare
  | faultLocalisation => exact h.exec_faultLocalisation
  | agmLimitExpired => exact h.exec_agmLimitExpired
  | selftestPartStart => exact h.exec_selftestPartStart
  | selftestPartComplete => exact h.exec_selftestPartComplete
  | selftestDeferred => exact h.exec_selftestDeferred
  | selftestLate => exact h.exec_selftestLate
  | hmkTest => exact h.exec_hmkTest
  | ss1TimerExpired => exact h.exec_ss1TimerExpired
  | safWdog => exact h.exec_safWdog
  | sfpWd => exact h.exec_sfpWd
  | sfpLockstep => exact h.exec_sfpLockstep
  | safetyMessage => exact h.exec_safetyMessage
  | safeAck => exact h.exec_safeAck
  | ackMessage => exact h.exec_ackMessage
  | madderRestartComplete => exact h.exec_madderRestartComplete
  | startChecksComplete => exact h.exec_startChecksComplete
  | estopInputChange => exact h.exec_estopInputChange
  | estopDisc => exact h.exec_estopDisc
  | stoFb => exact h.exec_stoFb
  | ringDoorbell => exact h.exec_ringDoorbell
  | commandFetch => exact h.exec_commandFetch
  | msixCoalesceExpired => exact h.exec_msixCoalesceExpired
  | ringEnable => exact h.exec_ringEnable
  | ringDisable => exact h.exec_ringDisable
  | ringDrained => exact h.exec_ringDrained
  | mailboxGo => exact h.exec_mailboxGo
  | dataPutModel => exact h.exec_dataPutModel
  | dataGetModel => exact h.exec_dataGetModel
  | settingsStore => exact h.exec_settingsStore
  | settingsCommit => exact h.exec_settingsCommit
  | telemetry => exact h.exec_telemetry
  | hostHeartbeat => exact h.exec_hostHeartbeat
  | mbxHb => exact h.exec_mbxHb
  | attach => exact h.exec_attach
  | ifaceQuery => exact h.exec_ifaceQuery
  | hostLoss => exact h.exec_hostLoss
  | watchdogKick => exact h.exec_watchdogKick
  | watchdogExpired => exact h.exec_watchdogExpired
  | processorCrash => exact h.exec_processorCrash
  | processorRestartComplete => exact h.exec_processorRestartComplete
  | tbStep => exact h.exec_tbStep
  | tbRateWrite => exact h.exec_tbRateWrite
  | timSnap src => exact h.exec_timSnap (src := src)
  | pulseArm => exact h.exec_pulseArm
  | pulseInstant => exact h.exec_pulseInstant
  | pulseEnd => exact h.exec_pulseEnd
  | captureEdge => exact h.exec_captureEdge
  | capturePop src c => exact h.exec_capturePop (src := src)
  | fnConfigTime => exact h.exec_fnConfigTime
  | fnStartTime => exact h.exec_fnStartTime
  | fnStopTime => exact h.exec_fnStopTime
  | ethFrameReceived => exact h.exec_ethFrameReceived
  | ethFrameTransmit => exact h.exec_ethFrameTransmit
  | gateControlEntry => exact h.exec_gateControlEntry
  | gclConfigChange => exact h.exec_gclConfigChange
  | fnConfigEth => exact h.exec_fnConfigEth
  | fnStartEth => exact h.exec_fnStartEth
  | fnStopEth => exact h.exec_fnStopEth
  | canTxreq => exact h.exec_canTxreq
  | canTxabort => exact h.exec_canTxabort
  | canFrameStart => exact h.exec_canFrameStart
  | canFrameTransmitted => exact h.exec_canFrameTransmitted
  | canFrameReceived => exact h.exec_canFrameReceived
  | canBusOff => exact h.exec_canBusOff
  | canBusOffRecovery => exact h.exec_canBusOffRecovery
  | recover => exact h.exec_recover
  | referenceMessage => exact h.exec_referenceMessage
  | ttcLost => exact h.exec_ttcLost
  | fnConfigCan => exact h.exec_fnConfigCan
  | fnStartCan => exact h.exec_fnStartCan
  | fnStopCan => exact h.exec_fnStopCan
  | fnConfigPair => exact h.exec_fnConfigPair
  | fnStartPair => exact h.exec_fnStartPair
  | fnStopPair => exact h.exec_fnStopPair
  | pairLinkTrained => exact h.exec_pairLinkTrained
  | plkFlit => exact h.exec_plkFlit
  | laneLockLoss => exact h.exec_laneLockLoss
  | cycleHeartbeatSend => exact h.exec_cycleHeartbeatSend
  | cycleHeartbeatReceived => exact h.exec_cycleHeartbeatReceived
  | pairHeartbeatTimeout => exact h.exec_pairHeartbeatTimeout
  | crossCheckRecord => exact h.exec_crossCheckRecord
  | partnerSafeState => exact h.exec_partnerSafeState
  | powerInterval => exact h.exec_powerInterval
  | pmbusPoll => exact h.exec_pmbusPoll
  | tempSample => exact h.exec_tempSample
  | shutdownPowerOff => exact h.exec_shutdownPowerOff
  | supplyFault rail => exact h.exec_supplyFault (rail := rail)
  | droop => exact h.exec_droop
  | droopStretchEnd => exact h.exec_droopStretchEnd
  | voltageConfirmed => exact h.exec_voltageConfirmed
  | pwrDomCtlWrite => exact h.exec_pwrDomCtlWrite
  | domainOnComplete => exact h.exec_domainOnComplete
  | fnConfigPower => exact h.exec_fnConfigPower
  | fnStartPower => exact h.exec_fnStartPower
  | fnStopPower => exact h.exec_fnStopPower
  | coldReset => exact h.exec_coldReset
  | coldResetRelease => exact h.exec_coldResetRelease
  | warmReset => exact h.exec_warmReset
  | deviceReset => exact h.exec_deviceReset
  | firmwareSetLoad => exact h.exec_firmwareSetLoad
  | lpddr5xTrained => exact h.exec_lpddr5xTrained
  | bootReady => exact h.exec_bootReady
  | lpReqActive => exact h.exec_lpReqActive
  | lpReqLight => exact h.exec_lpReqLight
  | lpReqStandby => exact h.exec_lpReqStandby
  | lpReqHibernate => exact h.exec_lpReqHibernate
  | lpEntryComplete => exact h.exec_lpEntryComplete
  | lpExitComplete => exact h.exec_lpExitComplete
  | wakeN => exact h.exec_wakeN
  | wakeTime => exact h.exec_wakeTime
  | debugReset => exact h.exec_debugReset
  | dbgChalRead => exact h.exec_dbgChalRead
  | authResponse => exact h.exec_authResponse
  | challengeExpired => exact h.exec_challengeExpired
  | lockoutEnd => exact h.exec_lockoutEnd
  | lifecycleRequest => exact h.exec_lifecycleRequest
  | keyProvision => exact h.exec_keyProvision
  | keyRevoke => exact h.exec_keyRevoke
  | xspiAccess => exact h.exec_xspiAccess
  | boundaryScan => exact h.exec_boundaryScan
  | debugHalt => exact h.exec_debugHalt
  | breakpointHit => exact h.exec_breakpointHit
  | debugStep => exact h.exec_debugStep
  | debugResume => exact h.exec_debugResume
  | debugMemoryAccess => exact h.exec_debugMemoryAccess
  | lpddr5xPatrolScrub => exact h.exec_lpddr5xPatrolScrub
  | macAddressAgeing => exact h.exec_macAddressAgeing
  | secPolicyWrite => exact h.exec_secPolicyWrite
  | tdcCalibrationExpired => exact h.exec_tdcCalibrationExpired
  | pcieLinkUp => exact h.exec_pcieLinkUp
  | warmResetRelease => exact h.exec_warmResetRelease
  | pairEqualisation => exact h.exec_pairEqualisation

theorem tick (h : MemoriesWf s) : MemoriesWf s.tick := h.upd

theorem step_wf (h : MemoriesWf s) : OutWf (step s) := by
  unfold step
  split
  · exact .next h.tick
  · exact h.upd.exec_wf _

end MemoriesWf

/-- Settles O4: a step is a command or an idle clock, and either keeps the six memories in canonical form. -/
theorem stepKeepsMemoriesCanonical : Obligations.StepKeepsMemoriesCanonical := by
  unfold Obligations.StepKeepsMemoriesCanonical
  intro s t h ht
  exact h.step_wf t ht

/-- Settles O3: at reset every memory is without cells; that of the LPDDR5X has its range of lost words. -/
theorem resetMemoriesCanonical : Obligations.ResetMemoriesCanonical := by
  unfold Obligations.ResetMemoriesCanonical
  exact ⟨Memory.empty_wf, Memory.empty_wf, Memory.empty_wf, ⟨.nil, fun _ hp => absurd hp List.not_mem_nil⟩,
    Memory.empty_wf, Memory.empty_wf⟩

end Sys2Proof

/-! PROOF. Who may write MM_CTL (R144). -/

namespace Sys2Proof.Machine

section BankControl

variable {s : State} {src b : Nat} {v : Word}

theorem regAt_bankControl (hb : b < 256) : (regAt (MM_CTL b)).isNone = false := by
  have hblock : regBlock (MM_CTL b) = regsMM := by
    unfold regBlock MM_CTL
    repeat rw [if_neg (by omega)]
    rw [if_pos (by omega)]
  have hi : RegRow.index ⟨0x800000, 0x100, 256, 0, 1, 0, 0x3, 0, 0, 0, 0, .scpHip⟩ (MM_CTL b) = some (b, 0) := by
    rw [RegRow.index_array _ _ (by decide), if_pos (by simp only [MM_CTL]; omega)]
    simp only [MM_CTL, Nat.add_sub_cancel_left, Nat.mul_div_cancel_left b (by norm_num : 0 < 0x100)]
  rw [regAt, hblock, regsMM, findSome_index_take _ _ _ _ hi]
  rfl

/-- A write of MM_CTL is a request for a state of the bank (R143). -/
theorem State.csrPut_bankControl (s : State) (src : Nat) (hb : b < 256) (v : Word) :
    s.csrPut src (MM_CTL b) v = s.bankReq src b (v.toNat % 4) := by
  have hlow : ∀ k, k ≤ 0x800000 → ¬ MM_CTL b < k := fun k hk => by simp only [MM_CTL]; omega
  have hhi : MM_CTL b < 0x810000 := by simp only [MM_CTL]; omega
  simp [State.csrPut, regAt_bankControl hb, hlow, hhi]

/-- The BAR0 window reaches the banks' block (R25). -/
theorem bar0Refuses_bankControl (hb : b < 256) : bar0Refuses (MM_CTL b) = false := by
  have hlow : ¬ MM_CTL b < 0x50000 := by simp only [MM_CTL]; omega
  have hhigh : ¬ 0xA00000 ≤ MM_CTL b := by simp only [MM_CTL]; omega
  simp [bar0Refuses, hlow, hhigh]

/-- A source that has access to the banks' block and is not held up makes its request by the write. -/
theorem exec_csrWrite_bankControl (hb : b < 256) (haccess : s.hostAccess src = s) (hfree : s.hostStalls src = false) :
    exec (.csrWrite src (MM_CTL b) 0xF ⟨v, 0⟩) s = .next (s.bankReq src b (v.toNat % 4)) := by
  have hop : s.csrWriteOp src (MM_CTL b) 0xF v = s.csrPut src (MM_CTL b) v := by
    have hal : MM_CTL b % 4 = 0 := by simp only [MM_CTL]; omega
    simp [State.csrWriteOp, haccess, hal, bar0Refuses_bankControl hb]
  rw [exec_csrWrite_word (by simp only [MM_CTL]; omega), State.hostWrite_of_free hfree, State.hardwareSets_zero, hop,
    State.csrPut_bankControl s src hb]

/-- The write and the three commands are one request. -/
theorem exec_bankControl {b : Fin 256} (haccess : s.hostAccess src = s) (hfree : s.hostStalls src = false) {c : Instr}
    (hc : c = .csrWrite src (MM_CTL b.val) 0xF ⟨v, 0⟩ ∨ c = .bankReqOn src b ∨ c = .bankReqRetention src b ∨
      c = .bankReqOff src b) : ∃ req, exec c s = .next (s.bankReq src b.val req) := by
  obtain rfl | rfl | rfl | rfl := hc
  · exact ⟨_, exec_csrWrite_bankControl b.isLt haccess hfree⟩
  · exact ⟨bankON, rfl⟩
  · exact ⟨bankRET, rfl⟩
  · exact ⟨bankOFF, rfl⟩

/-- Another source's request is refused. -/
theorem State.bankReq_refused (hscp : src ≠ mSCP) (hhip : src ≠ mHIP) (req : Nat) :
    s.bankReq src b req = s.refuseWrite ST_NOT_PERMITTED src (MM_CTL b) := by
  rw [State.bankReq, if_pos (by simp [hscp, hhip])]

/-- An applied request leaves the answer and the units as they are. -/
theorem State.bankApply_frame (s : State) (src b req : Nat) :
    (s.bankApply src b req).reply = s.reply ∧ SameUnits s (s.bankApply src b req) := by
  unfold State.bankApply
  dsimp only
  split_ifs <;> exact ⟨rfl, rfl, rfl, rfl, rfl, rfl⟩

/-- A request of the SCP or the HIP is answered, whatever becomes of it. -/
theorem State.bankReq_answered (hsrc : src = mSCP ∨ src = mHIP) (req : Nat) :
    (s.bankReq src b req).reply = { st := ST_OK } ∧ SameUnits s (s.bankReq src b req) := by
  have hmay : ¬ (decide (src ≠ mSCP) && decide (src ≠ mHIP)) = true := by
    obtain rfl | rfl := hsrc <;> simp
  rw [State.bankReq, if_neg hmay]
  dsimp only
  split_ifs
  iterate 5 exact ⟨rfl, rfl, rfl, rfl, rfl, rfl⟩
  exact State.bankApply_frame ..

end BankControl

end Sys2Proof.Machine

namespace Sys2Proof

open Sys2Proof.Machine

/-- Settles O58: a write of MM_CTL and the three commands are one request, and its first check is of the source. -/
theorem mapControlWriters : Obligations.MapControlWriters := by
  refine fun src b v s => ⟨fun hsrc c hc => ?accepted, fun hscp hhip hawake hfree c hc => ?refused⟩
  case accepted =>
    have hne : src ≠ mPCIe := by obtain rfl | rfl := hsrc <;> decide
    obtain ⟨req, hreq⟩ := exec_bankControl (State.hostAccess_of_ne hne) (State.hostStalls_of_unit hne s) hc
    exact ⟨_, hreq, State.bankReq_answered hsrc req⟩
  case refused =>
    obtain ⟨req, hreq⟩ := exec_bankControl (State.hostAccess_of_awake hawake src) hfree hc
    rw [State.bankReq_refused hscp hhip] at hreq
    exact ⟨_, hreq, State.refuseWrite_refused hawake ..⟩

end Sys2Proof

/-! PROOF. Sync objects: ADD, SET and READ, WAIT with its timeout, and arming (R146–R148). -/

namespace Sys2Proof.Machine

section SyncObjects

variable {s : State} {src n : Nat} {v : Word}

/-- A count takes a value: the other counts, the other bytes, the registers and the units are as before. -/
theorem State.soPut_frame (s : State) (n : Nat) (v : Word) :
    (∀ m, m ≠ n → (s.soPut n v).so m = s.so m) ∧ SameBytesBut .map (soAddr n) 4 s (s.soPut n v) ∧
      (s.soPut n v).csr = s.csr ∧ SameUnits s (s.soPut n v) :=
  ⟨fun _ hm => s.soPut_so_ne n v hm, s.soPut_bytes n v, rfl, rfl, rfl, rfl, rfl, rfl⟩

/-- With no earlier write of its master waiting, ADD is performed at once on a clean count (R146, R158). -/
theorem State.soAdd_of_quiet (v : Word) (hbad : s.soBad n = false)
    (hw : (s.fab.raised.any fun q => q.src = src && q.op.isWrite) = false) :
    s.soAdd src n v = (s.soPut n (s.so n + v)).answer ST_OK := by
  simp only [State.soAdd, hw, State.soAddNow, hbad, Bool.false_eq_true, if_false]

theorem State.soRead_of_clean (hbad : s.soBad n = false) :
    s.soRead src n = s.answer ST_OK (leBytes 4 (s.so n).toNat) := by
  simp [State.soRead, hbad]

theorem State.soSet_so (s : State) (src n : Nat) (v : Word) : (s.soSet src n v).so n = v :=
  (s.setMem .map (s.mems.map.setBad (soAddr n / 8) false)).soPut_so n v

/-- SET marks the count clean, which changes no byte, and writes it. -/
theorem State.soSet_frame (s : State) (src n : Nat) (v : Word) :
    (∀ m, m ≠ n → (s.soSet src n v).so m = s.so m) ∧ SameBytesBut .map (soAddr n) 4 s (s.soSet src n v) ∧
      (s.soSet src n v).csr = s.csr ∧ SameUnits s (s.soSet src n v) := by
  obtain ⟨hso, hbytes, hcsr, hunits⟩ := (s.setMem .map (s.mems.map.setBad (soAddr n / 8) false)).soPut_frame n v
  refine ⟨hso, fun sp a ha => (hbytes sp a ha).trans ?_, hcsr, hunits⟩
  cases sp <;> rfl

/-- A read that the endpoint does not hold up is performed. -/
theorem State.hostRead_of_free (h : s.hostStalls src = false) (off : Nat) (f : State → State) :
    s.hostRead src off f = f s := by
  simp [State.hostRead, h]

/-! ### WAIT -/

section Wait

variable {tmo : Nat} {aliased : Bool} (hsrc : src ≠ mPCIe) (hbad : s.soBad n = false)
  (hw : (s.fab.waits.any fun w => w.src = src) = false)

include hsrc hbad hw

theorem State.soWait_of_met (hm : soMet (s.so n) v = true) :
    s.soWait src n v tmo aliased = s.answer ST_OK (leBytes 4 (s.so n).toNat) := by
  simp [State.soWait, hsrc, hbad, hw, hm]

theorem State.soWait_zero (hm : soMet (s.so n) v = false) :
    s.soWait src n v 0 aliased = (s.inc ARB_WAIT_TMO_CNT).answer (if aliased then ST_OK else ST_WAIT_TIMEOUT)
      (leBytes 4 (s.so n).toNat) := by
  simp [State.soWait, hsrc, hbad, hw, hm]

theorem State.soWait_held (hm : soMet (s.so n) v = false) (ht : tmo ≠ 0) :
    s.soWait src n v tmo aliased =
      { s with fab := { s.fab with waits := s.fab.waits ++ [⟨src, n, v, tmo, s.now, aliased⟩] } } := by
  simp [State.soWait, hsrc, hbad, hw, hm, ht]

end Wait

/-- The endpoint's WAIT is a READ (R146). -/
theorem State.soWait_host (hbad : s.soBad n = false) (tmo : Nat) (aliased : Bool) :
    s.soWait mPCIe n v tmo aliased = s.answer ST_OK (leBytes 4 (s.so n).toNat) := by
  rw [State.soWait, if_pos rfl, State.soRead_of_clean hbad]

/-! ### Arming -/

theorem State.armed_setArmed (s : State) (src n : Nat) (a : Option Word) (m : Nat) :
    (s.setArmed src n a).armed src m = if n = m then a else s.armed src m := by
  simp [State.armed, State.setArmed, kget_kput]

/-- A read of ARB_SO_WAIT uses the armed target up (log entry 86). -/
theorem State.soAliasRead_of_armed (ha : s.armed src n = some v) :
    s.soAliasRead src n = (s.setArmed src n none).soWait src n v (s.fld ARB_WAIT_DEF_TMO) true := by
  simp [State.soAliasRead, ha]

/-! ### The commands -/

theorem exec_soAdd_of_quiet {n : Fin 16384} (v : Word) (hfree : s.hostStalls src = false) (hbad : s.soBad n.val = false)
    (hw : (s.fab.raised.any fun q => q.src = src && q.op.isWrite) = false) :
    exec (.soAdd src n v) s = .next ((s.soPut n.val (s.so n.val + v)).answer ST_OK) := by
  change execSoAdd src n v s = _
  rw [execSoAdd, State.hostWrite_of_free hfree, State.soAdd_of_quiet v hbad hw]

theorem exec_soSet_of_free {n : Fin 16384} (v : Word) (hfree : s.hostStalls src = false) :
    exec (.soSet src n v) s = .next (s.soSet src n.val v) := by
  change execSoSet src n v s = _
  rw [execSoSet, State.hostWrite_of_free hfree]

theorem exec_soRead_of_clean {n : Fin 16384} (hfree : s.hostStalls src = false) (hbad : s.soBad n.val = false) :
    exec (.soRead src n) s = .next (s.answer ST_OK (leBytes 4 (s.so n.val).toNat)) := by
  change execSoRead src n s = _
  rw [execSoRead, State.hostRead_of_free hfree, State.soRead_of_clean hbad]

/-- A unit of the device sends its WAIT as it is. -/
theorem exec_soWait_of_unit (hsrc : src ≠ mPCIe) (n : Fin 16384) (v : Word) (tmo : BitVec 16) (s : State) :
    exec (.soWait src n (some (v, tmo))) s = .next (s.soWait src n.val v tmo.toNat false) := by
  rw [exec_soWait_some, State.hostRead_of_ne hsrc]

/-- A unit's read of ARB_SO_WAIT. -/
theorem exec_soWait_alias (hsrc : src ≠ mPCIe) (n : Fin 16384) (s : State) :
    exec (.soWait src n none) s = .next (s.soAliasRead src n.val) := by
  change execSoWait src n none s = _
  rw [execSoWait, State.hostRead_of_ne hsrc]

theorem exec_soWaitArm_of_unit (hsrc : src ≠ mPCIe) (n : Fin 16384) (v : Word) (s : State) :
    exec (.soWaitArm src n v) s = .next ((s.setArmed src n.val (some v)).answer ST_OK) := by
  change execSoWaitArm src n v s = _
  rw [execSoWaitArm, State.hostWrite_of_free (State.hostStalls_of_unit hsrc s)]

/-- A held WAIT whose time has passed ends, where no package waits for it. -/
theorem exec_soWaitTimeout_alone {w : Wait} (hw : s.fab.waits = [w]) (ht : w.tmoUs * 1000 ≤ sinceNs s.now w.since)
    (hp : s.model.pkg = none) : exec (.soWaitTimeout w.src) s = .next (s.waitTimeout w) := by
  have hmissed : (s.waitTimeout w).waitMissed w.src = s.waitTimeout w := by
    have hp' : (s.waitTimeout w).model.pkg = none := hp
    simp [State.waitMissed, hp']
  change execSoWaitTimeout w.src s = _
  simp [execSoWaitTimeout, hw, Nat.not_lt.2 ht, hmissed]

end SyncObjects

end Sys2Proof.Machine

namespace Sys2Proof

open Sys2Proof.Machine

/-- Settles O9: each operation by the one state that it can leave where the object is clean and the master free. -/
theorem syncObjects : Obligations.SyncObjects := by
  refine ⟨fun src n v s hbad hfree => ?operations,
    ⟨fun n v tmo s hfree hbad => ?host, fun src n v s hsrc hbad hw ha hm => ?armed,
      fun src n v tmo s hsrc hbad hw => ⟨fun hm => ?met, fun hm ht => ?zero, fun hm ht => ?held, ?arming⟩⟩,
    fun w s hw ht hp => ?timeout⟩
  case operations =>
    refine ⟨fun hw => ?add, ?set, ?read⟩
    case add =>
      obtain ⟨hso, hbytes, hcsr, hunits⟩ := s.soPut_frame n.val (s.so n.val + v)
      exact ⟨_, exec_soAdd_of_quiet v hfree hbad hw, s.soPut_so .., rfl, fun m hm => hso m (Fin.val_ne_of_ne hm), hbytes,
        hcsr, hunits⟩
    case set =>
      obtain ⟨hso, hbytes, hcsr, hunits⟩ := s.soSet_frame src n.val v
      exact ⟨_, exec_soSet_of_free v hfree, s.soSet_so .., rfl, fun m hm => hso m (Fin.val_ne_of_ne hm), hbytes, hcsr,
        hunits⟩
    case read => exact ⟨_, exec_soRead_of_clean hfree hbad, rfl, rfl⟩
  case host =>
    have hexec := exec_soWait_some mPCIe n v tmo s
    rw [State.hostRead_of_free hfree, State.soWait_host hbad] at hexec
    exact ⟨_, hexec, rfl, rfl⟩
  case armed =>
    have hexec := exec_soWait_alias hsrc n s
    rw [State.soAliasRead_of_armed ha, State.soWait_of_met (s := s.setArmed src n.val none) hsrc hbad hw hm] at hexec
    exact ⟨_, hexec, rfl, (State.armed_setArmed ..).trans (if_pos rfl), rfl, SameBytes.of_mems rfl, rfl, rfl, rfl, rfl, rfl⟩
  case met =>
    have hexec := exec_soWait_of_unit hsrc n v tmo s
    rw [State.soWait_of_met hsrc hbad hw hm] at hexec
    exact ⟨_, hexec, rfl, rfl⟩
  case zero =>
    subst ht
    have hexec := exec_soWait_of_unit hsrc n v 0 s
    rw [BitVec.ofNat_eq_ofNat, BitVec.toNat_zero, State.soWait_zero hsrc hbad hw hm] at hexec
    exact ⟨_, hexec, rfl, s.inc_regs _, s.inc_count _⟩
  case held =>
    have hexec := exec_soWait_of_unit hsrc n v tmo s
    rw [State.soWait_held hsrc hbad hw hm fun h => ht (BitVec.eq_of_toNat_eq h)] at hexec
    exact ⟨_, hexec, rfl, rfl, SameBytes.of_mems rfl⟩
  case arming =>
    exact ⟨_, exec_soWaitArm_of_unit hsrc n v s, (State.armed_setArmed ..).trans (if_pos rfl),
      fun m hm => (State.armed_setArmed ..).trans (if_neg hm.symm), rfl, SameBytes.of_mems rfl⟩
  case timeout =>
    refine ⟨_, exec_soWaitTimeout_alone hw ht hp, ?_, rfl, s.inc_count _⟩
    simp [State.waitTimeout, hw]

end Sys2Proof

/-! PROOF. Windows: OPEN, CLOSE and BUSY (R150, R152), and the checks of a write that carries a window id (R151). -/

namespace Sys2Proof.Machine

section WindowControl

variable {s : State} {w : Fin 4096}

/-! ### OPEN, CLOSE and BUSY -/

/-- The SCP may write every window. -/
theorem winMay_scp (base : Nat) : winMay mSCP base = true := rfl

theorem exec_windowOpen_fits (hfits : s.winFits w.val = true) :
    exec (.windowOpenRequest mSCP w 1) s = .next (((s.answer ST_OK).setF (ARB_WIN_CTL_STATE w.val) 1).setF
      (ARB_WIN_CTL_EPOCH w.val) (s.fld (ARB_WIN_CTL_EPOCH w.val) + 1)) := by
  have hopen : (1 ||| 1 : Word).getLsbD 0 = true := rfl
  have hclose : (1 ||| 1 : Word).getLsbD 1 = false := rfl
  have herr : (1 ||| 1 : Word).getLsbD 4 = false := rfl
  change Host.Outcome.next (s.winCtlWrite mSCP w.val (1 ||| 1)) = _
  simp only [State.winCtlWrite, winMay_scp, Bool.not_true, Bool.false_eq_true, if_false, hopen, hclose, herr,
    Bool.and_false, if_true]
  exact congrArg Host.Outcome.next (if_pos hfits)

/-- The state that CLOSE leaves: the window CLOSED and BUSY, its writes still to be performed. -/
def State.winClosed (s : State) (w : Nat) : State :=
  let t := ((s.answer ST_OK).setF (ARB_WIN_CTL_STATE w) 0).setF (ARB_WIN_CTL_BUSY w) 1
  { t with fab := { t.fab with
    closing := kput w true t.fab.closing
    clasps := t.fab.clasps.map (s.claspGrace w) } }

theorem State.winClosed_csr (s : State) (w : Nat) : (s.winClosed w).csr =
    (((s.answer ST_OK).setF (ARB_WIN_CTL_STATE w) 0).setF (ARB_WIN_CTL_BUSY w) 1).csr := rfl

theorem State.winClosed_rd (s : State) (w o : Nat) : (s.winClosed w).rd o =
    (((s.answer ST_OK).setF (ARB_WIN_CTL_STATE w) 0).setF (ARB_WIN_CTL_BUSY w) 1).rd o := by
  rw [State.rd, State.winClosed_csr, State.rd]

theorem State.winClosed_fld (s : State) (w : Nat) (F : Fld) : (s.winClosed w).fld F =
    (((s.answer ST_OK).setF (ARB_WIN_CTL_STATE w) 0).setF (ARB_WIN_CTL_BUSY w) 1).fld F := by
  rw [State.fld, State.winClosed_rd, State.fld]

theorem exec_windowClose_open (hopen : s.flag (ARB_WIN_CTL_STATE w.val) = true) :
    exec (.windowClose mSCP w 2) s = .next (s.winClosed w.val) := by
  have hno : (2 ||| 2 : Word).getLsbD 0 = false := rfl
  have hclose : (2 ||| 2 : Word).getLsbD 1 = true := rfl
  have herr : (2 ||| 2 : Word).getLsbD 4 = false := rfl
  change Host.Outcome.next (s.winCtlWrite mSCP w.val (2 ||| 2)) = _
  simp only [State.winCtlWrite, winMay_scp, Bool.not_true, Bool.false_eq_true, if_false, hno, hclose, herr,
    Bool.false_and, Bool.true_and]
  exact congrArg Host.Outcome.next (if_pos hopen)

theorem exec_windowClose_both :
    exec (.windowClose mSCP w 3) s = .next ((s.answer ST_OK).setF (ARB_WIN_CTL_ERR w.val) 1) := by
  have hopen : (3 ||| 2 : Word).getLsbD 0 = true := rfl
  have hclose : (3 ||| 2 : Word).getLsbD 1 = true := rfl
  have herr : (3 ||| 2 : Word).getLsbD 4 = false := rfl
  change Host.Outcome.next (s.winCtlWrite mSCP w.val (3 ||| 2)) = _
  simp only [State.winCtlWrite, winMay_scp, Bool.not_true, Bool.false_eq_true, if_false, hopen, hclose, herr,
    Bool.and_true, if_true]

/-- Nothing accepted under the window is left. -/
theorem exec_windowCloseDrained_quiet (hc : kget false s.fab.closing w.val = true) (hr : s.fab.raised = [])
    (hg : ∀ c ∈ s.fab.clasps, c.grace = []) :
    exec (.windowCloseDrained w) s = .next
      { s.setF (ARB_WIN_CTL_BUSY w.val) 0 with fab := { s.fab with closing := kdel w.val s.fab.closing } } := by
  have hgrace : (s.fab.clasps.any fun c => c.grace.any fun g => g.1.toNat = w.val) = false :=
    List.any_eq_false.2 fun c hc' => by simp [hg c hc']
  change execWindowCloseDrained w s = _
  simp [execWindowCloseDrained, hc, hr, hgrace]

end WindowControl

/-! ### The checks of a write -/

section WindowWrite

variable {s : State} {src off n : Nat} {a : BitVec 64} {d : List Byte} {w e : BitVec 16}

/-- The chain of R151 for a write to a map bank, where no clasp is open. -/
theorem State.winCheck_map (hq : s.fab.clasps = []) (hw : w.toNat < 4096) (al : Alias) (l : Nat) :
    s.winCheck src (.map al off) l n w e =
      if (localUnit (s.winBase w.toNat) == .bank (off / 0x80000) && s.flag (ARB_WIN_CTL_STATE w.toNat)) = false then
        ST_WINDOW_CLOSED
      else if s.fld (ARB_WIN_CTL_EPOCH w.toNat) ≠ e.toNat then ST_WINDOW_EPOCH
      else if s.winBase w.toNat ≤ l ∧ l + n ≤ s.winBase w.toNat + s.winSize w.toNat then ST_OK
      else ST_BAD_FIELD := by
  have hid : w ≠ 0xFFFF := fun h => absurd (h ▸ hw) (by decide)
  have hgrace : s.graceOf src w e = false := by simp [State.graceOf, hq]
  have hplain : ¬ (decide (w = 0xFFFF) || Target.isRemote (.map al off)) = true := by
    simpa [Target.isRemote] using hid
  rw [State.winCheck, if_neg hplain, if_neg (Nat.not_le.2 hw)]
  by_cases hu : localUnit (s.winBase w.toNat) = .bank (off / 0x80000)
  · have hunit : ¬ (decide (localUnit (s.winBase w.toNat) = .none) ||
        decide (localUnit (s.winBase w.toNat) ≠ Target.unit (.map al off))) = true := by simp [hu, Target.unit]
    rw [if_neg hunit, if_neg (by simp [hgrace])]
    cases hopen : s.flag (ARB_WIN_CTL_STATE w.toNat) <;> simp [hu]
  · have hunit : (decide (localUnit (s.winBase w.toNat) = .none) ||
        decide (localUnit (s.winBase w.toNat) ≠ Target.unit (.map al off))) = true := by simp [hu, Target.unit]
    rw [if_pos hunit, if_pos (by simp [hu])]

/-- A write whose window refuses it is not applied, and the window's counter advances. -/
theorem State.writeAt_refused {al : Alias} (ht : s.target src a = .map al off)
    (hb : s.bankServes (off / 0x80000) = true) (hs : syncArea off d.length = false) (hw : w.toNat < 4096) {st : St}
    (hc : s.winCheck src (.map al off) (normalLocal (a.toNat % 2 ^ 48)) d.length w e = st) (hne : st ≠ ST_OK) :
    s.writeAt src a d w e = (st, s.inc (ARB_WIN_REJ w.toNat)) := by
  rw [State.writeAt, ht, State.regionCheck_map _ true hs, if_neg (by simp), State.bankRefuses_map, hb, if_neg (by simp),
    hc]
  exact (if_pos hne).trans (by rw [State.countWinRej, if_pos hw])

/-- A write that its window takes is a write without one. -/
theorem State.writeAt_taken
    (hc : s.winCheck src (s.target src a) (normalLocal (a.toNat % 2 ^ 48)) d.length w e = ST_OK) :
    s.writeAt src a d w e = s.writeAt src a d 0xFFFF 0 := by
  have hnone : s.winCheck src (s.target src a) (normalLocal (a.toNat % 2 ^ 48)) d.length 0xFFFF 0 = ST_OK := rfl
  unfold State.writeAt
  dsimp only
  rw [hc, hnone]
  simp only [ne_eq, not_true_eq_false, if_false]

/-- A write request to memory in a quiet fabric, with any window id. -/
theorem exec_meshWrite_window {st : St} {u : State} (hq : FabricQuiet s) (hline : lineOk a.toNat d.length = true)
    (ht : s.target src a = .map .normal off) (hw : s.writeAt src a d w e = (st, u)) (hu : FabricQuiet u) :
    exec (.meshWrite src a d w e) s = .next (u.replied src a { st := st }) := by
  have hop : s.writeOp src a d w e = .write d w e := by simp [State.writeOp, ht]
  change execMeshWrite src a d w e s = _
  rw [execMeshWrite, if_pos hline, State.meshWriteOp_of_memory _ _ (by simp [ht]), hop,
    State.memRequest_of_quiet hq (State.perform_write hw) hu, State.hostFree_of_quiet hu.replied]

/-- The windows' counters are not the log's. -/
theorem elogReg_winRej (k : Nat) : elogReg (ARB_WIN_REJ k) = false := by
  simp [elogReg, ARB_WIN_REJ, GLB_ELOG_WR, GLB_ELOG_LOST, GLB_ELOG_ENT]
  omega

end WindowWrite

end Sys2Proof.Machine

namespace Sys2Proof

open Sys2Proof.Machine

/-- A refused write is answered with the status of the check that it failed. -/
theorem winRej_replied (s : State) (src k : Nat) (a : BitVec 64) (st : St) :
    let t := (s.inc (ARB_WIN_REJ k)).replied src a { st := st }
    t.reply.st = st ∧ SameBytes s t ∧ OnlyRegs (fun o => o = ARB_WIN_REJ k) s t ∧
      (t.rd (ARB_WIN_REJ k)).toNat = min 0xFFFFFFFF ((s.rd (ARB_WIN_REJ k)).toNat + 1) := by
  refine ⟨by simp, .replied (.of_mems rfl), (s.inc_regs _).replied, ?_⟩
  rw [State.replied_rd _ _ _ _ (elogReg_winRej k), State.inc_count]

/-- Settles O10: OPEN, CLOSE and the end of BUSY by the fields that they set, a write by its chain of checks. -/
theorem windows : Obligations.Windows := by
  refine ⟨⟨fun w s hfits => ?opened, fun w s hopen => ?closed, fun w s => ?both, fun w s hc hr hg => ?drained⟩,
    fun src off d w e s hq hoff hline hserve hsync hpart hw => ?write⟩
  case opened =>
    have hregs : OnlyRegs (fun o => o = ARB_WIN_CTL w.val) s (s.answer ST_OK) := (OnlyRegs.refl s _).answer
    refine ⟨_, exec_windowOpen_fits hfits, ?_, State.fld_setF_same _ _ _ (by simp), rfl,
      (hregs.setF 1 rfl).setF _ rfl, .of_mems rfl, rfl, rfl, rfl, rfl, rfl⟩
    rw [State.fld_setF_other _ _ _ _ (by simp), State.fld_setF_same _ _ _ (by simp)]
    rfl
  case closed =>
    have hregs : OnlyRegs (fun o => o = ARB_WIN_CTL w.val) s (s.answer ST_OK) := (OnlyRegs.refl s _).answer
    refine ⟨_, exec_windowClose_open hopen, ?state, ?busy, ?epoch, fun o ho hc => ?regs, .of_mems rfl,
      rfl, rfl, rfl, rfl, rfl⟩
    case state =>
      rw [State.winClosed_fld, State.fld_setF_other _ _ _ _ (by simp), State.fld_setF_same _ _ _ (by simp)]
      rfl
    case busy =>
      rw [State.winClosed_fld, State.fld_setF_same _ _ _ (by simp)]
      rfl
    case epoch =>
      rw [State.winClosed_fld, State.fld_setF_other _ _ _ _ (by simp), State.fld_setF_other _ _ _ _ (by simp)]
      rfl
    case regs =>
      rw [State.winClosed_rd]
      exact ((hregs.setF (F := ARB_WIN_CTL_STATE w.val) 0 rfl).setF (F := ARB_WIN_CTL_BUSY w.val) 1 rfl) o ho hc
  case both =>
    have hregs : OnlyRegs (fun o => o = ARB_WIN_CTL w.val) s (s.answer ST_OK) := (OnlyRegs.refl s _).answer
    exact ⟨_, exec_windowClose_both, State.fld_setF_same _ _ _ (by simp), State.fld_setF_other _ _ _ _ (by simp),
      State.fld_setF_other _ _ _ _ (by simp), hregs.setF 1 rfl, .of_mems rfl, rfl, rfl, rfl, rfl, rfl⟩
  case drained =>
    have hregs : OnlyRegs (fun o => o = ARB_WIN_CTL w.val) s (s.setF (ARB_WIN_CTL_BUSY w.val) 0) :=
      (OnlyRegs.refl s _).setF 0 rfl
    exact ⟨_, exec_windowCloseDrained_quiet hc hr hg, State.fld_setF_same s _ _ (by simp),
      (kget_kdel ..).trans (if_pos rfl), hregs, .of_mems rfl, rfl, rfl, rfl, rfl, rfl⟩
  case write =>
    intro owned right inside c refused
    have ht := s.target_normal src hoff
    have hl : normalLocal ((aliasAddr 0x10000000 off).toNat % 2 ^ 48) = 0x10000000 + off := by
      rw [(aliasAddr_chip_local (by omega)).2, normalLocal, if_neg (by simp; omega), if_neg (by simp; omega)]
    have hcheck := s.winCheck_map (src := src) (off := off) (n := d.length) (e := e) hq.1 hw .normal (0x10000000 + off)
    have hrefuse : ∀ st, s.winCheck src (.map .normal off) (0x10000000 + off) d.length w e = st → st ≠ ST_OK →
        Completes c s (refused st) := fun st hst hne =>
      ⟨_, exec_meshWrite_window hq ((lineOk_normal hoff _).trans hline) ht
        (State.writeAt_refused ht hserve hsync hw (by rw [hl]; exact hst) hne) hq, winRej_replied s src w.toNat _ st⟩
    have hown : (localUnit (s.winBase w.toNat) == .bank (off / 0x80000) && s.flag (ARB_WIN_CTL_STATE w.toNat)) = owned :=
      rfl
    refine ⟨fun ho => hrefuse _ ?closed (by decide), fun ho hr => hrefuse _ ?epoch (by decide),
      fun ho hr hi => hrefuse _ ?outside (by decide), fun ho hr hi => ?taken⟩
    case closed => rw [hcheck, if_pos (hown.trans ho)]
    case epoch =>
      have hepoch : s.fld (ARB_WIN_CTL_EPOCH w.toNat) ≠ e.toNat := by simpa [right] using hr
      rw [hcheck, hown, ho, if_neg (by simp), if_pos hepoch]
    case outside =>
      have hepoch : s.fld (ARB_WIN_CTL_EPOCH w.toNat) = e.toNat := by simpa [right] using hr
      have hrange : ¬ (s.winBase w.toNat ≤ 0x10000000 + off ∧
          0x10000000 + off + d.length ≤ s.winBase w.toNat + s.winSize w.toNat) := by simpa [inside] using hi
      rw [hcheck, hown, ho, if_neg (by simp), if_neg (not_not_intro hepoch), if_neg hrange]
    case taken =>
      have hepoch : s.fld (ARB_WIN_CTL_EPOCH w.toNat) = e.toNat := by simpa [right] using hr
      have hrange : s.winBase w.toNat ≤ 0x10000000 + off ∧
          0x10000000 + off + d.length ≤ s.winBase w.toNat + s.winSize w.toNat := by simpa [inside] using hi
      rw [hown, ho, if_neg (by simp), if_neg (not_not_intro hepoch), if_pos hrange, ← hl, ← ht] at hcheck
      have hwrite := State.writeAt_map (s := s) 0 ht hserve hsync hpart (by simp)
      obtain ⟨hbytes, hbut, hunits, hregs⟩ :=
        s.mapWritten_replied src .normal off d (aliasAddr 0x10000000 off) { st := ST_OK }
      exact ⟨_, exec_meshWrite_window hq ((lineOk_normal hoff _).trans hline) ht
        ((State.writeAt_taken hcheck).trans hwrite) hq, by simp, hbytes, hbut, hunits, hregs⟩

end Sys2Proof

/-! PROOF. Class words (R154) and clasps: opening, waiting, refusal and timeout (R155, log entry 125). -/

namespace Sys2Proof.Machine

section Clasps

variable {s : State} {src beats off : Nat} {a : BitVec 64}

theorem exec_arbClassWrite_scp (k : Fin 260) (v : Word) :
    exec (.arbClassWrite mSCP k v) s = .next ((s.wr (ARB_CLASS k.val) v).answer ST_OK) := rfl

/-! ### What a waiting request changes -/

/-- Register updates for each of a list keep everything but the registers. -/
theorem State.setRaised_keeps {P : State → Prop} (hP : ∀ u F v, P u → P (u.setF F v)) (s : State) (l : List Req)
    (h : P { s with fab := { s.fab with raised := l } }) : P (s.setRaised l) :=
  State.each_keeps (fun u _ hu => hP u _ _ hu) _ h

theorem State.conflict_keeps {P : State → Prop} (hP : ∀ u o, P u → P (u.inc o)) (s : State) (ms : List Nat) (h : P s) :
    P (s.conflict ms) := State.each_keeps (fun u _ hu => hP u _ hu) _ h

/-- A request that waits: the fabric has it, and registers change besides. -/
theorem State.raised_frame (s : State) (l : List Req) (ms : List Nat) :
    let t := (s.setRaised l).conflict ms
    t.fab.clasps = s.fab.clasps ∧ t.fab.raised = l ∧ SameBytes s t ∧ SameUnits s t := by
  have h : ∀ P : State → Prop, (∀ u F v, P u → P (u.setF F v)) → (∀ u o, P u → P (u.inc o)) →
      P { s with fab := { s.fab with raised := l } } → P ((s.setRaised l).conflict ms) := fun P hF hi h0 =>
    State.conflict_keeps hi _ ms (State.setRaised_keeps hF s l h0)
  exact ⟨h (fun t => t.fab.clasps = s.fab.clasps) (fun _ _ _ hu => hu) (fun _ _ hu => hu) rfl,
    h (fun t => t.fab.raised = l) (fun _ _ _ hu => hu) (fun _ _ hu => hu) rfl,
    h (SameBytes s) (fun _ _ _ hu => hu) (fun _ _ hu => hu) (.of_mems rfl),
    h (SameUnits s) (fun _ _ _ hu => hu) (fun _ _ hu => hu) ⟨rfl, rfl, rfl, rfl, rfl⟩⟩

/-! ### CLASP_OPEN -/

section Open

variable (hm : claspMaster src = true) (hlo : 1 ≤ beats) (hhi : beats ≤ 16)

include hm hlo hhi

/-- A clasp for a bank that serves, by a master that holds none: it opens unless it is blocked. -/
theorem exec_claspOpen_bank (hoff : off < 0x8000000) (hb : s.bankServes (off / 0x80000) = true)
    (hfree : s.holdsClasp src = false) :
    exec (.claspOpen src (aliasAddr 0x10000000 off) beats) s = .next
      (if s.blocked src (some (.bank (off / 0x80000))) then
        (s.setRaised (s.fab.raised ++ [⟨src, aliasAddr 0x10000000 off, .clasp beats, 0, none⟩])).conflict [src]
      else ((s.granted (.bank (off / 0x80000)) src).openClasp (.bank (off / 0x80000)) src beats
        (aliasAddr 0x10000000 off)).answer ST_OK) := by
  have hok : ¬ (decide (beats = 0) || decide (16 < beats) || !claspMaster src) = true := by
    simp [hm]
    omega
  change execClaspOpen src (aliasAddr 0x10000000 off) beats s = _
  rw [execClaspOpen, if_neg hok, if_neg (by simp [hfree]), s.target_normal src hoff]
  simp only [resourceOf, Resource.claspable, State.bankRefuses, hb, Bool.not_true, Bool.false_eq_true, if_false]
  exact (apply_ite Host.Outcome.next ..).symm

/-- A master has one clasp. -/
theorem exec_claspOpen_held (hheld : s.holdsClasp src = true) :
    exec (.claspOpen src a beats) s = .next (s.answer ST_BAD_STATE) := by
  have hok : ¬ (decide (beats = 0) || decide (16 < beats) || !claspMaster src) = true := by
    simp [hm]
    omega
  change execClaspOpen src a beats s = _
  rw [execClaspOpen, if_neg hok, if_pos hheld]

end Open

/-! ### CLASP_TIMEOUT -/

/-- The state that the end of the only clasp leaves, in which no request waits. -/
def State.claspEnded (s : State) (c : Clasp) : State :=
  (({ s with fab := { s.fab with
      clasps := []
      answered := s.fab.answered ++ List.replicate c.left (c.owner, { st := ST_CLASP_TIMEOUT }) } } : State).setF
    ARB_CLASP_STAT_MASTER c.owner).incF ARB_CLASP_STAT_COUNT 1

theorem exec_claspTimeout_only {c : Clasp} (hc : s.fab.clasps = [c]) (hr : s.fab.raised = [])
    (hh : s.reset_.heldHost = []) : exec (.claspTimeout c.owner) s = .next (s.claspEnded c) := by
  have hquiet : FabricQuiet (s.claspEnded c) := ⟨rfl, hr, hh⟩
  change execClaspTimeout c.owner s = _
  have hexec : execClaspTimeout c.owner s = .next ((s.claspEnded c).serve c.res).hostFree := by
    simp [execClaspTimeout, hc, State.claspEnded]
  rw [hexec, State.serve_of_none (s := s.claspEnded c) hr, State.hostFree_of_quiet hquiet]

end Clasps

end Sys2Proof.Machine

namespace Sys2Proof

open Sys2Proof.Machine

/-- Settles O11: by what holds up the clasp, an own one, another master's, or nothing. -/
theorem classesAndClasps : Obligations.ClassesAndClasps := by
  refine ⟨fun k v s => ?word, fun src off beats s hm hlo hhi hoff hb hr => ⟨fun hc => ?free, fun c hc hres ho => ?waits⟩,
    fun src a beats c s hm hlo hhi hc ho => ?held, fun c s hc hr hh => ?timeout⟩
  case word =>
    have hregs : OnlyRegs (fun o => o = ARB_CLASS k.val) s s := .refl s _
    exact ⟨_, exec_arbClassWrite_scp k v, s.rd_wr_same .., rfl, (hregs.wr v rfl).answer, .of_mems rfl,
      rfl, rfl, rfl, rfl, rfl⟩
  case free =>
    have hnone : s.holdsClasp src = false := by simp [State.holdsClasp, hc]
    have hopen := exec_claspOpen_bank hm hlo hhi hoff hb hnone
    rw [if_neg (by simp [State.blocked, State.claspedFrom, State.claspOn, hc, hr])] at hopen
    refine ⟨_, hopen, ?_, rfl, rfl, .of_mems rfl, rfl, rfl, rfl, rfl, rfl⟩
    simp [State.openClasp, State.granted, hc]
  case waits =>
    have hnone : s.holdsClasp src = false := by simp [State.holdsClasp, hc, ho]
    have hopen := exec_claspOpen_bank hm hlo hhi hoff hb hnone
    rw [if_pos (by simp [State.blocked, State.claspedFrom, State.claspOn, hc, hres, ho])] at hopen
    obtain ⟨hclasps, hraised, hbytes, hunits⟩ := s.raised_frame
      (s.fab.raised ++ [⟨src, aliasAddr 0x10000000 off, .clasp beats, 0, none⟩]) [src]
    exact ⟨_, hopen, hclasps.trans hc, hraised.trans (by rw [hr]; rfl), hbytes, hunits⟩
  case held =>
    exact ⟨_, exec_claspOpen_held hm hlo hhi (List.any_eq_true.2 ⟨c, hc, by simp [ho]⟩), rfl, rfl⟩
  case timeout =>
    refine ⟨_, exec_claspTimeout_only hc hr hh, rfl, rfl, ?master, ?count, ?regs, .of_mems rfl, rfl, rfl, rfl, rfl, rfl⟩
    case master =>
      rw [State.claspEnded, State.incF, State.fld_setF_other _ _ _ _ (by simp), State.fld_setF_same _ _ _ (by simp)]
      rfl
    case count =>
      rw [State.claspEnded, State.incF, State.fld_setF_same _ _ _ (by simp), State.fld_setF_other _ _ _ _ (by simp)]
      exact Nat.mod_eq_of_lt (Nat.lt_of_le_of_lt (Nat.min_le_left ..) (by decide))
    case regs =>
      have hregs : OnlyRegs (fun o => o = ARB_CLASP_STAT) s { s with fab := { s.fab with
        clasps := []
        answered := s.fab.answered ++ List.replicate c.left (c.owner, { st := ST_CLASP_TIMEOUT }) } } := fun _ _ _ => rfl
      exact (hregs.setF _ rfl).setF _ rfl

end Sys2Proof

/-! PROOF. Map banks: requests for a state, draining, transitions and the patrol scrubber (R138, R140, R141, R143). -/

namespace Sys2Proof.Machine

/-! ### A range that loses its contents -/

theorem lookup_filter_key (keep : Nat → Bool) (l : List Host.Cell) (a : Nat) :
    (l.filter fun p => keep p.1).lookup a = if keep a then l.lookup a else none := by
  induction l with
  | nil => simp
  | cons p l ih => by_cases hp : keep p.1 = true <;> grind [lookup_cons]

/-- Where nothing is open, a range that loses its contents reads as zero, and other bytes as before. -/
theorem Memory.byte_zero {m : Memory} (h : m.fresh = []) (w base len a : Nat) :
    (m.zero w base len).byte a = if base ≤ a ∧ a < base + len then 0 else m.byte a := by
  have hcells : (m.zero w base len).cells.lookup a =
      if !(base ≤ a && a < base + len) then m.cells.lookup a else none :=
    lookup_filter_key (fun x => !(base ≤ x && x < base + len)) m.cells a
  have hblank : ∀ u : Memory, u.fresh = [] → u.blank a = 0 := fun u hu => by simp [Memory.blank, hu]
  have hfresh : (m.zero w base len).fresh = [] := by simp [Memory.zero, Memory.outside, h]
  rw [Memory.byte_eq, Memory.byte_eq, hcells, hblank _ hfresh, hblank _ h]
  by_cases hin : base ≤ a ∧ a < base + len
  · have hkeep : (!(decide (base ≤ a) && decide (a < base + len))) = false := by simp [hin]
    rw [hkeep, if_pos hin]
    rfl
  · have hkeep : (!(decide (base ≤ a) && decide (a < base + len))) = true := by
      simp
      omega
    rw [hkeep, if_neg hin, if_pos rfl]

/-- A word's ECC state is set; the others stay. -/
theorem Memory.bad_setBad (m : Memory) (k j : Nat) : (m.setBad k true).bad j = if k = j then true else m.bad j :=
  kget_kput ..

/-! ### The motion and the status of a bank -/

section BankState

variable (s : State) (b : Nat)

theorem State.bankMove_setMove (m : BankMove) : (s.setMove b m).bankMove b = m := kget_kput_same ..

@[simp] theorem State.setMove_fld (m : BankMove) (F : Fld) : (s.setMove b m).fld F = s.fld F := rfl

theorem State.bankState_setF {v : Nat} (hv : v < 8) : (s.setF (MM_STATUS_STATE b) v).bankState b = v :=
  (s.fld_setF_same _ _ (by simp)).trans (Nat.mod_eq_of_lt hv)

/-- The last status does not touch the state. -/
theorem State.bankState_lastSt (st : St) : (s.lastSt b st).bankState b = s.bankState b :=
  s.fld_setF_other _ _ _ (by simp)

theorem State.lastSt_status (st : St) : (s.lastSt b st).fld (MM_STATUS_LAST_ST b) = st.toNat :=
  (s.fld_setF_same _ _ (by simp)).trans (Nat.mod_eq_of_lt st.isLt)

/-- The state does not touch the last status. -/
theorem State.status_setState (v : Nat) :
    (s.setF (MM_STATUS_STATE b) v).fld (MM_STATUS_LAST_ST b) = s.fld (MM_STATUS_LAST_ST b) :=
  s.fld_setF_other _ _ _ (by simp)

end BankState

/-- What a request changes, whatever it sets in motion: the bank's control and status registers. -/
def BankFrame (b : Nat) (s t : State) : Prop :=
  t.fld (MM_STATUS_LAST_ST b) = ST_OK.toNat ∧ SameBytes s t ∧ SameUnits s t ∧
    OnlyRegs (fun o => o = MM_CTL b ∨ o = MM_STATUS b) s t

section Request

variable {s : State} {b : Fin 256} {req : Nat}

/-- A request of the SCP for a bank of map memory that is not in motion is applied. -/
theorem State.bankReq_applied (hb : b.val < 248) (hm : s.bankMove b.val = .none) (h3 : req ≠ 3)
    (hoff : ¬ (req = bankRET ∧ s.bankState b.val = bankOFF)) :
    s.bankReq mSCP b.val req = (s.answer ST_OK).bankApply mSCP b.val req := by
  have hoff' : ¬ (decide (req = bankRET) && decide (s.bankState b.val = bankOFF)) = true := by simpa using hoff
  have hm' : ¬ (s.answer ST_OK).bankMove b.val ≠ .none := not_not_intro hm
  rw [State.bankReq, if_neg (by simp)]
  exact (if_neg h3).trans ((if_neg (Nat.not_le.2 hb)).trans ((if_neg hm').trans (if_neg hoff')))

/-- What an applied request sets before the bank moves: the requested state and the last status. -/
def State.bankAsked (s : State) (b req : Nat) : State :=
  ((s.answer ST_OK).setF (MM_CTL_REQ b) req).lastSt b ST_OK

theorem State.bankAsked_frame (s : State) (b req : Nat) : BankFrame b s (s.bankAsked b req) :=
  ⟨State.lastSt_status .., .of_mems rfl, ⟨rfl, rfl, rfl, rfl, rfl⟩,
    ((OnlyRegs.refl s _).answer.setF _ (.inl rfl)).setF _ (.inr rfl)⟩

theorem BankFrame.inMotion {s t : State} {b : Nat} (h : BankFrame b s t) (m : BankMove) : BankFrame b s (t.setMove b m) :=
  h

/-- A frame holds on through a new state of the bank and a new motion. -/
theorem BankFrame.moved {s t : State} {b : Nat} (h : BankFrame b s t) (v : Nat) (m : BankMove) :
    BankFrame b s ((t.setF (MM_STATUS_STATE b) v).setMove b m) := by
  obtain ⟨hst, hbytes, hunits, hregs⟩ := h
  have hset : BankFrame b s (t.setF (MM_STATUS_STATE b) v) :=
    ⟨(State.status_setState ..).trans hst, hbytes, hunits, hregs.setF v (.inr rfl)⟩
  exact hset.inMotion m

/-- The power domains are none of the banks' registers. -/
theorem BankFrame.setPower {s t : State} {b : Nat} (h : BankFrame b s t) (p : PowerSt) : BankFrame b s (t.setPower p) := h

theorem State.setPower_bankState (s : State) (p : PowerSt) (b : Nat) : (s.setPower p).bankState b = s.bankState b := rfl

theorem State.setPower_bankMove (s : State) (p : PowerSt) (b : Nat) : (s.setPower p).bankMove b = s.bankMove b := rfl

theorem State.setMove_bankState (s : State) (b : Nat) (m : BankMove) (c : Nat) :
    (s.setMove b m).bankState c = s.bankState c := rfl

/-- RETENTION or OFF for an ON bank: it drains. -/
theorem State.bankApply_drain (hst : s.bankState b.val = bankON) (hreq : req ≠ bankON) :
    (s.answer ST_OK).bankApply mSCP b.val req = (((s.bankAsked b.val req).setF (MM_STATUS_STATE b.val) bankDRAIN).setMove
      b.val (.drain (req = bankOFF) s.now mSCP)) := by
  have hst' : (s.answer ST_OK).bankState b.val = bankON := hst
  rw [State.bankApply, hst']
  exact (if_neg hreq).trans ((if_neg hreq).trans (if_pos rfl))

/-- ON for a bank in RETENTION. -/
theorem State.bankApply_toOn (hst : s.bankState b.val = bankRET) :
    (s.answer ST_OK).bankApply mSCP b.val bankON = (s.bankAsked b.val bankON).setMove b.val .toOn := by
  have hst' : (s.answer ST_OK).bankState b.val = bankRET := hst
  rw [State.bankApply, hst']
  exact (if_neg (by decide)).trans ((if_pos rfl).trans (if_pos rfl))

/-- ON for an OFF bank: its group's power domain is switched on and it wakes. -/
theorem State.bankApply_wake (hst : s.bankState b.val = bankOFF) :
    (s.answer ST_OK).bankApply mSCP b.val bankON =
      let u := ((s.bankAsked b.val bankON).setF (MM_STATUS_STATE b.val) bankWAKE).setMove b.val .waking
      u.setPower { u.power with other := kput (50 + b.val / 32) false u.power.other } := by
  have hst' : (s.answer ST_OK).bankState b.val = bankOFF := hst
  rw [State.bankApply, hst']
  exact (if_neg (by decide)).trans ((if_pos rfl).trans (if_neg (by decide)))

end Request

/-! ### The end of a motion -/

section Motion

variable {s : State} {b : Fin 256}

theorem exec_bankDrained_empty {off : Bool} {since src : Nat} (hm : s.bankMove b.val = .drain off since src)
    (he : s.bankEmpty b.val = true) :
    exec (.bankDrained b) s = .next ((s.setF (MM_STATUS_STATE b.val) (if off then bankOFF else bankRET)).setMove b.val
      (if off then .toOff else .toRetention)) := by
  change execBankDrained b s = _
  cases off <;> simp [execBankDrained, hm, he]

/-- The state that a drain which took too long leaves, before the refusal is logged and answered. -/
def State.bankKept (s : State) (b : Nat) : State :=
  ((s.setF (MM_STATUS_STATE b) bankON).setMove b .none).lastSt b ST_BANK_BUSY

theorem State.bankKept_frame (s : State) (b : Nat) :
    (s.bankKept b).bankMove b = .none ∧ (s.bankKept b).bankState b = bankON ∧
      (s.bankKept b).fld (MM_STATUS_LAST_ST b) = ST_BANK_BUSY.toNat ∧
      OnlyRegs (fun o => o = MM_STATUS b) s (s.bankKept b) ∧ SameBytes s (s.bankKept b) ∧
      SameUnits s (s.bankKept b) := by
  have hregs : OnlyRegs (fun o => o = MM_STATUS b) s ((s.setF (MM_STATUS_STATE b) bankON).setMove b .none) :=
    (OnlyRegs.refl s _).setF (F := MM_STATUS_STATE b) _ rfl
  refine ⟨kget_kput_same .., ?_, State.lastSt_status .., hregs.setF _ rfl, .of_mems rfl, rfl, rfl, rfl, rfl, rfl⟩
  rw [State.bankKept, State.bankState_lastSt, State.setMove_bankState, State.bankState_setF _ _ (by decide)]

theorem exec_bankDrainTimeout_busy {off : Bool} {since src : Nat} (hm : s.bankMove b.val = .drain off since src)
    (he : s.bankEmpty b.val = false) (ht : 10000 ≤ sinceNs s.now since) :
    exec (.bankDrainTimeout b) s = .next (((s.bankKept b.val).log ST_BANK_BUSY src EV_REQUEST_REFUSED 0xFFFF
      (BitVec.ofNat 64 (MM_CTL b.val))).answerLater src { st := ST_BANK_BUSY }) := by
  change execBankDrainTimeout b s = _
  simp only [execBankDrainTimeout, hm, he, Nat.not_lt.2 ht, decide_false, Bool.or_false, Bool.false_eq_true, if_false]
  rfl

theorem State.answerLater_fld (s : State) (src : Nat) (r : Reply) (F : Fld) : (s.answerLater src r).fld F = s.fld F := rfl

theorem State.answerLater_banks (s : State) (src : Nat) (r : Reply) : (s.answerLater src r).fab.banks = s.fab.banks := rfl

/-- The banks' status registers are not the log's. -/
theorem elogReg_bankStatus (b : Nat) : elogReg (MM_STATUS b) = false := by
  simp [elogReg, MM_STATUS, GLB_ELOG_WR, GLB_ELOG_LOST, GLB_ELOG_ENT]
  omega

theorem State.log_fld {F : Fld} (h : elogReg F.off = false) (s : State) (st : St) (src ev aux : Nat) (a : BitVec 64) :
    (s.log st src ev aux a).fld F = s.fld F := by
  rw [State.fld, State.log_rd _ _ _ _ _ _ _ h, State.fld]

/-- Where nothing is open, the lost contents of a bank read as zero, and no other byte changes. -/
theorem State.bankZero_frame (s : State) (b : Nat) (hf : s.mems.map.fresh = []) :
    (∀ a, a / 0x80000 = b → (s.bankZero b).mems.map.byte a = 0) ∧
      SameBytesBut .map (b * 0x80000) 0x80000 s (s.bankZero b) := by
  have hbyte : ∀ a, (s.bankZero b).mems.map.byte a =
      if b * 0x80000 ≤ a ∧ a < b * 0x80000 + 0x80000 then 0 else s.mems.map.byte a := Memory.byte_zero hf 8 _ _
  refine ⟨fun a ha => (hbyte a).trans (if_pos (by omega)), fun sp a ha => ?_⟩
  cases sp with
  | map => exact (hbyte a).trans (if_neg (by simpa using ha))
  | _ => rfl

/-- Bank `b` is at rest in state `v` without its contents. -/
def BankLost (b v : Nat) (s t : State) : Prop :=
  t.bankState b = v ∧ t.bankMove b = .none ∧ (∀ a, a / 0x80000 = b → t.mems.map.byte a = 0) ∧
    SameBytesBut .map (b * 0x80000) 0x80000 s t ∧ SameUnits s t

/-- A bank that has become OFF, before its group is looked at. -/
def State.bankOff (s : State) (b : Nat) : State :=
  ((s.setF (MM_STATUS_STATE b) bankOFF).setMove b .none).bankZero b

/-- A bank that has woken from OFF. -/
def State.bankWoken (s : State) (b : Nat) : State :=
  ((s.bankZero b).setF (MM_STATUS_STATE b) bankON).setMove b .none

theorem State.bankZero_bankState (s : State) (b c : Nat) : (s.bankZero b).bankState c = s.bankState c := rfl

theorem State.bankOff_lost (s : State) (b : Nat) (hf : s.mems.map.fresh = []) : BankLost b bankOFF s (s.bankOff b) := by
  have hsame : SameBytes s ((s.setF (MM_STATUS_STATE b) bankOFF).setMove b .none) := .of_mems rfl
  obtain ⟨hzero, hbut⟩ := ((s.setF (MM_STATUS_STATE b) bankOFF).setMove b .none).bankZero_frame b hf
  refine ⟨?_, kget_kput_same .., hzero, fun sp a ha => (hbut sp a ha).trans (hsame sp a), rfl, rfl, rfl, rfl, rfl⟩
  rw [State.bankOff, State.bankZero_bankState, State.setMove_bankState, State.bankState_setF _ _ (by decide)]

theorem State.bankWoken_lost (s : State) (b : Nat) (hf : s.mems.map.fresh = []) :
    BankLost b bankON s (s.bankWoken b) := by
  have hsame : SameBytes (s.bankZero b) (s.bankWoken b) := .of_mems rfl
  obtain ⟨hzero, hbut⟩ := s.bankZero_frame b hf
  refine ⟨?_, kget_kput_same .., fun a ha => (hsame .map a).trans (hzero a ha),
    fun sp a ha => (hsame sp a).trans (hbut sp a ha), rfl, rfl, rfl, rfl, rfl⟩
  rw [State.bankWoken, State.setMove_bankState, State.bankState_setF _ _ (by decide)]

/-- The group's power domain follows its banks; nothing else does. -/
theorem State.groupCheck_keeps {P : State → Prop} (hP : ∀ u p, P u → P { u with power := p }) (s : State) (b : Nat)
    (h : P s) : P (s.groupCheck b) := by
  unfold State.groupCheck
  dsimp only
  split
  · exact hP _ _ h
  · exact h

end Motion

end Sys2Proof.Machine

namespace Sys2Proof

open Sys2Proof.Machine

/-! An answer that is kept for its source changes no register, no memory, no unit and no bank. -/

theorem OnlyRegs.answerLater {s t : State} {chg : Nat → Prop} (h : OnlyRegs chg s t) {src : Nat} {r : Reply} :
    OnlyRegs chg s (t.answerLater src r) := h

theorem SameBytes.answerLater {s t : State} (h : SameBytes s t) {src : Nat} {r : Reply} :
    SameBytes s (t.answerLater src r) := h

theorem SameUnits.answerLater {s t : State} (h : SameUnits s t) {src : Nat} {r : Reply} :
    SameUnits s (t.answerLater src r) := h

/-- Settles O12: a request by the state the bank is in, a motion by the one it completes. -/
theorem banks : Obligations.Banks := by
  refine ⟨fun b s hb hm => ?requests,
    ⟨fun b off since src s hm he => ?drained, fun b off since src s hm he ht => ?busy,
      fun b m s hm hcase hf => ?lost, fun b m s hm hcase => ?kept⟩,
    fun b word s hon => ⟨?corrected, ?uncorrected⟩⟩
  case requests =>
    intro frame
    have hasked : ∀ req, BankFrame b.val s (s.bankAsked b.val req) := s.bankAsked_frame b.val
    refine ⟨fun hst => ?retention, fun hst => ?off, fun hst => ?wake, fun hst => ?toOn⟩
    case retention =>
      have hreq := (State.bankReq_applied hb hm (by decide) (by simp [hst])).trans
        (State.bankApply_drain (req := bankRET) hst (by decide))
      refine ⟨_, congrArg Host.Outcome.next hreq, ?_, ?_, (hasked _).moved ..⟩
      · rw [State.setMove_bankState, State.bankState_setF _ _ (by decide)]
      · rw [State.bankMove_setMove]
        rfl
    case off =>
      have hreq := (State.bankReq_applied hb hm (by decide) (by simp [hst])).trans
        (State.bankApply_drain (req := bankOFF) hst (by decide))
      refine ⟨_, congrArg Host.Outcome.next hreq, ?_, ?_, (hasked _).moved ..⟩
      · rw [State.setMove_bankState, State.bankState_setF _ _ (by decide)]
      · rw [State.bankMove_setMove]
        rfl
    case wake =>
      have hreq := (State.bankReq_applied hb hm (by decide) (by simp)).trans (State.bankApply_wake hst)
      refine ⟨_, congrArg Host.Outcome.next hreq, ?_, ?_, ((hasked bankON).moved bankWAKE .waking).setPower _⟩
      · rw [State.setPower_bankState, State.setMove_bankState, State.bankState_setF _ _ (by decide)]
      · rw [State.setPower_bankMove, State.bankMove_setMove]
    case toOn =>
      have hreq := (State.bankReq_applied hb hm (by decide) (by simp)).trans (State.bankApply_toOn hst)
      refine ⟨_, congrArg Host.Outcome.next hreq, ?_, (hasked _).inMotion _⟩
      rw [State.bankMove_setMove]
  case drained =>
    have hregs : OnlyRegs (fun o => o = MM_STATUS b.val) s s := .refl s _
    refine ⟨_, exec_bankDrained_empty hm he, ?_, State.bankMove_setMove .., hregs.setF _ rfl, .of_mems rfl,
      rfl, rfl, rfl, rfl, rfl⟩
    exact State.bankState_setF _ _ (by split <;> decide)
  case busy =>
    obtain ⟨hmove, hstate, hst, hregs, hbytes, hunits⟩ := s.bankKept_frame b.val
    refine ⟨_, exec_bankDrainTimeout_busy hm he ht, ?state, ?move, ?status, hregs.log.answerLater,
      hbytes.log.answerLater, hunits.log.answerLater⟩
    case state =>
      rw [State.bankState, State.answerLater_fld, State.log_fld (elogReg_bankStatus b.val), ← State.bankState, hstate]
    case move => rw [State.bankMove, State.answerLater_banks, State.log_fab, ← State.bankMove, hmove]
    case status => rw [State.answerLater_fld, State.log_fld (elogReg_bankStatus b.val), hst]
  case lost =>
    obtain rfl | rfl := hcase
    · have hexec : exec (.bankTransitionComplete b) s = .next ((s.bankOff b.val).groupCheck b.val) := by
        change execBankTransitionComplete b s = _
        simp only [execBankTransitionComplete, hm]
        rfl
      exact ⟨_, hexec, State.groupCheck_keeps (fun _ _ h => h) _ _ (s.bankOff_lost b.val hf)⟩
    · have hexec : exec (.bankTransitionComplete b) s = .next (s.bankWoken b.val) := by
        change execBankTransitionComplete b s = _
        simp only [execBankTransitionComplete, hm]
        rfl
      exact ⟨_, hexec, s.bankWoken_lost b.val hf⟩
  case kept =>
    have hregs : OnlyRegs (fun o => o = MM_STATUS b.val) s s := .refl s _
    obtain rfl | rfl := hcase
    · have hexec : exec (.bankTransitionComplete b) s =
          .next ((s.setF (MM_STATUS_STATE b.val) bankON).setMove b.val .none) := by
        change execBankTransitionComplete b s = _
        simp only [execBankTransitionComplete, hm]
      exact ⟨_, hexec, State.bankState_setF _ _ (by decide), State.bankMove_setMove .., hregs.setF _ rfl, .of_mems rfl,
        rfl, rfl, rfl, rfl, rfl⟩
    · have hexec : exec (.bankTransitionComplete b) s = .next (s.setMove b.val .none) := by
        change execBankTransitionComplete b s = _
        simp only [execBankTransitionComplete, hm]
      exact ⟨_, hexec, rfl, State.bankMove_setMove .., hregs, .of_mems rfl, rfl, rfl, rfl, rfl, rfl⟩
  case corrected =>
    have hexec : exec (.patrolScrub b word .corrected) s = .next (s.inc (MM_ECC b.val)) :=
      if_neg (not_not_intro hon)
    exact ⟨_, hexec, s.inc_count _, s.inc_regs _, .of_mems rfl, rfl, rfl, rfl, rfl, rfl⟩
  case uncorrected =>
    have hexec : exec (.patrolScrub b word .uncorrected) s =
        .next (s.setMem .map (s.mems.map.setBad (b.val * 0x10000 + word.val) true)) := if_neg (not_not_intro hon)
    refine ⟨_, hexec, (Memory.bad_setBad ..).trans (if_pos rfl),
      fun k hk => (Memory.bad_setBad ..).trans (if_neg hk.symm), rfl, fun sp a => ?_, rfl, rfl, rfl, rfl, rfl⟩
    cases sp <;> rfl

end Sys2Proof

/-! PROOF. The state reported for a number that names no processor, and the refutation of O53. -/

namespace Sys2Proof.Machine

/-- <GLB_PROC_STAT 0x4008> is the address of MBX_FW. -/
theorem procState_eq_fwStage (s : State) : s.procState 0x4008 = s.fld MBX_FW_STAGE := rfl

/-- The NVM step leaves the stage of the mailbox firmware at 0 after reset. -/
theorem reset_loadDevice_fwStage : State.reset.loadDevice.fld MBX_FW_STAGE = 0 := by
  rw [State.loadDevice_none (State.commitInForce_unwritten (by decide) rfl)]
  decide +kernel

/-- Without an image in either slot no firmware set is accepted (R308). -/
theorem reset_loadDevice_bootSlot : State.reset.loadDevice.bootSlot = none := by
  rw [State.loadDevice_none (State.commitInForce_unwritten (by decide) rfl)]
  decide +kernel

end Sys2Proof.Machine

namespace Sys2Proof

open Machine

/-- Refutes O53: where no firmware set is accepted, the clause for FIRMWARE_SET_LOAD keeps the state of
`p` for every number `p`. Past the three processors the address of GLB_PROC_STAT runs into other
registers: that of 0x4008 is MBX_FW, whose STAGE the command sets to 1. From the reset state, where no
slot holds a set, STAGE goes from 0 to 1. -/
theorem not_resetsAndBoot : ¬ Obligations.ResetsAndBoot := by
  unfold Obligations.ResetsAndBoot
  rintro ⟨-, -, -, -, -, hload, -⟩
  obtain ⟨t, -, hnone, -, -⟩ := hload State.reset rfl rfl
  obtain ⟨hstage, -, hproc, -⟩ := hnone reset_loadDevice_bootSlot
  have hkept : t.fld MBX_FW_STAGE = 0 := by
    rw [← procState_eq_fwStage, hproc, procState_eq_fwStage, reset_loadDevice_fwStage]
  omega

end Sys2Proof
